-- ==== Sys2Proof/Word.lean ====
section
/-!
DEFINITION. Word.lean: the word types of the machine (00 R2, R6): a scalar register, an instruction word, a byte, a
vector register, a mask register, a register field of an instruction word.
-/
namespace Sys2Proof

/-- A scalar register, an address while it is computed, a system register (64 bits). -/
abbrev Word := BitVec 64

/-- One 32-bit instruction word (R28). -/
abbrev IWord := BitVec 32

/-- One byte of memory. -/
abbrev Byte := BitVec 8

/-- A vector register (R10: 512 bits). -/
abbrev Vec := BitVec 512

/-- A 6-bit register field of an instruction word (R34). -/
abbrev Reg := BitVec 6

end Sys2Proof
end

