-- ==== Sys2Proof/Syntax.lean ====
section
/-!
DEFINITION. Syntax.lean: the instructions and the events of the part, one constructor of Instr for each row of
spec/opcode_table.json. Field meanings follow R31 to R37 and R44 (03) and the entry each constructor's comment names.
The second half of the table lists what other agents of the module do (95): what such a row acts on is not in the row but in Args, which the
outside world or the interleaving chooses.
-/
namespace Sys2Proof

/-- Element formats by name (R60, R65, R85); the code 0xF names none. -/
inductive Fmt where
  | f32 | bf16 | f16 | e4 | e5 | f4 | i8 | i4 | bx8e4 | bx8e5 | bx4 | bxi8 | cb2 | f64 | i32
  deriving DecidableEq, Repr

/-- Kinds of FCVT (R50, R96). -/
inductive CvtKind where
  | f32 | f64 | f16 | bf16 | i32 | u32 | i64 | u64
  deriving DecidableEq, Repr

/-- Rounding modes (R72). -/
inductive RMode where
  | rne | rtz | rdn | rup | rna | sr
  deriving DecidableEq, Repr

/-- Access orders (R33, R210): acqrel is the order 0 of ATOM. -/
inductive Order where
  | relaxed | acquire | release | acqrel
  deriving DecidableEq, Repr

/-- Scopes (R185). -/
inductive Scope where
  | core | cluster | device | system
  deriving DecidableEq, Repr

/-- Sizes of LDX, LDI and LDS (R105). -/
inductive LdSize where
  | b | bu | h | hu | w | wu | d
  deriving DecidableEq, Repr

/-- Sizes of STX, STS and ATOM (R105, R210). -/
inductive StSize where
  | b | h | w | d
  deriving DecidableEq, Repr

/-- The condition of BK (R100). -/
inductive MaskCond where
  | any | all | none
  deriving DecidableEq, Repr

/-- The address operands of an LM instruction (R33). -/
structure MemOp where
  a : Reg
  b : Reg
  scale : BitVec 2
  disp : BitVec 22
  deriving DecidableEq, Repr

/-- The fields that the five posting commands share (R240). -/
structure PostOp where
  release : Bool
  uci : Bool
  d : Reg
  a : Reg
  deriving DecidableEq, Repr

/-- What a fabric cell asks of, or answers to, the module it reaches (R254 leaves bits [127:52] of the header to the
fabric: the model's own shape). Addresses are physical addresses of the receiving module (R352). -/
inductive CellKind where
  /-- Write these bytes. -/
  | write (pa : Nat) (data : List Byte)
  /-- Read n bytes. -/
  | read (pa : Nat) (n : Nat)
  /-- Element step of a CRED: M and the source element's bytes. -/
  | cred (op : BitVec 3) (pa : Nat) (data : List Byte)
  /-- Part of a contribution of a rank CRED to the group header at pa: M, rank, ESIZE, the number of its first element and of all elements of the
  contribution, then for each of at most four elements its place in the contribution, its destination and its bytes. -/
  | rank (op : BitVec 3) (pa : Nat) (rank : Nat) (esize : Nat) (base : Nat) (total : Nat) (keys : List Nat) (dsts : List Nat) (data : List Byte)
  /-- CFLAG's write or add. -/
  | flag (add : Bool) (pa : Nat) (v : Word)
  /-- A chained-load packet at step k with address a (R262, R263), with the CHIPID, INCARN and COREID of its origin (R264). A step has 104 bits that are
  not reserved (R261), so that eight of them and the other fields stay within 128 bytes (R254). -/
  | chase (id : Nat) (origin : Nat) (inc : BitVec 16) (coreid : Nat) (k : Nat) (hops : Nat) (addr : Word) (operand : Word) (steps : List (BitVec 128))
  /-- A chain's 16-byte result for the origin and its core (R264). -/
  | chaseResult (id : Nat) (coreid : Nat) (value : Word) (status : Word)
  /-- A count at an object of the receiving module (R249): IN, or OUT, of the barrier object at pa, or bytes into a slot of the ring whose header is there. -/
  | count (inb : Bool) (ring : Bool) (pa : Nat) (n : Nat) (slot : Nat)
  /-- Items of a repartition for another member (R268): tag, the key's rank of the sender and up to 120 bytes of one item from a byte on. -/
  | item (tag : Nat) (rank : Nat) (idx : Nat) (off : Nat) (data : List Byte)
  /-- A module that has left reset says its INCARN, the cell's SRCINC (R258). -/
  | announce
  /-- Acknowledgement or refusal of a request of command id, with the bytes a read returned (R242, R352). -/
  | ack (id : Nat) (idx : Nat) (ok : Bool) (poisoned : Bool) (data : List Byte)
  deriving DecidableEq, Repr

/-- One fabric cell: its identity fields (R254), the command and request it belongs to, its flow, its payload. -/
structure Cell where
  dstId : BitVec 10
  dstInc : BitVec 16
  srcId : BitVec 10
  srcInc : BitVec 16
  part : Nat
  flow : BitVec 8
  cmd : Nat
  idx : Nat
  kind : CellKind
  deriving DecidableEq, Repr

/-- What a member of a repartition on another module brings to the collective (R266 to R269): parameters to compare,
its capacity, and its items as byte lists. -/
structure RepMember where
  tag : Nat
  rank : Nat
  pm1 : Nat
  table : List (BitVec 10)
  isz : Nat
  curve : Nat
  lunit : Bool
  koff : Nat
  loff : Nat
  cap : Nat
  failed : Option Nat
  items : List (List Byte)
  deriving DecidableEq, Repr

/-- The unit an uncorrectable error strikes (R369, R370). -/
inductive ErrSite where
  | memory (key : Nat)
  | scalar (core : Nat) (r : Nat)
  | vector (core : Nat) (r : Nat) (word : Nat)
  | mask (core : Nat) (r : Nat)
  | shadow (core : Nat) (r : Nat)
  deriving DecidableEq, Repr

/-- What an event row acts on: the choices of the interleaving and of the outside world (which core, command, partition, launch, cluster,
team, address, value, bytes). Each event's meaning says which fields it reads; the others do not matter. -/
structure Args where
  core : Nat := 0
  id : Nat := 0
  part : Nat := 0
  lid : Nat := 0
  cluster : Nat := 0
  team : Nat := 0
  addr : Nat := 0
  addr2 : Nat := 0
  n : Nat := 0
  w : Word := 0
  q : Bool := false
  i : Int := 0
  data : List Byte := []
  cell : Option Cell := none
  members : List RepMember := []
  site : Option ErrSite := none
  deriving DecidableEq, Repr

/-- What one core executes (the rows with an encoding) and what the other agents do (the event rows). -/
inductive Instr where
  -- page A, OP 0x00, by F (R101, R239, R362 to R365)
  | trap (code : BitVec 6)
  | gong (a : Reg)
  | gongRelease (a : Reg)
  -- page A, OP 0x01, by F (R89, R90)
  | add (d a b : Reg)
  | sub (d a b : Reg)
  | and (d a b : Reg)
  | or (d a b : Reg)
  | xor (d a b : Reg)
  | andn (d a b : Reg)
  | shl (d a b : Reg)
  | shr (d a b : Reg)
  | sra (d a b : Reg)
  | rol (d a b : Reg)
  | min (d a b : Reg)
  | max (d a b : Reg)
  | minu (d a b : Reg)
  | maxu (d a b : Reg)
  | slt (d a b : Reg)
  | sltu (d a b : Reg)
  | seq (d a b : Reg)
  | mul (d a b : Reg)
  | mulh (d a b : Reg)
  | mulhu (d a b : Reg)
  | div (d a b : Reg)
  | divu (d a b : Reg)
  | rem (d a b : Reg)
  | remu (d a b : Reg)
  | adds (d a b : Reg)
  | subs (d a b : Reg)
  -- page A, OP 0x02, by F (R91)
  | clz (d a : Reg)
  | ctz (d a : Reg)
  | popc (d a : Reg)
  | bswap (d a : Reg)
  -- page A, OP 0x03 to 0x0B (R92)
  | addi (d a : Reg) (imm : BitVec 12)
  | andi (d a : Reg) (imm : BitVec 12)
  | ori (d a : Reg) (imm : BitVec 12)
  | xori (d a : Reg) (imm : BitVec 12)
  | slti (d a : Reg) (imm : BitVec 12)
  | sltiu (d a : Reg) (imm : BitVec 12)
  | shli (d a : Reg) (imm : BitVec 12)
  | shri (d a : Reg) (imm : BitVec 12)
  | srai (d a : Reg) (imm : BitVec 12)
  -- page A, OP 0x0C, 0x0D (R93)
  | li (d : Reg) (imm : BitVec 18)
  | lui (d : Reg) (imm : BitVec 18)
  -- page A, OP 0x10 to 0x16 (R104)
  | ldb (d a : Reg) (imm : BitVec 12)
  | ldbu (d a : Reg) (imm : BitVec 12)
  | ldh (d a : Reg) (imm : BitVec 12)
  | ldhu (d a : Reg) (imm : BitVec 12)
  | ldw (d a : Reg) (imm : BitVec 12)
  | ldwu (d a : Reg) (imm : BitVec 12)
  | ldd (d a : Reg) (imm : BitVec 12)
  -- page A, OP 0x17 to 0x1A (R104)
  | stb (b a : Reg) (imm : BitVec 12)
  | sth (b a : Reg) (imm : BitVec 12)
  | stw (b a : Reg) (imm : BitVec 12)
  | std (b a : Reg) (imm : BitVec 12)
  -- page A, OP 0x1B to 0x20 (R98)
  | beq (a b : Reg) (off : BitVec 12)
  | bne (a b : Reg) (off : BitVec 12)
  | blt (a b : Reg) (off : BitVec 12)
  | bge (a b : Reg) (off : BitVec 12)
  | bltu (a b : Reg) (off : BitVec 12)
  | bgeu (a b : Reg) (off : BitVec 12)
  -- page A, OP 0x21 to 0x25 (R94, R99, R100)
  | j (off : BitVec 24)
  | call (off : BitVec 24)
  | jr (d a : Reg)
  | bk (cond : MaskCond) (k : BitVec 3) (off : BitVec 18)
  | lea (d a b : Reg) (sh : BitVec 3)
  -- page A, OP 0x26 (R95): dbl is F[5]
  | fadd (dbl : Bool) (d a b : Reg)
  | fsub (dbl : Bool) (d a b : Reg)
  | fmul (dbl : Bool) (d a b : Reg)
  | fdiv (dbl : Bool) (d a b : Reg)
  | fsqrt (dbl : Bool) (d a : Reg)
  | fmin (dbl : Bool) (d a b : Reg)
  | fmax (dbl : Bool) (d a b : Reg)
  | feq (dbl : Bool) (d a b : Reg)
  | flt (dbl : Bool) (d a b : Reg)
  | fle (dbl : Bool) (d a b : Reg)
  -- page A, OP 0x27 to 0x2F (R96, R97, R219, R260, R307)
  | fcvt (dst src : CvtKind) (d a : Reg)
  | sget (d : Reg) (num : BitVec 12)
  | sset (a : Reg) (num : BitVec 12)
  | time (d : Reg)
  | waitt (a : Reg)
  | carr (dev : Bool) (ch : BitVec 4)
  | cwait (dev : Bool) (ch : BitVec 4)
  | take (nb : Bool) (d : Reg)
  | nexti (d : Reg)
  -- page A, OP 0x30 to 0x32 (R216, R234)
  | waitc (loads stores copies tiles : BitVec 6)
  | pend (d a : Reg)
  | ppoll (d a : Reg)
  -- page A, OP 0x33, by F (R102)
  | kand (d a b : Reg)
  | kor (d a b : Reg)
  | kxor (d a b : Reg)
  | knot (d a : Reg)
  | kpop (d a : Reg)
  | kfirst (d a : Reg)
  | kmovs (d a : Reg)
  | kmovk (d a : Reg)
  -- page B (R51, R111 to R114): bc is F[4], B a broadcast scalar
  | vadd (f : Fmt) (bc : Bool) (d a b : Reg)
  | vsub (f : Fmt) (bc : Bool) (d a b : Reg)
  | vmul (f : Fmt) (bc : Bool) (d a b : Reg)
  | vdiv (f : Fmt) (bc : Bool) (d a b : Reg)
  | vmin (f : Fmt) (bc : Bool) (d a b : Reg)
  | vmax (f : Fmt) (bc : Bool) (d a b : Reg)
  | vabs (f : Fmt) (d a : Reg)
  | vneg (f : Fmt) (d a : Reg)
  | vsqrt (f : Fmt) (d a : Reg)
  | vexp2 (f : Fmt) (d a : Reg)
  | vlog2 (f : Fmt) (d a : Reg)
  | vrcp (f : Fmt) (d a : Reg)
  | vrsq (f : Fmt) (d a : Reg)
  | vand (f : Fmt) (bc : Bool) (d a b : Reg)
  | vor (f : Fmt) (bc : Bool) (d a b : Reg)
  | vxor (f : Fmt) (bc : Bool) (d a b : Reg)
  | vshl (f : Fmt) (bc : Bool) (d a b : Reg)
  | vshr (f : Fmt) (bc : Bool) (d a b : Reg)
  | vsra (f : Fmt) (bc : Bool) (d a b : Reg)
  | vceq (f : Fmt) (bc : Bool) (d a b : Reg)
  | vclt (f : Fmt) (bc : Bool) (d a b : Reg)
  | vcle (f : Fmt) (bc : Bool) (d a b : Reg)
  | vcun (f : Fmt) (bc : Bool) (d a b : Reg)
  -- page B (R121, R122)
  | vreds (f : Fmt) (d a : Reg)
  | vredx (f : Fmt) (d a : Reg)
  | vredn (f : Fmt) (d a : Reg)
  | vscan (f : Fmt) (d a : Reg)
  -- page B (R124, R125): dn is F[5]
  | vsort (f : Fmt) (dn : Bool) (d : Reg)
  | vmrg (f : Fmt) (dn : Bool) (d a : Reg)
  -- page B (R126, R127, R129, R123)
  | vperm (f : Fmt) (d a b : Reg)
  | vbcast (f : Fmt) (d a : Reg)
  | vext (f : Fmt) (d a b : Reg)
  | vins (f : Fmt) (d a b : Reg)
  | viota (f : Fmt) (d a : Reg)
  | vrnd (f : Fmt) (d a b : Reg)
  | vmov (f : Fmt) (d a : Reg)
  | vclass (f : Fmt) (d a : Reg)
  | vdot (f : Fmt) (bc : Bool) (d a b : Reg)
  -- prefix words (R36)
  | rnd (mode : RMode) (sat : Bool)
  | prd (zero inv : Bool) (k : BitVec 3)
  | ximm (imm : BitVec 26)
  -- long OP8 0x00 to 0x09 (R115 to R120): bcB, bcC are F26[1], F26[0]
  | vfma (f : Fmt) (bcB bcC : Bool) (d a b c : Reg)
  | vfms (f : Fmt) (bcB bcC : Bool) (d a b c : Reg)
  | vfnma (f : Fmt) (bcB bcC : Bool) (d a b c : Reg)
  | vfnms (f : Fmt) (bcB bcC : Bool) (d a b c : Reg)
  | vsel (f : Fmt) (bcB : Bool) (k : BitVec 3) (d a b : Reg)
  | vcvt (src dst : Fmt) (part : BitVec 4) (d a : Reg)
  | vqnt (f : Fmt) (d a : Reg)
  | vdq (f : Fmt) (d a : Reg)
  | vwscTo (f : Fmt) (d a c : Reg)
  | vwscFrom (f : Fmt) (d a : Reg)
  | vshuf (f : Fmt) (d a b c : Reg)
  -- long OP8 0x10 to 0x19 (R105 to R109)
  | vld (f : Fmt) (d : Reg) (m : MemOp)
  | vst (f : Fmt) (d : Reg) (m : MemOp)
  | vlds (f : Fmt) (d : Reg) (m : MemOp)
  | vsts (f : Fmt) (d : Reg) (m : MemOp)
  | vgath (f : Fmt) (d : Reg) (m : MemOp)
  | vscat (f : Fmt) (d : Reg) (m : MemOp)
  | ldx (size : LdSize) (d : Reg) (m : MemOp)
  | stx (size : StSize) (d : Reg) (m : MemOp)
  | ldi (size : LdSize) (d : Reg) (m : MemOp)
  | vldi (f : Fmt) (d : Reg) (m : MemOp)
  -- long OP8 0x20 to 0x23 (R206, R208)
  | lds (size : LdSize) (acq : Bool) (scope : Scope) (d : Reg) (m : MemOp)
  | sts (size : StSize) (rel : Bool) (scope : Scope) (d : Reg) (m : MemOp)
  | phase (acq rel : Bool) (scope : Scope)
  | fence (acq rel : Bool) (scope : Scope)
  -- long OP8 0x24, by M (R210)
  | atomSwap (size : StSize) (ord : Order) (scope : Scope) (d : Reg) (m : MemOp)
  | atomCas (size : StSize) (ord : Order) (scope : Scope) (d : Reg) (m : MemOp)
  | atomAdd (size : StSize) (ord : Order) (scope : Scope) (d : Reg) (m : MemOp)
  | atomAnd (size : StSize) (ord : Order) (scope : Scope) (d : Reg) (m : MemOp)
  | atomOr (size : StSize) (ord : Order) (scope : Scope) (d : Reg) (m : MemOp)
  | atomXor (size : StSize) (ord : Order) (scope : Scope) (d : Reg) (m : MemOp)
  | atomMin (size : StSize) (ord : Order) (scope : Scope) (d : Reg) (m : MemOp)
  | atomMax (size : StSize) (ord : Order) (scope : Scope) (d : Reg) (m : MemOp)
  | atomMinu (size : StSize) (ord : Order) (scope : Scope) (d : Reg) (m : MemOp)
  | atomMaxu (size : StSize) (ord : Order) (scope : Scope) (d : Reg) (m : MemOp)
  | atomFadd (dbl : Bool) (ord : Order) (scope : Scope) (d : Reg) (m : MemOp)
  | atomFmin (dbl : Bool) (ord : Order) (scope : Scope) (d : Reg) (m : MemOp)
  | atomFmax (dbl : Bool) (ord : Order) (scope : Scope) (d : Reg) (m : MemOp)
  | atomWs (ord : Order) (scope : Scope) (d : Reg) (m : MemOp)
  -- long OP8 0x25, by M (R214)
  | bankopAddF32 (d a b c : Reg)
  | bankopAddF64 (d a b c : Reg)
  | bankopAddI64 (d a b c : Reg)
  | bankopMinF32 (d a b c : Reg)
  | bankopMaxF32 (d a b c : Reg)
  | bankopMinI64 (d a b c : Reg)
  | bankopMaxI64 (d a b c : Reg)
  | bankopWs (d a b c : Reg)
  -- long OP8 0x26 to 0x2C (R224, R227)
  | bari (d : Reg) (m : MemOp)
  | bara (d : Reg) (m : MemOp)
  | barw (d : Reg) (m : MemOp)
  | barx (d : Reg) (m : MemOp)
  | slotacq (d : Reg) (m : MemOp)
  | slotwait (d : Reg) (m : MemOp)
  | slotrel (d : Reg) (m : MemOp)
  | slotrelFull (d : Reg) (m : MemOp)
  -- long OP8 0x30 to 0x32 (R230, R234) and the streams' own accesses (R231) and port deliveries (R235)
  | sbind (out : Bool) (d a b : Reg)
  | sdrain (d : Reg)
  | pbind (d a : Reg)
  -- long OP8 0x33 to 0x36 (R217, R221)
  | tlwait (tl : Reg) (a : Reg) (imm : IWord)
  | tlget (tl : Reg) (a : Reg) (imm : IWord)
  | tlset (tl : Reg) (a : Reg) (imm : IWord)
  | cmaskC (a : Reg) (ch : BitVec 4)
  | cmaskD (a : Reg) (ch : BitVec 4)
  | cmaskDc (a b : Reg) (ch : BitVec 4)
  -- long OP8 0x40 to 0x44 (R240)
  | cpy (p : PostOp)
  | credAddF32 (p : PostOp)
  | credAddF64 (p : PostOp)
  | credAddI32 (p : PostOp)
  | credMinF32 (p : PostOp)
  | credMaxF32 (p : PostOp)
  | credMinI32 (p : PostOp)
  | credMaxI32 (p : PostOp)
  | credWs (p : PostOp)
  | cflag (p : PostOp) (b : Reg)
  | cflagAdd (p : PostOp) (b : Reg)
  | chase (p : PostOp)
  | repart (p : PostOp)
  -- long OP8 0x45 to 0x48 (R158 to R160): imm is F26[16:0]
  | mxq (d a : Reg)
  | mxz (d a : Reg) (imm : BitVec 17)
  | mxzFree (d : Reg)
  | mxrd (free : Bool) (d a b : Reg)
  | mxwr (d a b : Reg)
  -- long OP8 0x49 to 0x4C (R174 to R177)
  | rcfg (d a b c : Reg)
  | rtab (d a b c : Reg)
  | rstep (creg : Bool) (n : BitVec 4) (d a b : Reg)
  | rgen (d a : Reg)
  -- long OP8 0x50 to 0x53 (R308, R323, R331)
  | launch (d a : Reg)
  | qpush (d a b : Reg)
  | lvget (tsrc : Bool) (slot : BitVec 4) (d b : Reg)
  | lvset (d a b c : Reg)
  | lvsetReseat (d a b c : Reg)
  -- long OP8 0x54 (R44): strides are codes; and one iteration of the current core's frame (R46, R47)
  | rpt (csrc : Bool) (a : Reg) (count : BitVec 16) (bstr astr dstr : BitVec 2) (n1 : BitVec 4)
  -- long OP8 0x55 to 0x58 (R93, R94)
  | liw (d : Reg) (imm : IWord)
  | lihi (d : Reg) (imm : IWord)
  | sel (d a b c : Reg)
  | madd (d a b c : Reg)
  -- long OP8 0x60, 0x61 (R348, R366)
  | tlbiVa (scope : Scope) (a : Reg)
  | tlbiAll (scope : Scope)
  | sresume (d a : Reg)
  | sresumeAbandon (d a : Reg)
  | sresumeGet (d a b : Reg)
  | sresumePut (d a b c : Reg)
  -- page A, OP 0x00, forms without an operand (R101, R239, R362, R364)
  | nop
  | endTask
  | yield
  | uiret
  | eret
  | park
  -- the event rows: what they act on stands in Args
  -- a home's retry signal for the oldest ticket it holds (R215, R332)
  | homeRetryGrant
  -- long OP8 0x30 to 0x32 (R230, R234) and the streams' own accesses (R231) and port deliveries (R235)
  | streamPrefetch
  | streamWriteOut
  | portWordDelivery
  -- the copy engines' steps, on the posted command id (R242, R243, R250, R252, R262, R264, R269, R270)
  | commandReleaseStart
  | copyNotbeforeStart
  | credRankContribution
  | copyCommandComplete
  | chaseStep
  | chaseResult
  | repartCollective
  | repartComplete
  -- the matrix dispatcher's and engines' steps, on the posted command id (R135, R148, R154, R155)
  | matrixBindGrant
  | matrixOperationStart
  | matrixRowGroup
  | matrixResume
  | matrixComplete
  -- the rule engines' steps: of a cluster, on the posted command id (R166, R170, R172)
  | ruleHalfStep
  | ruleResume
  | ruleAbandon
  | ruleCommandComplete
  -- long OP8 0x54 (R44): strides are codes; and one iteration of the current core's frame (R46, R47)
  | rptIteration
  -- LAUNCHCTL commands as the scheduler carries them out for a core that wrote v (R330)
  | lresume
  | launchAbandon
  | launchctlBadcmd
  -- the memory system's steps (R130, R182, R204, R345)
  | loadReturn
  | storePerformed
  | pageTableWalk
  | dconfReport
  -- interrupts, messages, contexts (R238, R356, R361)
  | userInterruptEntry
  | faultMessagePost
  | contextSave
  | contextRestore
  -- the scheduler's steps: of a partition's launch (14, 15)
  | launchArrival
  | predicateRead
  | causalValidation
  | teamAdmission
  | taskStart
  | stealRequest
  | causalDispatch
  | homeEligibilityTimeout
  | launchCompletion
  | allocationRelease
  -- migration of a 64 KiB-aligned page of n bytes from old to new (R350)
  | migrationHold
  | migrationRelease
  -- the fabric (R254, R255, R258, R374)
  | fabricCellArrival
  | fabricSlot
  | incarnAnnouncement
  | linkCrcRetry
  | linkRetrain
  -- time (R259, R404): a sync carries the estimated offset in units of 1/256 ns
  | timeCounterTick
  | ptpSync
  | syncTimeout
  | referencePulse
  -- errors and lifetime records (R367, R369, R374)
  | correctedError
  | uncorrectableError
  | voltageDroop
  | lifetimeRecordFlush
  | thermalInterval
  -- resets (R403, R405)
  | moduleReset
  | functionLevelReset
  | link1Reset
  | overTemperature
  -- the host's accesses (R400 to R402)
  | hostQueueTailWrite
  | hostQueueControlWrite
  | registerWrite
  | hostBar2Access
  -- mailbox commands to the management controller (R373)
  | wrpcb
  | peeract
  | rdlife
  | wrflow
  | mgmtBadcmd
  -- SPDM requests (R355)
  | getVersion
  | getCapabilities
  | negotiateAlgorithms
  | getDigests
  | getCertificate
  | challenge
  | getMeasurements
  -- management messages (R406)
  | pldmMonitoring
  | mctpRdlife
  | rdtime
  | wrcfg
  -- a word that R53 leaves unassigned
  | unassignedEncoding
  -- module events (R403, R374, R406)
  | partitionReady
  | powerLoss
  | coolantAlarm
  deriving DecidableEq, Repr

end Sys2Proof
end

