-- ==== Sys2Proof/Machine/Bits.lean ====
section
/-!
DEFINITION. Bits.lean: the helper functions of R7 on words and numbers, and the finite map that holds memory and register
files as plain data in one canonical form.
-/
namespace Sys2Proof.Machine

/-- A finite map from numbers to α over a default value: the pairs listed, everything else the default. Canonical form
(`SMap.wf`): keys strictly rising, no pair at its key's default value. -/
abbrev SMap (α : Type) := List (Nat × α)

/-- The value at key a: the pair listed for it, else the default d. -/
def SMap.get {α : Type} (d : α) : SMap α → Nat → α
  | [], _ => d
  | (k, v) :: t, a => if a = k then v else SMap.get d t a

/-- The map without key a. -/
def SMap.erase {α : Type} : SMap α → Nat → SMap α
  | [], _ => []
  | (k, v) :: t, a => if a = k then SMap.erase t a else (k, v) :: SMap.erase t a

/-- Put a pair where the rising order of keys wants it. -/
def SMap.insert {α : Type} : SMap α → Nat → α → SMap α
  | [], a, x => [(a, x)]
  | (k, v) :: t, a, x => if a < k then (a, x) :: (k, v) :: t else (k, v) :: SMap.insert t a x

/-- The map with x at key a; setting the default removes the pair. -/
def SMap.set {α : Type} [DecidableEq α] (d : α) (m : SMap α) (a : Nat) (x : α) : SMap α :=
  if x = d then SMap.erase m a else SMap.insert (SMap.erase m a) a x

/-- Every key of the map lies above b and keys rise; no value is what d gives its key. -/
def SMap.wfFrom {α : Type} [DecidableEq α] (d : Nat → α) : Option Nat → SMap α → Bool
  | _, [] => true
  | b, (k, v) :: t => (match b with | none => true | some b => decide (b < k)) && decide (v ≠ d k) && SMap.wfFrom d (some k) t

/-- The canonical form of a map whose key a reads as d a where it is not listed. -/
def SMap.wf {α : Type} [DecidableEq α] (d : Nat → α) (m : SMap α) : Bool := SMap.wfFrom d none m

/-- A set of numbers as a strictly rising list: membership, insertion, removal. -/
def nset_insert : List Nat → Nat → List Nat
  | [], a => [a]
  | k :: t, a => if a < k then a :: k :: t else if a = k then k :: t else k :: nset_insert t a

def nset_erase (l : List Nat) (a : Nat) : List Nat := l.filter (· ≠ a)

/-- bits(x, hi, lo) of R7. -/
def bits (x hi lo : Nat) : Nat := (x >>> lo) % 2 ^ (hi + 1 - lo)

/-- sext(x, n) of R7: the low n bits as two's complement. -/
def sext (x n : Nat) : Int :=
  let y := x % 2 ^ n
  if n = 0 then 0 else if y < 2 ^ (n - 1) then (y : Int) else (y : Int) - 2 ^ n

/-- An integer as an unsigned n-bit number (mod 2^n). -/
def wrapN (n : Nat) (x : Int) : Nat := (x % (2 ^ n : Nat)).toNat

/-- An integer as a 64-bit word (mod 2^64). -/
def wordOfInt (x : Int) : Word := BitVec.ofInt 64 x

/-- Clamp to the signed range of w bits. -/
def clampS (w : Nat) (x : Int) : Int := max (-(2 ^ (w - 1))) (min x (2 ^ (w - 1) - 1))

/-- Clamp to the unsigned range of w bits. -/
def clampU (w : Nat) (x : Int) : Int := max 0 (min x (2 ^ w - 1))

/-- serial_lt of R7 on 32-bit levels. -/
def serialLt (a b : Nat) : Bool :=
  let d := (b + 2 ^ 32 - a % 2 ^ 32) % 2 ^ 32
  decide (0 < d) && decide (d < 2 ^ 31)

/-- serial_le of R310. -/
def serialLe (a b : Nat) : Bool := decide (a % 2 ^ 32 = b % 2 ^ 32) || serialLt a b

/-- The length in bits of a number. -/
def bitLen (n : Nat) : Nat := if n = 0 then 0 else Nat.log2 n + 1

/-- Divide rounding up. -/
def ceilDiv (a b : Nat) : Nat := (a + b - 1) / b

/-- Lane i of width w of a vector register (R7). -/
def lane (v : Vec) (w i : Nat) : Nat := bits v.toNat (i * w + w - 1) (i * w)

/-- v with lane i of width w set to the low w bits of x. -/
def setLane (v : Vec) (w i x : Nat) : Vec :=
  let n := v.toNat
  BitVec.ofNat 512 (n - bits n (i * w + w - 1) (i * w) * 2 ^ (i * w) + (x % 2 ^ w) * 2 ^ (i * w))

/-- The vector whose lanes of width w are given, lane 0 first. -/
def ofLanes (w : Nat) : List Nat → Nat
  | [] => 0
  | x :: t => x % 2 ^ w + 2 ^ w * ofLanes w t

/-- The first n lanes of width w of a vector, lane 0 first. -/
def lanes (v : Vec) (w n : Nat) : List Nat := (List.range n).map (lane v w)

/-- n bytes of a number, little-endian. -/
def bytesOf : Nat → Nat → List Byte
  | 0, _ => []
  | n + 1, x => BitVec.ofNat 8 x :: bytesOf n (x / 256)

/-- A little-endian number from its bytes. -/
def ofBytes : List Byte → Nat
  | [] => 0
  | b :: t => b.toNat + 256 * ofBytes t

/-- Cut a list into pieces of n (fuel bounds the number of pieces). -/
def chunks {α : Type} (n : Nat) : Nat → List α → List (List α)
  | 0, _ => []
  | k + 1, l => if l.isEmpty then [] else l.take n :: chunks n k (l.drop n)

/-- The number of bits set in x below bit n. -/
def popCount : Nat → Nat → Nat
  | 0, _ => 0
  | n + 1, x => x % 2 + popCount n (x / 2)

/-- The index of the lowest bit set in x below bit n, or n when there is none. -/
def lowBit : Nat → Nat → Nat
  | 0, _ => 0
  | n + 1, x => if x % 2 = 1 then 0 else 1 + lowBit n (x / 2)

/-- The leading zeros of x as an n-bit number (R91). -/
def leadZeros (n x : Nat) : Nat := n - bitLen x

/-- The first result of f that holds a value, over a list. -/
def firstSome {α β : Type} (f : α → Option β) : List α → Option β
  | [] => none
  | a :: t => match f a with | some b => some b | none => firstSome f t

/-- Replace the elements that satisfy p. -/
def mapIf {α : Type} (p : α → Bool) (f : α → α) (l : List α) : List α := l.map fun a => if p a then f a else a

/-- Bit i of a number. -/
def bit (x i : Nat) : Bool := (x >>> i) % 2 = 1

/-- 1 for true, 0 for false. -/
def b2n (b : Bool) : Nat := if b then 1 else 0

/-- The number x with bit i set to b. -/
def setBit (x i : Nat) (b : Bool) : Nat := if bit x i = b then x else if b then x + 2 ^ i else x - 2 ^ i

/-- The number x with bits hi..lo replaced by the low bits of y. -/
def setBits (x hi lo y : Nat) : Nat := x - bits x hi lo * 2 ^ lo + y % 2 ^ (hi + 1 - lo) * 2 ^ lo

end Sys2Proof.Machine
end

