-- ==== Sys2Proof/Machine/Fp.lean ====
section
/-!
DEFINITION. Fp.lean: the promise of results (04): formats bit by bit (R60, R61), values, the one rounding (R72 to R78) from an
exact real to a format, and the exact arithmetic that feeds it. A real is held as (n + δ)·2^e with a sign, δ = 0 or, where
`sticky`, some value strictly between 0 and 1: enough to round a quotient, a root or a transcendental value correctly.
-/
namespace Sys2Proof.Machine

/-- Shape of a floating-point format (R60): fraction bits, exponent bits, bias, whether it has infinities, width. -/
structure FInfo where
  f : Nat
  eb : Nat
  bias : Nat
  inf : Bool
  w : Nat
  deriving DecidableEq, Repr

def fi32 : FInfo := ⟨23, 8, 127, true, 32⟩
def fi64 : FInfo := ⟨52, 11, 1023, true, 64⟩
def fiBf : FInfo := ⟨7, 8, 127, true, 16⟩
def fi16 : FInfo := ⟨10, 5, 15, true, 16⟩
def fiE4 : FInfo := ⟨3, 4, 7, false, 8⟩
def fiE5 : FInfo := ⟨2, 5, 15, true, 8⟩
def fiF4 : FInfo := ⟨1, 2, 1, false, 4⟩

/-- A value of a format: NaN, an infinity, or (-1)^neg · m · 2^e. -/
inductive FVal where
  | nan
  | inf (neg : Bool)
  | fin (neg : Bool) (m : Nat) (e : Int)
  deriving DecidableEq, Repr

/-- The FPSTAT flags raised (R79): bit 0 NX, 1 UF, 2 OF, 3 DZ, 4 NV, 5 INFCLIP, 6 NANSC. -/
abbrev FFlags := BitVec 7

def flNX : FFlags := 0x01#7
def flUF : FFlags := 0x02#7
def flOF : FFlags := 0x04#7
def flDZ : FFlags := 0x08#7
def flNV : FFlags := 0x10#7
def flINFCLIP : FFlags := 0x20#7
def flNANSC : FFlags := 0x40#7

/-- The canonical NaN (R61); the FP4 code stands for +0 (R76). -/
def FInfo.nanBits (i : FInfo) : Nat :=
  if i.w = 4 then 0 else if i.inf then (2 ^ i.eb - 1) * 2 ^ i.f + 2 ^ (i.f - 1) else 2 ^ (i.w - 1) - 1

/-- The magnitude bits of the largest finite value (R61). -/
def FInfo.maxBits (i : FInfo) : Nat :=
  if i.w = 4 then 7 else if i.inf then (2 ^ i.eb - 1) * 2 ^ i.f - 1 else 2 ^ (i.w - 1) - 2

def FInfo.signBit (i : FInfo) (neg : Bool) : Nat := if neg then 2 ^ (i.w - 1) else 0

/-- The bits of an infinity where the format has one (R61). -/
def FInfo.infBits (i : FInfo) (neg : Bool) : Nat := i.signBit neg + (2 ^ i.eb - 1) * 2 ^ i.f

/-- The value of an encoding (R60). -/
def FInfo.decode (i : FInfo) (x : Nat) : FVal :=
  let neg := bit x (i.w - 1)
  let e := bits x (i.w - 2) i.f
  let m := x % 2 ^ i.f
  if i.w ≠ 4 && i.inf && e = 2 ^ i.eb - 1 then (if m = 0 then .inf neg else .nan)
  else if i.w = 8 && !i.inf && x % 128 = 127 then .nan
  else if e = 0 then .fin neg m (1 - (i.bias : Int) - i.f)
  else .fin neg (m + 2 ^ i.f) ((e : Int) - i.bias - i.f)

/-- An exact real, or one known to lie strictly between two neighbours 2^e apart. -/
structure Real' where
  neg : Bool
  n : Nat
  e : Int
  sticky : Bool
  deriving DecidableEq, Repr

/-- Round a magnitude (n + δ)·2^e to a whole number of quanta 2^q: the count below, whether it is inexact, and whether
the mode goes up (R72, R75; g is the draw of mode 5). -/
def quantum (rm : RMode) (g : Nat) (x : Real') (q : Int) : Nat × Bool × Bool :=
  if q ≤ x.e then (x.n * 2 ^ (x.e - q).toNat, x.sticky, x.sticky && (match rm with | .rup => !x.neg | .rdn => x.neg | _ => false))
  else
    let sh := (q - x.e).toNat
    let k := x.n / 2 ^ sh
    let r := x.n % 2 ^ sh
    let inexact := decide (r ≠ 0) || x.sticky
    let half := 2 ^ (sh - 1)
    let above := decide (r > half) || (decide (r = half) && x.sticky)
    let tie := decide (r = half) && !x.sticky
    let up := match rm with
      | .rne => above || (tie && k % 2 = 1)
      | .rtz => false
      | .rdn => inexact && x.neg
      | .rup => inexact && !x.neg
      | .rna => above || tie
      | .sr => inexact && (
          -- R75 compares the draw with x - lo on the number line: for a negative x the lower neighbour is the larger magnitude
          if x.neg then !(decide (g * 2 ^ sh < (2 ^ sh - r) * 2 ^ 32 - (if x.sticky then 1 else 0)))
          else decide (g * 2 ^ sh < r * 2 ^ 32) || (decide (g * 2 ^ sh = r * 2 ^ 32) && x.sticky))
    (k, inexact, up)

/-- The encoding of k·2^q, k below 2^(f+1) or equal to it, in a format (magnitude only). -/
def FInfo.encodeMag (i : FInfo) (k : Nat) (q : Int) : Nat :=
  let (k, q) := if k = 2 ^ (i.f + 1) then (2 ^ i.f, q + 1) else (k, q)
  if k < 2 ^ i.f then k else (q + i.f + i.bias).toNat * 2 ^ i.f + (k - 2 ^ i.f)

/-- What stands for an infinity that rounding or an operation delivers (R76, R77): bits and flags. -/
def FInfo.deliverInf (i : FInfo) (sat neg : Bool) : Nat × FFlags :=
  if i.inf then (i.infBits neg, 0)
  else if sat then (i.signBit neg + i.maxBits, 0)
  else if i.w = 4 then (i.signBit neg + i.maxBits, flNV)
  else (i.nanBits, flNV)

/-- What an overflow delivers (R76, R77). -/
def FInfo.overflow (i : FInfo) (rm : RMode) (sat neg : Bool) : Nat :=
  let toInf := !sat && (match rm with | .rne => true | .rna => true | .sr => true | .rtz => false | .rdn => neg | .rup => !neg)
  if toInf then (if i.inf then i.infBits neg else if i.w = 4 then i.signBit neg + i.maxBits else i.nanBits)
  else i.signBit neg + i.maxBits

/-- round(fmt, x, rm) of R7 for a real x: R72 to R78. -/
def FInfo.round (i : FInfo) (rm : RMode) (sat : Bool) (g : Nat) (x : Real') : Nat × FFlags :=
  if x.n = 0 && !x.sticky then (i.signBit x.neg, 0) else
  let top : Int := (bitLen x.n : Int) - 1 + x.e
  let emin : Int := 1 - (i.bias : Int)
  let qn := top - i.f
  let q := max qn (emin - i.f)
  let (k, inexact, up) := quantum rm g x q
  let k' := if up then k + 1 else k
  -- the largest finite value as a count of quanta at its own exponent
  let maxM := if i.maxBits < 2 ^ i.f then i.maxBits else i.maxBits % 2 ^ i.f + 2 ^ i.f
  let maxQ : Int := ((i.maxBits / 2 ^ i.f : Nat) : Int) - i.bias - i.f
  let tooBig := if q > maxQ then true else if k' = 2 ^ (i.f + 1) then decide (q + 1 > maxQ) else decide (q = maxQ) && decide (k' > maxM)
  if tooBig then (i.overflow rm sat x.neg, flOF ||| flNX)
  else
    let (ku, _, upu) := quantum rm g x qn
    let tiny := decide (qn < emin - i.f) && !(decide (qn = emin - i.f - 1) && decide (ku + 1 = 2 ^ (i.f + 1)) && upu)
    let fl : FFlags := if inexact then (if tiny then flUF ||| flNX else flNX) else 0
    (i.signBit x.neg + i.encodeMag k' q, fl)

/-- A value delivered into a format: NaN, infinities and reals (R62, R76, R77). -/
def FInfo.deliver (i : FInfo) (rm : RMode) (sat : Bool) (g : Nat) : FVal → Nat × FFlags
  | .nan => (i.nanBits, if i.w = 4 then flNV else 0)
  | .inf neg => i.deliverInf sat neg
  | .fin neg m e => i.round rm sat g ⟨neg, m, e, false⟩

/-- A NaN that the operation itself produces from non-NaN operands (R62). -/
def FInfo.invalid (i : FInfo) : Nat × FFlags := (i.nanBits, flNV)

/-- The signed integer i with i·2^e the value of a finite magnitude. -/
def signed (neg : Bool) (m : Nat) : Int := if neg then -(m : Int) else m

/-- Sum of two dyadic numbers a·2^ea + b·2^eb as (i, e). -/
def dyAdd (a : Int) (ea : Int) (b : Int) (eb : Int) : Int × Int :=
  let e := min ea eb
  (a * 2 ^ (ea - e).toNat + b * 2 ^ (eb - e).toNat, e)

/-- An exact integer times a power of two as a real; `zneg` is the sign a zero takes. -/
def realOf (i e : Int) (zneg : Bool) : Real' := ⟨if i = 0 then zneg else decide (i < 0), i.natAbs, e, false⟩

/-- The sign of an exact zero sum of terms of opposite sign (R95): -0 under RDN. -/
def zeroNeg (rm : RMode) : Bool := match rm with | .rdn => true | _ => false

/-- round(exact(x·y + z)) in a format, operands as values (R115, R95): one rounding. -/
def FInfo.fma (i : FInfo) (rm : RMode) (sat : Bool) (g : Nat) (x y z : FVal) : Nat × FFlags :=
  let prod : FVal × Bool := match x, y with
    | .nan, _ => (.nan, false)
    | _, .nan => (.nan, false)
    | .inf s, .inf t => (.inf (s != t), false)
    | .inf s, .fin t m _ => if m = 0 then (.nan, true) else (.inf (s != t), false)
    | .fin s m _, .inf t => if m = 0 then (.nan, true) else (.inf (s != t), false)
    | .fin s m e, .fin t n f => (.fin (s != t) (m * n) (e + f), false)
  if prod.2 then i.invalid
  else match prod.1, z with
    | .nan, _ => (i.nanBits, if i.w = 4 then flNV else 0)
    | _, .nan => (i.nanBits, if i.w = 4 then flNV else 0)
    | .inf s, .inf t => if s = t then i.deliverInf sat s else i.invalid
    | .inf s, .fin _ _ _ => i.deliverInf sat s
    | .fin _ _ _, .inf t => i.deliverInf sat t
    | .fin s m e, .fin t n f =>
      let r := dyAdd (signed s m) e (signed t n) f
      i.round rm sat g (realOf r.1 r.2 (if s = t then s else zeroNeg rm))

def FVal.neg : FVal → FVal
  | .nan => .nan
  | .inf s => .inf (!s)
  | .fin s m e => .fin (!s) m e

/-- round(exact(x + y)) (R95). -/
def FInfo.add (i : FInfo) (rm : RMode) (sat : Bool) (g : Nat) (x y : FVal) : Nat × FFlags :=
  match x, y with
  | .nan, _ => i.deliver rm sat g .nan
  | _, .nan => i.deliver rm sat g .nan
  | .inf s, .inf t => if s = t then i.deliverInf sat s else i.invalid
  | .inf s, .fin _ _ _ => i.deliverInf sat s
  | .fin _ _ _, .inf t => i.deliverInf sat t
  | .fin s m e, .fin t n f =>
    let r := dyAdd (signed s m) e (signed t n) f
    i.round rm sat g (realOf r.1 r.2 (if s = t then s else zeroNeg rm))

/-- round(exact(x · y)) (R95). -/
def FInfo.mul (i : FInfo) (rm : RMode) (sat : Bool) (g : Nat) (x y : FVal) : Nat × FFlags :=
  match x, y with
  | .nan, _ => i.deliver rm sat g .nan
  | _, .nan => i.deliver rm sat g .nan
  | .inf s, .inf t => i.deliverInf sat (s != t)
  | .inf s, .fin t m _ => if m = 0 then i.invalid else i.deliverInf sat (s != t)
  | .fin s m _, .inf t => if m = 0 then i.invalid else i.deliverInf sat (s != t)
  | .fin s m e, .fin t n f => i.round rm sat g ⟨s != t, m * n, e + f, false⟩

/-- A quotient m/n·2^e with at least 128 bits kept and the rest in `sticky`. -/
def quotient (neg : Bool) (m n : Nat) (e : Int) : Real' :=
  let sh := 128 + bitLen n
  let q := m * 2 ^ sh / n
  ⟨neg, q, e - sh, decide (m * 2 ^ sh % n ≠ 0)⟩

/-- round(exact(x / y)) with the cases of FDIV (R95). -/
def FInfo.div (i : FInfo) (rm : RMode) (sat : Bool) (g : Nat) (x y : FVal) : Nat × FFlags :=
  match x, y with
  | .nan, _ => i.deliver rm sat g .nan
  | _, .nan => i.deliver rm sat g .nan
  | .inf _, .inf _ => i.invalid
  | .inf s, .fin t _ _ => i.deliverInf sat (s != t)
  | .fin s _ _, .inf t => (i.signBit (s != t), 0)
  | .fin s m e, .fin t n f =>
    if n = 0 then (if m = 0 then i.invalid else ((i.deliverInf sat (s != t)).1, (i.deliverInf sat (s != t)).2 ||| flDZ))
    else if m = 0 then (i.signBit (s != t), 0)
    else i.round rm sat g (quotient (s != t) m n (e - f))

/-- The integer square root by trying bits k-1 down to 0. -/
def isqrtGo (n : Nat) : Nat → Nat → Nat
  | 0, r => r
  | k + 1, r => if (r + 2 ^ k) * (r + 2 ^ k) ≤ n then isqrtGo n k (r + 2 ^ k) else isqrtGo n k r

def isqrt (n : Nat) : Nat := isqrtGo n (bitLen n / 2 + 1) 0

/-- √(m·2^e) for m > 0 with at least 128 bits kept. -/
def rootOf (m : Nat) (e : Int) : Real' :=
  let (m, e) := if e % 2 = 0 then (m, e) else (m * 2, e - 1)
  let n := m * 2 ^ 256
  let r := isqrt n
  ⟨false, r, e / 2 - 128, decide (r * r ≠ n)⟩

/-- round(exact(√x)) (R95). -/
def FInfo.sqrt (i : FInfo) (rm : RMode) (sat : Bool) (g : Nat) : FVal → Nat × FFlags
  | .nan => i.deliver rm sat g .nan
  | .inf neg => if neg then i.invalid else i.deliverInf sat false
  | .fin neg m e =>
    if m = 0 then (i.signBit neg, 0) else if neg then i.invalid else i.round rm sat g (rootOf m e)

/-- 1/x (R112). -/
def FInfo.rcp (i : FInfo) (rm : RMode) (sat : Bool) (g : Nat) (x : FVal) : Nat × FFlags :=
  i.div rm sat g (.fin false 1 0) x

/-- 1/√x (R112): the root of the reciprocal, 256 bits of quotient under 128 bits of root. -/
def FInfo.rsq (i : FInfo) (rm : RMode) (sat : Bool) (g : Nat) : FVal → Nat × FFlags
  | .nan => i.deliver rm sat g .nan
  | .inf neg => if neg then i.invalid else (i.signBit false, 0)
  | .fin neg m e =>
    if m = 0 then ((i.deliverInf sat neg).1, (i.deliverInf sat neg).2 ||| flDZ)
    else if neg then i.invalid
    else
      -- m·2^e with e even: 1/√ = 2^(-e/2) · √(2^(2h)/m) / 2^h
      let (m, e) := if e % 2 = 0 then (m, e) else (m * 2, e - 1)
      let h := 160 + bitLen m
      let n := 2 ^ (2 * h) / m
      let r := isqrt n
      i.round rm sat g ⟨false, r, -(e / 2) - h, decide (r * r * m ≠ 2 ^ (2 * h))⟩

/-- Bits of precision of the transcendental functions. -/
def fxP : Nat := 640

/-- Product over the fraction bits of 2^(2^-i): r is 2^(2^-i) in fixed point, bits taken from bit k-1 of a fraction of `width` bits. -/
def exp2Go (frac : Nat) : Nat → Nat → Nat → Nat
  | 0, _, acc => acc
  | k + 1, r, acc =>
    let acc' := if bit frac k then acc * r / 2 ^ fxP else acc
    exp2Go frac k (isqrt (r * 2 ^ fxP)) acc'

/-- 2^x for a finite non-zero x = (-1)^neg·m·2^e (R112). Integers are exact; |x| at or above 2^12 is held at 2^12, far
beyond every format's range. -/
def exp2Real (neg : Bool) (m : Nat) (e : Int) : Real' :=
  let big := decide ((bitLen m : Int) + e > 12)
  if big then ⟨false, 1, if neg then -4096 else 4096, false⟩
  else if e ≥ 0 then ⟨false, 1, signed neg (m * 2 ^ e.toNat), false⟩
  else
    let w := (-e).toNat
    let x : Int := signed neg m
    let fl := x / (2 ^ w : Nat)
    let frac := (x % (2 ^ w : Nat)).toNat
    if frac = 0 then ⟨false, 1, fl, false⟩
    else ⟨false, exp2Go frac w (isqrt (2 * 2 ^ (2 * fxP))) (2 ^ fxP), fl - fxP, true⟩

def FInfo.exp2 (i : FInfo) (rm : RMode) (sat : Bool) (g : Nat) : FVal → Nat × FFlags
  | .nan => i.deliver rm sat g .nan
  | .inf neg => if neg then (i.signBit false, 0) else i.deliverInf sat false
  | .fin neg m e => i.round rm sat g (if m = 0 then ⟨false, 1, 0, false⟩ else exp2Real neg m e)

/-- Bits of log2 of a fixed-point number in [1, 2), by repeated squaring. -/
def log2Go : Nat → Nat → Nat → Nat
  | 0, _, acc => acc
  | k + 1, y, acc =>
    let y2 := y * y / 2 ^ fxP
    if y2 ≥ 2 ^ (fxP + 1) then log2Go k (y2 / 2) (2 * acc + 1) else log2Go k y2 (2 * acc)

/-- Fraction bits of log2 that are computed. -/
def fxL : Nat := 256

/-- log2 of m·2^e, m > 0 (R112): exact for a power of two, else the integer part plus fxL bits of the fraction, rounded down. -/
def log2Real (m : Nat) (e : Int) : Real' :=
  let k := bitLen m - 1
  let whole : Int := (k : Int) + e
  if m = 2 ^ k then ⟨decide (whole < 0), whole.natAbs, 0, false⟩
  else
    let fr := log2Go fxL (m * 2 ^ (fxP - k)) 0
    let t : Int := whole * 2 ^ fxL + fr
    -- t < log2·2^fxL < t + 1: a negative one has its magnitude between -(t+1) and -t
    if t < 0 then ⟨true, (-(t + 1)).toNat, -fxL, true⟩ else ⟨false, t.toNat, -fxL, true⟩

def FInfo.log2 (i : FInfo) (rm : RMode) (sat : Bool) (g : Nat) : FVal → Nat × FFlags
  | .nan => i.deliver rm sat g .nan
  | .inf neg => if neg then i.invalid else i.deliverInf sat false
  | .fin neg m e =>
    if m = 0 then ((i.deliverInf sat true).1, (i.deliverInf sat true).2 ||| flDZ)
    else if neg then i.invalid
    else i.round rm sat g (log2Real m e)

/-- Order of two values with -0 below +0, neither a NaN (R62): x < y. -/
def FVal.below : FVal → FVal → Bool
  | .inf s, .inf t => s && !t
  | .inf s, .fin _ _ _ => s
  | .fin _ _ _, .inf t => !t
  | .fin s m e, .fin t n f =>
    if m = 0 && n = 0 then s && !t
    else
      let d := dyAdd (signed s m) e (-(signed t n)) f
      decide (d.1 < 0)
  | _, _ => false

/-- Numeric x = y (R95): zeros are equal, a NaN equals nothing. -/
def FVal.eqNum : FVal → FVal → Bool
  | .inf s, .inf t => s = t
  | .fin s m e, .fin t n f => decide ((dyAdd (signed s m) e (-(signed t n)) f).1 = 0)
  | _, _ => false

/-- Numeric x < y (R95): false on a NaN, zeros equal. -/
def FVal.ltNum : FVal → FVal → Bool
  | .nan, _ => false
  | _, .nan => false
  | x, y => !FVal.eqNum x y && FVal.below x y

def FVal.isNan : FVal → Bool
  | .nan => true
  | _ => false

/-- A result as R62 delivers it: every NaN is the canonical one. -/
def FInfo.canon (i : FInfo) (x : Nat) : Nat := if (i.decode x).isNan then i.nanBits else x

/-- FMIN and FMAX on encodings (R95): the other operand when one is NaN, the canonical NaN when both are. -/
def FInfo.minmax (i : FInfo) (mx : Bool) (x y : Nat) : Nat :=
  let a := i.decode x
  let b := i.decode y
  if a.isNan && b.isNan then i.nanBits
  else if a.isNan then y else if b.isNan then x
  else if mx then (if FVal.below a b then y else x) else (if FVal.below b a then y else x)

/-- A finite value rounded to an integer, with whether it was inexact. -/
def roundInt (rm : RMode) (g : Nat) (x : Real') : Int × Bool :=
  let (k, inexact, up) := quantum rm g x 0
  (signed x.neg (if up then k + 1 else k), inexact)

/-- A value converted to an integer range [lo, hi] (R63). -/
def toInt (lo hi : Int) (rm : RMode) (g : Nat) : FVal → Int × FFlags
  | .nan => (0, flNV)
  | .inf neg => (if neg then lo else hi, flNV)
  | .fin neg m e =>
    let (r, inexact) := roundInt rm g ⟨neg, m, e, false⟩
    if r < lo then (lo, flNV) else if r > hi then (hi, flNV) else (r, if inexact then flNX else 0)

/-- An integer as a value. -/
def FVal.ofInt (x : Int) : FVal := .fin (decide (x < 0)) x.natAbs 0

/-- The exact product of two values and whether it is 0 · ∞ (R62). -/
def FVal.mulX : FVal → FVal → FVal × Bool
  | .nan, _ => (.nan, false)
  | _, .nan => (.nan, false)
  | .inf s, .inf t => (.inf (s != t), false)
  | .inf s, .fin t m _ => if m = 0 then (.nan, true) else (.inf (s != t), false)
  | .fin s m _, .inf t => if m = 0 then (.nan, true) else (.inf (s != t), false)
  | .fin s m e, .fin t n f => (.fin (s != t) (m * n) (e + f), false)

/-- The exact sum of two values and whether it is ∞ - ∞; an exact zero of terms of opposite sign takes the sign `zneg`. -/
def FVal.addX (zneg : Bool) : FVal → FVal → FVal × Bool
  | .nan, _ => (.nan, false)
  | _, .nan => (.nan, false)
  | .inf s, .inf t => if s = t then (.inf s, false) else (.nan, true)
  | .inf s, .fin _ _ _ => (.inf s, false)
  | .fin _ _ _, .inf t => (.inf t, false)
  | .fin s m e, .fin t n f =>
    let r := dyAdd (signed s m) e (signed t n) f
    let z := if s = t then s else zneg
    (.fin (if r.1 = 0 then z else decide (r.1 < 0)) r.1.natAbs r.2, false)

end Sys2Proof.Machine
end

