-- ==== Sys2Proof/Config.lean ====
section
/-!
DEFINITION. Config.lean: what an implementation fixes and the spec leaves to it, and the free values: constants without a body, of
which no proof can know a value.
-/
namespace Sys2Proof

/-- Lines a core's L1D holds (R10: 64 KiB) with 64-byte lines; log entry 12. -/
def Config.l1Lines : Nat := 1024

/-- Which of several faulting bytes FADDR names (R248: not specified): an index into them, taken modulo their number. -/
opaque Config.faddrPick : Nat → Nat

/-- Whether an element of a command that fails is performed (R248: any subset), by draw and element. -/
opaque Config.elemDone : Nat → Nat → Bool

/-- Whether a word of a handle keeps its old value when an MXWR met poison (R160: its old or its new value), by draw. -/
opaque Config.keepWord : Nat → Bool

/-- SHA-384 of a message (R355), 48 bytes; only its identity matters here. -/
opaque Config.sha384 : List Byte → List Byte

/-- The firmware image that the boot ROM measures (R355), and the boot ROM's version. -/
opaque Config.firmware : List Byte
opaque Config.romVersion : List Byte

/-- The certificate chain of slot 0, and a signature by the fused identity key over a message, by draw (R355). -/
opaque Config.certChain : List Byte
opaque Config.sign : Nat → List Byte → List Byte

/-- Random bytes of a responder's nonce (R355), by draw. -/
opaque Config.nonce : Nat → List Byte

/-- A word that the spec leaves open (a failed read of the scheduler, the value of a failed chain), by draw. -/
opaque Config.openWord : Nat → BitVec 64

end Sys2Proof
end

