-- ==== Sys2Proof/WellFormed.lean ====
section
/-!
DEFINITION. WellFormed.lean: what R30 item 2 calls an undefined field value or a reserved register code, on a decoded instruction:
operand classes (R34), register groups (R35), the formats an entry accepts, and the value limits of the entries. A word whose
instruction is not well formed traps with ILLOP. Also what the operands of an instruction are (R34), for the checks that go
by operand: the stream feature (R57) and the stagger of a frame (R46).
-/
namespace Sys2Proof

/-- An operand with its class (R34, R35): a scalar, vector, mask, handle or timeline code, a scalar group D..D+k, a vector pair,
a stream code, a port code. `s` and `v` may be ports and streams. -/
inductive Operand where
  | s (r : Reg)
  | v (r : Reg)
  | k (r : Reg)
  | acc (r : Reg)
  | tl (r : Reg)
  | sgrp (r : Reg) (n : Nat)
  | vpair (r : Reg)
  | strm (r : Reg)
  | port (r : Reg)
  deriving DecidableEq, Repr

/-- The code is one the class allows (R34, R35). -/
def Operand.ok : Operand → Bool
  | .s _ => true
  | .v r => decide (r.toNat < 40)
  | .k r => decide (r.toNat < 8)
  | .acc r => decide (r.toNat < 16)
  | .tl r => decide (r.toNat < 4)
  | .sgrp r n => decide (1 ≤ r.toNat) && decide (r.toNat + n ≤ 55)
  | .vpair r => decide (r.toNat ≤ 30)
  | .strm r => decide (32 ≤ r.toNat) && decide (r.toNat < 40)
  | .port r => decide (56 ≤ r.toNat)

/-- The operand is a stream code (R57: STRM). -/
def Operand.isStream : Operand → Bool
  | .v r => decide (32 ≤ r.toNat) && decide (r.toNat < 40)
  | .strm _ => true
  | _ => false

/-- A B operand of page B, scalar when broadcast (R87). -/
def bcOp (bc : Bool) (r : Reg) : Operand := if bc then .s r else .v r

/-- The register operands of an instruction, D first, then A, B, C (R34); the event rows have none. -/
def Instr.operands : Instr → List Operand
  | .nop | .endTask | .yield | .uiret | .eret | .park => []
  | .trap _ => []
  | .gong a | .gongRelease a => [.s a]
  | .add d a b | .sub d a b | .and d a b | .or d a b | .xor d a b | .andn d a b | .shl d a b | .shr d a b | .sra d a b | .rol d a b => [.s d, .s a, .s b]
  | .min d a b | .max d a b | .minu d a b | .maxu d a b | .slt d a b | .sltu d a b | .seq d a b | .mul d a b | .mulh d a b | .mulhu d a b | .div d a b | .divu d a b | .rem d a b | .remu d a b | .adds d a b | .subs d a b => [.s d, .s a, .s b]
  | .clz d a | .ctz d a | .popc d a | .bswap d a => [.s d, .s a]
  | .addi d a _ | .andi d a _ | .ori d a _ | .xori d a _ | .slti d a _ | .sltiu d a _ | .shli d a _ | .shri d a _ | .srai d a _ => [.s d, .s a]
  | .li d _ | .lui d _ => [.s d]
  | .ldb d a _ | .ldbu d a _ | .ldh d a _ | .ldhu d a _ | .ldw d a _ | .ldwu d a _ | .ldd d a _ => [.s d, .s a]
  | .stb b a _ | .sth b a _ | .stw b a _ | .std b a _ => [.s a, .s b]
  | .beq a b _ | .bne a b _ | .blt a b _ | .bge a b _ | .bltu a b _ | .bgeu a b _ => [.s a, .s b]
  | .j _ | .call _ => []
  | .jr d a => [.s d, .s a]
  | .bk _ _ _ => []
  | .lea d a b _ => [.s d, .s a, .s b]
  | .fadd _ d a b | .fsub _ d a b | .fmul _ d a b | .fdiv _ d a b | .fmin _ d a b | .fmax _ d a b | .feq _ d a b | .flt _ d a b | .fle _ d a b => [.s d, .s a, .s b]
  | .fsqrt _ d a => [.s d, .s a]
  | .fcvt _ _ d a => [.s d, .s a]
  | .sget d _ => [.s d]
  | .sset a _ => [.s a]
  | .time d => [.s d]
  | .waitt a => [.s a]
  | .carr _ _ | .cwait _ _ => []
  | .take _ d => [.s d]
  | .nexti d => [.s d]
  | .waitc _ _ _ _ => []
  | .pend d a => [.port d, .s a]
  | .ppoll d a => [.s d, .port a]
  | .kand d a b | .kor d a b | .kxor d a b => [.k d, .k a, .k b]
  | .knot d a => [.k d, .k a]
  | .kpop d a | .kfirst d a | .kmovs d a => [.s d, .k a]
  | .kmovk d a => [.k d, .s a]
  | .vadd _ bc d a b | .vsub _ bc d a b | .vmul _ bc d a b | .vdiv _ bc d a b | .vmin _ bc d a b | .vmax _ bc d a b | .vand _ bc d a b | .vor _ bc d a b | .vxor _ bc d a b | .vshl _ bc d a b | .vshr _ bc d a b | .vsra _ bc d a b | .vdot _ bc d a b => [.v d, .v a, bcOp bc b]
  | .vabs _ d a | .vneg _ d a | .vsqrt _ d a | .vexp2 _ d a | .vlog2 _ d a | .vrcp _ d a | .vrsq _ d a | .vscan _ d a | .vmov _ d a | .vclass _ d a => [.v d, .v a]
  | .vceq _ bc d a b | .vclt _ bc d a b | .vcle _ bc d a b | .vcun _ bc d a b => [.k d, .v a, bcOp bc b]
  | .vreds _ d a | .vredx _ d a | .vredn _ d a => [.s d, .v a]
  | .vsort _ _ d => [.vpair d]
  | .vmrg _ _ d a => [.vpair d, .vpair a]
  | .vperm _ d a b => [.v d, .v a, .v b]
  | .vbcast _ d a => [.v d, .s a]
  | .vext _ d a b => [.s d, .v a, .s b]
  | .vins _ d a b => [.v d, .s a, .s b]
  | .viota _ d a => [.v d, .s a]
  | .vrnd _ d a b => [.v d, .s a, .s b]
  | .rnd _ _ => []
  | .prd _ _ _ => []
  | .ximm _ => []
  | .vfma _ p q d a b c | .vfms _ p q d a b c | .vfnma _ p q d a b c | .vfnms _ p q d a b c => [.v d, .v a, bcOp p b, bcOp q c]
  | .vsel _ p _ d a b => [.v d, .v a, bcOp p b]
  | .vcvt _ _ _ d a => [.v d, .v a]
  | .vqnt _ d a => [.v d, .vpair a]
  | .vdq _ d a => [.vpair d, .v a]
  | .vwscTo _ d a c => [.v d, .v a, .v c]
  | .vwscFrom _ d a => [.v d, .v a]
  | .vshuf _ d a b c => [.v d, .v a, .v b, .v c]
  | .vld _ d p | .vst _ d p | .vlds _ d p | .vsts _ d p | .vldi _ d p => [.v d, .s p.a, .s p.b]
  | .vgath _ d p | .vscat _ d p => [.v d, .s p.a, .v p.b]
  | .ldx _ d p | .ldi _ d p => [.s d, .s p.a, .s p.b]
  | .stx _ d p => [.s d, .s p.a, .s p.b]
  | .lds _ _ _ d p | .sts _ _ _ d p => [.s d, .s p.a, .s p.b]
  | .phase _ _ _ | .fence _ _ _ => []
  | .atomSwap _ _ _ d p | .atomAdd _ _ _ d p | .atomAnd _ _ _ d p | .atomOr _ _ _ d p | .atomXor _ _ _ d p | .atomMin _ _ _ d p | .atomMax _ _ _ d p | .atomMinu _ _ _ d p | .atomMaxu _ _ _ d p | .atomFadd _ _ _ d p | .atomFmin _ _ _ d p | .atomFmax _ _ _ d p => [.s d, .s p.a, .s p.b]
  | .atomCas _ _ _ d p => [.sgrp d 1, .s p.a, .s p.b]
  | .atomWs _ _ d p => [.v d, .s p.a, .s p.b]
  | .bankopAddF32 d a b c | .bankopAddF64 d a b c | .bankopAddI64 d a b c | .bankopMinF32 d a b c | .bankopMaxF32 d a b c | .bankopMinI64 d a b c | .bankopMaxI64 d a b c => [.s d, .s a, .s b, .s c]
  | .bankopWs d a b c => [.v d, .s a, .s b, .v c]
  | .bari d p | .bara d p | .barw d p | .barx d p | .slotacq d p | .slotwait d p | .slotrel d p | .slotrelFull d p => [.s d, .s p.a, .s p.b]
  | .sbind _ d a b => [.strm d, .s a, .s b]
  | .sdrain d => [.strm d]
  | .pbind d a => [.port d, .s a]
  | .tlwait t a _ | .tlget t a _ | .tlset t a _ => [.tl t, .s a]
  | .cmaskC a _ | .cmaskD a _ => [.s a]
  | .cmaskDc a b _ => [.s a, .s b]
  | .cpy p | .credAddF32 p | .credAddF64 p | .credAddI32 p | .credMinF32 p | .credMaxF32 p | .credMinI32 p | .credMaxI32 p | .credWs p | .chase p | .repart p => [.s p.d, .s p.a]
  | .cflag p b | .cflagAdd p b => [.s p.d, .s p.a, .s b]
  | .mxq d a => [.s d, .s a]
  | .mxz d a _ => [.acc d, .s a]
  | .mxzFree d => [.acc d]
  | .mxrd _ d a b => [.acc d, .s a, .s b]
  | .mxwr d a b => [.acc d, .s a, .s b]
  | .rcfg d a b c | .rtab d a b c => [.s d, .s a, .s b, .s c]
  | .rstep _ _ d a b => [.s d, .s a, .s b]
  | .rgen d a => [.s d, .s a]
  | .launch d a => [.s d, .s a]
  | .qpush d a b => [.s d, .s a, .s b]
  | .lvget _ _ d b => [.sgrp d 3, .s b]
  | .lvset d a b c | .lvsetReseat d a b c => [.s d, .s a, .s b, .s c]
  | .rpt _ a _ _ _ _ _ => [.s a]
  | .liw d _ | .lihi d _ => [.s d]
  | .sel d a b c | .madd d a b c => [.s d, .s a, .s b, .s c]
  | .tlbiVa _ a => [.s a]
  | .tlbiAll _ => []
  | .sresume d a | .sresumeAbandon d a => [.s d, .s a]
  | .sresumeGet d a b => [.sgrp d 1, .s a, .s b]
  | .sresumePut d a b c => [.s d, .s a, .s b, .s c]
  | .homeRetryGrant | .streamPrefetch | .streamWriteOut | .portWordDelivery | .commandReleaseStart
  | .copyNotbeforeStart | .credRankContribution | .copyCommandComplete | .chaseStep | .chaseResult
  | .repartCollective | .repartComplete | .matrixBindGrant | .matrixOperationStart | .matrixRowGroup
  | .matrixResume | .matrixComplete | .ruleHalfStep | .ruleResume | .ruleAbandon | .ruleCommandComplete
  | .rptIteration | .lresume | .launchAbandon | .launchctlBadcmd | .loadReturn | .storePerformed | .pageTableWalk
  | .dconfReport | .userInterruptEntry | .faultMessagePost | .contextSave | .contextRestore | .launchArrival
  | .predicateRead | .causalValidation | .teamAdmission | .taskStart | .stealRequest | .causalDispatch
  | .homeEligibilityTimeout | .launchCompletion | .allocationRelease | .migrationHold | .migrationRelease
  | .fabricCellArrival | .fabricSlot | .incarnAnnouncement | .linkCrcRetry | .linkRetrain | .timeCounterTick
  | .ptpSync | .syncTimeout | .referencePulse | .correctedError | .uncorrectableError | .voltageDroop
  | .lifetimeRecordFlush | .thermalInterval | .moduleReset | .functionLevelReset | .link1Reset | .overTemperature
  | .hostQueueTailWrite | .hostQueueControlWrite | .registerWrite | .hostBar2Access | .wrpcb | .peeract | .rdlife
  | .wrflow | .mgmtBadcmd | .getVersion | .getCapabilities | .negotiateAlgorithms | .getDigests | .getCertificate
  | .challenge | .getMeasurements | .pldmMonitoring | .mctpRdlife | .rdtime | .wrcfg | .unassignedEncoding
  | .partitionReady | .powerLoss | .coolantAlarm => []

/-- FP32, BF16, FP16, FP64. -/
def Fmt.isFp4 : Fmt → Bool
  | .f32 | .bf16 | .f16 | .f64 => true
  | _ => false

/-- INT8, INT4, INT32. -/
def Fmt.isInt : Fmt → Bool
  | .i8 | .i4 | .i32 => true
  | _ => false

/-- The codes 0x8 to 0xC. -/
def Fmt.isBlock : Fmt → Bool
  | .bx8e4 | .bx8e5 | .bx4 | .bxi8 | .cb2 => true
  | _ => false

/-- 4-bit elements (R85: CB2 counts as 4 bits). -/
def Fmt.is4 : Fmt → Bool
  | .f4 | .i4 | .bx4 | .cb2 => true
  | _ => false

/-- Element width in bits (R60, R85). -/
def Fmt.width : Fmt → Nat
  | .f32 | .i32 => 32
  | .bf16 | .f16 => 16
  | .e4 | .e5 | .i8 | .bx8e4 | .bx8e5 | .bxi8 => 8
  | .f4 | .i4 | .bx4 | .cb2 => 4
  | .f64 => 64

/-- Formats of VCVT (R117). -/
def Fmt.isCvt (f : Fmt) : Bool := !f.isBlock

/-- Formats of the compares and reductions (R114, R121). -/
def Fmt.isCmp (f : Fmt) : Bool := f.isFp4 || f == .i8 || f == .i32

/-- q of R117. -/
def cvtQ (s t : Fmt) : Nat := max s.width t.width / min s.width t.width

/-- The system register numbers that R55 lists. -/
def sysRegKnown (n : Nat) : Bool :=
  decide (n ≤ 0x004) || (decide (0x010 ≤ n) && decide (n ≤ 0x012)) || n == 0x020 || (decide (0x030 ≤ n) && decide (n ≤ 0x033))
    || (decide (0x040 ≤ n) && decide (n ≤ 0x043)) || n == 0x050 || n == 0x051 || n == 0x060

/-- The format and value limits of each entry, beyond the operand classes. -/
def Instr.limits : Instr → Bool
  | .vadd f _ _ _ _ | .vsub f _ _ _ _ | .vmul f _ _ _ _ | .vmin f _ _ _ _ | .vmax f _ _ _ _ => f.isFp4 || f.isInt
  | .vdiv f _ _ _ _ => f.isFp4
  | .vabs f _ _ | .vneg f _ _ => f.isFp4 || f.isInt
  | .vsqrt f _ _ => f.isFp4
  | .vexp2 f _ _ | .vlog2 f _ _ | .vrcp f _ _ | .vrsq f _ _ => f == .f32 || f == .bf16 || f == .f16
  | .vand f _ _ _ _ | .vor f _ _ _ _ | .vxor f _ _ _ _ => !f.isBlock
  | .vshl f _ _ _ _ | .vshr f _ _ _ _ | .vsra f _ _ _ _ => f.isInt
  | .vceq f _ _ _ _ | .vclt f _ _ _ _ | .vcle f _ _ _ _ => f.isCmp
  | .vcun f _ _ _ _ => f.isFp4
  | .vreds f _ _ | .vredx f _ _ | .vredn f _ _ | .vscan f _ _ => f.isCmp
  | .vsort f _ _ => f == .f32 || f == .i32
  | .vmrg f _ _ _ => f == .f32 || f == .i32
  | .vperm f _ _ _ | .vext f _ _ _ | .vins f _ _ _ => !f.isBlock
  | .vbcast f _ _ | .vmov f _ _ => !f.isBlock
  | .viota f _ _ => f.isInt
  | .vrnd f _ _ _ => f == .f32 || f == .i32
  | .vclass f _ _ => f.isFp4
  | .vdot f _ _ _ _ => f == .bf16 || f == .f16 || f == .e4 || f == .e5 || f == .f4 || f == .i8 || f == .i4
  | .vfma f _ _ _ _ _ _ | .vfms f _ _ _ _ _ _ | .vfnma f _ _ _ _ _ _ | .vfnms f _ _ _ _ _ _ => f.isFp4
  | .vsel f _ _ _ _ _ => !f.isBlock
  | .vcvt s t p _ _ => s.isCvt && t.isCvt && s != t && decide (p.toNat < cvtQ s t)
  | .vqnt f _ _ => f.isBlock && f != .cb2
  | .vdq f _ _ => f.isBlock && f != .cb2
  | .vwscTo f _ _ _ => f == .f32 || f == .bf16 || f == .f16 || (f.isBlock && f != .cb2)
  | .vwscFrom f _ _ => f.isFp4
  | .vshuf f _ _ _ _ => !f.isBlock && !f.is4
  | .vlds f _ _ | .vsts f _ _ => !f.is4
  | .vgath f _ _ | .vscat f _ _ => f == .f32 || f == .f64 || f == .i32
  | .fcvt s t _ _ => s != t
  | .tlwait _ a i => a == 0 || i == 0
  | .tlget _ _ i => decide (i.toNat < 3)
  | .tlset _ _ i => decide (i.toNat < 4)
  | .mxz _ a i => a == 0 || i == 0
  | .rstep q n _ _ b => if q then n == 0 else b == 0
  | .lvget q n _ b => decide (n.toNat ≤ 8) && (q || b == 0)
  | .rpt q a n _ _ _ _ => if q then n == 0 else a == 0
  | .tlbiVa s _ => s != .system
  | .tlbiAll s => s != .system
  | .phase a r _ => a || r
  | .fence a r _ => a || r
  | .atomSwap _ _ _ _ _ | .atomCas _ _ _ _ _ | .atomAdd _ _ _ _ _ | .atomAnd _ _ _ _ _ | .atomOr _ _ _ _ _ | .atomXor _ _ _ _ _ | .atomMin _ _ _ _ _ | .atomMax _ _ _ _ _ | .atomMinu _ _ _ _ _ | .atomMaxu _ _ _ _ _ | .atomFadd _ _ _ _ _ | .atomFmin _ _ _ _ _ | .atomFmax _ _ _ _ _ => true
  | .sget _ n => sysRegKnown n.toNat
  | .sset _ n => sysRegKnown n.toNat
  | .trap .. | .gong .. | .gongRelease .. | .add .. | .sub .. | .and .. | .or .. | .xor .. | .andn .. | .shl ..
  | .shr .. | .sra .. | .rol .. | .min .. | .max .. | .minu .. | .maxu .. | .slt .. | .sltu .. | .seq .. | .mul ..
  | .mulh .. | .mulhu .. | .div .. | .divu .. | .rem .. | .remu .. | .adds .. | .subs .. | .clz .. | .ctz ..
  | .popc .. | .bswap .. | .addi .. | .andi .. | .ori .. | .xori .. | .slti .. | .sltiu .. | .shli .. | .shri ..
  | .srai .. | .li .. | .lui .. | .ldb .. | .ldbu .. | .ldh .. | .ldhu .. | .ldw .. | .ldwu .. | .ldd .. | .stb ..
  | .sth .. | .stw .. | .std .. | .beq .. | .bne .. | .blt .. | .bge .. | .bltu .. | .bgeu .. | .j .. | .call ..
  | .jr .. | .bk .. | .lea .. | .fadd .. | .fsub .. | .fmul .. | .fdiv .. | .fsqrt .. | .fmin .. | .fmax .. | .feq ..
  | .flt .. | .fle .. | .time .. | .waitt .. | .carr .. | .cwait .. | .take .. | .nexti .. | .waitc .. | .pend ..
  | .ppoll .. | .kand .. | .kor .. | .kxor .. | .knot .. | .kpop .. | .kfirst .. | .kmovs .. | .kmovk .. | .rnd ..
  | .prd .. | .ximm .. | .vld .. | .vst .. | .ldx .. | .stx .. | .ldi .. | .vldi .. | .lds .. | .sts .. | .atomWs ..
  | .bankopAddF32 .. | .bankopAddF64 .. | .bankopAddI64 .. | .bankopMinF32 .. | .bankopMaxF32 .. | .bankopMinI64 ..
  | .bankopMaxI64 .. | .bankopWs .. | .bari .. | .bara .. | .barw .. | .barx .. | .slotacq .. | .slotwait ..
  | .slotrel .. | .slotrelFull .. | .sbind .. | .sdrain .. | .pbind .. | .cmaskC .. | .cmaskD .. | .cmaskDc ..
  | .cpy .. | .credAddF32 .. | .credAddF64 .. | .credAddI32 .. | .credMinF32 .. | .credMaxF32 .. | .credMinI32 ..
  | .credMaxI32 .. | .credWs .. | .cflag .. | .cflagAdd .. | .chase .. | .repart .. | .mxq .. | .mxzFree .. | .mxrd ..
  | .mxwr .. | .rcfg .. | .rtab .. | .rgen .. | .launch .. | .qpush .. | .lvset .. | .lvsetReseat .. | .liw ..
  | .lihi .. | .sel .. | .madd .. | .sresume .. | .sresumeAbandon .. | .sresumeGet .. | .sresumePut .. | .nop ..
  | .endTask .. | .yield .. | .uiret .. | .eret .. | .park .. | .homeRetryGrant .. | .streamPrefetch ..
  | .streamWriteOut .. | .portWordDelivery .. | .commandReleaseStart .. | .copyNotbeforeStart ..
  | .credRankContribution .. | .copyCommandComplete .. | .chaseStep .. | .chaseResult .. | .repartCollective ..
  | .repartComplete .. | .matrixBindGrant .. | .matrixOperationStart .. | .matrixRowGroup .. | .matrixResume ..
  | .matrixComplete .. | .ruleHalfStep .. | .ruleResume .. | .ruleAbandon .. | .ruleCommandComplete ..
  | .rptIteration .. | .lresume .. | .launchAbandon .. | .launchctlBadcmd .. | .loadReturn .. | .storePerformed ..
  | .pageTableWalk .. | .dconfReport .. | .userInterruptEntry .. | .faultMessagePost .. | .contextSave ..
  | .contextRestore .. | .launchArrival .. | .predicateRead .. | .causalValidation .. | .teamAdmission ..
  | .taskStart .. | .stealRequest .. | .causalDispatch .. | .homeEligibilityTimeout .. | .launchCompletion ..
  | .allocationRelease .. | .migrationHold .. | .migrationRelease .. | .fabricCellArrival .. | .fabricSlot ..
  | .incarnAnnouncement .. | .linkCrcRetry .. | .linkRetrain .. | .timeCounterTick .. | .ptpSync .. | .syncTimeout ..
  | .referencePulse .. | .correctedError .. | .uncorrectableError .. | .voltageDroop .. | .lifetimeRecordFlush ..
  | .thermalInterval .. | .moduleReset .. | .functionLevelReset .. | .link1Reset .. | .overTemperature ..
  | .hostQueueTailWrite .. | .hostQueueControlWrite .. | .registerWrite .. | .hostBar2Access .. | .wrpcb ..
  | .peeract .. | .rdlife .. | .wrflow .. | .mgmtBadcmd .. | .getVersion .. | .getCapabilities ..
  | .negotiateAlgorithms .. | .getDigests .. | .getCertificate .. | .challenge .. | .getMeasurements ..
  | .pldmMonitoring .. | .mctpRdlife .. | .rdtime .. | .wrcfg .. | .unassignedEncoding .. | .partitionReady ..
  | .powerLoss .. | .coolantAlarm .. => true

/-- Well-formedness of an instruction of the opcode tables: R30 item 2 on a decoded word. A word that no row assigns is not. -/
def Instr.wf (i : Instr) : Bool :=
  (match i with | .unassignedEncoding => false | _ => true) && i.operands.all Operand.ok && i.limits

end Sys2Proof
end

