-- ==== Sys2Proof/Decode.lean ====
section
/-!
DEFINITION. Decode.lean: from words to instructions (R28 to R37, R44, R50 to R53), and back. A word is cut into its 6-bit fields
once; every format reads those. Decoding is total: what no row assigns is rejected under a name, and the core then executes the
row UNASSIGNED_ENCODING (R53). Operand classes and value limits are WellFormed's (R34, R35): a word that breaks them decodes
and traps with ILLOP as well.
-/
namespace Sys2Proof

/-- Why words are no instruction. -/
inductive Reject where
  /-- no row assigns the opcode, or a selector or reserved field has a value no row lists (R53) -/
  | unassigned
  /-- an element format code that names no format (R51) -/
  | badFormat
  /-- word 1 of a long instruction is missing (the list of bytes ends) -/
  | truncated
  deriving DecidableEq, Repr

/-- The fields of a short word or of word 0, as every short format cuts them (R31). -/
structure Fields where
  f : Reg
  b : Reg
  a : Reg
  d : Reg
  op : Reg
  sel : BitVec 2
  deriving DecidableEq, Repr

/-- Cut a word into its fields (R31). -/
def Fields.split (w : IWord) : Fields :=
  ⟨w.extractLsb' 26 6, w.extractLsb' 20 6, w.extractLsb' 14 6, w.extractLsb' 8 6, w.extractLsb' 2 6, w.extractLsb' 0 2⟩

/-- Put the fields of a word together (R31). -/
def Fields.join (x : Fields) : IWord := x.f ++ x.b ++ x.a ++ x.d ++ x.op ++ x.sel

/-- The fields of word 0 of a long instruction (R32). -/
structure Long0 where
  m : BitVec 4
  b : Reg
  a : Reg
  d : Reg
  op8 : BitVec 8
  sel : BitVec 2
  deriving DecidableEq, Repr

def Long0.split (w : IWord) : Long0 :=
  ⟨w.extractLsb' 28 4, w.extractLsb' 22 6, w.extractLsb' 16 6, w.extractLsb' 10 6, w.extractLsb' 2 8, w.extractLsb' 0 2⟩

def Long0.join (x : Long0) : IWord := x.m ++ x.b ++ x.a ++ x.d ++ x.op8 ++ x.sel

/-- Word 1 in the LR format (R32): F26 and C. -/
structure LR where
  f26 : BitVec 26
  c : Reg
  deriving DecidableEq, Repr

def LR.split (w : IWord) : LR := ⟨w.extractLsb' 6 26, w.extractLsb' 0 6⟩
def LR.join (x : LR) : IWord := x.f26 ++ x.c

/-- Word 1 in the LM format (R33). -/
structure LM where
  disp : BitVec 22
  size : BitVec 3
  scope : BitVec 3
  order : BitVec 2
  scale : BitVec 2
  deriving DecidableEq, Repr

def LM.split (w : IWord) : LM :=
  ⟨w.extractLsb' 10 22, w.extractLsb' 7 3, w.extractLsb' 4 3, w.extractLsb' 2 2, w.extractLsb' 0 2⟩

def LM.join (x : LM) : IWord := x.disp ++ x.size ++ x.scope ++ x.order ++ x.scale

/-- Element format codes (R60, R65). -/
def fmtOf (x : BitVec 4) : Option Fmt :=
  match x.toNat with
  | 0x0 => some .f32 | 0x1 => some .bf16 | 0x2 => some .f16 | 0x3 => some .e4 | 0x4 => some .e5 | 0x5 => some .f4
  | 0x6 => some .i8 | 0x7 => some .i4 | 0x8 => some .bx8e4 | 0x9 => some .bx8e5 | 0xA => some .bx4 | 0xB => some .bxi8
  | 0xC => some .cb2 | 0xD => some .f64 | 0xE => some .i32 | _ => none

/-- Kinds of FCVT (R50). -/
def cvtOf (x : BitVec 3) : CvtKind :=
  match x.toNat with
  | 0 => .f32 | 1 => .f64 | 2 => .f16 | 3 => .bf16 | 4 => .i32 | 5 => .u32 | 6 => .i64 | _ => .u64

def CvtKind.code : CvtKind → BitVec 3
  | .f32 => 0 | .f64 => 1 | .f16 => 2 | .bf16 => 3 | .i32 => 4 | .u32 => 5 | .i64 => 6 | .u64 => 7

/-- Rounding mode codes (R72). -/
def rmodeOf (x : BitVec 3) : Option RMode :=
  match x.toNat with
  | 0 => some .rne | 1 => some .rtz | 2 => some .rdn | 3 => some .rup | 4 => some .rna | 5 => some .sr | _ => none

def RMode.code : RMode → BitVec 3
  | .rne => 0 | .rtz => 1 | .rdn => 2 | .rup => 3 | .rna => 4 | .sr => 5

/-- Scope codes (R33, R185). -/
def scopeOf (x : BitVec 3) : Option Scope :=
  match x.toNat with
  | 0 => some .core | 1 => some .cluster | 2 => some .device | 3 => some .system | _ => none

def Scope.code : Scope → BitVec 3
  | .core => 0 | .cluster => 1 | .device => 2 | .system => 3

/-- The scope in two bits (R52, R348). -/
def Scope.code2 : Scope → BitVec 2
  | .core => 0 | .cluster => 1 | .device => 2 | .system => 3

def scopeOf2 (x : BitVec 2) : Scope :=
  match x.toNat with
  | 0 => .core | 1 => .cluster | 2 => .device | _ => .system

/-- Sizes of loads (R105); 7 names none. -/
def ldSizeOf (x : BitVec 3) : Option LdSize :=
  match x.toNat with
  | 0 => some .b | 1 => some .bu | 2 => some .h | 3 => some .hu | 4 => some .w | 5 => some .wu | 6 => some .d | _ => none

def LdSize.code : LdSize → BitVec 3
  | .b => 0 | .bu => 1 | .h => 2 | .hu => 3 | .w => 4 | .wu => 5 | .d => 6

/-- Sizes of stores and atomics (R105, R210). -/
def stSizeOf (x : BitVec 3) : Option StSize :=
  match x.toNat with
  | 0 => some .b | 1 => some .h | 2 => some .w | 3 => some .d | _ => none

def StSize.code : StSize → BitVec 3
  | .b => 0 | .h => 1 | .w => 2 | .d => 3

/-- The order of an atomic (R210): 0 is acquire and release together. -/
def atomOrderOf (x : BitVec 2) : Order :=
  match x.toNat with
  | 0 => .acqrel | 1 => .relaxed | 2 => .acquire | _ => .release

def Order.code : Order → BitVec 2
  | .acqrel => 0 | .relaxed => 1 | .acquire => 2 | .release => 3

/-- Conditions of BK (R100); 3 names none. -/
def maskCondOf (x : BitVec 2) : Option MaskCond :=
  match x.toNat with
  | 0 => some .any | 1 => some .all | 2 => some .none | _ => none

def MaskCond.code : MaskCond → BitVec 2
  | .any => 0 | .all => 1 | .none => 2

/-- b as one bit. -/
def b1 (b : Bool) : BitVec 1 := if b then 1 else 0

/-- A value where a condition holds. -/
def guardThen (c : Bool) (i : Instr) : Option Instr := if c then some i else none

/-- The address operands of an LM instruction that takes an index (R33). -/
def LM.op (x : LM) (w : Long0) : MemOp := ⟨w.a, w.b, x.scale, x.disp⟩

/-- 12-bit immediates: SI has them in F and B, SS and SB in F and D (R31). -/
def Fields.immSI (x : Fields) : BitVec 12 := x.f ++ x.b
def Fields.immSB (x : Fields) : BitVec 12 := x.f ++ x.d
def Fields.immSL (x : Fields) : BitVec 18 := x.f ++ x.b ++ x.a
def Fields.immSJ (x : Fields) : BitVec 24 := x.f ++ x.b ++ x.a ++ x.d

/-- Page A OP 0x00 (R50, R101): by F. -/
def decodeSys (x : Fields) : Option Instr :=
  match x.f.toNat with
  | 0 => guardThen (x.b == 0 && x.a == 0 && x.d == 0) .nop
  | 1 => guardThen (x.b == 0 && x.a == 0 && x.d == 0) .endTask
  | 2 => guardThen (x.b == 0 && x.a == 0 && x.d == 0) .yield
  | 3 => guardThen (x.b == 0 && x.a == 0 && x.d == 0) .uiret
  | 4 => guardThen (x.b == 0 && x.a == 0 && x.d == 0) .eret
  | 8 => guardThen (x.b == 0 && x.a == 0 && x.d == 0) .park
  | 5 => guardThen (x.a == 0 && x.d == 0) (.trap x.b)
  | 6 => guardThen (x.b == 0 && x.d == 0) (.gong x.a)
  | 7 => guardThen (x.b == 0 && x.d == 0) (.gongRelease x.a)
  | _ => none

/-- Page A OP 0x01 (R89): by F. -/
def decodeInt (x : Fields) : Option Instr :=
  match x.f.toNat with
  | 0 => some (.add x.d x.a x.b)
  | 1 => some (.sub x.d x.a x.b)
  | 2 => some (.and x.d x.a x.b)
  | 3 => some (.or x.d x.a x.b)
  | 4 => some (.xor x.d x.a x.b)
  | 5 => some (.andn x.d x.a x.b)
  | 6 => some (.shl x.d x.a x.b)
  | 7 => some (.shr x.d x.a x.b)
  | 8 => some (.sra x.d x.a x.b)
  | 9 => some (.rol x.d x.a x.b)
  | 10 => some (.min x.d x.a x.b)
  | 11 => some (.max x.d x.a x.b)
  | 12 => some (.minu x.d x.a x.b)
  | 13 => some (.maxu x.d x.a x.b)
  | 14 => some (.slt x.d x.a x.b)
  | 15 => some (.sltu x.d x.a x.b)
  | 16 => some (.seq x.d x.a x.b)
  | 17 => some (.mul x.d x.a x.b)
  | 18 => some (.mulh x.d x.a x.b)
  | 19 => some (.mulhu x.d x.a x.b)
  | 20 => some (.div x.d x.a x.b)
  | 21 => some (.divu x.d x.a x.b)
  | 22 => some (.rem x.d x.a x.b)
  | 23 => some (.remu x.d x.a x.b)
  | 24 => some (.adds x.d x.a x.b)
  | 25 => some (.subs x.d x.a x.b)
  | _ => none

/-- Page A OP 0x26 (R95): F[3:0] selects, F[4] is 0, F[5] is the width. -/
def decodeFps (x : Fields) : Option Instr :=
  let dbl := x.f.extractLsb' 5 1 == 1
  match (x.f.extractLsb' 0 5).toNat with
  | 0 => some (.fadd dbl x.d x.a x.b)
  | 1 => some (.fsub dbl x.d x.a x.b)
  | 2 => some (.fmul dbl x.d x.a x.b)
  | 3 => some (.fdiv dbl x.d x.a x.b)
  | 4 => guardThen (x.b == 0) (.fsqrt dbl x.d x.a)
  | 5 => some (.fmin dbl x.d x.a x.b)
  | 6 => some (.fmax dbl x.d x.a x.b)
  | 7 => some (.feq dbl x.d x.a x.b)
  | 8 => some (.flt dbl x.d x.a x.b)
  | 9 => some (.fle dbl x.d x.a x.b)
  | _ => none

/-- Page A OP 0x33 (R102): by F. -/
def decodeMask (x : Fields) : Option Instr :=
  match x.f.toNat with
  | 0 => some (.kand x.d x.a x.b)
  | 1 => some (.kor x.d x.a x.b)
  | 2 => some (.kxor x.d x.a x.b)
  | 3 => guardThen (x.b == 0) (.knot x.d x.a)
  | 4 => guardThen (x.b == 0) (.kpop x.d x.a)
  | 5 => guardThen (x.b == 0) (.kfirst x.d x.a)
  | 6 => guardThen (x.b == 0) (.kmovs x.d x.a)
  | 7 => guardThen (x.b == 0) (.kmovk x.d x.a)
  | _ => none

/-- Page A (R50): by OP. -/
def decodeA (x : Fields) : Option Instr :=
  match x.op.toNat with
  | 0x00 => decodeSys x
  | 0x01 => decodeInt x
  | 0x02 => match x.f.toNat with
    | 0 => guardThen (x.b == 0) (.clz x.d x.a)
    | 1 => guardThen (x.b == 0) (.ctz x.d x.a)
    | 2 => guardThen (x.b == 0) (.popc x.d x.a)
    | 3 => guardThen (x.b == 0) (.bswap x.d x.a)
    | _ => none
  | 0x03 => some (.addi x.d x.a x.immSI)
  | 0x04 => some (.andi x.d x.a x.immSI)
  | 0x05 => some (.ori x.d x.a x.immSI)
  | 0x06 => some (.xori x.d x.a x.immSI)
  | 0x07 => some (.slti x.d x.a x.immSI)
  | 0x08 => some (.sltiu x.d x.a x.immSI)
  | 0x09 => some (.shli x.d x.a x.immSI)
  | 0x0a => some (.shri x.d x.a x.immSI)
  | 0x0b => some (.srai x.d x.a x.immSI)
  | 0x0C => some (.li x.d x.immSL)
  | 0x0D => some (.lui x.d x.immSL)
  | 0x10 => some (.ldb x.d x.a x.immSI)
  | 0x11 => some (.ldbu x.d x.a x.immSI)
  | 0x12 => some (.ldh x.d x.a x.immSI)
  | 0x13 => some (.ldhu x.d x.a x.immSI)
  | 0x14 => some (.ldw x.d x.a x.immSI)
  | 0x15 => some (.ldwu x.d x.a x.immSI)
  | 0x16 => some (.ldd x.d x.a x.immSI)
  | 0x17 => some (.stb x.b x.a x.immSB)
  | 0x18 => some (.sth x.b x.a x.immSB)
  | 0x19 => some (.stw x.b x.a x.immSB)
  | 0x1a => some (.std x.b x.a x.immSB)
  | 0x1b => some (.beq x.a x.b x.immSB)
  | 0x1c => some (.bne x.a x.b x.immSB)
  | 0x1d => some (.blt x.a x.b x.immSB)
  | 0x1e => some (.bge x.a x.b x.immSB)
  | 0x1f => some (.bltu x.a x.b x.immSB)
  | 0x20 => some (.bgeu x.a x.b x.immSB)
  | 0x21 => some (.j x.immSJ)
  | 0x22 => some (.call x.immSJ)
  | 0x23 => guardThen (x.b == 0 && x.f == 0) (.jr x.d x.a)
  | 0x24 => match maskCondOf (x.d.extractLsb' 4 2) with
    | some c => guardThen (x.d.extractLsb' 3 1 == 0) (.bk c (x.d.extractLsb' 0 3) x.immSL)
    | none => none
  | 0x25 => guardThen (x.f.extractLsb' 3 3 == 0) (.lea x.d x.a x.b (x.f.extractLsb' 0 3))
  | 0x26 => decodeFps x
  | 0x27 => guardThen (x.b == 0) (.fcvt (cvtOf (x.f.extractLsb' 3 3)) (cvtOf (x.f.extractLsb' 0 3)) x.d x.a)
  | 0x28 => guardThen (x.a == 0) (.sget x.d x.immSI)
  | 0x29 => guardThen (x.d == 0) (.sset x.a x.immSI)
  | 0x2A => guardThen (x.a == 0 && x.b == 0 && x.f == 0) (.time x.d)
  | 0x2B => guardThen (x.d == 0 && x.b == 0 && x.f == 0) (.waitt x.a)
  | 0x2C => guardThen (x.d == 0 && x.a == 0 && x.f == 0 && x.b.extractLsb' 5 1 == 0) (.carr (x.b.extractLsb' 4 1 == 1) (x.b.extractLsb' 0 4))
  | 0x2D => guardThen (x.d == 0 && x.a == 0 && x.f == 0 && x.b.extractLsb' 5 1 == 0) (.cwait (x.b.extractLsb' 4 1 == 1) (x.b.extractLsb' 0 4))
  | 0x2E => guardThen (x.a == 0 && x.b == 0 && x.f.extractLsb' 1 5 == 0) (.take (x.f.extractLsb' 0 1 == 1) x.d)
  | 0x2F => guardThen (x.a == 0 && x.b == 0 && x.f == 0) (.nexti x.d)
  | 0x30 => some (.waitc x.d x.a x.b x.f)
  | 0x31 => guardThen (x.b == 0 && x.f == 0) (.pend x.d x.a)
  | 0x32 => guardThen (x.b == 0 && x.f == 0) (.ppoll x.d x.a)
  | 0x33 => decodeMask x
  | _ => none

/-- Page B (R51): by OP, with the format in F[3:0], the broadcast bit in F[4], the direction bit in F[5]. -/
def decodeB (x : Fields) : Except Reject Instr :=
  match fmtOf (x.f.extractLsb' 0 4) with
  | none => .error .badFormat
  | some fm =>
    let bc := x.f.extractLsb' 4 1 == 1
    let nd := x.f.extractLsb' 5 1 == 0
    let n2 := x.f.extractLsb' 4 2 == 0
    let r : Option Instr := match x.op.toNat with
      | 0x00 => guardThen nd (.vadd fm bc x.d x.a x.b)
      | 0x01 => guardThen nd (.vsub fm bc x.d x.a x.b)
      | 0x02 => guardThen nd (.vmul fm bc x.d x.a x.b)
      | 0x03 => guardThen nd (.vdiv fm bc x.d x.a x.b)
      | 0x04 => guardThen nd (.vmin fm bc x.d x.a x.b)
      | 0x05 => guardThen nd (.vmax fm bc x.d x.a x.b)
      | 0x06 => guardThen (n2 && x.b == 0) (.vabs fm x.d x.a)
      | 0x07 => guardThen (n2 && x.b == 0) (.vneg fm x.d x.a)
      | 0x08 => guardThen (n2 && x.b == 0) (.vsqrt fm x.d x.a)
      | 0x09 => guardThen (n2 && x.b == 0) (.vexp2 fm x.d x.a)
      | 0x0a => guardThen (n2 && x.b == 0) (.vlog2 fm x.d x.a)
      | 0x0b => guardThen (n2 && x.b == 0) (.vrcp fm x.d x.a)
      | 0x0c => guardThen (n2 && x.b == 0) (.vrsq fm x.d x.a)
      | 0x0d => guardThen nd (.vand fm bc x.d x.a x.b)
      | 0x0e => guardThen nd (.vor fm bc x.d x.a x.b)
      | 0x0f => guardThen nd (.vxor fm bc x.d x.a x.b)
      | 0x10 => guardThen nd (.vshl fm bc x.d x.a x.b)
      | 0x11 => guardThen nd (.vshr fm bc x.d x.a x.b)
      | 0x12 => guardThen nd (.vsra fm bc x.d x.a x.b)
      | 0x13 => guardThen nd (.vceq fm bc x.d x.a x.b)
      | 0x14 => guardThen nd (.vclt fm bc x.d x.a x.b)
      | 0x15 => guardThen nd (.vcle fm bc x.d x.a x.b)
      | 0x16 => guardThen nd (.vcun fm bc x.d x.a x.b)
      | 0x18 => guardThen (n2 && x.b == 0) (.vreds fm x.d x.a)
      | 0x19 => guardThen (n2 && x.b == 0) (.vredx fm x.d x.a)
      | 0x1a => guardThen (n2 && x.b == 0) (.vredn fm x.d x.a)
      | 0x1b => guardThen (n2 && x.b == 0) (.vscan fm x.d x.a)
      | 0x1C => guardThen (x.f.extractLsb' 4 1 == 0 && x.a == 0 && x.b == 0) (.vsort fm (!nd) x.d)
      | 0x1D => guardThen (x.f.extractLsb' 4 1 == 0 && x.b == 0) (.vmrg fm (!nd) x.d x.a)
      | 0x1E => guardThen n2 (.vperm fm x.d x.a x.b)
      | 0x1F => guardThen (n2 && x.b == 0) (.vbcast fm x.d x.a)
      | 0x20 => guardThen n2 (.vext fm x.d x.a x.b)
      | 0x21 => guardThen n2 (.vins fm x.d x.a x.b)
      | 0x22 => guardThen (n2 && x.b == 0) (.viota fm x.d x.a)
      | 0x23 => guardThen n2 (.vrnd fm x.d x.a x.b)
      | 0x24 => guardThen (n2 && x.b == 0) (.vmov fm x.d x.a)
      | 0x25 => guardThen (n2 && x.b == 0) (.vclass fm x.d x.a)
      | 0x26 => guardThen nd (.vdot fm bc x.d x.a x.b)
      | _ => none
    match r with
    | some i => .ok i
    | none => .error .unassigned

/-- Words with [1:0] = 10 (R36): the kind in [5:2]. -/
def decodeP (w : IWord) : Option Instr :=
  match (w.extractLsb' 2 4).toNat with
  | 0 => match rmodeOf (w.extractLsb' 6 3) with
    | some m => guardThen (w.extractLsb' 10 22 == 0) (.rnd m (w.extractLsb' 9 1 == 1))
    | none => none
  | 1 => guardThen (w.extractLsb' 11 21 == 0) (.prd (w.extractLsb' 10 1 == 1) (w.extractLsb' 9 1 == 1) (w.extractLsb' 6 3))
  | 2 => some (.ximm (w.extractLsb' 6 26))
  | _ => none

/-- Vector long forms that take the format in M (R52): the rest by OP8. -/
def decodeV (fm : Fmt) (x : Long0) (y : LR) (z : LM) : Option Instr :=
  let plain := z.order == 0 && z.scope == 0 && z.size == 0
  match x.op8.toNat with
  | 0x00 => guardThen (y.f26.extractLsb' 2 24 == 0) (.vfma fm (y.f26.extractLsb' 1 1 == 1) (y.f26.extractLsb' 0 1 == 1) x.d x.a x.b y.c)
  | 0x01 => guardThen (y.f26.extractLsb' 2 24 == 0) (.vfms fm (y.f26.extractLsb' 1 1 == 1) (y.f26.extractLsb' 0 1 == 1) x.d x.a x.b y.c)
  | 0x02 => guardThen (y.f26.extractLsb' 2 24 == 0) (.vfnma fm (y.f26.extractLsb' 1 1 == 1) (y.f26.extractLsb' 0 1 == 1) x.d x.a x.b y.c)
  | 0x03 => guardThen (y.f26.extractLsb' 2 24 == 0) (.vfnms fm (y.f26.extractLsb' 1 1 == 1) (y.f26.extractLsb' 0 1 == 1) x.d x.a x.b y.c)
  | 0x04 => guardThen (y.c == 0 && y.f26.extractLsb' 0 1 == 0 && y.f26.extractLsb' 5 21 == 0)
      (.vsel fm (y.f26.extractLsb' 1 1 == 1) (y.f26.extractLsb' 2 3) x.d x.a x.b)
  | 0x05 => match fmtOf (y.f26.extractLsb' 2 4) with
    | some g => guardThen (x.b == 0 && y.c == 0 && y.f26.extractLsb' 0 2 == 0 && y.f26.extractLsb' 10 16 == 0)
        (.vcvt fm g (y.f26.extractLsb' 6 4) x.d x.a)
    | none => none
  | 0x06 => guardThen (x.b == 0 && y.c == 0 && y.f26 == 0) (.vqnt fm x.d x.a)
  | 0x07 => guardThen (x.b == 0 && y.c == 0 && y.f26 == 0) (.vdq fm x.d x.a)
  | 0x08 => if y.f26 == 0 then guardThen (x.b == 0) (.vwscTo fm x.d x.a y.c)
      else guardThen (y.f26 == 4 && x.b == 0 && y.c == 0) (.vwscFrom fm x.d x.a)
  | 0x09 => guardThen (y.f26 == 0) (.vshuf fm x.d x.a x.b y.c)
  | 0x10 => guardThen plain (.vld fm x.d (z.op x))
  | 0x11 => guardThen plain (.vst fm x.d (z.op x))
  | 0x12 => guardThen plain (.vlds fm x.d (z.op x))
  | 0x13 => guardThen plain (.vsts fm x.d (z.op x))
  | 0x14 => guardThen plain (.vgath fm x.d (z.op x))
  | 0x15 => guardThen plain (.vscat fm x.d (z.op x))
  | 0x19 => guardThen plain (.vldi fm x.d (z.op x))
  | _ => none

/-- ATOM by M (R210). -/
def decodeAtom (x : Long0) (z : LM) : Option Instr :=
  match scopeOf z.scope with
  | none => none
  | some sc =>
    let o := atomOrderOf z.order
    let p := z.op x
    let dbl := z.size == 3
    let fp := z.size == 2 || z.size == 3
    match x.m.toNat, stSizeOf z.size with
    | 0, some sz => some (.atomSwap sz o sc x.d p)
    | 1, some sz => some (.atomCas sz o sc x.d p)
    | 2, some sz => some (.atomAdd sz o sc x.d p)
    | 3, some sz => some (.atomAnd sz o sc x.d p)
    | 4, some sz => some (.atomOr sz o sc x.d p)
    | 5, some sz => some (.atomXor sz o sc x.d p)
    | 6, some sz => some (.atomMin sz o sc x.d p)
    | 7, some sz => some (.atomMax sz o sc x.d p)
    | 8, some sz => some (.atomMinu sz o sc x.d p)
    | 9, some sz => some (.atomMaxu sz o sc x.d p)
    | 10, _ => guardThen fp (.atomFadd dbl o sc x.d p)
    | 11, _ => guardThen fp (.atomFmin dbl o sc x.d p)
    | 12, _ => guardThen fp (.atomFmax dbl o sc x.d p)
    | 13, _ => guardThen (z.size == 4) (.atomWs o sc x.d p)
    | _, _ => none

/-- BANKOP by M (R214). -/
def decodeBank (x : Long0) (y : LR) : Option Instr :=
  if y.f26 != 0 then none else
  match x.m.toNat with
  | 0 => some (.bankopAddF32 x.d x.a x.b y.c)
  | 1 => some (.bankopAddF64 x.d x.a x.b y.c)
  | 2 => some (.bankopAddI64 x.d x.a x.b y.c)
  | 3 => some (.bankopMinF32 x.d x.a x.b y.c)
  | 4 => some (.bankopMaxF32 x.d x.a x.b y.c)
  | 5 => some (.bankopMinI64 x.d x.a x.b y.c)
  | 6 => some (.bankopMaxI64 x.d x.a x.b y.c)
  | 7 => some (.bankopWs x.d x.a x.b y.c)
  | _ => none

/-- The posting commands by OP8 and M[2:0] (R240). -/
def decodePost (x : Long0) (y : LR) : Option Instr :=
  let p : PostOp := ⟨x.m.extractLsb' 3 1 == 1, y.f26.extractLsb' 0 1 == 1, x.d, x.a⟩
  let ok := y.c == 0 && y.f26.extractLsb' 1 25 == 0
  match x.op8.toNat, (x.m.extractLsb' 0 3).toNat with
  | 0x40, 0 => guardThen (ok && x.b == 0) (.cpy p)
  | 0x41, 0 => guardThen (ok && x.b == 0) (.credAddF32 p)
  | 0x41, 1 => guardThen (ok && x.b == 0) (.credAddF64 p)
  | 0x41, 2 => guardThen (ok && x.b == 0) (.credAddI32 p)
  | 0x41, 3 => guardThen (ok && x.b == 0) (.credMinF32 p)
  | 0x41, 4 => guardThen (ok && x.b == 0) (.credMaxF32 p)
  | 0x41, 5 => guardThen (ok && x.b == 0) (.credMinI32 p)
  | 0x41, 6 => guardThen (ok && x.b == 0) (.credMaxI32 p)
  | 0x41, 7 => guardThen (ok && x.b == 0) (.credWs p)
  | 0x42, 0 => guardThen ok (.cflag p x.b)
  | 0x42, 1 => guardThen ok (.cflagAdd p x.b)
  | 0x43, 0 => guardThen (ok && x.b == 0) (.chase p)
  | 0x44, 0 => guardThen (ok && x.b == 0) (.repart p)
  | _, _ => none

/-- The long instructions with M = 0 in the LR format (R52). -/
def decodeLR (x : Long0) (y : LR) : Option Instr :=
  let z0 := y.f26 == 0 && y.c == 0
  match x.op8.toNat with
  | 0x31 => guardThen (z0 && x.a == 0 && x.b == 0) (.sdrain x.d)
  | 0x32 => guardThen (z0 && x.b == 0) (.pbind x.d x.a)
  | 0x45 => guardThen (z0 && x.b == 0) (.mxq x.d x.a)
  | 0x46 => guardThen (y.c == 0 && y.f26.extractLsb' 1 25 == 0) (.mxrd (y.f26.extractLsb' 0 1 == 1) x.d x.a x.b)
  | 0x47 => guardThen z0 (.mxwr x.d x.a x.b)
  | 0x48 => if y.f26.extractLsb' 17 1 == 1 then guardThen (y.f26.extractLsb' 18 8 == 0 && y.f26.extractLsb' 0 17 == 0 && y.c == 0 && x.a == 0 && x.b == 0) (.mxzFree x.d)
      else guardThen (y.f26.extractLsb' 18 8 == 0 && y.c == 0 && x.b == 0) (.mxz x.d x.a (y.f26.extractLsb' 0 17))
  | 0x49 => guardThen (y.f26 == 0) (.rcfg x.d x.a x.b y.c)
  | 0x4A => guardThen (y.f26 == 0) (.rtab x.d x.a x.b y.c)
  | 0x4B => guardThen (y.c == 0 && y.f26.extractLsb' 5 21 == 0) (.rstep (y.f26.extractLsb' 4 1 == 1) (y.f26.extractLsb' 0 4) x.d x.a x.b)
  | 0x4C => guardThen (z0 && x.b == 0) (.rgen x.d x.a)
  | 0x50 => guardThen (z0 && x.b == 0) (.launch x.d x.a)
  | 0x51 => guardThen z0 (.qpush x.d x.a x.b)
  | 0x52 => guardThen (y.c == 0 && x.a == 0 && y.f26.extractLsb' 5 21 == 0) (.lvget (y.f26.extractLsb' 4 1 == 1) (y.f26.extractLsb' 0 4) x.d x.b)
  | 0x53 => if y.f26 == 0 then some (.lvset x.d x.a x.b y.c) else guardThen (y.f26 == 1) (.lvsetReseat x.d x.a x.b y.c)
  | 0x57 => guardThen (y.f26 == 0) (.sel x.d x.a x.b y.c)
  | 0x58 => guardThen (y.f26 == 0) (.madd x.d x.a x.b y.c)
  | _ => none

/-- The long instructions in the LM format but for the vector forms and ATOM (R52). -/
def decodeLM (x : Long0) (z : LM) : Option Instr :=
  let plain := z.order == 0 && z.scope == 0
  let obj := plain && z.size == 0
  let p := z.op x
  match x.op8.toNat with
  | 0x16 => match ldSizeOf z.size with | some sz => guardThen plain (.ldx sz x.d p) | none => none
  | 0x17 => match stSizeOf z.size with | some sz => guardThen plain (.stx sz x.d p) | none => none
  | 0x18 => match ldSizeOf z.size with | some sz => guardThen plain (.ldi sz x.d p) | none => none
  | 0x20 => match ldSizeOf z.size, scopeOf z.scope with
    | some sz, some sc => guardThen (z.order == 1 || z.order == 2) (.lds sz (z.order == 2) sc x.d p)
    | _, _ => none
  | 0x21 => match stSizeOf z.size, scopeOf z.scope with
    | some sz, some sc => guardThen (z.order == 1 || z.order == 3) (.sts sz (z.order == 3) sc x.d p)
    | _, _ => none
  | 0x26 => guardThen obj (.bari x.d p)
  | 0x27 => guardThen obj (.bara x.d p)
  | 0x28 => guardThen obj (.barw x.d p)
  | 0x29 => guardThen obj (.barx x.d p)
  | 0x2A => guardThen obj (.slotacq x.d p)
  | 0x2B => guardThen obj (.slotwait x.d p)
  | 0x2C => if z.size == 1 then guardThen plain (.slotrelFull x.d p) else guardThen obj (.slotrel x.d p)
  | _ => none

/-- The timeline and constant instructions in the LI format (R52, R217, R93). -/
def decodeLI (x : Long0) (imm : IWord) : Option Instr :=
  match x.op8.toNat with
  | 0x33 => guardThen (x.b == 0) (.tlwait x.d x.a imm)
  | 0x34 => guardThen (x.b == 0) (.tlget x.d x.a imm)
  | 0x35 => guardThen (x.b == 0) (.tlset x.d x.a imm)
  | 0x55 => guardThen (x.a == 0 && x.b == 0) (.liw x.d imm)
  | 0x56 => guardThen (x.a == 0 && x.b == 0) (.lihi x.d imm)
  | _ => none

/-- The long instructions in the LR format whose M is a selector (R208, R230, R221, R348, R366). -/
def decodeLRM (x : Long0) (y : LR) : Option Instr :=
  let z0 := y.f26 == 0 && y.c == 0
  let abd := x.a == 0 && x.b == 0 && x.d == 0
  let acq := x.m.extractLsb' 3 1 == 1
  let rel := x.m.extractLsb' 2 1 == 1
  let ch := y.f26.extractLsb' 0 4
  let chz := y.f26.extractLsb' 4 22 == 0 && y.c == 0 && x.d == 0
  match x.op8.toNat, x.m.toNat with
  | 0x22, _ => guardThen (z0 && abd && (acq || rel)) (.phase acq rel (scopeOf2 (x.m.extractLsb' 0 2)))
  | 0x23, _ => guardThen (z0 && abd && (acq || rel)) (.fence acq rel (scopeOf2 (x.m.extractLsb' 0 2)))
  | 0x30, 0 => guardThen z0 (.sbind false x.d x.a x.b)
  | 0x30, 1 => guardThen z0 (.sbind true x.d x.a x.b)
  | 0x36, 0 => guardThen (chz && x.b == 0) (.cmaskC x.a ch)
  | 0x36, 1 => guardThen (chz && x.b == 0) (.cmaskD x.a ch)
  | 0x36, 2 => guardThen chz (.cmaskDc x.a x.b ch)
  | 0x60, 0 => guardThen (x.b == 0 && x.d == 0 && y.c == 0 && y.f26.extractLsb' 2 24 == 0 && y.f26.extractLsb' 0 2 != 3) (.tlbiVa (scopeOf2 (y.f26.extractLsb' 0 2)) x.a)
  | 0x60, 1 => guardThen (x.b == 0 && x.d == 0 && x.a == 0 && y.c == 0 && y.f26.extractLsb' 2 24 == 0 && y.f26.extractLsb' 0 2 != 3) (.tlbiAll (scopeOf2 (y.f26.extractLsb' 0 2)))
  | 0x61, 0 => guardThen (z0 && x.b == 0) (.sresume x.d x.a)
  | 0x61, 1 => guardThen (z0 && x.b == 0) (.sresumeAbandon x.d x.a)
  | 0x61, 2 => guardThen z0 (.sresumeGet x.d x.a x.b)
  | 0x61, 3 => guardThen (y.f26 == 0) (.sresumePut x.d x.a x.b y.c)
  | _, _ => none

/-- RPT with its own word 1 (R44). -/
def decodeRpt (x : Long0) (w1 : IWord) : Option Instr :=
  guardThen (x.m.extractLsb' 1 3 == 0 && x.b == 0 && x.d == 0 && w1.extractLsb' 26 6 == 0)
    (.rpt (x.m.extractLsb' 0 1 == 1) x.a (w1.extractLsb' 10 16) (w1.extractLsb' 8 2) (w1.extractLsb' 6 2) (w1.extractLsb' 4 2) (w1.extractLsb' 0 4))

/-- Which of the groups above an OP8 belongs to. -/
inductive LongGroup where
  | vec | lm | atom | bank | post | lr | li | lrm | rpt | none
  deriving DecidableEq, Repr

/-- The groups of OP8 (R52, R53). -/
def longGroup (op8 : Nat) : LongGroup :=
  if op8 ≤ 0x09 then .vec
  else if op8 < 0x10 then .none
  else if op8 ≤ 0x15 ∨ op8 = 0x19 then .vec
  else if op8 ≤ 0x18 then .lm
  else if op8 < 0x20 then .none
  else if op8 ≤ 0x21 then .lm
  else if op8 ≤ 0x23 then .lrm
  else if op8 = 0x24 then .atom
  else if op8 = 0x25 then .bank
  else if op8 ≤ 0x2C then .lm
  else if op8 < 0x30 then .none
  else if op8 = 0x30 then .lrm
  else if op8 ≤ 0x32 then .lr
  else if op8 ≤ 0x35 then .li
  else if op8 = 0x36 then .lrm
  else if op8 < 0x40 then .none
  else if op8 ≤ 0x44 then .post
  else if op8 ≤ 0x4C then .lr
  else if op8 < 0x50 then .none
  else if op8 ≤ 0x53 then .lr
  else if op8 = 0x54 then .rpt
  else if op8 ≤ 0x56 then .li
  else if op8 ≤ 0x58 then .lr
  else if op8 < 0x60 then .none
  else if op8 ≤ 0x61 then .lrm
  else .none

/-- A long instruction from its two words (R32, R52). -/
def decodeLong (w0 w1 : IWord) : Except Reject Instr :=
  let x := Long0.split w0
  let y := LR.split w1
  let z := LM.split w1
  let op (r : Option Instr) : Except Reject Instr := match r with | some i => .ok i | none => .error .unassigned
  match longGroup x.op8.toNat with
  | .vec => match fmtOf x.m with
    | some fm => op (decodeV fm x y z)
    | none => .error .badFormat
  | .lm => if x.m == 0 then op (decodeLM x z) else .error .unassigned
  | .atom => op (decodeAtom x z)
  | .bank => op (decodeBank x y)
  | .post => op (decodePost x y)
  | .lr => if x.m == 0 then op (decodeLR x y) else .error .unassigned
  | .li => if x.m == 0 then op (decodeLI x w1) else .error .unassigned
  | .lrm => op (decodeLRM x y)
  | .rpt => op (decodeRpt x w1)
  | .none => .error .unassigned

/-- A one-word instruction (R28). -/
def decodeShort (w : IWord) : Except Reject Instr :=
  let x := Fields.split w
  let op (r : Option Instr) : Except Reject Instr := match r with | some i => .ok i | none => .error .unassigned
  if x.sel = 0 then op (decodeA x)
  else if x.sel = 1 then decodeB x
  else op (decodeP w)

/-- Whether a word starts a two-word instruction (R28). -/
def isLong (w : IWord) : Bool := w.extractLsb' 0 2 == 3

/-- An instruction from its words (R28); word 1 is read only where word 0 says it is there. -/
def decodeWords (w0 w1 : IWord) : Except Reject Instr :=
  if isLong w0 then decodeLong w0 w1 else decodeShort w0

/-- A 32-bit word from four bytes, little-endian (R2). -/
def wordOfBytes (b0 b1 b2 b3 : Byte) : IWord := b3 ++ b2 ++ b1 ++ b0

/-- The bytes of a word, little-endian. -/
def bytesOfWord (w : IWord) : List Byte := [w.extractLsb' 0 8, w.extractLsb' 8 8, w.extractLsb' 16 8, w.extractLsb' 24 8]

/-- Decode the bytes at the program counter: the instruction and how many bytes it takes. -/
def decode : List Byte → Except Reject (Instr × Nat)
  | b0 :: b1 :: b2 :: b3 :: rest =>
    let w0 := wordOfBytes b0 b1 b2 b3
    if isLong w0 then
      match rest with
      | c0 :: c1 :: c2 :: c3 :: _ => (decodeLong w0 (wordOfBytes c0 c1 c2 c3)).map (·, 8)
      | _ => .error .truncated
    else (decodeShort w0).map (·, 4)
  | _ => .error .truncated

/-- The instruction read from an instruction given as the opcode table numbers its bits: the word of nbits bits is laid out in
memory order, bits above nbits zero, and decoded. -/
def decodeTableWord (nbits w : Nat) : Option Instr :=
  let x := w % 2 ^ nbits
  match decode (bytesOfWord (BitVec.ofNat 32 x) ++ bytesOfWord (BitVec.ofNat 32 (x / 2 ^ 32))) with
  | .ok (i, _) => some i
  | .error _ => none

/-- Element format codes, the other way. -/
def Fmt.code : Fmt → BitVec 4
  | .f32 => 0x0 | .bf16 => 0x1 | .f16 => 0x2 | .e4 => 0x3 | .e5 => 0x4 | .f4 => 0x5 | .i8 => 0x6 | .i4 => 0x7
  | .bx8e4 => 0x8 | .bx8e5 => 0x9 | .bx4 => 0xA | .bxi8 => 0xB | .cb2 => 0xC | .f64 => 0xD | .i32 => 0xE

/-- A short word from its fields. -/
def sr (f b a d op : Reg) (sel : BitVec 2) : List IWord := [Fields.join ⟨f, b, a, d, op, sel⟩]

/-- A page B word (R51). -/
def pb (fm : Fmt) (dir bc : Bool) (b a d op : Reg) : List IWord := sr (b1 dir ++ b1 bc ++ fm.code) b a d op 1

/-- A long word in the LR format. -/
def lr (m : BitVec 4) (b a d : Reg) (op8 : BitVec 8) (f26 : BitVec 26) (c : Reg) : List IWord :=
  [Long0.join ⟨m, b, a, d, op8, 3⟩, LR.join ⟨f26, c⟩]

/-- A long word in the LM format. -/
def lm (m : BitVec 4) (d : Reg) (p : MemOp) (op8 : BitVec 8) (size scope : BitVec 3) (order : BitVec 2) : List IWord :=
  [Long0.join ⟨m, p.b, p.a, d, op8, 3⟩, LM.join ⟨p.disp, size, scope, order, p.scale⟩]

/-- A long word in the LI format. -/
def li (a d : Reg) (op8 : BitVec 8) (imm : IWord) : List IWord := [Long0.join ⟨0, 0, a, d, op8, 3⟩, imm]

/-- A posting command (R240). -/
def post (m : BitVec 3) (b : Reg) (op8 : BitVec 8) (p : PostOp) : List IWord :=
  lr (b1 p.release ++ m) b p.a p.d op8 (0#25 ++ b1 p.uci) 0

/-- Upper and lower six bits of a 12-bit immediate. -/
def hi6 (x : BitVec 12) : Reg := x.extractLsb' 6 6
def lo6 (x : BitVec 12) : Reg := x.extractLsb' 0 6

/-- The words of an instruction, from the same tables (R31 to R37, R44, R50 to R52); no words for an event row. -/
def encode : Instr → List IWord
  | .nop => sr 0 0 0 0 0x00 0
  | .endTask => sr 1 0 0 0 0x00 0
  | .yield => sr 2 0 0 0 0x00 0
  | .uiret => sr 3 0 0 0 0x00 0
  | .eret => sr 4 0 0 0 0x00 0
  | .park => sr 8 0 0 0 0x00 0
  | .trap c => sr 5 c 0 0 0x00 0
  | .gong a => sr 6 0 a 0 0x00 0
  | .gongRelease a => sr 7 0 a 0 0x00 0
  | .add d a b => sr 0 b a d 0x01 0
  | .sub d a b => sr 1 b a d 0x01 0
  | .and d a b => sr 2 b a d 0x01 0
  | .or d a b => sr 3 b a d 0x01 0
  | .xor d a b => sr 4 b a d 0x01 0
  | .andn d a b => sr 5 b a d 0x01 0
  | .shl d a b => sr 6 b a d 0x01 0
  | .shr d a b => sr 7 b a d 0x01 0
  | .sra d a b => sr 8 b a d 0x01 0
  | .rol d a b => sr 9 b a d 0x01 0
  | .min d a b => sr 10 b a d 0x01 0
  | .max d a b => sr 11 b a d 0x01 0
  | .minu d a b => sr 12 b a d 0x01 0
  | .maxu d a b => sr 13 b a d 0x01 0
  | .slt d a b => sr 14 b a d 0x01 0
  | .sltu d a b => sr 15 b a d 0x01 0
  | .seq d a b => sr 16 b a d 0x01 0
  | .mul d a b => sr 17 b a d 0x01 0
  | .mulh d a b => sr 18 b a d 0x01 0
  | .mulhu d a b => sr 19 b a d 0x01 0
  | .div d a b => sr 20 b a d 0x01 0
  | .divu d a b => sr 21 b a d 0x01 0
  | .rem d a b => sr 22 b a d 0x01 0
  | .remu d a b => sr 23 b a d 0x01 0
  | .adds d a b => sr 24 b a d 0x01 0
  | .subs d a b => sr 25 b a d 0x01 0
  | .clz d a => sr 0 0 a d 0x02 0
  | .ctz d a => sr 1 0 a d 0x02 0
  | .popc d a => sr 2 0 a d 0x02 0
  | .bswap d a => sr 3 0 a d 0x02 0
  | .addi d a i => sr (hi6 i) (lo6 i) a d 0x03 0
  | .andi d a i => sr (hi6 i) (lo6 i) a d 0x04 0
  | .ori d a i => sr (hi6 i) (lo6 i) a d 0x05 0
  | .xori d a i => sr (hi6 i) (lo6 i) a d 0x06 0
  | .slti d a i => sr (hi6 i) (lo6 i) a d 0x07 0
  | .sltiu d a i => sr (hi6 i) (lo6 i) a d 0x08 0
  | .shli d a i => sr (hi6 i) (lo6 i) a d 0x09 0
  | .shri d a i => sr (hi6 i) (lo6 i) a d 0x0a 0
  | .srai d a i => sr (hi6 i) (lo6 i) a d 0x0b 0
  | .li d i => sr (i.extractLsb' 12 6) (i.extractLsb' 6 6) (i.extractLsb' 0 6) d 0x0c 0
  | .lui d i => sr (i.extractLsb' 12 6) (i.extractLsb' 6 6) (i.extractLsb' 0 6) d 0x0d 0
  | .ldb d a i => sr (hi6 i) (lo6 i) a d 0x10 0
  | .ldbu d a i => sr (hi6 i) (lo6 i) a d 0x11 0
  | .ldh d a i => sr (hi6 i) (lo6 i) a d 0x12 0
  | .ldhu d a i => sr (hi6 i) (lo6 i) a d 0x13 0
  | .ldw d a i => sr (hi6 i) (lo6 i) a d 0x14 0
  | .ldwu d a i => sr (hi6 i) (lo6 i) a d 0x15 0
  | .ldd d a i => sr (hi6 i) (lo6 i) a d 0x16 0
  | .stb b a i => sr (hi6 i) b a (lo6 i) 0x17 0
  | .sth b a i => sr (hi6 i) b a (lo6 i) 0x18 0
  | .stw b a i => sr (hi6 i) b a (lo6 i) 0x19 0
  | .std b a i => sr (hi6 i) b a (lo6 i) 0x1a 0
  | .beq a b i => sr (hi6 i) b a (lo6 i) 0x1b 0
  | .bne a b i => sr (hi6 i) b a (lo6 i) 0x1c 0
  | .blt a b i => sr (hi6 i) b a (lo6 i) 0x1d 0
  | .bge a b i => sr (hi6 i) b a (lo6 i) 0x1e 0
  | .bltu a b i => sr (hi6 i) b a (lo6 i) 0x1f 0
  | .bgeu a b i => sr (hi6 i) b a (lo6 i) 0x20 0
  | .j o => sr (o.extractLsb' 18 6) (o.extractLsb' 12 6) (o.extractLsb' 6 6) (o.extractLsb' 0 6) 0x21 0
  | .call o => sr (o.extractLsb' 18 6) (o.extractLsb' 12 6) (o.extractLsb' 6 6) (o.extractLsb' 0 6) 0x22 0
  | .jr d a => sr 0 0 a d 0x23 0
  | .bk c k o => sr (o.extractLsb' 12 6) (o.extractLsb' 6 6) (o.extractLsb' 0 6) (c.code ++ 0#1 ++ k) 0x24 0
  | .lea d a b sh => sr (0#3 ++ sh) b a d 0x25 0
  | .fadd p d a b => sr (b1 p ++ 0#5) b a d 0x26 0
  | .fsub p d a b => sr (b1 p ++ 1#5) b a d 0x26 0
  | .fmul p d a b => sr (b1 p ++ 2#5) b a d 0x26 0
  | .fdiv p d a b => sr (b1 p ++ 3#5) b a d 0x26 0
  | .fsqrt p d a => sr (b1 p ++ 4#5) 0 a d 0x26 0
  | .fmin p d a b => sr (b1 p ++ 5#5) b a d 0x26 0
  | .fmax p d a b => sr (b1 p ++ 6#5) b a d 0x26 0
  | .feq p d a b => sr (b1 p ++ 7#5) b a d 0x26 0
  | .flt p d a b => sr (b1 p ++ 8#5) b a d 0x26 0
  | .fle p d a b => sr (b1 p ++ 9#5) b a d 0x26 0
  | .fcvt t s d a => sr (t.code ++ s.code) 0 a d 0x27 0
  | .sget d n => sr (hi6 n) (lo6 n) 0 d 0x28 0
  | .sset a n => sr (hi6 n) (lo6 n) a 0 0x29 0
  | .time d => sr 0 0 0 d 0x2A 0
  | .waitt a => sr 0 0 a 0 0x2B 0
  | .carr v c => sr 0 (0#1 ++ b1 v ++ c) 0 0 0x2C 0
  | .cwait v c => sr 0 (0#1 ++ b1 v ++ c) 0 0 0x2D 0
  | .take n d => sr (0#5 ++ b1 n) 0 0 d 0x2E 0
  | .nexti d => sr 0 0 0 d 0x2F 0
  | .waitc l s c t => sr t c s l 0x30 0
  | .pend d a => sr 0 0 a d 0x31 0
  | .ppoll d a => sr 0 0 a d 0x32 0
  | .kand d a b => sr 0 b a d 0x33 0
  | .kor d a b => sr 1 b a d 0x33 0
  | .kxor d a b => sr 2 b a d 0x33 0
  | .knot d a => sr 3 0 a d 0x33 0
  | .kpop d a => sr 4 0 a d 0x33 0
  | .kfirst d a => sr 5 0 a d 0x33 0
  | .kmovs d a => sr 6 0 a d 0x33 0
  | .kmovk d a => sr 7 0 a d 0x33 0
  | .vadd f v d a b => pb f false v b a d 0x00
  | .vsub f v d a b => pb f false v b a d 0x01
  | .vmul f v d a b => pb f false v b a d 0x02
  | .vdiv f v d a b => pb f false v b a d 0x03
  | .vmin f v d a b => pb f false v b a d 0x04
  | .vmax f v d a b => pb f false v b a d 0x05
  | .vabs f d a => pb f false false 0 a d 0x06
  | .vneg f d a => pb f false false 0 a d 0x07
  | .vsqrt f d a => pb f false false 0 a d 0x08
  | .vexp2 f d a => pb f false false 0 a d 0x09
  | .vlog2 f d a => pb f false false 0 a d 0x0a
  | .vrcp f d a => pb f false false 0 a d 0x0b
  | .vrsq f d a => pb f false false 0 a d 0x0c
  | .vand f v d a b => pb f false v b a d 0x0d
  | .vor f v d a b => pb f false v b a d 0x0e
  | .vxor f v d a b => pb f false v b a d 0x0f
  | .vshl f v d a b => pb f false v b a d 0x10
  | .vshr f v d a b => pb f false v b a d 0x11
  | .vsra f v d a b => pb f false v b a d 0x12
  | .vceq f v d a b => pb f false v b a d 0x13
  | .vclt f v d a b => pb f false v b a d 0x14
  | .vcle f v d a b => pb f false v b a d 0x15
  | .vcun f v d a b => pb f false v b a d 0x16
  | .vreds f d a => pb f false false 0 a d 0x18
  | .vredx f d a => pb f false false 0 a d 0x19
  | .vredn f d a => pb f false false 0 a d 0x1a
  | .vscan f d a => pb f false false 0 a d 0x1b
  | .vsort f n d => pb f n false 0 0 d 0x1C
  | .vmrg f n d a => pb f n false 0 a d 0x1D
  | .vperm f d a b => pb f false false b a d 0x1e
  | .vbcast f d a => pb f false false 0 a d 0x1f
  | .vext f d a b => pb f false false b a d 0x20
  | .vins f d a b => pb f false false b a d 0x21
  | .viota f d a => pb f false false 0 a d 0x22
  | .vrnd f d a b => pb f false false b a d 0x23
  | .vmov f d a => pb f false false 0 a d 0x24
  | .vclass f d a => pb f false false 0 a d 0x25
  | .vdot f v d a b => pb f false v b a d 0x26
  | .rnd m s => [0#22 ++ b1 s ++ m.code ++ 0#4 ++ 2#2]
  | .prd z i k => [0#21 ++ b1 z ++ b1 i ++ k ++ 1#4 ++ 2#2]
  | .ximm i => [i ++ 2#4 ++ 2#2]
  | .vfma f p q d a b c => lr f.code b a d 0x00 (0#24 ++ b1 p ++ b1 q) c
  | .vfms f p q d a b c => lr f.code b a d 0x01 (0#24 ++ b1 p ++ b1 q) c
  | .vfnma f p q d a b c => lr f.code b a d 0x02 (0#24 ++ b1 p ++ b1 q) c
  | .vfnms f p q d a b c => lr f.code b a d 0x03 (0#24 ++ b1 p ++ b1 q) c
  | .vsel f p k d a b => lr f.code b a d 0x04 (0#21 ++ k ++ b1 p ++ 0#1) 0
  | .vcvt s t p d a => lr s.code 0 a d 0x05 (0#16 ++ p ++ t.code ++ 0#2) 0
  | .vqnt f d a => lr f.code 0 a d 0x06 0 0
  | .vdq f d a => lr f.code 0 a d 0x07 0 0
  | .vwscTo f d a c => lr f.code 0 a d 0x08 0 c
  | .vwscFrom f d a => lr f.code 0 a d 0x08 4 0
  | .vshuf f d a b c => lr f.code b a d 0x09 0 c
  | .vld f d p => lm f.code d p 0x10 0 0 0
  | .vst f d p => lm f.code d p 0x11 0 0 0
  | .vlds f d p => lm f.code d p 0x12 0 0 0
  | .vsts f d p => lm f.code d p 0x13 0 0 0
  | .vgath f d p => lm f.code d p 0x14 0 0 0
  | .vscat f d p => lm f.code d p 0x15 0 0 0
  | .vldi f d p => lm f.code d p 0x19 0 0 0
  | .ldx z d p => lm 0 d p 0x16 z.code 0 0
  | .stx z d p => lm 0 d p 0x17 z.code 0 0
  | .ldi z d p => lm 0 d p 0x18 z.code 0 0
  | .lds z q s d p => lm 0 d p 0x20 z.code s.code (if q then 2 else 1)
  | .sts z q s d p => lm 0 d p 0x21 z.code s.code (if q then 3 else 1)
  | .phase q r s => lr (b1 q ++ b1 r ++ s.code2) 0 0 0 0x22 0 0
  | .fence q r s => lr (b1 q ++ b1 r ++ s.code2) 0 0 0 0x23 0 0
  | .atomSwap z o s d p => lm 0 d p 0x24 z.code s.code o.code
  | .atomCas z o s d p => lm 1 d p 0x24 z.code s.code o.code
  | .atomAdd z o s d p => lm 2 d p 0x24 z.code s.code o.code
  | .atomAnd z o s d p => lm 3 d p 0x24 z.code s.code o.code
  | .atomOr z o s d p => lm 4 d p 0x24 z.code s.code o.code
  | .atomXor z o s d p => lm 5 d p 0x24 z.code s.code o.code
  | .atomMin z o s d p => lm 6 d p 0x24 z.code s.code o.code
  | .atomMax z o s d p => lm 7 d p 0x24 z.code s.code o.code
  | .atomMinu z o s d p => lm 8 d p 0x24 z.code s.code o.code
  | .atomMaxu z o s d p => lm 9 d p 0x24 z.code s.code o.code
  | .atomFadd q o s d p => lm 10 d p 0x24 (if q then 3 else 2) s.code o.code
  | .atomFmin q o s d p => lm 11 d p 0x24 (if q then 3 else 2) s.code o.code
  | .atomFmax q o s d p => lm 12 d p 0x24 (if q then 3 else 2) s.code o.code
  | .atomWs o s d p => lm 13 d p 0x24 4 s.code o.code
  | .bankopAddF32 d a b c => lr 0 b a d 0x25 0 c
  | .bankopAddF64 d a b c => lr 1 b a d 0x25 0 c
  | .bankopAddI64 d a b c => lr 2 b a d 0x25 0 c
  | .bankopMinF32 d a b c => lr 3 b a d 0x25 0 c
  | .bankopMaxF32 d a b c => lr 4 b a d 0x25 0 c
  | .bankopMinI64 d a b c => lr 5 b a d 0x25 0 c
  | .bankopMaxI64 d a b c => lr 6 b a d 0x25 0 c
  | .bankopWs d a b c => lr 7 b a d 0x25 0 c
  | .bari d p => lm 0 d p 0x26 0 0 0
  | .bara d p => lm 0 d p 0x27 0 0 0
  | .barw d p => lm 0 d p 0x28 0 0 0
  | .barx d p => lm 0 d p 0x29 0 0 0
  | .slotacq d p => lm 0 d p 0x2a 0 0 0
  | .slotwait d p => lm 0 d p 0x2b 0 0 0
  | .slotrel d p => lm 0 d p 0x2c 0 0 0
  | .slotrelFull d p => lm 0 d p 0x2C 1 0 0
  | .sbind o d a b => lr (0#3 ++ b1 o) b a d 0x30 0 0
  | .sdrain d => lr 0 0 0 d 0x31 0 0
  | .pbind d a => lr 0 0 a d 0x32 0 0
  | .tlwait d a i => li a d 0x33 i
  | .tlget d a i => li a d 0x34 i
  | .tlset d a i => li a d 0x35 i
  | .cmaskC a h => lr 0 0 a 0 0x36 (0#22 ++ h) 0
  | .cmaskD a h => lr 1 0 a 0 0x36 (0#22 ++ h) 0
  | .cmaskDc a b h => lr 2 b a 0 0x36 (0#22 ++ h) 0
  | .cpy p => post 0 0 0x40 p
  | .credAddF32 p => post 0 0 0x41 p
  | .credAddF64 p => post 1 0 0x41 p
  | .credAddI32 p => post 2 0 0x41 p
  | .credMinF32 p => post 3 0 0x41 p
  | .credMaxF32 p => post 4 0 0x41 p
  | .credMinI32 p => post 5 0 0x41 p
  | .credMaxI32 p => post 6 0 0x41 p
  | .credWs p => post 7 0 0x41 p
  | .cflag p b => post 0 b 0x42 p
  | .cflagAdd p b => post 1 b 0x42 p
  | .chase p => post 0 0 0x43 p
  | .repart p => post 0 0 0x44 p
  | .mxq d a => lr 0 0 a d 0x45 0 0
  | .mxrd f d a b => lr 0 b a d 0x46 (0#25 ++ b1 f) 0
  | .mxwr d a b => lr 0 b a d 0x47 0 0
  | .mxz d a i => lr 0 0 a d 0x48 (0#9 ++ i) 0
  | .mxzFree d => lr 0 0 0 d 0x48 0x20000 0
  | .rcfg d a b c => lr 0 b a d 0x49 0 c
  | .rtab d a b c => lr 0 b a d 0x4A 0 c
  | .rstep q n d a b => lr 0 b a d 0x4B (0#21 ++ b1 q ++ n) 0
  | .rgen d a => lr 0 0 a d 0x4C 0 0
  | .launch d a => lr 0 0 a d 0x50 0 0
  | .qpush d a b => lr 0 b a d 0x51 0 0
  | .lvget q n d b => lr 0 b 0 d 0x52 (0#21 ++ b1 q ++ n) 0
  | .lvset d a b c => lr 0 b a d 0x53 0 c
  | .lvsetReseat d a b c => lr 0 b a d 0x53 1 c
  | .rpt q a n x y z k => [Long0.join ⟨0#3 ++ b1 q, 0, a, 0, 0x54, 3⟩, 0#6 ++ n ++ x ++ y ++ z ++ k]
  | .liw d i => li 0 d 0x55 i
  | .lihi d i => li 0 d 0x56 i
  | .sel d a b c => lr 0 b a d 0x57 0 c
  | .madd d a b c => lr 0 b a d 0x58 0 c
  | .tlbiVa s a => lr 0 0 a 0 0x60 (0#24 ++ s.code2) 0
  | .tlbiAll s => lr 1 0 0 0 0x60 (0#24 ++ s.code2) 0
  | .sresume d a => lr 0 0 a d 0x61 0 0
  | .sresumeAbandon d a => lr 1 0 a d 0x61 0 0
  | .sresumeGet d a b => lr 2 b a d 0x61 0 0
  | .sresumePut d a b c => lr 3 b a d 0x61 0 c
  | .homeRetryGrant | .streamPrefetch | .streamWriteOut | .portWordDelivery | .commandReleaseStart
  | .copyNotbeforeStart | .credRankContribution | .copyCommandComplete | .chaseStep | .chaseResult
  | .repartCollective | .repartComplete | .matrixBindGrant | .matrixOperationStart | .matrixRowGroup
  | .matrixResume | .matrixComplete | .ruleHalfStep | .ruleResume | .ruleAbandon | .ruleCommandComplete
  | .rptIteration | .lresume | .launchAbandon | .launchctlBadcmd | .loadReturn | .storePerformed | .pageTableWalk
  | .dconfReport | .userInterruptEntry | .faultMessagePost | .contextSave | .contextRestore | .launchArrival
  | .predicateRead | .causalValidation | .teamAdmission | .taskStart | .stealRequest | .causalDispatch
  | .homeEligibilityTimeout | .launchCompletion | .allocationRelease | .migrationHold | .migrationRelease
  | .fabricCellArrival | .fabricSlot | .incarnAnnouncement | .linkCrcRetry | .linkRetrain | .timeCounterTick
  | .ptpSync | .syncTimeout | .referencePulse | .correctedError | .uncorrectableError | .voltageDroop
  | .lifetimeRecordFlush | .thermalInterval | .moduleReset | .functionLevelReset | .link1Reset | .overTemperature
  | .hostQueueTailWrite | .hostQueueControlWrite | .registerWrite | .hostBar2Access | .wrpcb | .peeract | .rdlife
  | .wrflow | .mgmtBadcmd | .getVersion | .getCapabilities | .negotiateAlgorithms | .getDigests | .getCertificate
  | .challenge | .getMeasurements | .pldmMonitoring | .mctpRdlife | .rdtime | .wrcfg | .unassignedEncoding
  | .partitionReady | .powerLoss | .coolantAlarm => []

/-- The bytes of an instruction as they lie in memory. -/
def encodeBytes (i : Instr) : List Byte := (encode i).flatMap bytesOfWord

/-- Whether a row has an encoding of its own: the others are events of the module's agents. -/
def Instr.coded (i : Instr) : Bool := !(encode i).isEmpty

/-- Bytes of an instruction (R28); an event row has none. -/
def Instr.len (i : Instr) : Nat := 4 * (encode i).length

end Sys2Proof
end

