-- ==== Sys2Proof/Machine/State.lean ====
section
/-!
DEFINITION. State.lean: everything the spec gives the machine, as plain data. One module (01 R10): 96 clusters of 24 cores, the
memories, the engines' posted commands, the scheduler's launches, the partitions, the fabric port, the management controller.
Maps are sparse (SMap): an unlisted key holds the map's default, which is the value after reset.
Core number = global cluster number (die·24 + cluster) · 24 + core; COREID of R15 is computed from it.
-/
namespace Sys2Proof.Machine

open Sys2Proof

/-- Trap causes of R59. -/
inductive Cause where
  | illop | feature | orphan | dslot | rptbad | align | lease | prot | peercore | memue | portlen | stream | level | brk | priv | fptrap
  deriving DecidableEq, Repr

/-- The code of a cause (R59). -/
def Cause.code : Cause → Nat
  | .illop => 0x01 | .feature => 0x02 | .orphan => 0x03 | .dslot => 0x04 | .rptbad => 0x05 | .align => 0x06 | .lease => 0x07
  | .prot => 0x08 | .peercore => 0x09 | .memue => 0x0A | .portlen => 0x0B | .stream => 0x0C | .level => 0x0E | .brk => 0x0F
  | .priv => 0x10 | .fptrap => 0x11

/-- The system registers a core holds (R55), but for those that are computed (COREID, CHIPID, INCARN, FEAT, ISAVER). -/
structure Sys where
  fpctl : Word := 0
  fpstat : Word := 0
  srseed : Word := 0
  ucivec : Word := 0
  epc : Word := 0
  ecause : Word := 0
  eval : Word := 0
  eslot : Word := 0
  dconf : Word := 0
  rptstate : Word := 0
  launchctl : Word := 0
  launchid : Word := 0
  taskkind : Word := 0
  rangeb : Word := 0
  rangee : Word := 0
  deriving DecidableEq, Repr

/-- How much of the order of writes of each line (R184) something covers: line address to the number of its first writes. -/
abbrev Bounds := SMap Nat

/-- One timeline context (R198). `out` lists the numbers issued and not complete; VALUE follows it (R199, R200). -/
structure Timeline where
  value : Word := 0
  issued : Word := 0
  ovf : Bool := false
  err : Bool := false
  out : List Nat := []
  /-- the lines of HOST that completed operations wrote, with how many writes of each the core's loads must see once a wait has returned (R199) -/
  host : Bounds := []
  deriving DecidableEq, Repr

/-- A pending user completion event (R237, R238). -/
structure UciEvent where
  tl : Nat
  num : Word
  status : Nat
  deriving DecidableEq, Repr

/-- A word in a receive queue (R234, R235): its sender's COREID, whether it is the last of its packet, whether that packet
was truncated. -/
structure RxWord where
  w : Word
  src : Nat
  srcPort : Nat
  last : Bool
  trunc : Bool
  deriving DecidableEq, Repr

/-- Receive side of a port (R233, R235): the queue and, while a packet is unfinished, the core number and port that own it. -/
structure RxPort where
  q : List RxWord := []
  owner : Option (Nat × Nat) := none
  deriving DecidableEq, Repr

/-- What had been released at an instant: at device scope or wider and by the host, and in each cluster at cluster scope or wider (R186, R298). -/
structure Pubs where
  all : Bounds := []
  cls : SMap Bounds := []
  deriving DecidableEq, Repr

/-- The banked state of R357: timelines, completion events, receive queues; and the ports with DROP set while the task is away (R234). `serial` names the task the timelines belong to
(0 before the first), so that an operation that completes after its task has ended changes no later task's context (R198). -/
structure Bank where
  tls : SMap Timeline := []
  uci : List UciEvent := []
  uciOut : Nat := 0
  rx : SMap RxPort := []
  serial : Nat := 0
  drops : List Nat := []
  deriving DecidableEq, Repr

/-- Send side of a port (R234, R235): binding as the s[A] of PBIND (none: bound to the same port of the core itself), the words
sent of an open packet and where it goes, DROP. -/
structure TxPort where
  bind : Option Word := none
  pkt : Option (Nat × Word) := none
  drop : Bool := false
  deriving DecidableEq, Repr

/-- A word an instruction sends, before the instruction commits. -/
structure TxWord where
  port : Nat
  dst : Word
  w : Word
  last : Bool
  deriving DecidableEq, Repr

/-- An item of an input stream that was read ahead: its 64 bytes, or the address at which the read met poison (R231, R370). -/
inductive StrmItem where
  | ok (v : Vec)
  | bad (addr : Word)
  deriving DecidableEq, Repr

/-- A stream (R229 to R232, R358): binding, descriptor words w0 to w4, index of the next item to pop or push, items read ahead; the 4-byte words of the next item that have been read ahead (R231). -/
structure Strm where
  bound : Bool := false
  output : Bool := false
  base : Word := 0
  desc : List Word := []
  next : Nat := 0
  buf : List StrmItem := []
  part : List Nat := []
  deriving DecidableEq, Repr

/-- A store that is not yet performed (R130, R182): which store instruction it belongs to, the physical bytes, the virtual
address of its first byte, the launch and phase count it was issued under (R203), the poison units that the whole store
instruction covers (R369); whether it is strong (R206), then with the strong accesses that must be performed before it (R191: those
below `after`); whether it still holds an issue resource (R130, R202); the output stream it was pushed to (R231); whether R203 has reported a piece of
its store in its granule, or it is not to be reported. -/
structure SbEntry where
  grp : Nat
  bytes : List (Nat × Byte)
  va : Word
  launch : Nat
  phasec : Nat
  clr : List Nat
  strong : Bool := false
  after : Nat := 0
  out : Bool := true
  strm : Option Nat := none
  quiet : Bool := false
  deriving DecidableEq, Repr

/-- A copy of a 64-byte line (R183): physical line address, bytes, how many writes of the line it holds (R184), the poisoned units in it (R369). -/
structure L1Line where
  la : Nat
  data : List Byte
  seen : Nat := 0
  bad : List Nat := []
  deriving DecidableEq, Repr

/-- Where the value of a load goes (R104 to R108, R86): nowhere; a scalar register, n bytes, sign-extended or not; a vector register, the bytes it writes and
whether it zeroes the others. -/
inductive LoadDst where
  | none
  | s (d n : Nat) (signed : Bool)
  | v (d bm : Nat) (zero : Bool)
  deriving DecidableEq, Repr

/-- A part of a load: virtual address, physical key, bytes, and at which byte of the value it stands. -/
structure LoadPart where
  va : Word
  key : Nat
  n : Nat
  pos : Nat
  deriving DecidableEq, Repr

/-- A load that has issued and takes its value later (R130, R191): identity, destination, the parts still to be read, what the others have read; whether it is strong, the launch and phase count it issued under, and how many instructions have ended since. -/
structure LateLoad where
  id : Nat
  dst : LoadDst
  parts : List LoadPart
  val : Nat
  /-- a part met poison -/
  bad : Bool
  strong : Bool
  launch : Nat
  phasec : Nat
  age : Nat
  /-- granules in which R203 has reported it -/
  told : List Nat
  deriving DecidableEq, Repr

/-- The operations of ATOM (R210). -/
inductive AtomOp where
  | swap | cas | add | and | or | xor | min | max | minu | maxu | fadd | fmin | fmax | ws
  deriving DecidableEq, Repr

/-- A read-modify-write of n bytes as it waits at a page under migration (R350). -/
structure Rmw where
  op : AtomOp
  n : Nat
  v : Nat
  v2 : Nat
  deriving DecidableEq, Repr

/-- A translation that a walk found valid (R343 to R345): partition, size code, page number, the entry's two words. -/
structure TlbEntry where
  part : Nat
  z : Nat
  vpn : Nat
  w0 : Word
  w1 : Word
  deriving DecidableEq, Repr

/-- What a core does for the launch it holds an allocation of (R296, R301, R303, R307, R359). -/
inductive TaskSt where
  /-- no task: asks the scheduler for work -/
  | idle
  /-- work assigned and not started: s1 and s2 of its start -/
  | assigned (s1 s2 : Word)
  /-- the task's context is on the core -/
  | running
  /-- saved in the save slot by a pre-emption (STATE = 1) -/
  | away
  /-- a parked task, made ready by SRESUME (R366) -/
  | ready
  /-- parked after a trap (STATE = 2) -/
  | parked
  /-- END ended the core's part in the launch (R307) -/
  | ended
  deriving DecidableEq, Repr

/-- A launch's local store allocation on a core (R296), with the state of its task there and the bank of R357 that the core
keeps for it while the task is not on the core. -/
structure Alloc where
  launch : Nat
  base : Nat
  units : Nat
  slot : Nat
  team : Nat
  trank : Nat
  csBase : Nat
  csBanks : List Nat
  csUnits : Nat
  ccBase : Nat
  ccBanks : List Nat
  ccUnits : Nat
  st : TaskSt
  /-- A step or task of the launch is current here (false after TAKE's exhausted answer). -/
  current : Bool
  coord : Word
  /-- RANGEB and RANGEE while the task is not on the core (R301, R356). -/
  rb : Word
  re : Word
  bank : Bank
  deriving DecidableEq, Repr

/-- The poisoned registers of a core (R370): scalar codes, (vector, 8-byte word) pairs, mask codes. -/
structure RegPoison where
  s : List Nat := []
  v : List (Nat × Nat) := []
  k : List Nat := []
  deriving DecidableEq, Repr

/-- One core. -/
structure Core where
  /-- s1 to s55 by number; s0 reads 0 (R34). -/
  s : SMap Word := []
  v : SMap Vec := []
  k : SMap Word := []
  /-- shadow bank of s48 to s53, by number (R238) -/
  shadow : SMap Word := []
  pc : Word := 0
  /-- the instruction at pc is a delay slot: where control passes after it (R40) -/
  slot : Option Word := none
  /-- words of the chain of modifier words before pc, oldest first, and the address of the first (R36 to R39) -/
  pfx : List IWord := []
  pfxPc : Word := 0
  sys : Sys := {}
  /-- captured frame: the words of its instructions (R45) -/
  frame : Option (List IWord) := none
  tx : SMap TxPort := []
  strm : SMap Strm := []
  bank : Bank := {}
  /-- the launch whose context is on the core; none on a supervisor core and on a free core -/
  run : Option Nat := none
  /-- a current task (R307) -/
  current : Bool := false
  coord : Word := 0
  phasec : Nat := 0
  bwait : Bool := false
  bgen : Nat := 0
  allocs : List Alloc := []
  sb : List SbEntry := []
  /-- loads issued whose value has not returned (R202) -/
  loads : Nat := 0
  l1d : List L1Line := []
  /-- lines that invariant loads keep whatever is acquired (R109, R197) -/
  l1i : List L1Line := []
  /-- lines of HOST as strong loads of this core see them, where that is not yet how the host's memory stands (R192) -/
  hview : List L1Line := []
  /-- loads whose value is still to come; the next plain load becomes one -/
  late : List LateLoad := []
  defer : Bool := false
  /-- FENCE (R191): strong stores wait for earlier accesses below relEp, strong accesses for earlier loads below acqEp, strong loads for earlier
  stores below fullEp -/
  relEp : Nat := 0
  acqEp : Nat := 0
  fullEp : Nat := 0
  /-- the identity of the atomic in hand that is queued at a page under migration, and its old value once it is performed (R350) -/
  rmw : Option (Nat × Option Nat) := none
  itlb : List TlbEntry := []
  dtlb : List TlbEntry := []
  poison : RegPoison := {}
  /-- carillon arrivals (R219) by channel (16 + channel for the device tree): 0 not arrived, else 1 + the generation bit -/
  arr : SMap Nat := []
  /-- word 0 of the instruction in hand -/
  ir : IWord := 0
  /-- words sent by the instruction in hand, committed with it -/
  txq : List TxWord := []
  /-- items pushed to output streams by the instruction in hand, committed with it: stream, index of the item, its bytes -/
  outq : List (Nat × Nat × Vec) := []
  /-- the last instruction stalled: the core waits for another agent -/
  stalled : Bool := false
  /-- a stop was requested: the core stops at its next stop point (R301) -/
  preempt : Bool := false
  /-- the GONG or TLBI in hand has taken its first effect and waits; the identity count then -/
  begun : Option Nat := none
  /-- the launch to which a QPUSH of this core is in progress (R304) -/
  pushing : Option Nat := none
  deriving DecidableEq, Repr

/-- A carillon channel (R219 to R221): member cores and arrived cores as sets of core numbers, generation bit, owner launch (0 none). -/
structure Chan where
  members : List Nat := []
  arrived : List Nat := []
  gen : Bool := false
  owner : Nat := 0
  deriving DecidableEq, Repr

/-- A scratchpad allocation of a cluster (R296): launch, team (none for the cluster allocation), offset and size in bytes; the banks it has to itself where it
is confined, none where it is interleaved. -/
structure CsAlloc where
  launch : Nat
  team : Option Nat
  base : Nat
  size : Nat
  banks : List Nat
  deriving DecidableEq, Repr

/-- An accumulator region of a matrix engine (R132): its owner (core, launch, handle, block) and its words, row·128 + column. -/
structure Region where
  owner : Option (Nat × Nat × Nat × Nat) := none
  words : SMap Nat := []
  deriving DecidableEq, Repr

/-- Cluster state. Regions are numbered 2·engine + region. -/
structure Cluster where
  /-- what cores of the cluster have released at cluster scope or wider (R186, R188) -/
  pub : Bounds := []
  /-- stores that a release at cluster scope has made visible to the cluster and that are not yet at their homes, oldest first, each with its core (R185 to R187) -/
  sb : List (Nat × SbEntry) := []
  cs : List CsAlloc := []
  l2tlb : List TlbEntry := []
  chans : SMap Chan := []
  regions : SMap Region := []
  deriving DecidableEq, Repr

/-- A latched weight set (R146): kind 0 dense, 1 sparse, 2 CB2; the row images it was loaded from, n for each block row, as the engines of its cluster read them (R150). -/
structure WSet where
  kind : Nat
  k : Nat
  n : Nat
  bfmt : Nat
  afmt : Nat
  rows : List (List Byte)
  side : List (List Byte)
  book : List Byte
  deriving DecidableEq, Repr

/-- An accumulator handle of a core in a launch (R132): the shape the latest MXZ at issue named (R160), the bound shape and regions
(cluster, 2·engine + region) of its blocks, the latched set. -/
structure Handle where
  core : Nat
  launch : Nat
  h : Nat
  named : Option (Nat × Nat)
  /-- the binding the latest MXZ asked for was refused -/
  refused : Bool
  rows : Nat
  cols : Nat
  regs : List (Nat × Nat)
  wset : Option WSet
  /-- ENDs whose release of the binding waits for the commands queued before them: commands below each number (R136) -/
  rels : List Nat
  deriving DecidableEq, Repr

/-- What a posted command is (R240, R158 to R160, R173). -/
inductive CmdKind where
  | cpy
  | cred (op : Nat)
  | cflag (add : Bool)
  | chase
  | repart
  | mxq
  | mxz (h rows cols : Nat) (free bad : Bool)
  | mxrd (h rows cols : Nat) (free : Bool)
  | mxwr (h rows cols : Nat)
  | rcfg
  | rtab
  | rstep
  deriving DecidableEq, Repr

/-- Where a posted command stands. -/
inductive CmdPhase where
  /-- posted, not started -/
  | posted
  /-- its .release condition holds, or it needs none (R243) -/
  | started
  /-- local work done, or requests out to peers; it waits for their answers (R242) -/
  | waiting
  /-- running: a matrix operation's passes, an RSTEP's generations, a chain's steps -/
  | running
  /-- parked at a stop point (R154, R170) -/
  | parked
  /-- its status is known; the completion step remains -/
  | finished
  deriving DecidableEq, Repr

/-- Progress of one member of a matrix operation (R138): DONE, RG, KB. -/
structure Member where
  done : Bool
  rg : Nat
  kb : Nat
  deriving DecidableEq, Repr

/-- A part of an item that another member of a repartition is to deliver here (R269, R270): the member's rank, the item's index there, the part's first byte, and the
item's place in RECV. -/
structure RepDue where
  rank : Nat
  idx : Nat
  off : Nat
  pos : Nat
  deriving DecidableEq, Repr

/-- A posted command (R240): its issuer, number, snapshot, and where it stands. -/
structure Cmd where
  id : Nat
  core : Nat
  /-- the cluster whose engine carries the command out -/
  ecl : Nat
  launch : Nat
  /-- COORD of the issuing task (R360) -/
  coord : Word
  serial : Nat
  part : Nat
  sup : Bool
  tl : Nat
  num : Nat
  kind : CmdKind
  release : Bool
  uci : Bool
  a : Word
  v : Word
  c : Word
  snap : List Byte
  phase : CmdPhase
  /-- store groups of the core below this number are observed by the command (R241) -/
  upto : Nat
  /-- identities of the commands that a .release waits for (R243) -/
  after : List Nat
  /-- phase count of the issuing task (R203) -/
  phasec : Nat
  /-- NOTBEFORE has been reached (R250) -/
  timed : Bool
  code : Nat
  cause : Nat
  faddr : Word
  flags : Nat
  memberFail : Nat
  members : List Member
  /-- requests to peers not yet answered: index, destination CHIPID, the number of bytes that a write carries -/
  pend : List (Nat × Nat × List Nat)
  /-- results read from peers, by request index -/
  got : List (Nat × List Byte)
  /-- units whose work is done, where an engine has done part of it; OUT has been counted down (R249) -/
  parts : List Nat
  outDone : Bool
  /-- counters of the running operation: chain step and hops, generation counts -/
  k : Nat
  hops : Nat
  addr : Word
  /-- REPART: what is still to be delivered here, and the delivered parts whose acknowledgement waits for these requests of the command (R270) -/
  due : List RepDue := []
  acks : List (List Nat × Sys2Proof.Cell) := []
  deriving DecidableEq, Repr

/-- A patch of a causal launch as the scheduler holds it (R311): `since` is the time at which it became runnable, `far`
that every core of the launch is eligible for it (R320, R321). -/
structure Patch where
  ln : Nat
  lo : Nat
  step : Nat
  nnb : Nat
  head : Nat
  claim : Bool
  held : Bool
  home : Nat
  nb : List Nat
  vp : List Word
  since : Option Nat
  far : Bool
  /-- what the commit that made it runnable had released (R298) -/
  know : Pubs := {}
  deriving DecidableEq, Repr

/-- Where a launch stands (R292, R300, R305, R306). -/
inductive LaunchSt where
  /-- queued, its checks not yet made -/
  | arrived
  /-- a conditional launch whose predicate has not been read -/
  | waiting
  /-- a causal launch whose validation remains -/
  | validating
  | ready
  deriving DecidableEq, Repr

/-- An incomplete launch (14, 15): record snapshot, the physical address of the record, who may act on it, its work. -/
structure Launch where
  id : Nat
  part : Nat
  record : List Word
  recPa : Nat
  parent : Nat
  /-- launches that its tasks submitted (R331) -/
  kids : List Nat
  issuerPrio : Nat
  st : LaunchSt
  leases : List (Nat × Nat)
  gong : Nat
  /-- RANGE: the interval, until the first core starts; ranges returned to the scheduler (R303) -/
  whole : Option (Word × Word)
  returned : List (Word × Word)
  /-- QUEUE: items and the next sequence number (R304) -/
  queue : List Word
  qseq : Nat
  /-- CAUSAL (R313): rule words and patches -/
  rule0 : Word
  rule1 : Word
  patches : List Patch
  frozen : Bool
  lost : Nat
  abandoned : Bool
  /-- completion code and detail, once decided -/
  result : Option (Nat × Nat)
  /-- the predicate word as it stood when the last predecessor completed (R305); none in it where it cannot be read -/
  pred : Option (Option Word) := none
  /-- what had been released when the launch became runnable (R197) -/
  know : Pubs := {}
  deriving DecidableEq, Repr

/-- A fault message (R360) waiting at its source. -/
structure FaultMsg where
  kind : Nat
  cause : Nat
  coreid : Nat
  epc : Word
  eval : Word
  eslot : Word
  launch : Nat
  coord : Word
  time : Word
  tl : Nat
  num : Nat
  /-- store groups below this number are performed before the post (R379) -/
  upto : Nat
  /-- where it comes from (R361): a core's number, or 2304 + the cluster of the engine -/
  src : Nat
  deriving DecidableEq, Repr

/-- A partition: the SRW fields of its control block (R340), its flow table (R256), its launch queue registers (R401), its counters. -/
structure Part where
  chain : Bool := false
  featmask : BitVec 16 := 0xFFFF
  ptbase : Nat := 0
  ptlog2 : Nat := 6
  hint0 : Nat := 0
  hint1 : Nat := 0
  albase : Nat := 0
  iwbase : Nat := 0
  niw : Nat := 0
  flows : SMap Word := []
  nextLid : Nat := 1
  gong : Nat := 0
  outbox : List FaultMsg := []
  hqbase : Nat := 0
  en : Bool := false
  log2 : Nat := 4
  tail : Nat := 0
  head : Nat := 0
  ready : Bool := false
  badbase : Bool := false
  ovr : Bool := false
  /-- the launch of each priority whose team was admitted last (R300) -/
  turn : SMap Nat := []
  /-- the mailbox command area has been written since a command there was served (R373) -/
  asked : Bool := false
  deriving DecidableEq, Repr

/-- What an engine's operation that is queued at a page under migration does there (R350), for the request of its command of that index: CFLAG's write, an element
of CRED (operation, bytes, data), the read-modify-write of a chained load's step. -/
inductive EngOp where
  | flag (add : Bool) (v : Word)
  | cred (op n x : Nat)
  | chase
  deriving DecidableEq, Repr

/-- A write held at a migrating page (R350): `plain` for one of the store buffer, with what R203 asks of it; a read-modify-write of a core (which
takes its result when it is performed) or of the host (which gets its reply then). Writer 2304 is the host, 2305 + n the engines of cluster n, 2401 the scheduler. -/
structure HeldStore where
  core : Nat
  grp : Nat
  bytes : List (Nat × Byte)
  clr : List Nat
  plain : Bool
  va : Word
  launch : Nat
  phasec : Nat
  rmw : Option Rmw := none
  quiet : Bool := false
  /-- a store that its core's cluster already saw (R186) -/
  shared : Bool := false
  /-- of an engine: the command, the index of its request, what it does -/
  eng : Option (Nat × Nat × EngOp) := none
  deriving DecidableEq, Repr

/-- A page under migration (R350): old and new physical page, length, queued stores in arrival order. -/
structure Hold where
  old : Nat
  new : Nat
  len : Nat
  q : List HeldStore
  deriving DecidableEq, Repr

/-- A refused request's ticket (R215, R332): home, core (or 2305 + the cluster of an engine), the address it names, whether an entry is reserved for it. -/
structure Ticket where
  home : Nat
  core : Nat
  addr : Nat
  granted : Bool
  deriving DecidableEq, Repr

/-- A port word on its way (R235). -/
structure Wire where
  core : Nat
  port : Nat
  dst : Nat
  dstPort : Nat
  launch : Nat
  w : Word
  last : Bool
  trunc : Bool
  deriving DecidableEq, Repr

/-- What the module knows of a peer (R258). -/
structure Peer where
  inc : BitVec 16 := 0
  active : Bool := false
  deriving DecidableEq, Repr

/-- Configuration flash (R15, R403, R404, R406): CHIPID, timing domain, grandmaster role, partition count, clock mode, CHAIN partition. -/
structure Flash where
  chip : BitVec 10
  domain : BitVec 8
  grandmaster : Bool
  nparts : Nat
  fixed : Bool
  chainPart : Nat
  featmask : BitVec 16
  deriving DecidableEq, Repr

/-- Sensors (R374, R406): temperatures of the four compute dies and the two spine dies in °C, their peaks in the interval, input power and voltage, coolant alarm. -/
structure Sensors where
  temps : List Nat
  peaks : List Nat
  power : Nat
  voltage : Nat
  coolant : Bool
  deriving DecidableEq, Repr

/-- The last plain writer of a 64-byte granule in a deterministic-mode launch (R203). -/
structure Granule where
  launch : Nat
  addr : Nat
  core : Nat
  count : Nat
  deriving DecidableEq, Repr

/-- A conflict report on its way to a core (R203, R204). -/
structure Conflict where
  core : Nat
  store : Bool
  va : Word
  deriving DecidableEq, Repr

/-- An answer of the management controller (R355, R406): to which partition's function (or I3C), its bytes. -/
structure Reply where
  part : Nat
  kind : String
  data : List Byte
  deriving DecidableEq, Repr

/-- The reply to a host read or atomic (R400, R401): the bytes; none where poison gives no data (R369). -/
structure HostReply where
  part : Nat
  data : Option (List Byte)
  deriving DecidableEq, Repr

/-- What happens next when the interleaving or the outside world has been chosen: one instruction of a core, or an event row. -/
inductive Act where
  | run (core : Nat)
  | event (i : Instr) (x : Args)
  deriving DecidableEq, Repr

/-- The module. -/
structure State where
  /-- bytes of every memory by physical address (R14), and of local stores above 2^52; unlisted: 0 -/
  mem : SMap Byte := []
  /-- poisoned units (R369) by the address of their first byte, rising -/
  mpoison : List Nat := []
  cores : SMap Core := []
  clusters : SMap Cluster := []
  /-- device carillon channels (R220, R221), and their member clusters -/
  dchans : SMap Chan := []
  /-- core mask of a device channel in a cluster (R221): key channel·96 + cluster -/
  dmask : SMap Nat := []
  /-- member clusters of a device channel (R221): channel to 96-bit set -/
  dclus : SMap Nat := []
  handles : List Handle := []
  cmds : List Cmd := []
  wires : List Wire := []
  launches : List Launch := []
  parts : SMap Part := []
  holds : List Hold := []
  tickets : List Ticket := []
  grans : List Granule := []
  /-- ranks that have contributed in the current generation of a reduction object (R214), by the object's address -/
  reds : List (Nat × List Nat) := []
  /-- where the contributions of the current generation of a group header lie (R252): header, rank, address of each element -/
  rankSlots : List (Nat × Nat × List Nat) := []
  /-- the order of writes of a line that L1D may copy (R184), newest first: writer and number of each -/
  hist : SMap (List (Nat × Nat)) := []
  /-- what has been released at device scope or wider (R186, R188) -/
  pub : Bounds := []
  /-- the writes of the host, which system scope alone includes (R185) -/
  hostPub : Bounds := []
  conflicts : List Conflict := []
  /-- identities handed to commands, tasks and store groups -/
  serial : Nat := 0
  -- fabric
  /-- acknowledgements owed to peers when a group header's generation completes (R252): header address, generation, the answer -/
  owed : List (Nat × Nat × Sys2Proof.Cell) := []
  /-- parts of rank contributions of other modules, until a contribution is whole (R252, R254) -/
  parcels : List Sys2Proof.Cell := []
  /-- chained-load packets of other modules that this module serves (R263, R353) -/
  chains : List Sys2Proof.Cell := []
  peers : SMap Peer := []
  resv : SMap (BitVec 16) := []
  cells : List Sys2Proof.Cell := []
  sent : List (Nat × Sys2Proof.Cell) := []
  /-- the first slot of each port, counted from time 0, that is still to come (R255) -/
  slots : SMap Nat := []
  /-- the announcement of INCARN has been sent on the links since reset (R258, R403) -/
  announced : Bool := false
  -- time
  time : Word := 0
  locked : Bool := false
  good : Nat := 0
  /-- LOCKED has been set since reset: the counter is stepped no more (R259) -/
  everLocked : Bool := false
  -- identity and management
  cfg : Flash
  flash : Flash
  incarn : BitVec 16
  stored : BitVec 16
  /-- lifetime counts (R374), key index·16 + field, live and in flash -/
  life : SMap Nat := []
  lifeFlash : SMap Nat := []
  sensors : Sensors
  replies : List Reply := []
  hostReplies : List HostReply := []
  powered : Bool := true
  -- the model's own fields
  agenda : List Act := []
  /-- what the event in hand acts on -/
  arg : Args := {}
  cur : Nat := 0
  budget : Nat := 64
  fresh : Nat := 0
  deriving DecidableEq, Repr

/-- Why a step stops. Each is raised by `step` alone. -/
inductive Fault where
  /-- The 54 V supply is lost (POWER_LOSS, R374): the module does nothing until a module reset stands on the agenda. Raised by
  step; safe: a machine without power runs no instruction. -/
  | powerOff
  deriving DecidableEq, Repr

/-- Why a step has no meaning. -/
inductive Refusal where
  /-- An instruction whose meaning is not written yet, by its mnemonic in the opcode table. Raised by exec's refused arms only
  (there is none when the model is whole); safe. -/
  | notModelled (mnemonic : String)
  deriving DecidableEq, Repr

/-- Instructions a core runs before the next background step when the agenda is empty. -/
def quantum0 : Nat := 64

/-- Configuration flash of a part as delivered (log entry 5). -/
def flash0 : Flash := ⟨0, 0, false, 1, true, 0, 0xFFFF⟩

/-- Reset temperatures and supply (log entry 5). -/
def sensors0 : Sensors := ⟨[25, 25, 25, 25, 25, 25], [25, 25, 25, 25, 25, 25], 0, 54, false⟩

/-- The machine right after reset (R403): memory, tables, queues and launches empty, the time counter 0, INCARN advanced from a
stored 0 to 1 (R16), the supervisor core of partition 0 about to run at address 0 (log entry 4). -/
def State.reset : State :=
  { cfg := flash0, flash := flash0, incarn := 1, stored := 1, sensors := sensors0, budget := quantum0
    parts := [(0, { chain := true })] }

end Sys2Proof.Machine
end

