-- ==== Sys2Proof/Machine/Ops.lean ====
section
/-!
DEFINITION. Ops.lean: the named operations over cores and memory that every meaning is built from: geometry and identities
(R10 to R16, R338, R339), registers, memory at its homes with poison (R183, R369), translation (R343 to R347), the checks of an
access (R103), plain and strong accesses with the store buffer and L1D copies (R182 to R191), release and acquire, saving and
restoring a context (R356 to R358), taking a trap (R359, R362) and returning from one.
-/
namespace Sys2Proof.Machine

open Sys2Proof

/-- How an instruction ends without completing: a trap (R7), a stall that altered nothing (R8), or a stall after an effect at a home
(R8: ATOM, BANKOP, TAKE), in the state given. -/
inductive Stop where
  | trap (c : Cause) (v : Word)
  | stall
  | wait (s : State)
  deriving DecidableEq, Repr

/-- A computation that may stop. -/
abbrev M (α : Type) := Except Stop α

def trapIf (b : Bool) (c : Cause) (v : Word) : M Unit := if b then .error (.trap c v) else .ok ()
def stallUnless (b : Bool) : M Unit := if b then .ok () else .error .stall

/-! ### Geometry and identities -/

/-- Cores of the module (R10). -/
def ncores : Nat := 2304

/-- Global cluster number (die·24 + cluster) of a core. -/
def clusterOf (i : Nat) : Nat := i / 24

/-- COREID of R15. -/
def coreId (i : Nat) : Nat := i / 576 * 1024 + i / 24 % 24 * 32 + i % 24

/-- The core a COREID names, if it names one (R15). -/
def coreOfId (x : Nat) : Option Nat :=
  if x / 1024 < 4 ∧ x / 32 % 32 < 24 ∧ x % 32 < 24 then some ((x / 1024 * 24 + x / 32 % 32) * 24 + x % 32) else none

/-- The partition that owns a cluster (R338). -/
def State.partOfCluster (s : State) (cl : Nat) : Nat := cl / 12 * s.cfg.nparts / 8

def State.partOf (s : State) (i : Nat) : Nat := s.partOfCluster (clusterOf i)

/-- The supervisor core of a partition (R339). -/
def State.supOf (s : State) (p : Nat) : Nat := p * (ncores / s.cfg.nparts)

/-- Whether a core is a supervisor core (R339, R342). -/
def State.isSup (s : State) (i : Nat) : Bool := i % (ncores / s.cfg.nparts) == 0

/-- The cluster groups of a partition as a set of bits (R338). -/
def State.groupsOf (s : State) (p : Nat) : Nat := (2 ^ (8 / s.cfg.nparts) - 1) * 2 ^ (p * 8 / s.cfg.nparts)

/-! ### Access to the parts of the state -/

def State.core (s : State) (i : Nat) : Core := SMap.get {} s.cores i
def State.setCore (s : State) (i : Nat) (c : Core) : State := { s with cores := SMap.set {} s.cores i c }
def State.modCore (s : State) (i : Nat) (f : Core → Core) : State := s.setCore i (f (s.core i))

/-- Change every core that is not at its default; f leaves a core at its default as it is. -/
def State.mapCores (s : State) (f : Nat → Core → Core) : State :=
  { s with cores := (s.cores.map fun p => (p.1, f p.1 p.2)).filter fun p => p.2 ≠ {} }

def State.cluster (s : State) (i : Nat) : Cluster := SMap.get {} s.clusters i
def State.setCluster (s : State) (i : Nat) (c : Cluster) : State := { s with clusters := SMap.set {} s.clusters i c }
def State.prt (s : State) (p : Nat) : Part := SMap.get {} s.parts p
def State.setPart (s : State) (p : Nat) (x : Part) : State := { s with parts := SMap.set {} s.parts p x }
def State.modPart (s : State) (p : Nat) (f : Part → Part) : State := s.setPart p (f (s.prt p))

/-- The incomplete launch of an identity in a partition. -/
def State.launch (s : State) (p id : Nat) : Option Launch := s.launches.find? fun l => l.part = p ∧ l.id = id

/-- Replace the incomplete launch of the same identity. -/
def State.setLaunch (s : State) (l : Launch) : State :=
  { s with launches := mapIf (fun x => x.part = l.part ∧ x.id = l.id) (fun _ => l) s.launches }

/-- The posted command of an identity. -/
def State.cmd (s : State) (id : Nat) : Option Cmd := s.cmds.find? fun c => c.id = id

def State.setCmd (s : State) (c : Cmd) : State := { s with cmds := mapIf (fun x => x.id = c.id) (fun _ => c) s.cmds }

/-- A fresh identity. -/
def State.tick (s : State) : State := { s with serial := s.serial + 1 }

/-- Draw a free value's index. -/
def State.draw (s : State) : State := { s with fresh := s.fresh + 1 }

/-! ### Registers -/

/-- A scalar register by number; s0 reads 0 (R34). -/
def Core.sreg (c : Core) (r : Nat) : Word := if r = 0 then 0 else SMap.get 0 c.s r

/-- Write a scalar register; a write to s0 is discarded (R35). -/
def Core.setS (c : Core) (r : Nat) (x : Word) : Core := if r = 0 then c else { c with s := SMap.set 0 c.s r x }

def Core.vreg (c : Core) (r : Nat) : Vec := SMap.get 0 c.v r
def Core.setV (c : Core) (r : Nat) (x : Vec) : Core := { c with v := SMap.set 0 c.v r x }
def Core.kreg (c : Core) (r : Nat) : Word := SMap.get 0 c.k r
def Core.setK (c : Core) (r : Nat) (x : Word) : Core := { c with k := SMap.set 0 c.k r x }

def Core.tl (c : Core) (t : Nat) : Timeline := SMap.get {} c.bank.tls t
def Core.setTl (c : Core) (t : Nat) (x : Timeline) : Core := { c with bank := { c.bank with tls := SMap.set {} c.bank.tls t x } }
def Core.txp (c : Core) (p : Nat) : TxPort := SMap.get {} c.tx p
def Core.setTxp (c : Core) (p : Nat) (x : TxPort) : Core := { c with tx := SMap.set {} c.tx p x }
def Core.rxp (c : Core) (p : Nat) : RxPort := SMap.get {} c.bank.rx p
def Core.setRxp (c : Core) (p : Nat) (x : RxPort) : Core := { c with bank := { c.bank with rx := SMap.set {} c.bank.rx p x } }
def Core.strmAt (c : Core) (q : Nat) : Strm := SMap.get {} c.strm q
def Core.setStrm (c : Core) (q : Nat) (x : Strm) : Core := { c with strm := SMap.set {} c.strm q x }

/-- The allocation of a launch on a core. -/
def Core.alloc (c : Core) (l : Nat) : Option Alloc := c.allocs.find? fun a => a.launch = l

def Core.setAlloc (c : Core) (a : Alloc) : Core := { c with allocs := mapIf (fun x => x.launch = a.launch) (fun _ => a) c.allocs }

/-- The words of the modifier chain and the first address, whichever pc a trap of the instruction in hand reports (R39). -/
def Core.unitPc (c : Core) : Word := if c.pfx.isEmpty then c.pc else c.pfxPc

/-- The core is at a stop point (R130, R235): not in a delay slot or an open packet, and no access of its is begun that a second run would repeat. A unit of
modifier words that has begun is stopped before its first word (R39). -/
def Core.atStop (c : Core) : Bool :=
  c.slot.isNone && c.late.isEmpty && c.rmw.isNone && (List.range 8).all fun p => (c.txp p).pkt.isNone

/-! ### Physical addresses (R14) -/

/-- Memory types (R12). -/
inductive MType where
  | ls | csp | cms | dev | host | peer
  deriving DecidableEq, Repr

def devSize : Nat := 2 ^ 39
def cmsBase : Nat := 2 ^ 40
def cspBase : Nat := 2 ^ 41
def hostBase : Nat := 2 ^ 51
def lsBase : Nat := 2 ^ 52

/-- The key of a byte of a core's local store. -/
def lsKey (core off : Nat) : Nat := lsBase + core * 2 ^ 17 + off

/-- Physical address of a byte of a cluster's scratchpad (R14). -/
def cspKey (cl off : Nat) : Nat := cspBase + (cl / 24 * 32 + cl % 24) * 2 ^ 22 + off

/-- The type of the memory a physical key lies in, none where nothing is there (R14). -/
def typeOfPa (a : Nat) : Option MType :=
  if a < devSize then some .dev
  else if cmsBase ≤ a ∧ a < cmsBase + 2 ^ 28 then some .cms
  else if cspBase ≤ a ∧ a < cspBase + 2 ^ 29 ∧ (a - cspBase) / 2 ^ 22 % 32 < 24 then some .csp
  else if hostBase ≤ a ∧ a < lsBase then some .host
  else if lsBase ≤ a ∧ a < lsKey ncores 0 then some .ls
  else none

/-- The cluster whose scratchpad a CSP address lies in. -/
def cspCluster (a : Nat) : Nat := (a - cspBase) / 2 ^ 22 / 32 * 24 + (a - cspBase) / 2 ^ 22 % 32

/-- A partition owns a physical address (R339): its DRAM sets, CMS banks and scratchpads; HOST is every partition's. -/
def State.owns (s : State) (p a : Nat) : Bool :=
  match typeOfPa a with
  | some .dev => bit (s.groupsOf p) (a / 2 ^ 33 % 8)
  | some .cms => bit (s.groupsOf p) ((a - cmsBase) / 2 ^ 25)
  | some .csp => s.partOfCluster (cspCluster a) == p
  | some .host => true
  | _ => false

/-! ### Memory at its homes -/

/-- What a byte of memory reads as that nothing has written since reset: 0, but for COREID in word 0 of each save slot (R358). -/
def memDefault (a : Nat) : Byte :=
  let off := (a - lsBase) % 2 ^ 17
  if lsBase ≤ a ∧ 0x1E000 ≤ off ∧ off % 0x1000 < 2 then BitVec.ofNat 8 (coreId ((a - lsBase) / 2 ^ 17) / 256 ^ (off % 0x1000)) else 0

/-- The byte at a in a memory map. -/
def Memory.get (m : SMap Byte) (a : Nat) : Byte := SMap.get (memDefault a) m a

/-- What a byte holds at its home. -/
def State.byte (s : State) (a : Nat) : Byte := Memory.get s.mem a

/-- n bytes at a, as a little-endian number. -/
def State.rd (s : State) (a n : Nat) : Nat := ofBytes ((List.range n).map fun i => s.byte (a + i))

/-- The poison unit of a byte (R369). -/
def unitOf (a : Nat) : Nat := if a < devSize then a / 128 * 128 else a / 8 * 8
def unitSize (a : Nat) : Nat := if a < devSize then 128 else 8

def State.poisoned (s : State) (a : Nat) : Bool := s.mpoison.contains (unitOf a)

/-- Put bytes into a memory map. -/
def putBytes (m : SMap Byte) : List (Nat × Byte) → SMap Byte
  | [] => m
  | (a, b) :: t => putBytes (SMap.set (memDefault a) m a b) t

/-- Whether the addresses written cover the whole unit u. -/
def coversUnit (l : List (Nat × Byte)) (u : Nat) : Bool :=
  (List.range (unitSize u)).all fun i => l.any fun p => p.1 = u + i

/-- An address whose lines L1D may hold (R12). -/
def cacheable (a : Nat) : Bool :=
  match typeOfPa a with
  | some .cms | some .dev | some .host => true
  | _ => false

/-- The lines of these bytes that L1D may copy. -/
def linesOf (l : List (Nat × Byte)) : List Nat := ((l.filter fun p => cacheable p.1).map fun p => p.1 / 64 * 64).eraseDups

/-- One write of writer w, numbered g, performed at its home (R183): the bytes, the poison of every unit that this write covers whole (R369), and
its place in the order of writes of each line (R184). -/
def State.writeBy (s : State) (w g : Nat) (l : List (Nat × Byte)) : State :=
  { s with
    mem := putBytes s.mem l
    mpoison := s.mpoison.filter fun u => !coversUnit l u
    hist := (linesOf l).foldl (fun h la => SMap.set [] h la ((w, g) :: SMap.get [] h la)) s.hist }

/-- A write of an engine, the scheduler or the host. -/
def State.write (s : State) (l : List (Nat × Byte)) : State := s.writeBy ncores s.serial l

/-- n bytes of x at a. -/
def at_ (a n x : Nat) : List (Nat × Byte) := (bytesOf n x).mapIdx fun i b => (a + i, b)

/-- Write the low n bytes of x at a. -/
def State.wr (s : State) (a n x : Nat) : State := s.write (at_ a n x)

/-- Where an address lies in a page under migration, by its old or its new place (R350). -/
def Hold.place (h : Hold) (a : Nat) : Option Nat :=
  if h.old ≤ a ∧ a < h.old + h.len then some (a - h.old)
  else if h.new ≤ a ∧ a < h.new + h.len then some (a - h.new)
  else none

/-- A page under migration covers the address (R350). -/
def State.heldAt (s : State) (a : Nat) : Bool := s.holds.any fun h => (h.place a).isSome

/-- The page under migration that queues a write to the address. The firmware's own writes to the new page are the copy of step 2 and are not queued
(`fw`: they come from a supervisor core, R350). -/
def State.holdAt (s : State) (fw : Bool) (a : Nat) : Option Hold :=
  s.holds.find? fun h => (h.place a).isSome && !(fw && decide (h.new ≤ a) && decide (a < h.new + h.len))

/-- A load of the granule waits: a write to it is queued at a page under migration, under either of its places (R350 step 2). -/
def State.granuleBusy (s : State) (a : Nat) : Bool :=
  s.holds.any fun h => match h.place a with
    | some o => h.q.any fun q => q.bytes.any fun p => (h.place p.1).map (· / 64) == some (o / 64)
    | none => false

/-- The one place of a byte that has two while its page is under migration (R350): the old one. -/
def State.alias (s : State) (a : Nat) : Nat :=
  match s.holds.find? fun h => decide (h.new ≤ a) && decide (a < h.new + h.len) with
  | some h => h.old + (a - h.new)
  | none => a

/-- Put a write into the queue of a page under migration (R350). -/
def State.queueAt (s : State) (h : Hold) (q : HeldStore) : State :=
  { s with holds := mapIf (fun x => x.old = h.old) (fun x => { x with q := x.q ++ [q] }) s.holds }

/-- The queue of a page under migration can take one more operation (R350): 64, of which each granted ticket has one reserved (R215). -/
def State.holdRoom (s : State) (h : Hold) : Bool :=
  decide (h.q.length + (s.tickets.filter fun t => t.granted && (h.place t.addr).isSome).length < 64)

/-! ### Requests of engines (R242, R350) -/

/-- A cell that answers a request or asks for no answer. -/
def cellAnswers (x : Sys2Proof.Cell) : Bool := match x.kind with | .ack .. | .chaseResult .. | .announce | .count .. => true | _ => false

/-- The number that stands for this module's own homes where a request of a command waits at a page under migration (R350): no CHIPID. -/
def ownHome : Nat := 2 ^ 10

/-- The command asks nothing more (R242, R258): requests that have not left the module, or wait at a page under migration, are withdrawn; those that have left are
still to be answered. -/
def State.withdraw (s : State) (c : Cmd) : Cmd × State :=
  let mine (x : Sys2Proof.Cell) : Bool := !cellAnswers x && decide (x.cmd = c.id) && decide (x.srcId = s.cfg.chip)
  let unsent (p : Nat × Nat × List Nat) : Bool := decide (p.2.1 = ownHome) || s.cells.any fun x => mine x && decide (x.idx = p.1)
  ({ c with pend := c.pend.filter fun p => !unsent p },
   { s with cells := s.cells.filter fun x => !mine x
            holds := s.holds.map fun h => { h with q := h.q.filter fun q => match q.eng with | some e => decide (e.1 ≠ c.id) | none => true } })

/-! ### Translation (R343 to R347) -/

/-- The unused low bits of a page of size code z (R344). -/
def pageK (z : Nat) : Nat := match z with | 0 => 0 | 1 => 5 | 2 => 9 | 3 => 13 | _ => 15

/-- The size hint of the region of a virtual address (R345). -/
def Part.hint (p : Part) (va : Nat) : Nat :=
  let r := bits va 55 52
  if r < 12 then bits p.hint0 (5 * r + 4) (5 * r) else bits p.hint1 (5 * (r - 12) + 4) (5 * (r - 12))

/-- The bucket hash of R345. -/
def bucketHash (nb : Nat) : Nat → Nat → Nat → Nat
  | 0, _, h => h
  | k + 1, y, h => if y = 0 then h else bucketHash nb k (y / nb) (h ^^^ (y % nb))

/-- What a walk finds. -/
inductive Walk where
  | found (e : TlbEntry)
  | bad
  | miss
  deriving DecidableEq, Repr

/-- One page table entry against a probe: none when it does not match (R345). -/
def entryMatch (part z vpn : Nat) (w0 w1 : Nat) : Option Walk :=
  let pfn := bits w0 63 24
  let tag := bits w1 63 24
  let k := pageK z
  if bit w0 0 && bits w0 23 21 == z && bits w0 17 15 == part && tag >>> k == vpn then
    if bits w0 20 18 ≥ 5 || bits pfn 39 36 ≠ 0 || tag % 2 ^ k ≠ 0 || pfn % 2 ^ k ≠ 0 then some .bad
    else some (.found ⟨part, z, vpn, BitVec.ofNat 64 w0, BitVec.ofNat 64 w1⟩)
  else none

/-- The entries of one bucket; none for one that a walk cannot read, because a word of it is poisoned (R369: a poisoned unit returns no data to
anyone; log entry 58). -/
def State.bucket (s : State) (base : Nat) : List (Option (Nat × Nat)) :=
  (List.range 8).map fun e =>
    let a := base + 16 * e
    if s.poisoned a || s.poisoned (a + 8) then none else some (s.rd a 8, s.rd (a + 8) 8)

/-- The buckets of one size, in order: a match ends the walk, a free slot ends the size (R345). -/
def State.walkSize (s : State) (ptbase nb part z vpn h : Nat) : Nat → Nat → Walk
  | 0, _ => .miss
  | k + 1, p =>
    let es := s.bucket (ptbase + (h + p) % nb * 128)
    match firstSome (fun e => e.bind fun e => entryMatch part z vpn e.1 e.2) es with
    | some r => r
    | none => if es.any (fun e => match e with | some e => !bit e.1 0 | none => false) then .miss else s.walkSize ptbase nb part z vpn h k (p + 1)

/-- A walk of the partition's page table (R345). -/
def State.walk (s : State) (part va : Nat) : Walk :=
  let p := s.prt part
  let nb := 2 ^ p.ptlog2
  let try_ (z : Nat) : Walk :=
    if bit (p.hint va) z then
      let vpn := bits va 55 (16 + pageK z)
      s.walkSize p.ptbase nb part z vpn (bucketHash nb 64 (vpn * 8 + z) 0) 4 0
    else .miss
  match [4, 3, 2, 1, 0].find? (fun z => try_ z ≠ .miss) with
  | some z => try_ z
  | none => .miss

/-- A cached translation covers the address. -/
def TlbEntry.covers (e : TlbEntry) (part va : Nat) : Bool := e.part == part && bits va 55 (16 + pageK e.z) == e.vpn

def TlbEntry.pfn (e : TlbEntry) : Nat := bits e.w0.toNat 63 24
def TlbEntry.type (e : TlbEntry) : Nat := bits e.w0.toNat 20 18
def TlbEntry.chip (e : TlbEntry) : Nat := bits e.w0.toNat 14 5
def TlbEntry.x (e : TlbEntry) : Bool := bit e.w0.toNat 4
def TlbEntry.w (e : TlbEntry) : Bool := bit e.w0.toNat 3
def TlbEntry.r (e : TlbEntry) : Bool := bit e.w0.toNat 2
def TlbEntry.u (e : TlbEntry) : Bool := bit e.w0.toNat 1
def TlbEntry.openList (e : TlbEntry) : Nat := bits e.w1.toNat 23 20

/-- The physical address an entry gives a virtual one. -/
def TlbEntry.pa (e : TlbEntry) (va : Nat) : Nat := e.pfn * 2 ^ 16 + va % 2 ^ (16 + pageK e.z)

/-- A translation by a core's TLB, its cluster's, then a walk (R343). -/
def State.lookup (s : State) (i : Nat) (fetch : Bool) (va : Nat) : Option TlbEntry :=
  let p := s.partOf i
  let c := s.core i
  match (if fetch then c.itlb else c.dtlb).find? (fun e => e.covers p va) with
  | some e => some e
  | none =>
    match (s.cluster (clusterOf i)).l2tlb.find? (fun e => e.covers p va) with
    | some e => some e
    | none => match s.walk p va with | .found e => some e | _ => none

/-- The same for an engine of a cluster (R343, R150). -/
def State.lookupEng (s : State) (cl va : Nat) : Option TlbEntry :=
  let p := s.partOfCluster cl
  match (s.cluster cl).l2tlb.find? (fun e => e.covers p va) with
  | some e => some e
  | none => match s.walk p va with | .found e => some e | _ => none

/-- Leave a valid translation in the TLBs (R343). -/
def State.fill (s : State) (i : Nat) (fetch : Bool) (e : TlbEntry) : State :=
  let c := s.core i
  let add (l : List TlbEntry) := if l.contains e then l else e :: l
  let cl := s.cluster (clusterOf i)
  (s.setCore i (if fetch then { c with itlb := add c.itlb } else { c with dtlb := add c.dtlb })).setCluster (clusterOf i)
    { cl with l2tlb := add cl.l2tlb }

/-- A TYPE agrees with the range of its physical address, which the partition owns (R14, R339). -/
def State.backed (s : State) (part type a : Nat) : Bool :=
  (match type, typeOfPa a with
   | 0, some .dev => true
   | 1, some .cms => true
   | 2, some .csp => true
   | 3, some .host => true
   | _, _ => false) && s.owns part a

/-! ### Windows, leases and the checks of R103 -/

def lsWin : Nat := 0x00FFFF0000000000
def cspWin : Nat := 0x00FFFE0000000000

/-- Which window an address lies in, with the offset (R13). -/
def windowOf (va : Nat) : Option (Bool × Nat) :=
  if lsWin ≤ va ∧ va < lsWin + 2 ^ 40 then some (true, va - lsWin)
  else if cspWin ≤ va ∧ va < cspWin + 2 ^ 40 then some (false, va - cspWin)
  else none

/-- What an access needs of a page (R347). -/
inductive Access where
  | load | strongLoad | store | rmw | fetch
  deriving DecidableEq, Repr

def Access.allowed (x : Access) (e : TlbEntry) : Bool :=
  match x with
  | .load | .strongLoad => e.r
  | .store => e.w
  | .rmw => e.r && e.w
  | .fetch => e.x

/-- Lease ranges of a launch of a partition (R293, R349). -/
def State.leased (s : State) (part launch va : Nat) : Bool :=
  match s.launch part launch with
  | some l => l.leases.any fun r => decide (r.1 ≤ va) && decide (va < r.1 + r.2)
  | none => false

/-- Item 1 of R103: bits [63:56], a window's extent, the context save area at user privilege. -/
def State.chk1 (s : State) (i : Nat) (va : Nat) : Option Cause :=
  if va ≥ 2 ^ 56 then some .prot
  else match windowOf va with
    | some (true, x) => if x ≥ 2 ^ 17 || (!s.isSup i && decide (x ≥ 0x1E000)) then some .prot else none
    | some (false, x) => if x ≥ 2 ^ 22 then some .prot else none
    | none => none

/-- Item 1 of R103 for n bytes from va on: the first byte that fails it. -/
def State.chkItem1 (s : State) (i : Nat) (va : Word) (n : Nat) : Option (Cause × Word) :=
  firstSome (fun j => (s.chk1 i (va + BitVec.ofNat 64 j).toNat).map fun c => (c, va + BitVec.ofNat 64 j)) (List.range n)

/-- Where byte x of a scratchpad allocation lies in the scratchpad (R296): behind its base, or, confined, interleaved by words over its own banks. Bank b holds
the words whose offset is 8·b modulo 512 (R14). -/
def csOff (base : Nat) (banks : List Nat) (x : Nat) : Nat :=
  if banks.isEmpty then base + x
  else x / 8 / banks.length * 512 + banks.getD (x / 8 % banks.length) 0 * 8 + x % 8

/-- The byte of a scratchpad allocation that lies at an offset of the scratchpad. -/
def CsAlloc.index (a : CsAlloc) (off : Nat) : Option Nat :=
  let x := if a.banks.isEmpty then (if a.base ≤ off then some (off - a.base) else none)
    else if a.banks.contains (off / 8 % 64) then some ((off / 512 * a.banks.length + a.banks.idxOf (off / 8 % 64)) * 8 + off % 8) else none
  x.filter fun x => decide (x < a.size)

/-- Where the j-th byte after byte k of an object lies: next to it, or, in a confined scratchpad allocation, in the next of the allocation's words (R296). A
supervisor's accesses take the scratchpad as it lies (R342). -/
def State.place (s : State) (sup : Bool) (k j : Nat) : Nat :=
  if sup || typeOfPa k != some .csp then k + j
  else
    let off := (k - cspBase) % 2 ^ 22
    match (s.cluster (cspCluster k)).cs.find? fun a => !a.banks.isEmpty && (a.index off).isSome with
    | some a => cspKey (cspCluster k) (csOff a.base a.banks ((a.index off).getD 0 + j))
    | none => k + j

/-- n bytes of an object at k, as a little-endian number. -/
def State.rdObj (s : State) (sup : Bool) (k n : Nat) : Nat := ofBytes ((List.range n).map fun j => s.byte (s.place sup k j))

/-- n bytes of x over an object at k. -/
def State.objBytes (s : State) (sup : Bool) (k n x : Nat) : List (Nat × Byte) := (bytesOf n x).mapIdx fun j b => (s.place sup k j, b)

/-- The allocation window of a launch on a core: physical key of an offset of the local store or the scratchpad window (R296), none
outside the allocation. -/
def allocKey (i : Nat) (a : Alloc) (ls : Bool) (x : Nat) : Option Nat :=
  if ls then (if x < a.units * 4096 then some (lsKey i (a.base + x)) else none)
  else if x < a.csUnits * 4096 then some (cspKey (clusterOf i) (csOff a.csBase a.csBanks x))
  else if x < (a.csUnits + a.ccUnits) * 4096 then some (cspKey (clusterOf i) (csOff a.ccBase a.ccBanks (x - a.csUnits * 4096)))
  else none

/-- The physical key of a window offset for whatever runs on the core: everything of its own core and cluster for a supervisor
(R342), the allocation of the running launch otherwise. -/
def State.windowKey (s : State) (i : Nat) (ls : Bool) (x : Nat) : Option Nat :=
  if s.isSup i then some (if ls then lsKey i x else cspKey (clusterOf i) x)
  else match (s.core i).run with
    | some l => match (s.core i).alloc l with
      | some a => allocKey i a ls x
      | none => none
    | none => none

/-- Items 3 and 4 of R103 for a byte that passed item 1: its physical key and the translation used. -/
def State.chk34 (s : State) (i : Nat) (acc : Access) (va : Nat) : Except Cause (Nat × Option TlbEntry) :=
  match windowOf va with
  | some (ls, x) => match s.windowKey i ls x with
    | some k => .ok (k, none)
    | none => .error .lease
  | none =>
    let sup := s.isSup i
    if !sup && !(s.leased (s.partOf i) ((s.core i).run.getD 0) va) then .error .lease
    else match s.lookup i false va with
      | none => .error .prot
      | some e =>
        if e.type = 4 then .error .peercore
        else if !acc.allowed e || (!sup && !e.u) then .error .prot
        else if e.type = 2 then .error .prot
        else if !s.backed (s.partOf i) e.type (e.pa va) then .error .prot
        else .ok (e.pa va, some e)

/-- The stores that the core's accesses see before they are at their homes, oldest first: those its cluster shares, then its own (R184, R186). -/
def State.sbOf (s : State) (i : Nat) : List SbEntry := (s.cluster (clusterOf i)).sb.map (·.2) ++ (s.core i).sb

/-- An access of the core at the home of k meets poison (R103 item 5): its unit is poisoned and no store that it sees and that is still to be performed
covers the unit whole (R184, R369). -/
def State.poisonSeen (s : State) (i k : Nat) : Bool :=
  s.poisoned k && !((s.sbOf i).any fun e => e.clr.contains (unitOf k))

/-- A plain load of the core at k meets poison: in its copy of the line, which keeps the marks it was filled with (R369), else at the home. -/
def State.poisonPlain (s : State) (i k : Nat) : Bool :=
  match (s.core i).l1d.find? fun l => l.la = k / 64 * 64 with
  | some l => l.bad.contains (unitOf k) && !((s.sbOf i).any fun e => e.clr.contains (unitOf k))
  | none => s.poisonSeen i k

/-- An access of the kind meets poison at k. -/
def State.meetsPoison (s : State) (i : Nat) (acc : Access) (k : Nat) : Bool :=
  match acc with
  | .load => s.poisonPlain i k
  | .strongLoad | .rmw => s.poisonSeen i k
  | _ => false

/-- Keep the translation an access used. -/
def State.keep (s : State) (i : Nat) (fetch : Bool) : Option TlbEntry → State
  | none => s
  | some e => s.fill i fetch e

/-! ### Plain accesses: store buffer and L1D copies (R130, R182 to R188) -/

/-- The latest byte stored to an address and not yet performed, where `f` gives a byte its one place; what was pushed to a stream is not seen before it is
performed (R231). -/
def forwarded (f : Nat → Nat) (sb : List SbEntry) (a : Nat) : Option Byte :=
  firstSome (fun e => if e.strm.isSome then none else (e.bytes.reverse.find? fun p => f p.1 = f a).map (·.2)) sb.reverse

/-- The copy of the line of an address that a plain load of the core finds; an invariant load finds those it keeps first (R109, R197). -/
def Core.copyOf (c : Core) (inv : Bool) (a : Nat) : Option L1Line :=
  let here (l : L1Line) : Bool := l.la == a / 64 * 64
  match if inv then c.l1i.find? here else none with
  | some l => some l
  | none => c.l1d.find? here

/-- The byte a plain load of the core returns: the latest store it sees, else its copy's, else the home's (R184). -/
def State.loadByte (s : State) (i : Nat) (inv : Bool) (a : Nat) : Byte :=
  let c := s.core i
  match forwarded s.alias (s.sbOf i) a with
  | some b => b
  | none =>
    match c.copyOf inv a with
    | some l => l.data.getD (a % 64) 0
    | none => s.byte a

/-- The writes of a line so far, newest first. -/
def State.writesOf (s : State) (la : Nat) : List (Nat × Nat) := SMap.get [] s.hist la

/-- The host has written these bytes: a system-scope acquire includes its writes (R185). -/
def State.hostWrote (s : State) (l : List (Nat × Byte)) : State :=
  { s with hostPub := (linesOf l).foldl (fun m la => SMap.set 0 m la (s.writesOf la).length) s.hostPub }

/-- A copy of the line of an address as it stands at its home, with its poison marks (R369). -/
def State.lineOf (s : State) (a : Nat) : L1Line :=
  let la := a / 64 * 64
  ⟨la, (List.range 64).map fun k => s.byte (la + k), (s.writesOf la).length, (((List.range 8).map fun k => unitOf (la + 8 * k)).eraseDups).filter s.poisoned⟩

/-- The writes of its line that a copy does not hold. -/
def State.missed (s : State) (l : L1Line) : List (Nat × Nat) :=
  let w := s.writesOf l.la
  w.take (w.length - l.seen)

/-- Put a copy of a line in front of the others of its kind; the oldest line leaves a full L1D. -/
def putLine (l : L1Line) (ls : List L1Line) : List L1Line := (l :: ls.filter fun x => x.la ≠ l.la).take Config.l1Lines

/-- Copy the line of an address into L1D when it may be there and is not. A later strong load of the core sees no less (R184). A line that holds poison is
not kept for invariant loads. -/
def State.fillLine (s : State) (i : Nat) (inv : Bool) (a : Nat) : State :=
  let c := s.core i
  if !cacheable a || (c.copyOf inv a).isSome then s
  else if inv then (if (s.lineOf a).bad.isEmpty then s.setCore i { c with l1i := putLine (s.lineOf a) c.l1i } else s)
  else s.setCore i { c with l1d := putLine (s.lineOf a) c.l1d, hview := c.hview.filter fun l => l.la ≠ a / 64 * 64 }

/-- Drop the copies of a line. -/
def Core.dropLine (c : Core) (a : Nat) : Core :=
  let keep (l : L1Line) : Bool := l.la != a / 64 * 64
  { c with l1d := c.l1d.filter keep, l1i := c.l1i.filter keep, hview := c.hview.filter keep }

/-- The number of stores outstanding: those that still hold an issue resource (R130, R202). -/
def Core.stores (c : Core) : Nat := (((c.sb.filter (·.out)).map (·.grp)).eraseDups).length

/-- Whether a launch watches for plain races (R203), and its record. -/
def Launch.ddet (l : Launch) : Bool := bit (l.record.getD 0 0).toNat 32
def Launch.kind (l : Launch) : Nat := bits (l.record.getD 0 0).toNat 28 27
def Launch.prio (l : Launch) : Nat := bits (l.record.getD 0 0).toNat 31 30
def Launch.word (l : Launch) (k : Nat) : Nat := (l.record.getD k 0).toNat

/-- A launch of a core's partition watches for plain races (R203). -/
def State.ddet (s : State) (i launch : Nat) : Bool := match s.launch (s.partOf i) launch with | some l => l.ddet | none => false

/-- The granule's recorded writer is another core, with an equal count (R203). -/
def State.conflictAt (s : State) (i launch phasec a : Nat) : Bool :=
  s.ddet i launch && (match typeOfPa a with | some .cms | some .dev => true | _ => false)
    && s.grans.any fun x => x.launch = launch ∧ x.addr = a / 64 * 64 ∧ x.core ≠ i ∧ x.count = phasec

/-- A plain access to CMS or DEV in a deterministic-mode launch (R203): report a conflict where `report`, and record a store's writer. -/
def State.track (s : State) (i launch phasec : Nat) (store report : Bool) (a : Nat) (va : Word) : State :=
  let ok := match typeOfPa a with | some .cms | some .dev => true | _ => false
  if !s.ddet i launch || !ok then s
  else
    let s := if report && s.conflictAt i launch phasec a then { s with conflicts := s.conflicts ++ [({ core := i, store := store, va := va } : Conflict)] } else s
    if store then
      let others := s.grans.filter fun x => ¬(x.launch = launch ∧ x.addr = a / 64 * 64)
      { s with grans := ({ launch := launch, addr := a / 64 * 64, core := i, count := phasec } : Granule) :: others }
    else s

/-- The first of the places of one access in each 64-byte granule. -/
def granulesOf (l : List (Nat × Word)) : List (Nat × Word) :=
  l.foldl (fun m p => if m.any (fun q => q.1 / 64 = p.1 / 64) then m else m ++ [p]) []

/-- One plain load of the core at these places (physical and virtual) is watched, once for each granule (R203). -/
def State.trackLoad (s : State) (i launch phasec : Nat) (l : List (Nat × Word)) : State :=
  (granulesOf l).foldl (fun s p => s.track i launch phasec false true p.1 p.2) s

/-- A load that is still to take its value reads one of the bytes (R184): an access of the core to them waits. -/
def State.awaits (s : State) (i k n : Nat) : Bool :=
  (s.core i).late.any fun l => l.parts.any fun p => decide (s.alias p.key < s.alias k + n) && decide (s.alias k < s.alias p.key + p.n)

/-- A plain load of n bytes at a checked address: the value, and the state with the core's copies as they stand after it. -/
def State.plainLoad (s : State) (i : Nat) (inv : Bool) (k n : Nat) : M (Nat × State) := do
  stallUnless (!s.granuleBusy k && !s.awaits i k n)
  let x := ofBytes ((List.range n).map fun j => s.loadByte i inv (k + j))
  .ok (x, (s.fillLine i inv k).fillLine i inv (k + n - 1))

/-- The byte a strong load of the core finds: its view of a line of HOST where it keeps one (R192), else the home's (R190). -/
def State.strongByte (s : State) (i : Nat) (a : Nat) : Byte :=
  match (s.core i).hview.find? fun l => l.la = a / 64 * 64 with
  | some l => l.data.getD (a % 64) 0
  | none => s.byte a

/-- A 512-bit mask of the bytes that bm selects. -/
def byteMask (bm : Nat) : Vec := BitVec.ofNat 512 (ofLanes 8 ((List.range 64).map fun b => if bit bm b then 255 else 0))

/-- Write the bytes of a vector register that bm selects; the others keep their value, or become 0 with `zero` (R86). A word written whole loses its poison (R369). -/
def Core.mergeV (c : Core) (n : Nat) (x : Vec) (bm : Nat) (zero : Bool) : Core :=
  let m := byteMask bm
  let y := if zero then x &&& m else (x &&& m) ||| (c.vreg n &&& ~~~m)
  let whole (w : Nat) : Bool := zero || bits bm (8 * w + 7) (8 * w) = 255
  { c.setV n y with poison := { c.poison with v := c.poison.v.filter fun p => !(decide (p.1 = n) && whole p.2) } }

/-- A loaded value reaches its destination (R104 to R108); poison makes the register poisoned, so that nothing takes it for data (R370). -/
def Core.land (c : Core) (x : Nat) (bad : Bool) : LoadDst → Core
  | .none => c
  | .s d n signed =>
    if d = 0 then c else
      { c.setS d (if signed then wordOfInt (sext x (8 * n)) else BitVec.ofNat 64 x) with
        poison := { c.poison with s := (if bad then [d] else []) ++ c.poison.s.filter (· ≠ d) } }
  | .v d bm zero =>
    let c := c.mergeV d (BitVec.ofNat 512 x) bm zero
    if bad then { c with poison := { c.poison with v := (((List.range 8).filter fun w => bits bm (8 * w + 7) (8 * w) ≠ 0).map fun w => (d, w)) ++ c.poison.v } } else c

/-- The parts that p selects of a load that was left outstanding take their values now (R130, R191, R196): of a strong one at the home, of a plain one as plain
loads do. Once every part has, the value reaches the register. A load is left outstanding only where it meets no poison, and what poisons a unit lets the loads of
it take their values first, so that MEMUE is precise (log entry 16); what meets poison all the same poisons the register. -/
def State.takeLate (s : State) (i : Nat) (l : LateLoad) (p : LoadPart → Bool) : State :=
  let now := l.parts.filter p
  let byte (a : Nat) : Byte := if l.strong then s.strongByte i a else s.loadByte i false a
  let x := now.foldl (fun x q => x + ofBytes ((List.range q.n).map fun j => byte (q.key + j)) * 2 ^ (8 * q.pos)) l.val
  let s := now.foldl (fun s q => if l.strong then s.modCore i fun c => { c with l1d := c.l1d.filter fun m => m.la ≠ q.key / 64 * 64 } else s.fillLine i false q.key) s
  let watched := if l.strong then [] else (granulesOf (now.map fun q => (q.key, q.va))).filter fun q => !l.told.contains (q.1 / 64 * 64)
  let told := l.told ++ (watched.filter fun q => s.conflictAt i l.launch l.phasec q.1).map fun q => q.1 / 64 * 64
  let s := s.trackLoad i l.launch l.phasec watched
  let rest := l.parts.filter fun q => !p q
  let bad := l.bad || now.any fun q => if l.strong then s.poisonSeen i q.key else s.poisonPlain i q.key
  s.modCore i fun c =>
    if rest.isEmpty then ({ c with late := c.late.filter fun q => q.id ≠ l.id, loads := c.loads - 1 } : Core).land x bad l.dst
    else { c with late := mapIf (fun q => q.id == l.id) (fun q => { q with parts := rest, val := x, bad := bad, told := told }) c.late }

/-- Every outstanding load of the core takes its value. -/
def State.takeLates (s : State) (i : Nat) : State := (s.core i).late.foldl (fun s l => s.takeLate i l fun _ => true) s

/-- What is outstanding of loads that read at a physical address p selects takes its value, on every core (R369, R350, R348). -/
def State.takeAll (s : State) (p : LoadPart → Bool) : State :=
  s.cores.foldl (fun s c => c.2.late.foldl (fun s l => if l.parts.any p then s.takeLate c.1 l p else s) s) s

/-- Issue one more load (R130: at most 32 outstanding). -/
def State.issueLoad (s : State) (i : Nat) : M State := do
  stallUnless (decide ((s.core i).loads < 32))
  .ok (s.modCore i fun c => { c with loads := c.loads + 1 })

/-- Put a store's pieces into the store buffer under one group (R130: at most 64 stores outstanding); each piece is one single-copy
atomic part (R110). A strong store waits there for what a FENCE put before it (R191). -/
def State.issueStore (s : State) (i : Nat) (strong : Bool) (pieces : List (List (Nat × Byte) × Word)) : M State := do
  let c := s.core i
  let all := pieces.flatMap (·.1)
  stallUnless (decide (c.stores < 64) && !(all.any fun p => s.awaits i p.1 1))
  let clr := ((all.map fun p => unitOf p.1).eraseDups).filter (coversUnit all)
  let es : List SbEntry := pieces.map fun p =>
    { grp := s.serial, bytes := p.1, va := p.2, launch := c.run.getD 0, phasec := c.phasec, clr := clr, strong := strong, after := if strong then c.relEp else 0 }
  .ok (s.tick.setCore i { c with sb := c.sb ++ es })

/-- The PCIe link through which core i reaches a HOST address (R400): by bit 50 in a one-partition module, else the link of its partition. -/
def State.hostLink (s : State) (i a : Nat) : Nat :=
  if s.cfg.nparts = 1 then bits a 50 50 else s.partOf i * 8 / s.cfg.nparts / 4

/-- The home of a physical address for core i (R183): a bank of a scratchpad, a CMS bank, the agent of a DRAM stack, the core's local store; for HOST
the link of the spine die that owns the mapping. -/
def State.homeOf (s : State) (i a : Nat) : Nat :=
  match typeOfPa a with
  | some .dev => a / 2 ^ 36
  | some .cms => 64 + (a - cmsBase) / 2 ^ 18
  | some .csp => 2048 + cspCluster a * 64 + a / 8 % 64
  | some .ls => 163840 + (a - lsBase) / 2 ^ 17
  | _ => 200000 + s.hostLink i a

/-- The requester's ticket at the home of an address (R215). -/
def State.ticketAt (s : State) (i a : Nat) : Option Ticket := s.tickets.find? fun t => t.home = s.homeOf i a ∧ t.core = i

/-- A queue of a page under migration takes a request: it has room, or an entry is reserved for the requester's ticket (R215, R350). -/
def State.holdTakes (s : State) (h : Hold) (i a : Nat) : Bool := s.holdRoom h || (match s.ticketAt i a with | some t => t.granted | none => false)

/-- The requester's ticket at the home of an address is used up. -/
def State.useTicket (s : State) (i a : Nat) : State := { s with tickets := s.tickets.filter fun t => ¬(t.home = s.homeOf i a ∧ t.core = i) }

/-- A refused request leaves a ticket (R215); none where it holds one. -/
def State.askTicket (s : State) (i a : Nat) : Option State :=
  if (s.ticketAt i a).isSome then none else some { s with tickets := s.tickets ++ [⟨s.homeOf i a, i, a, false⟩] }

/-- The number of items of a stream's pattern (R229). -/
def strmItems (desc : List Word) : Nat :=
  let ndim := (desc.getD 0 0).toNat % 2 ^ 32
  let ext (d : Nat) : Nat := bits (desc.getD (1 + d / 2) 0).toNat (32 * (d % 2) + 31) (32 * (d % 2))
  ((List.range 4).filter (· < ndim)).foldl (fun n d => n * ext d) 1

/-- The byte address of item k of a stream's pattern, as an exact integer (R229). -/
def strmAddr (base : Word) (desc : List Word) (k : Nat) : Int :=
  let ndim := (desc.getD 0 0).toNat % 2 ^ 32
  let ext (d : Nat) : Nat := bits (desc.getD (1 + d / 2) 0).toNat (32 * (d % 2) + 31) (32 * (d % 2))
  let str (d : Nat) : Int := sext (bits (desc.getD (3 + d / 2) 0).toNat (32 * (d % 2) + 31) (32 * (d % 2))) 32
  ((List.range 4).filter (· < ndim)).foldl (fun (a : Int × Nat) d => (a.1 + (a.2 % ext d : Nat) * str d, a.2 / ext d)) ((base.toNat : Int), k) |>.1

/-- The words of item k of a stream as physical keys (4 bytes each): a bound pattern lies in one window (R230). -/
def State.strmKeys (s : State) (i : Nat) (q : Strm) (k : Nat) : List Nat :=
  let va := (strmAddr q.base q.desc k).toNat
  (List.range 16).filterMap fun j => match windowOf (va + 4 * j) with
    | some (ls, x) => s.windowKey i ls x
    | none => none

/-- Put the items that core i's instruction has pushed to its output streams behind its stores (R231): each is a store of its 64 bytes, word by word, that no load
of the core sees before it is performed, and that is not counted outstanding (R202). -/
def State.pushOut (s : State) (i : Nat) : State :=
  let c := s.core i
  if c.outq.isEmpty then s
  else
    (c.outq.foldl (fun s q =>
      let words := (s.strmKeys i (c.strmAt q.1) q.2.1).mapIdx fun j k => at_ k 4 (bits q.2.2.toNat (32 * j + 31) (32 * j))
      let all := words.flatten
      let clr := ((all.map fun p => unitOf p.1).eraseDups).filter (coversUnit all)
      let es : List SbEntry := words.map fun w =>
        { grp := s.serial, bytes := w, va := 0, launch := c.run.getD 0, phasec := c.phasec, clr := clr, out := false, strm := some q.1 }
      s.tick.modCore i fun c => { c with sb := c.sb ++ es }) s).modCore i fun c => { c with outq := [] }

/-- How many items pushed to output stream n await writing (R231). -/
def Core.pushedTo (c : Core) (n : Nat) : Nat := (((c.sb.filter fun e => e.strm == some n).map (·.grp)).eraseDups).length

/-- Perform a store-buffer entry at its home, or queue it at a page under migration (R350; at most 64 there). None: the queue is full. `shared` where a release at
cluster scope has made it visible to the cluster: no core there keeps a copy of before it (R184). A supervisor core's store to word 0 of its command area asks the
management controller (R373). -/
def State.performEntry (s : State) (i : Nat) (e : SbEntry) (shared : Bool) : Option State :=
  let a := (e.bytes.head?.map (·.1)).getD 0
  match s.holdAt (s.isSup i) a with
  | some h =>
    if !s.holdTakes h i a then none
    else some ((s.useTicket i a).queueAt h { core := i, grp := e.grp, bytes := e.bytes, clr := e.clr, plain := !e.strong, va := e.va, launch := e.launch, phasec := e.phasec, quiet := e.quiet, shared := shared })
  | none =>
    -- the last piece of a store that covers a poison unit whole clears its poison
    let others := (s.sbOf i).filter fun x => decide (x.grp = e.grp) && x != e
    let done := e.clr.filter fun u => !(others.any fun x => x.bytes.any fun b => unitOf b.1 == u)
    let s := s.writeBy i e.grp e.bytes
    let s := { s with mpoison := s.mpoison.filter fun u => !done.contains u }
    let s := if shared then s.mapCores fun j c => if clusterOf j = clusterOf i then c.dropLine a else c else s.modCore i fun c => c.dropLine a
    let s := if s.isSup i && e.bytes.any (fun b => b.1 / 8 * 8 = lsKey i 0x1C000) then s.modPart (s.partOf i) fun p => { p with asked := true } else s
    if e.strong then some s
    else
      -- a store is reported once in each granule (R203): at the first of its pieces there that conflicts
      let hit := !e.quiet && s.conflictAt i e.launch e.phasec a
      let s := s.track i e.launch e.phasec true (!e.quiet) a e.va
      some (if hit then s.modCore i fun c =>
          { c with sb := mapIf (fun x => decide (x.grp = e.grp) && (x.bytes.any fun b => b.1 / 64 == a / 64)) (fun x => { x with quiet := true }) c.sb } else s)

/-- Perform the entries of the core's store buffer that p selects, oldest first, from place j on; none when one cannot be performed. The first number bounds how
many are looked at. -/
def State.performAll (s : State) (i : Nat) (p : SbEntry → Bool) : Nat → Nat → Option State
  | 0, _ => some s
  | k + 1, j =>
    match (s.core i).sb[j]? with
    | none => some s
    | some e =>
      if p e then
        match s.performEntry i e false with
        | some s' => (s'.modCore i fun c => { c with sb := c.sb.eraseIdx j }).performAll i p k j
        | none => none
      else s.performAll i p k (j + 1)

/-- Perform the stores that a cluster shares, oldest first, at most n. -/
def State.performShared (s : State) (cl : Nat) : Nat → Option State
  | 0 => some s
  | k + 1 =>
    match (s.cluster cl).sb with
    | [] => some s
    | e :: _ =>
      match s.performEntry e.1 e.2 true with
      | some s' => (s'.setCluster cl { s'.cluster cl with sb := (s'.cluster cl).sb.eraseIdx 0 }).performShared cl k
      | none => none

/-- Perform what the core's cluster shares, then the entries of its own store buffer that p selects. -/
def State.performSeen (s : State) (i : Nat) (p : SbEntry → Bool) : Option State :=
  (s.performShared (clusterOf i) (s.cluster (clusterOf i)).sb.length).bind fun s => s.performAll i p (s.core i).sb.length 0

/-- Stores of this core that wait at a page under migration. -/
def State.heldStores (s : State) (i : Nat) : Bool := s.holds.any fun h => h.q.any fun q => q.core = i

/-! ### Release and acquire (R185 to R191) -/

/-- The larger of two bounds for every line. -/
def Bounds.join (a b : Bounds) : Bounds := b.foldl (fun m p => SMap.set 0 m p.1 (max (SMap.get 0 m p.1) p.2)) a

/-- How many writes of a line are performed with respect to the core (R182): those that no copy or view it keeps of the line misses. -/
def State.seen (s : State) (i la : Nat) : Nat :=
  let c := s.core i
  ((c.l1d ++ c.hview).filter fun l => l.la == la).foldl (fun n l => min n l.seen) (s.writesOf la).length

/-- What is visible to the core (R187). -/
def State.visible (s : State) (i : Nat) : Bounds := (s.hist.map fun h => (h.1, s.seen i h.1)).filter fun h => h.2 ≠ 0

/-- The copy holds what the bounds ask of its line. -/
def Bounds.meets (b : Bounds) (l : L1Line) : Bool := decide (SMap.get 0 b l.la ≤ l.seen)

/-- Core j is an agent of core i's scope (R185). -/
def inScope (sc : Scope) (i j : Nat) : Bool :=
  match sc with
  | .core => i == j
  | .cluster => clusterOf i == clusterOf j
  | _ => true

/-- Every write of HOST within the bounds is visible to the strong loads of every core of the scope: none keeps a view of a line that misses one (R192). -/
def State.hostSeen (s : State) (sc : Scope) (i : Nat) (b : Bounds) : Bool := s.cores.all fun c => !inScope sc i c.1 || c.2.hview.all b.meets

/-- A store of core i below n to HOST is at its home, and a view that some core keeps misses it (R191, R192). -/
def State.hostMissed (s : State) (i n : Nat) : Bool := s.cores.any fun c => c.2.hview.any fun l => (s.missed l).any fun p => decide (p.1 = i) && decide (p.2 < n)

/-- A store that a release at cluster scope makes visible to the cluster without a wait for its home (R186, R187): a plain one that L1D may copy. In a
deterministic-mode launch it waits for the home's report (R204). -/
def State.sharable (s : State) (i : Nat) (e : SbEntry) : Bool :=
  !e.strong && e.strm.isNone && (e.bytes.all fun b => cacheable b.1) && !s.ddet i e.launch

/-- Every earlier access of the core is performed at the scope, and what is visible to the core is (R187): its loads have their values, every pushed item of its
output streams is written (R208); at cluster scope or wider its stores are at their homes, or may be shared with the cluster, no view of HOST in the scope misses a
write, and the conflict reports of stores have arrived (R204). At device scope or wider nothing that the cluster shares is still to be performed; a supervisor
core does not wait for another core's there that a page under migration holds. -/
def State.released (s : State) (i : Nat) (sc : Scope) : Bool :=
  let c := s.core i
  let told := !(s.conflicts.any fun x => decide (x.core = i) && x.store)
  let held (e : Nat × SbEntry) : Bool := s.isSup i && e.1 != i && s.heldAt ((e.2.bytes.headD (0, 0)).1)
  c.late.isEmpty && (c.sb.all fun e => e.strm.isNone) && match sc with
  | .core => true
  | .cluster => c.sb.all (s.sharable i) && !s.heldStores i && told && s.hostSeen .cluster i (s.visible i)
  | _ => c.sb.isEmpty && ((s.cluster (clusterOf i)).sb.all held) && !s.heldStores i && told && s.hostSeen sc i (s.visible i)
      && (s.isSup i || !(s.holds.any fun h => h.q.any fun q => q.shared && decide (clusterOf q.core = clusterOf i)))

/-- The core's stores become visible to its cluster (R186, R187). -/
def State.share (s : State) (i : Nat) : State :=
  let c := s.core i
  if c.sb.isEmpty then s
  else
    let cl := s.cluster (clusterOf i)
    (s.setCluster (clusterOf i) { cl with sb := cl.sb ++ c.sb.map fun e => (i, e) }).setCore i { c with sb := [] }

/-- A release of core i that is complete at a scope (R186, R188, R189): what is visible to the core is covered for the agents of the scope: the cores of its
cluster, and at device or system scope every core. -/
def State.publish (s : State) (i : Nat) (sc : Scope) : State :=
  let cl := s.cluster (clusterOf i)
  let b := s.visible i
  match sc with
  | .core => s
  | .cluster => (s.setCluster (clusterOf i) { cl with pub := cl.pub.join b }).share i
  | _ => { s.setCluster (clusterOf i) { cl with pub := cl.pub.join b } with pub := s.pub.join b }

/-- A release stalls until the earlier accesses are performed (R187). -/
def State.release (s : State) (i : Nat) (sc : Scope) : M State := do
  stallUnless (s.released i sc)
  .ok (s.publish i sc)

/-- The core's later loads miss nothing that is at its home, nor of HOST what the bounds cover: its copies go, and the views that miss it (R187, R282). -/
def Core.freshen (c : Core) (b : Bounds) : Core := { c with l1d := [], hview := c.hview.filter b.meets }

/-- The core's later loads miss nothing that the bounds cover. -/
def Core.learn (c : Core) (b : Bounds) : Core := { c with l1d := c.l1d.filter b.meets, hview := c.hview.filter b.meets }

/-- An acquire through an object of the core's cluster (R224, R227, R282), with what has been released to the cluster. -/
def State.acquire (s : State) (i : Nat) : State := s.modCore i fun c => c.freshen (s.cluster (clusterOf i)).pub

/-- An acquire of core i at a scope. At cluster scope it pairs with the releases of its cluster's cores at cluster scope or wider; at device scope also with
every core's at device scope or wider, and at system scope with the host (R185, R186, R188); and at both of these, which include the module, it returns whatever is
performed at its home (R282). At core scope it pairs with nothing. -/
def State.acquireAt (s : State) (i : Nat) (sc : Scope) : State :=
  let b := (s.cluster (clusterOf i)).pub
  match sc with
  | .core => s
  | .cluster => s.modCore i fun c => c.learn b
  | .device => s.modCore i fun c => c.freshen (b.join s.pub)
  | .system => s.modCore i fun c => c.freshen ((b.join s.pub).join s.hostPub)

/-- What has been released so far, by the host too (R197, R298). -/
def State.pubs (s : State) : Pubs :=
  { all := s.pub.join s.hostPub, cls := (s.clusters.map fun c => (c.1, c.2.pub)).filter fun c => c.2 ≠ [] }

/-- What of it a core of a cluster acquires. -/
def Pubs.here (p : Pubs) (cl : Nat) : Bounds := p.all.join (SMap.get [] p.cls cl)

/-- The core acquires what had been released at an instant (R197, R298). -/
def State.learnPubs (s : State) (i : Nat) (p : Pubs) : State := s.modCore i fun c => c.learn (p.here (clusterOf i))

/-! ### The order of accesses of one core (R184, R191) -/

/-- Perform the stores that the core sees before an access where p selects one that must precede it, oldest first; a full migration queue stalls. -/
def State.settleIf (s : State) (i : Nat) (p : SbEntry → Bool) : M State :=
  if (s.sbOf i).any p then
    match s.performSeen i fun _ => true with
    | some s' => .ok s'
    | none => .error .stall
  else .ok s

/-- A store-buffer entry writes one of n bytes at k. -/
def SbEntry.hits (e : SbEntry) (k n : Nat) : Bool := e.bytes.any fun p => decide (k ≤ p.1) && decide (p.1 < k + n)

/-- Perform the stores to these bytes that the core sees before an access to them at their home (R184). -/
def State.settle (s : State) (i : Nat) (k n : Nat) : M State := do
  stallUnless (!s.awaits i k n)
  s.settleIf i fun e => e.hits k n

/-- A strong load that is outstanding of which R191 keeps the order against every later strong access: not one of HOST. -/
def LateLoad.kept (l : LateLoad) : Bool := l.strong && !(l.parts.any fun p => typeOfPa p.key == some .host)

/-- An outstanding load comes before a later strong access (R191): one of a kept pair, or one below n, which a FENCE put before it. -/
def Core.loadFirst (c : Core) (n : Nat) : Bool := c.late.any fun l => l.kept || (l.strong && decide (l.id < n))

/-- A strong store of the core below n waits at a page under migration. -/
def State.heldStrong (s : State) (i n : Nat) : Bool := s.holds.any fun h => h.q.any fun q => decide (q.core = i) && decide (q.grp < n) && !q.plain

/-- What R191 puts before a strong access of the core to n bytes at k that loads, or stores, or both: its own stores to them (R184); for a store, an
earlier strong store to a scratchpad where it is one too, and what a FENCE.rel put before it; for a load, what a FENCE.acq.rel put before it; for both,
the loads a FENCE.acq put before it. -/
def State.settleStrong (s : State) (i : Nat) (loads stores : Bool) (k n : Nat) : M State := do
  let c := s.core i
  let csp (a : Nat) : Bool := typeOfPa a == some .csp
  stallUnless (!s.awaits i k n && !c.loadFirst (if stores then max c.acqEp c.relEp else c.acqEp))
  let s ← s.settleIf i fun e => e.hits k n || (e.strong &&
    ((stores && ((csp k && csp ((e.bytes.headD (0, 0)).1)) || decide (e.grp < c.relEp))) || (loads && decide (e.grp < c.fullEp))))
  stallUnless (!(stores && (s.heldStrong i c.relEp || s.hostMissed i c.relEp)) && !(loads && (s.heldStrong i c.fullEp || s.hostMissed i c.fullEp)))
  .ok s

/-! ### Homes, refusal and retry (R215, R332, R350) -/

/-- A request enters its home: one without a granted ticket is refused while the queue of a page under migration is full, and while an older ticket
of the home is outstanding; a refusal leaves a ticket, and the instruction stays stalled. A granted one is accepted (R215, R332, R350). -/
def State.enterHome (s : State) (i : Nat) (a : Nat) : M State :=
  let h := s.homeOf i a
  let mine := s.tickets.find? fun t => t.home = h ∧ t.core = i
  let older := (s.tickets.takeWhile fun t => ¬(t.home = h ∧ t.core = i)).any fun t => t.home = h
  let granted := match mine with | some t => t.granted | none => false
  let full := match s.holdAt (s.isSup i) a with | some q => !s.holdRoom q | none => false
  if (full || older) && !granted then
    match mine with
    | some _ => .error .stall
    | none => .error (.wait { s with tickets := s.tickets ++ [⟨h, i, a, false⟩] })
  else .ok { s with tickets := s.tickets.filter fun t => ¬(t.home = h ∧ t.core = i) }

/-- Perform the core's stores to its own local store and to scratchpads, and what it has pushed to its output streams, oldest first (R356). -/
def State.performLocal (s : State) (i : Nat) : State :=
  (s.performAll i (fun e => e.bytes.all fun b => b.1 ≥ lsBase || (decide (cspBase ≤ b.1) && decide (b.1 < hostBase))) (s.core i).sb.length 0).getD s

/-! ### The scheduler's own accesses and causal patches (R291, R310 to R314) -/

/-- The physical address of a virtual one for the scheduler's own accesses to records of a partition (R316): backed, with the permission. -/
def State.schedPa (s : State) (part : Nat) (acc : Access) (va : Nat) : Option Nat :=
  if va ≥ 2 ^ 56 || (windowOf va).isSome then none
  else match s.walk part va with
    | .found e => if !acc.allowed e || !s.backed part e.type (e.pa va) then none else some (e.pa va)
    | _ => none

/-- n words at va as the scheduler reads them; none where one cannot be read (R293, R316). -/
def State.schedRead (s : State) (part va n : Nat) : Option (List Word) :=
  (List.range n).mapM fun k =>
    match s.schedPa part .load (va + 8 * k) with
    | some a => if s.poisoned a then none else some (BitVec.ofNat 64 (s.rd a 8))
    | none => none

/-- The words w0 and w1 of a patch record (R311). -/
def Patch.w0 (p : Patch) : Nat := p.ln % 2 ^ 32 * 2 ^ 32 + p.lo % 2 ^ 32
def Patch.w1 (p : Patch) : Nat :=
  p.step % 2 ^ 16 * 2 ^ 48 + p.nnb % 16 * 2 ^ 44 + p.head % 4 * 2 ^ 42 + b2n p.claim * 2 ^ 41 + b2n p.held * 2 ^ 40 + p.home % 128

/-- The retained versions of a patch (R312). -/
def Patch.count (p : Patch) : Nat := (p.ln + 2 ^ 32 - p.lo) % 2 ^ 32 / p.step + 1

/-- The neighbours of a patch, slot by slot. -/
def Patch.neighbours (p : Patch) : List Nat := p.nb.take p.nnb

/-- The fields of the rule record (R313). -/
def Launch.lag (l : Launch) : Nat := bits l.rule0.toNat 63 48
def Launch.nver (l : Launch) : Nat := bits l.rule0.toNat 34 32
def Launch.ahead (l : Launch) : Nat := bits l.rule0.toNat 24 24
def Launch.endLevel (l : Launch) : Nat := bits l.rule1.toNat 31 0
def Launch.smax (l : Launch) : Nat := (l.patches.map (·.step)).foldl max 0

/-- A patch at or beyond the end level (R312). -/
def Launch.finished (l : Launch) (p : Patch) : Bool := serialLe l.endLevel p.ln

/-- Patch i is runnable (R314). -/
def Launch.runnable (l : Launch) (i : Nat) : Bool :=
  match l.patches[i]? with
  | none => false
  | some p =>
    let lo' := if p.count = l.nver then p.lo + p.step else p.lo
    serialLt p.ln l.endLevel && !p.claim && !l.frozen && p.neighbours.all fun q => match l.patches[q]? with
      | some q => serialLe (p.ln + l.ahead * p.step) (q.ln + l.lag) && serialLe lo' q.ln
      | none => false

/-- Patches `is` re-evaluated at time t (R322 step 4); a start of one that becomes runnable now acquires k (R298): the release of the commit that made it so. -/
def Launch.reeval (l : Launch) (t : Nat) (k : Pubs) (is : List Nat) : Launch :=
  is.foldl (fun l i => match l.patches[i]? with
    | none => l
    | some p =>
      let p := if !l.runnable i then { p with since := none, far := false } else if p.since.isSome then p else { p with since := some t, know := k }
      { l with patches := l.patches.set i p }) l

/-- The scheduler as a writer, behind the engines of the clusters. -/
def schedNo : Nat := ncores + 97

/-- A write of the scheduler, queued where a page under migration holds it (R350). -/
def State.schedWr (s : State) (a n x : Nat) : State :=
  match s.holdAt false a with
  | some h => s.queueAt h { core := schedNo, grp := s.serial, bytes := at_ a n x, clr := [], plain := false, va := 0, launch := 0, phasec := 0 }
  | none => s.wr a n x

/-- Write patch k back to its table (R311). -/
def State.writePatch (s : State) (l : Launch) (k : Nat) : State :=
  match s.schedPa l.part .store (l.word 6 + 128 * k), l.patches[k]? with
  | some a, some p => (s.schedWr a 8 p.w0).schedWr (a + 8) 8 p.w1
  | _, _ => s

/-- Set patch k of a launch, re-evaluate the patches `is`, for which `know` is what a start acquires, and write the patch to its table. -/
def State.setPatchBy (s : State) (know : Pubs) (l : Launch) (k : Nat) (p : Patch) (is : List Nat) : State :=
  let l := ({ l with patches := l.patches.set k p } : Launch).reeval s.time.toNat know is
  (s.setLaunch l).writePatch l k

/-- The same outside a commit: everything released so far. -/
def State.setPatch (s : State) (l : Launch) (k : Nat) (p : Patch) (is : List Nat) : State := s.setPatchBy s.pubs l k p is

/-- The patch that a step task leaves without commit is free again at its committed level (R329). -/
def State.unclaim (s : State) (l : Launch) (k : Nat) : State :=
  match l.patches[k]? with
  | none => s
  | some p => s.setPatch l k { p with claim := false, held := false } [k]

/-! ### Fault messages (R360, R361) -/

/-- A fault message goes to its partition's fault path (R360, R361); a RERUN or LOST message carries the slot. -/
def State.postFault (s : State) (p : Nat) (m : FaultMsg) : State := s.modPart p fun x => { x with outbox := x.outbox ++ [m] }

/-! ### Contexts (R356 to R358) -/

/-- The current RANGEB and RANGEE lie in the core while its task runs. -/
def Core.range (c : Core) : Word × Word := (c.sys.rangeb, c.sys.rangee)

/-- The word PBIND would have for a port (R234, R358): the binding, or the same port of the core itself. -/
def sendWord (i p : Nat) (t : TxPort) : Word := t.bind.getD (BitVec.ofNat 64 (coreId i + p * 2 ^ 12))

/-- The words of stream q in the save slot (R358). -/
def strmWords (t : Strm) : List Nat :=
  if t.bound then
    [b2n true + 2 * b2n t.output, t.base.toNat] ++ ((List.range 5).map fun k => (t.desc.getD k 0).toNat) ++ [t.next]
  else List.replicate 8 0

/-- The save slot's words as the save writes them (R358); state is STATE, pc and slot where the task resumes. -/
def slotWords (i launch : Nat) (c : Core) (state : Nat) (pc : Word) (slot : Option Word) : List Nat :=
  let y := c.sys
  [launch * 2 ^ 32 + state * 2 ^ 16 + coreId i,
   pc.toNat,
   (match slot with | some n => 2 ^ 63 + n.toNat % 2 ^ 56 / 4 * 4 | none => 0),
   c.coord.toNat,
   c.phasec % 2 ^ 16 * 2 ^ 48 + c.bgen % 16 * 2 + b2n c.bwait,
   0, 0, 0]
  ++ [y.fpctl, y.fpstat, y.srseed, y.ucivec, y.epc, y.ecause, y.eval, y.eslot, y.dconf, y.rptstate, y.launchctl].map (·.toNat)
  ++ List.replicate 5 0
  ++ (List.range 55).map (fun k => (c.sreg (k + 1)).toNat)
  ++ (List.range 6).map (fun k => (SMap.get 0 c.shadow (48 + k)).toNat)
  ++ List.replicate 3 0
  ++ (List.range 8).map (fun k => (c.kreg k).toNat)
  ++ (List.range 8).map (fun k => (sendWord i k (c.txp k)).toNat)
  ++ (List.range 8).flatMap (fun q => strmWords (c.strmAt q))
  ++ (List.range 32).flatMap (fun r => (List.range 8).map fun k => bits (c.vreg r).toNat (64 * k + 63) (64 * k))

/-- Offset in the local store of a save slot (R13, R296). -/
def slotOff (slot : Nat) : Nat := 0x1E000 + slot * 0x1000

/-- Word k of a save slot, as memory holds it. -/
def State.slotWord (s : State) (i slot k : Nat) : Nat := s.rd (lsKey i (slotOff slot + 8 * k)) 8

/-- A register of the core that a save would read is poisoned (R368). -/
def Core.anyPoison (c : Core) : Bool := !(c.poison.s.isEmpty && c.poison.v.isEmpty && c.poison.k.isEmpty)

/-- A rule command (R173). -/
def CmdKind.isRule : CmdKind → Bool
  | .rcfg | .rtab | .rstep => true
  | _ => false

/-- The rule commands of a task of a core that are not complete end with ABANDON at their last boundary (R170, R172); RULE_ABANDON completes
them. -/
def State.abandonRule (s : State) (i launch serial : Nat) : State :=
  { s with cmds := mapIf (fun c => decide (c.core = i) && decide (c.launch = launch) && decide (c.serial = serial) && c.kind.isRule
      && !(c.phase == .finished)) (fun c => { c with code := 7, phase := .finished }) s.cmds }

/-- A task that is not on its core ends without END and without commit (R366, R368): a causal step is free again (R329), the range returns to
the scheduler (R303), another task counts as LOST (R291), its rule commands end. -/
def State.dropTask (s : State) (i : Nat) (a : Alloc) : State :=
  let part := s.partOf i
  let s := s.abandonRule i a.launch a.bank.serial
  let s := match s.launch part a.launch with
    | none => s
    | some l =>
      if l.kind = 1 then (if a.current then s.unclaim l a.coord.toNat else s)
      else s.setLaunch { l with lost := l.lost + b2n a.current
                                returned := if l.kind = 0 ∧ a.rb.toNat < a.re.toNat then l.returned ++ [(a.rb, a.re)] else l.returned }
  s.modCore i fun c => c.setAlloc { a with st := .idle, current := false, rb := 0, re := 0, bank := { rx := a.bank.rx } }

/-- STATE of a save slot (R358). -/
def State.setSlotState (s : State) (i slot x : Nat) : State :=
  let k := lsKey i (slotOff slot)
  { s with mem := putBytes s.mem (at_ k 8 (setBits (s.rd k 8) 19 16 x)) }

/-- A context that met an uncorrectable error is lost as a whole (R368): STATE is 3, a causal step runs again (RERUN), any other task is
LOST; `pc` is the slot's PC. -/
def State.loseContext (s : State) (i : Nat) (a : Alloc) (pc : Word) : State :=
  let part := s.partOf i
  let causal := match s.launch part a.launch with | some l => l.kind == 1 | none => false
  let msg : FaultMsg := ⟨if causal then 4 else 3, Cause.memue.code, coreId i, pc, BitVec.ofNat 64 (slotOff a.slot), 0, a.launch, a.coord, s.time, 0, 0, s.serial, i⟩
  ((s.setSlotState i a.slot 3).dropTask i a).postFault part msg

/-- What is left on a core whose task's context has gone: streams unbound, ports as at reset, nothing running. -/
def Core.vacate (c : Core) : Core :=
  { c with run := none, current := false, slot := none, pfx := [], frame := none, strm := [], tx := [], bank := {}, bwait := false,
           stalled := false, preempt := false, txq := [], outq := [], late := [], defer := false, rmw := none, pushing := none }

/-- The bank of R357 as the core keeps it while the task is away, with the ports that have DROP set (R234). -/
def Core.bankAway (c : Core) : Bank := { c.bank with drops := (List.range 8).filter fun p => (c.txp p).drop }

/-- A task's context leaves its core (R356): pushed items are written out, read-ahead items dropped, the state of R358 goes to the save
slot with STATE, its tickets are given up (R215), the banked state of R357 and the range stay with the allocation in task state `st`; the core is free. -/
def State.saveContext (s : State) (i : Nat) (state : Nat) (st : TaskSt) (pc : Word) (slot : Option Word) : State :=
  let s := s.performLocal i
  let c := s.core i
  match c.run with
  | none => s
  | some l => match c.alloc l with
    | none => s
    | some a =>
      let lost := c.anyPoison
      let words := slotWords i l c (if lost then 3 else state) pc slot
      let bytes := words.flatMap fun w => bytesOf 8 w
      let base := lsKey i (slotOff a.slot)
      let s := s.write (bytes.mapIdx fun k b => (base + k, b))
      let s := { s with tickets := s.tickets.filter fun t => t.core ≠ i }
      let a' := { a with st := st, current := c.current, coord := c.coord, rb := c.sys.rangeb, re := c.sys.rangee, bank := c.bankAway }
      let s := s.setCore i ({ c with poison := {} }.setAlloc a').vacate
      if lost then s.loseContext i a' pc else s

/-! ### Faults and traps (R359 to R362) -/

/-- The bank of R357 of a launch's task on a core: on the core itself while its context is there (or for the core of a supervisor,
launch 0), else with the allocation. -/
def Core.bankOf (c : Core) (l : Nat) : Option Bank :=
  if c.run = some l ∨ (l = 0 ∧ c.run = none) then some c.bank else (c.alloc l).map (·.bank)

def Core.setBankOf (c : Core) (l : Nat) (b : Bank) : Core :=
  if c.run = some l ∨ (l = 0 ∧ c.run = none) then { c with bank := b }
  else { c with allocs := mapIf (fun a => a.launch = l) (fun a => { a with bank := b }) c.allocs }

/-- The receive side of a port for a launch on a core. -/
def State.rxOf (s : State) (d l p : Nat) : RxPort := SMap.get {} (((s.core d).bankOf l).getD {}).rx p

def State.setRxOf (s : State) (d l p : Nat) (r : RxPort) : State :=
  s.modCore d fun c => match c.bankOf l with
    | some b => c.setBankOf l { b with rx := SMap.set {} b.rx p r }
    | none => c

/-- Mark the last of the words that p selects LAST and TRUNC. -/
def markLast {α : Type} (p : α → Bool) (f : α → α) : List α → List α
  | [] => []
  | w :: t => if p w && !(t.any p) then f w :: t else w :: markLast p f t

/-- Close an open packet of a core's port: its last sent word becomes LAST and TRUNC wherever it is, and the destination queue is
free for other senders (R235). -/
def State.closePacket (s : State) (i p : Nat) : State :=
  let c := s.core i
  match (c.txp p).pkt with
  | none => s
  | some (_, dst) =>
    let s := s.setCore i (c.setTxp p { c.txp p with pkt := none })
    match coreOfId (bits dst.toNat 11 0) with
    | none => s
    | some d =>
      let dp := bits dst.toNat 14 12
      let l := c.run.getD 0
      let mine (w : Wire) : Bool := decide (w.core = i ∧ w.port = p ∧ w.dst = d ∧ w.dstPort = dp ∧ w.launch = l)
      let s := { s with wires := markLast mine (fun w => if w.last then w else { w with last := true, trunc := true }) s.wires }
      let r := s.rxOf d l dp
      let mineQ (w : RxWord) : Bool := decide (w.src = coreId i ∧ w.srcPort = p)
      let q := if s.wires.any mine then r.q else markLast mineQ (fun w => if w.last then w else { w with last := true, trunc := true }) r.q
      s.setRxOf d l dp { q := q, owner := if r.owner = some (i, p) then none else r.owner }

/-- Close every open packet of a core (R235). -/
def State.closePackets (s : State) (i : Nat) : State := (List.range 8).foldl (fun s p => s.closePacket i p) s

/-- Send the words of an instruction, one after another (R234, R235): each is discarded, setting DROP, where the destination core holds no allocation
of the launch; the instruction stalls while a destination queue is full or owned by another packet, with what it has sent itself. -/
def State.sendWords (s : State) (i : Nat) : List TxWord → State → M State
  | [], s' => .ok s'
  | w :: t, s' =>
    match coreOfId (bits w.dst.toNat 11 0) with
    | none => s.sendWords i t (s'.modCore i fun c => c.setTxp w.port { c.txp w.port with drop := true })
    | some d =>
      let l := (s.core i).run.getD 0
      let dp := bits w.dst.toNat 14 12
      if ((s'.core d).bankOf l).isNone ∨ (l = 0 ∧ d ≠ i) then
        s.sendWords i t (s'.modCore i fun c => c.setTxp w.port { c.txp w.port with drop := true })
      else
        let r := s'.rxOf d l dp
        let load := r.q.length + (s'.wires.filter fun x => x.dst = d ∧ x.dstPort = dp ∧ x.launch = l).length
        if load ≥ 8 ∨ ¬(r.owner = none ∨ r.owner = some (i, w.port)) then .error .stall
        else
          let s' := { s' with wires := s'.wires ++ [({ core := i, port := w.port, dst := d, dstPort := dp, launch := l, w := w.w, last := w.last, trunc := false } : Wire)] }
          s.sendWords i t (s'.setRxOf d l dp { r with owner := if w.last then none else some (i, w.port) })

/-- A trapping step task of a causal launch freezes the launch and holds its patch (R328). -/
def State.freeze (s : State) (part launch : Nat) (coord : Word) : State :=
  match s.launch part launch with
  | none => s
  | some l =>
    if l.kind ≠ 1 then s
    else match l.patches[coord.toNat]? with
      | none => s
      | some p =>
        let l := { l with frozen := true }
        s.setPatch l coord.toNat { p with claim := true, held := true } (List.range l.patches.length)

/-- ESLOT as a trap writes it (R42, R43). -/
def eslotWord (slot : Option Word) : Word :=
  match slot with
  | some n => BitVec.ofNat 64 (2 ^ 63 + n.toNat % 2 ^ 56 / 4 * 4)
  | none => 0

/-- Taking a trap, on any core (R7, R39, R42, R359, R362). The trap registers are written; a supervisor core goes on at UCIVEC.VEC·4;
first the loads issued before the instruction take their values. A core that runs a task closes its packets, saves the context with STATE = 2 (after BREAK the saved pc is the address that
follows, R358), posts the message of R360 and parks; a causal launch freezes (R328). `next` is the address after the
instruction in hand. -/
def State.takeTrap (s : State) (i : Nat) (cause : Cause) (val : Word) (next : Word) : State :=
  let s := s.takeLates i
  let c := s.core i
  let epc := c.unitPc
  let y := { c.sys with epc := epc, ecause := BitVec.ofNat 64 cause.code, eval := val, eslot := eslotWord c.slot }
  let c1 := { c with sys := y, pfx := [], txq := [], outq := [], stalled := false, pushing := none }
  if s.isSup i then
    (s.setCore i { c1 with pc := BitVec.ofNat 64 (bits y.ucivec.toNat 55 2 * 4), slot := none, frame := none }).closePackets i
  else
    let s := (s.setCore i c1).closePackets i
    let l := c.run.getD 0
    let part := s.partOf i
    let (pc, slot) : Word × Option Word :=
      if cause = .brk then (c.slot.getD next, none) else (epc, c.slot)
    let msg : FaultMsg := ⟨1, cause.code, coreId i, epc, val, y.eslot, l, c.coord, s.time, 0, 0, s.serial, i⟩
    let s := if c.current then s.freeze part l c.coord else s
    (s.saveContext i 2 .parked pc slot).postFault part msg

/-- A program counter of these bits: bits [1:0] are always zero (R28). -/
def wordPc (x : Word) : Word := x &&& 0xFFFFFFFFFFFFFFFC

/-- Return from a trap of the supervisor core (R362): to EPC, or to the slot instruction there, after which control passes to
ESLOT.NEXT. -/
def Core.returnTrap (c : Core) : Core :=
  let e := c.sys.eslot.toNat
  { c with pc := wordPc c.sys.epc, slot := if bit e 63 then some (BitVec.ofNat 64 (bits e 55 2 * 4)) else none }

/-! ### Completing an instruction -/

/-- The outstanding loads as one more instruction has ended (R130). -/
def Core.later (c : Core) : List LateLoad := c.late.map fun l => { l with age := l.age + 1 }

/-- Issue goes on: fewer than 32 instructions have issued after the oldest outstanding load (R130), whose own end counts one. -/
def Core.windowOpen (c : Core) : Bool := c.late.all fun l => decide (l.age < 33)

/-- Control passes on after an instruction of n bytes: to the delay slot's destination if it stood in one, else to the next address
(R28, R40). The modifier chain is spent. -/
def Core.advance (c : Core) (n : Nat) : Core :=
  match c.slot with
  | some t => { c with pc := t, slot := none, pfx := [], stalled := false, late := c.later }
  | none => { c with pc := c.pc + BitVec.ofNat 64 n, pfx := [], stalled := false, late := c.later }

/-- A branch of n bytes: its slot instruction comes next, then `target` (R40). -/
def Core.branch (c : Core) (n : Nat) (target : Word) : Core :=
  { c with pc := c.pc + BitVec.ofNat 64 n, slot := some target, pfx := [], stalled := false, late := c.later }

end Sys2Proof.Machine
end

