-- ==== Sys2Proof/Machine/Flags.lean ====
section
/-!
DEFINITION. Flags.lean: the modifier words as the instruction they precede reads them (R36, R37), the rounding mode and its draws
(R72 to R75, R128), what a feature bit governs (R57), and how the flags an instruction raises reach FPSTAT or trap (R79, R80).
-/
namespace Sys2Proof.Machine

open Sys2Proof

/-- What the modifier words before an instruction say (R36): RND mode and SAT; PRD ZERO, INV and k; XIMM. -/
structure Mods where
  rnd : Option (RMode × Bool) := none
  prd : Option (Bool × Bool × Nat) := none
  ximm : Option (BitVec 26) := none
  deriving DecidableEq, Repr

/-- Add one word of the chain. -/
def Mods.add (m : Mods) (w : IWord) : Mods :=
  match decodeP w with
  | some (.rnd r t) => { m with rnd := some (r, t) }
  | some (.prd z v k) => { m with prd := some (z, v, k.toNat) }
  | some (.ximm x) => { m with ximm := some x }
  | _ => m

def modsOf (l : List IWord) : Mods := l.foldl Mods.add {}

def Core.mods (c : Core) : Mods := modsOf c.pfx

/-- The counter generator G(key, ctr) of R128. -/
def genG (key ctr : Nat) : Nat :=
  let x := (ctr + key) % 2 ^ 32
  let x := x ^^^ (x >>> 16)
  let x := (x * 0x6C8E9CF5) % 2 ^ 32
  let x := x ^^^ (x >>> 15)
  let x := (x * 0x9E4D2B57) % 2 ^ 32
  x ^^^ (x >>> 16)

/-- How an instruction rounds: mode, SAT, and SRSEED's key and counter. -/
structure Env where
  rm : RMode
  sat : Bool
  key : Nat
  ctr : Nat
  deriving DecidableEq, Repr

/-- The rounding mode of FPCTL (R73). -/
def fpctlMode (x : Word) : RMode := (rmodeOf (BitVec.ofNat 3 x.toNat)).getD .rne

/-- The rounding environment of the instruction in hand (R72, R37). -/
def Core.env (c : Core) : Env :=
  let k := c.sys.srseed.toNat
  match c.mods.rnd with
  | some (m, t) => ⟨m, t, bits k 63 32, bits k 31 0⟩
  | none => ⟨fpctlMode c.sys.fpctl, false, bits k 63 32, bits k 31 0⟩

/-- The draw for position i (R75). -/
def Env.g (e : Env) (i : Nat) : Nat := genG e.key ((e.ctr * 64 + i) % 2 ^ 32)

/-- RNE without SAT and without draws: how engines and homes round (R75, R211). -/
def envRne : Env := ⟨.rne, false, 0, 0⟩

/-- Shape of a floating-point element format; none for the others. -/
def fmtInfo (f : Fmt) : Option FInfo :=
  match f with
  | .f32 => some fi32
  | .bf16 => some fiBf
  | .f16 => some fi16
  | .e4 => some fiE4
  | .e5 => some fiE5
  | .f4 => some fiF4
  | .f64 => some fi64
  | _ => none

/-- The forms that read the rounding mode (R74). -/
def readsMode : Instr → Bool
  | .fadd .. | .fsub .. | .fmul .. | .fdiv .. | .fsqrt .. => true
  | .vadd f .. | .vsub f .. | .vmul f .. | .vdiv f .. | .vsqrt f .. => (fmtInfo f).isSome
  | .vexp2 .. | .vlog2 .. | .vrcp .. | .vrsq .. => true
  | .vfma .. | .vfms .. | .vfnma .. | .vfnms .. => true
  | .vreds f .. | .vscan f .. | .vdot f .. => (fmtInfo f).isSome
  | .fcvt d s _ _ =>
    let fp : CvtKind → Bool := fun k => k == .f32 || k == .f64 || k == .f16 || k == .bf16
    fp d || fp s
  | .vcvt s d .. => (fmtInfo s).isSome || (fmtInfo d).isSome
  | .vqnt .. | .vdq .. | .vwscFrom .. => true
  | _ => false

/-- FEAT bits an element format needs (R57); VF64 counts for the vector instructions. -/
def fmtFeats (f : Fmt) : List Nat :=
  match f with
  | .f64 => [0]
  | .f4 | .i4 => [8]
  | .bx4 => [7, 8]
  | .bx8e4 | .bx8e5 | .bxi8 | .cb2 => [7]
  | _ => []

/-- FEAT bits an instruction needs by itself and by the formats it names (R57). -/
def instrFeats : Instr → List Nat
  | .vadd f .. | .vsub f .. | .vmul f .. | .vdiv f .. | .vmin f .. | .vmax f .. | .vabs f .. | .vneg f .. | .vsqrt f .. => fmtFeats f
  | .vexp2 f .. | .vlog2 f .. | .vrcp f .. | .vrsq f .. | .vand f .. | .vor f .. | .vxor f .. | .vshl f .. | .vshr f .. | .vsra f .. => fmtFeats f
  | .vceq f .. | .vclt f .. | .vcle f .. | .vcun f .. | .vreds f .. | .vredx f .. | .vredn f .. | .vscan f .. => fmtFeats f
  | .vperm f .. | .vbcast f .. | .vext f .. | .vins f .. | .viota f .. | .vmov f .. | .vclass f .. | .vdot f .. => fmtFeats f
  | .vsort f .. | .vmrg f .. => 10 :: fmtFeats f
  | .vrnd f .. => 9 :: fmtFeats f
  | .vfma f .. | .vfms f .. | .vfnma f .. | .vfnms f .. | .vsel f .. | .vshuf f .. => fmtFeats f
  | .vcvt s t .. => fmtFeats s ++ fmtFeats t
  | .vqnt f .. | .vdq f .. => 7 :: fmtFeats f
  | .vwscTo f .. | .vwscFrom f .. => 6 :: fmtFeats f
  | .vld f .. | .vst f .. | .vlds f .. | .vsts f .. | .vgath f .. | .vscat f .. | .vldi f .. => fmtFeats f
  | .atomWs .. | .bankopWs .. => [6]
  | .credWs p => if p.uci then [6, 13] else [6]
  | .launch .. | .qpush .. => [14]
  | .uiret => [13]
  | .slotacq .. | .slotwait .. | .slotrel .. | .slotrelFull .. => [12]
  | .sbind .. | .sdrain .. => [11]
  | .repart p => 5 :: (if p.uci then [13] else [])
  | .chase p => 4 :: (if p.uci then [13] else [])
  | .cpy p | .credAddF32 p | .credAddF64 p | .credAddI32 p | .credMinF32 p | .credMaxF32 p | .credMinI32 p | .credMaxI32 p => if p.uci then [13] else []
  | .cflag p _ | .cflagAdd p _ => if p.uci then [13] else []
  | .lvget .. | .lvset .. | .lvsetReseat .. => [3]
  | .rcfg .. | .rtab .. | .rstep .. | .rgen .. => [2]
  | .mxq .. | .mxz .. | .mxzFree .. | .mxrd .. | .mxwr .. => [1]
  | _ => []

/-- All FEAT bits the instruction in hand needs: its own, its stream operands' (STRM), the rounding mode's (R57, R74). -/
def Core.feats (c : Core) (i : Instr) : List Nat :=
  instrFeats i
  ++ (if i.operands.any Operand.isStream then [11] else [])
  ++ (match c.mods.rnd with
      | some (m, _) => if m = .sr then [9] else []
      | none => if readsMode i && fpctlMode c.sys.fpctl == .sr then [9] else [])

/-- The lowest needed bit that a feature word lacks (R57). -/
def missingFeat (feat : Nat) (need : List Nat) : Option Nat :=
  (List.range 16).find? fun b => need.contains b && !bit feat b

/-- FPTRAP of an instruction whose flags are known and whose destination is not written yet (R80, R30). -/
def Core.gate (c : Core) (fl : FFlags) : M Unit :=
  if (fl.toNat % 32) &&& bits c.sys.fpctl.toNat 12 8 ≠ 0 then .error (.trap .fptrap (BitVec.ofNat 64 fl.toNat)) else .ok ()

/-- Raise flags in FPSTAT, or trap where an enabled one is among them (R79, R80); a rounding form under mode 5 advances SRSEED.CTR
(R75). -/
def Core.raise (c : Core) (i : Instr) (fl : FFlags) : M Core :=
  if (fl.toNat % 32) &&& bits c.sys.fpctl.toNat 12 8 ≠ 0 then .error (.trap .fptrap (BitVec.ofNat 64 fl.toNat))
  else
    let y := c.sys
    let seed := if readsMode i && c.env.rm == .sr then
        BitVec.ofNat 64 (setBits y.srseed.toNat 31 0 (bits y.srseed.toNat 31 0 + 1))
      else y.srseed
    .ok { c with sys := { y with fpstat := y.fpstat ||| BitVec.ofNat 64 fl.toNat, srseed := seed } }

end Sys2Proof.Machine
end

