-- ==== Sys2Proof/Machine/Operands.lean ====
section
/-!
DEFINITION. Operands.lean: reading and writing every operand form (R34, R35): registers, ports, streams, groups, broadcast scalars;
lanes under a PRD word (R86); and the order of R30 in which the conditions of an instruction are met before its body runs.
-/
namespace Sys2Proof.Machine

open Sys2Proof

/-- EVAL of a poisoned register (R370). -/
def poisonVal (cls code : Nat) : Word := BitVec.ofNat 64 (0xFF00000000000000 + 256 * cls + code)

/-- A scalar register that an outstanding load is still to write (R130). -/
def Core.pendingS (c : Core) (n : Nat) : Bool := n != 0 && c.late.any fun l => match l.dst with | .s d _ _ => d == n | _ => false

/-- A vector register that an outstanding load is still to write (R130). -/
def Core.pendingV (c : Core) (n : Nat) : Bool := c.late.any fun l => match l.dst with | .v d _ _ => d == n | _ => false

/-- Read a scalar operand: a register, once its load has returned (R130), or the head word of a port's queue, popped (R34, R35). -/
def Core.readS (c : Core) (r : Reg) : M (Word × Core) :=
  let n := r.toNat
  if n < 56 then
    if c.pendingS n then .error .stall
    else if c.poison.s.contains n then .error (.trap .memue (poisonVal 0 n)) else .ok (c.sreg n, c)
  else
    let p := c.rxp (n - 56)
    match p.q with
    | [] => .error .stall
    | w :: t => .ok (w.w, c.setRxp (n - 56) { p with q := t })

/-- Read a vector operand: a register, once its load has returned (R130), or the next item of an input stream, popped (R34, R35, R231). -/
def Core.readV (c : Core) (r : Reg) : M (Vec × Core) :=
  let n := r.toNat
  if n < 32 then
    if c.pendingV n then .error .stall
    else if c.poison.v.any (fun p => p.1 = n) then .error (.trap .memue (poisonVal 1 n)) else .ok (c.vreg n, c)
  else
    let q := c.strmAt (n - 32)
    if !q.bound || q.output || q.next ≥ strmItems q.desc then .error (.trap .stream (BitVec.ofNat 64 (n - 32)))
    else match q.buf with
      | [] => .error .stall
      | .bad a :: _ => .error (.trap .memue a)
      | .ok v :: t => .ok (v, c.setStrm (n - 32) { q with buf := t, next := q.next + 1 })

/-- Read a mask operand. -/
def Core.readK (c : Core) (r : Nat) : M Word :=
  if c.poison.k.contains r then .error (.trap .memue (poisonVal 2 r)) else .ok (c.kreg r)

/-- Write a scalar register; s0 discards (R34, R35); a write of the whole register clears its poison (R369), and the value of an earlier load that is
still outstanding goes nowhere. -/
def Core.writeS (c : Core) (n : Nat) (x : Word) : Core :=
  { c.setS n x with
    poison := { c.poison with s := c.poison.s.filter (· ≠ n) }
    late := mapIf (fun l => match l.dst with | .s d _ _ => d == n | _ => false) (fun l => { l with dst := .none }) c.late }

/-- Send one word from a port of core i, opening a packet or going on with it (R234, R235); `last` closes it (PEND). -/
def Core.send (c : Core) (i p : Nat) (x : Word) (last : Bool) : M Core :=
  let t := c.txp p
  let (n, dst) := t.pkt.getD (0, sendWord i p t)
  if n ≥ 16 then .error (.trap .portlen (BitVec.ofNat 64 p))
  else .ok { c.setTxp p { t with pkt := if last then none else some (n + 1, dst) } with txq := c.txq ++ [⟨p, dst, x, last⟩] }

/-- Write a scalar destination of core i (R35). -/
def Core.putS (c : Core) (i : Nat) (r : Reg) (x : Word) : M Core :=
  if r.toNat < 56 then .ok (c.writeS r.toNat x) else c.send i (r.toNat - 56) x false

/-- Write the bytes of a vector destination that bm selects; unselected bytes keep their value, or become 0 with `zero`. A stream
receives a whole vector, unselected bytes 0 (R35, R86). A register that an outstanding load is to write is not ready (R130). -/
def Core.putV (c : Core) (r : Reg) (x : Vec) (bm : Nat) (zero : Bool) : M Core :=
  let n := r.toNat
  if n < 32 then (if c.pendingV n then .error .stall else .ok (c.mergeV n x bm zero))
  else
    let q := c.strmAt (n - 32)
    if !q.bound || !q.output || q.next ≥ strmItems q.desc then .error (.trap .stream (BitVec.ofNat 64 (n - 32)))
    else if c.pushedTo (n - 32) + (c.outq.filter fun p => p.1 = n - 32).length ≥ 4 then .error .stall
    else .ok { c.setStrm (n - 32) { q with next := q.next + 1 } with outq := c.outq ++ [(n - 32, q.next, x &&& byteMask bm)] }

/-- Write a mask destination, the bits bm selects. -/
def Core.putK (c : Core) (r : Nat) (x : Word) : Core :=
  { c.setK r x with poison := { c.poison with k := c.poison.k.filter (· ≠ r) } }

/-- All 64 bytes. -/
def allBytes : Nat := 2 ^ 64 - 1

/-- The predicate of the instruction in hand (R86) as 64 bits, and whether it zeroes. -/
def Core.pred (c : Core) : M (Nat × Bool) :=
  match c.mods.prd with
  | none => .ok (allBytes, false)
  | some (z, v, k) => do
    let m ← if k = 0 then pure allBytes else (do let w ← c.readK k; pure w.toNat)
    .ok (if v then allBytes - m else m, z)

/-- Lane i of width w is active (R86). -/
def active (m w i : Nat) : Bool := bit m (i * w / 8)

/-- The bytes of the active lanes of width w. -/
def laneBytes (m w : Nat) : Nat :=
  ofLanes 1 ((List.range 64).map fun b => b2n (if w < 8 then bit m b else active m w (b * 8 / w)))

/-- A scalar read as one element of width w, in every lane (R87). -/
def splat (w x : Nat) : Vec := BitVec.ofNat 512 (ofLanes w (List.replicate (512 / w) x))

/-- A B or C operand that may be a broadcast scalar (R87), repeated at width w. -/
def Core.readVB (c : Core) (bc : Bool) (w : Nat) (r : Reg) : M (Vec × Core) :=
  if bc then do let (x, c) ← c.readS r; .ok (splat w x.toNat, c) else c.readV r

/-! ### What precedes the body (R30) -/

/-- The forms that take an immediate an XIMM word may widen (R37). -/
def acceptsXimm : Instr → Bool
  | .addi .. | .andi .. | .ori .. | .xori .. | .slti .. | .sltiu .. | .shli .. | .shri .. | .srai .. | .li .. | .lui .. => true
  | _ => false

/-- Page B operations and long OP8 0x00 to 0x0F (R37). -/
def isVectorOp : Instr → Bool
  | .vadd .. | .vsub .. | .vmul .. | .vdiv .. | .vmin .. | .vmax .. | .vabs .. | .vneg .. | .vsqrt .. | .vexp2 .. | .vlog2 .. => true
  | .vrcp .. | .vrsq .. | .vand .. | .vor .. | .vxor .. | .vshl .. | .vshr .. | .vsra .. | .vceq .. | .vclt .. | .vcle .. | .vcun .. => true
  | .vreds .. | .vredx .. | .vredn .. | .vscan .. | .vsort .. | .vmrg .. | .vperm .. | .vbcast .. | .vext .. | .vins .. | .viota .. => true
  | .vrnd .. | .vmov .. | .vclass .. | .vdot .. | .vfma .. | .vfms .. | .vfnma .. | .vfnms .. | .vsel .. | .vcvt .. | .vqnt .. => true
  | .vdq .. | .vwscTo .. | .vwscFrom .. | .vshuf .. => true
  | _ => false

/-- FPS and FCVT (R37). -/
def isFpsOp : Instr → Bool
  | .fadd .. | .fsub .. | .fmul .. | .fdiv .. | .fsqrt .. | .fmin .. | .fmax .. | .feq .. | .flt .. | .fle .. | .fcvt .. => true
  | _ => false

def isVectorMem : Instr → Bool
  | .vld .. | .vst .. | .vlds .. | .vsts .. | .vgath .. | .vscat .. | .vldi .. => true
  | _ => false

/-- The kinds of modifier word an instruction accepts (R37), against those before it (R38). -/
def acceptsMods (i : Instr) (m : Mods) : Bool :=
  (m.rnd.isNone || isVectorOp i || isFpsOp i) && (m.prd.isNone || isVectorOp i || isVectorMem i) && (m.ximm.isNone || acceptsXimm i)

/-- The immediate of an SI form, widened by XIMM (R37, R92). -/
def Core.imm12 (c : Core) (imm : BitVec 12) : Int :=
  match c.mods.ximm with
  | some x => sext (x ++ imm).toNat 38
  | none => sext imm.toNat 12

/-- The immediate of an SL form (R37, R93). -/
def Core.imm18 (c : Core) (imm : BitVec 18) : Int :=
  match c.mods.ximm with
  | some x => sext (x ++ imm).toNat 44
  | none => sext imm.toNat 18

/-- A shift immediate outside 0 to 63 (R92). -/
def Core.badShift (c : Core) : Instr → Bool
  | .shli _ _ n | .shri _ _ n | .srai _ _ n => decide (c.imm12 n < 0) || decide (c.imm12 n > 63)
  | _ => false

/-- The operations reserved to the supervisor (R54). -/
def privileged : Instr → Bool
  | .eret | .gong _ | .gongRelease _ | .park | .cmaskC .. | .cmaskD .. | .cmaskDc .. | .tlbiVa .. | .tlbiAll .. => true
  | .sresume .. | .sresumeAbandon .. | .sresumeGet .. | .sresumePut .. => true
  | .sset _ n => n == 0x030 || n == 0x031 || n == 0x032 || n == 0x033 || n == 0x051 || n == 0x060
  | _ => false

/-- What a delay slot must not hold (R41). -/
def slotForbidden : Instr → Bool
  | .beq .. | .bne .. | .blt .. | .bge .. | .bltu .. | .bgeu .. | .bk .. | .j _ | .call _ | .jr .. => true
  | .rpt .. | .rnd .. | .prd .. | .ximm _ | .endTask | .yield | .uiret | .eret | .park | .take .. | .nexti _ | .lvget .. => true
  | _ => false

/-- Word 0 of the instruction in hand, as EVAL holds it. -/
def Core.word0 (c : Core) : Word := BitVec.ofNat 64 c.ir.toNat

/-- The first of ILLOP, FEATURE, PRIV, DSLOT (an instruction of R41 that a forged ESLOT made a slot) and orphan modifier words that holds
(R30 items 2 to 5). -/
def Core.preTrap (c : Core) (feat : Nat) (sup : Bool) (i : Instr) : Option (Cause × Word) :=
  if !i.wf || c.badShift i then some (.illop, c.word0)
  else match missingFeat feat (c.feats i) with
    | some b => some (.feature, BitVec.ofNat 64 b)
    | none =>
      if privileged i && !sup then some (.priv, c.word0)
      else if c.slot.isSome && slotForbidden i then some (.dslot, c.pc)
      else if !acceptsMods i c.mods then some (.orphan, BitVec.ofNat 64 ((c.pfx.headD 0).toNat))
      else none

/-- FEAT as core k reads it (R57, R58, R340). -/
def State.feat (s : State) (k : Nat) : Nat := (s.prt (s.partOf k)).featmask.toNat

/-- The address after the instruction in hand. -/
def Core.nextPc (c : Core) (i : Instr) : Word := c.pc + BitVec.ofNat 64 i.len

/-- The outcome of core k's instruction i from the state s and what its body came to (R8): a trap is taken in s, a stall leaves s but
for the mark that the core waits. -/
def settleOutcome (i : Instr) (k : Nat) (s : State) (r : M State) : Host.Outcome State Fault Refusal :=
  match r with
  | .ok t => .next t
  | .error (.trap c v) => .next (s.takeTrap k c v ((s.core k).nextPc i))
  | .error .stall => .next (s.modCore k fun c => { c with stalled := true })
  | .error (.wait t) => .next (t.modCore k fun c => { c with stalled := true })

/-- Core k as an instruction of it begins: nothing sent or pushed yet. -/
def State.hand (s : State) (k : Nat) : Core := { s.core k with txq := [], outq := [] }

/-- Run an instruction of the current core whose body works on the whole state and says itself where control goes. -/
def runCtl (i : Instr) (body : Nat → State → M State) (s : State) : Host.Outcome State Fault Refusal :=
  let k := s.cur
  match (s.core k).preTrap (s.feat k) (s.isSup k) i with
  | some (c, v) => .next (s.takeTrap k c v ((s.core k).nextPc i))
  | none => settleOutcome i k s (body k (s.setCore k (s.hand k)))

/-- The end of an instruction that does not branch: what it pushed joins its stores (R231), its words are sent, control passes on (R28, R40). -/
def State.retire (s : State) (k : Nat) (i : Instr) : M State := do
  let s := s.pushOut k
  let q := (s.core k).txq
  let s := s.modCore k fun c => { c with txq := [] }
  let s ← s.sendWords k q s
  .ok (s.modCore k fun c => c.advance i.len)

/-- Run an instruction of the current core whose body works on the whole state. -/
def runSeq (i : Instr) (body : Nat → State → M State) (s : State) : Host.Outcome State Fault Refusal :=
  runCtl i (fun k s => do (← body k s).retire k i) s

/-- A body that works on its core alone and may raise flags: what a frame may hold (R45). -/
abbrev CoreBody := Nat → Core → M (Core × FFlags)

/-- A core body with its flags raised (R79, R80, R75). -/
def Core.run1 (c : Core) (i : Instr) (k : Nat) (body : CoreBody) : M Core := do
  let (c', fl) ← body k c
  c'.raise i fl

/-- Run an instruction of the current core whose body works on the core alone. -/
def runLocal (i : Instr) (body : CoreBody) (s : State) : Host.Outcome State Fault Refusal :=
  runSeq i (fun k s => do .ok (s.setCore k (← (s.core k).run1 i k body))) s

end Sys2Proof.Machine
end

