-- ==== Sys2Proof/Machine/Fetch.lean ====
section
/-!
DEFINITION. Fetch.lean: fetching instruction words (R28, R30 item 1, R343, R347, R370).
-/
namespace Sys2Proof.Machine

open Sys2Proof

/-- The checks of one instruction word at va on core i: its physical key and the translation used. The windows carry no X (R347). -/
def State.fetchPa (s : State) (i : Nat) (va : Nat) : Except Cause (Nat × TlbEntry) :=
  let sup := s.isSup i
  if va ≥ 2 ^ 56 || (windowOf va).isSome then .error .prot
  else if !sup && !(s.leased (s.partOf i) ((s.core i).run.getD 0) va) then .error .lease
  else match s.lookup i true va with
    | none => .error .prot
    | some e =>
      if !e.x || (!sup && !e.u) || decide (e.type ≥ 2) || !s.backed (s.partOf i) e.type (e.pa va) then .error .prot
      else if s.poisoned (e.pa va) then .error .memue
      else .ok (e.pa va, e)

/-- The word at an address of core i, with the translation kept. R29 lets a fetch of a word that was written while the launch ran return the old or the new one: the
model fetches what stands at the home (DESIGN CHOICE, log entry 61). -/
def State.fetchWord (s : State) (i : Nat) (va : Word) : Except (Cause × Word) (IWord × State) :=
  match s.fetchPa i va.toNat with
  | .error c => .error (c, va)
  | .ok (k, e) => .ok (BitVec.ofNat 32 (s.rd k 4), s.fill i true e)

/-- The instruction at an address of core i: word 0, the decoded instruction (the row UNASSIGNED_ENCODING where decoding rejects), the
state with the translations kept; or the first fault of its words. An address that is not a multiple of 4 (a resumed PC, R378) is ALIGN. -/
def State.fetch (s : State) (i : Nat) (pc : Word) : Except (Cause × Word) (IWord × Instr × State) := do
  let _ ← if pc.toNat % 4 ≠ 0 then .error (.align, pc) else .ok ()
  let (w0, s) ← s.fetchWord i pc
  let (w1, s) ← if isLong w0 then s.fetchWord i (pc + 4) else .ok (0, s)
  .ok (w0, (match decodeWords w0 w1 with | .ok x => x | .error _ => .unassignedEncoding), s)

/-- The word at an address where it can be fetched; none otherwise. -/
def State.peek (s : State) (i : Nat) (va : Word) : Option IWord :=
  match s.fetchPa i va.toNat with
  | .ok (k, _) => some (BitVec.ofNat 32 (s.rd k 4))
  | .error _ => none

end Sys2Proof.Machine
end

