-- ==== Sys2Proof/Machine/Schedule.lean ====
section
/-!
DEFINITION. Schedule.lean: which agent acts when the agenda is empty (log entry 1).
-/
namespace Sys2Proof.Machine

open Sys2Proof

/-- The launch on a core is stopped by a GONG (R365): its own count or its partition's. -/
def State.gonged (s : State) (i : Nat) : Bool :=
  let p := s.partOf i
  !s.isSup i && (decide ((s.prt p).gong > 0) ||
    match (s.core i).run with
    | some l => match s.launch p l with | some x => decide (x.gong > 0) | none => false
    | none => false)

/-- A core has an instruction to run while issue goes on (R130): a supervisor core always; another while a task's context is on it and nothing stops it. A core
that is to stop issues nothing more while loads of it are outstanding (log entry 16). -/
def State.runnable (s : State) (i : Nat) : Bool :=
  let c := s.core i
  decide (i < ncores) && c.windowOpen && (s.isSup i || (c.run.isSome && !((c.atStop || !c.late.isEmpty) && (c.preempt || s.gonged i))))

/-- The next runnable core after i, by core number, cyclically; i itself when there is none. -/
def State.nextCore (s : State) (i : Nat) : Nat :=
  let used := (s.cores.map (·.1)) ++ (List.range s.cfg.nparts).map s.supOf
  let ok := used.filter s.runnable
  match (ok.filter (· > i)).foldl (fun (m : Option Nat) x => some (min (m.getD x) x)) none with
  | some j => j
  | none => (ok.foldl (fun (m : Option Nat) x => some (min (m.getD x) x)) none).getD i

/-- Time passes, the turn goes to the next runnable core, and every core that waited tries again. -/
def State.rotate (s : State) : State :=
  let s := s.mapCores fun _ c => { c with stalled := false }
  let s := { s with budget := quantum0, time := if s.time = -1 then s.time else s.time + 1 }
  { s with cur := s.nextCore s.cur }

end Sys2Proof.Machine
end

