-- ==== Sys2Proof/Machine/Memory.lean ====
section
/-!
DEFINITION. Memory.lean: plain loads and stores: scalar (R104, R105), vector (R106 to R108) and invariant (R109), with the checks of R103
and the single-copy atomic parts of R110.
-/
namespace Sys2Proof.Machine

open Sys2Proof

/-! ### Addresses -/

/-- The effective address of an LM instruction (R33); A is read before B. -/
def Core.ea (c : Core) (m : MemOp) : M (Word × Core) := do
  let (x, c) ← c.readS m.a
  let (y, c) ← c.readS m.b
  .ok (x + y <<< m.scale.toNat + wordOfInt m.disp.toInt, c)

/-- The effective address of a page A load or store (R104). -/
def eaImm (x : Word) (imm : BitVec 12) : Word := x + wordOfInt imm.toInt

/-- The parts of n bytes at an address that translation and homes take whole: 8 bytes that are not aligned are two words (R110). -/
def partsOf (va : Word) (n : Nat) : List (Word × Nat) := if n = 8 ∧ va.toNat % 8 ≠ 0 then [(va, 4), (va + 4, 4)] else [(va, n)]

/-- The first error of a list of checks, LEASE before the causes of item 4 (R103). -/
def firstFault (l : List (Word × Except Cause (Nat × Option TlbEntry))) : Option (Cause × Word) :=
  match l.find? (fun p => match p.2 with | .error .lease => true | _ => false) with
  | some p => some (.lease, p.1)
  | none => firstSome (fun p => match p.2 with | .error c => some (c, p.1) | .ok _ => none) l

/-- R103 for n bytes at va, in the order of its items: the physical key of each part, with the translations kept. -/
def State.checkBytes (s : State) (i : Nat) (acc : Access) (va : Word) (n : Nat) (misaligned : Bool) : M (List (Word × Nat × Nat) × State) := do
  let ps := partsOf va n
  match s.chkItem1 i va n with
  | some (c, v) => .error (.trap c v)
  | none =>
    trapIf misaligned .align va
    let rs := ps.map fun p => (p.1, s.chk34 i acc p.1.toNat)
    match firstFault rs with
    | some (c, v) => .error (.trap c v)
    | none =>
      let oks := (ps.zip rs).filterMap fun p => match p.2.2 with | .ok (k, e) => some (p.1.1, k, p.1.2, e) | .error _ => none
      match oks.find? (fun q => s.meetsPoison i acc q.2.1) with
      | some q => .error (.trap .memue q.1)
      | none => .ok (oks.map (fun q => (q.1, q.2.1, q.2.2.1)), oks.foldl (fun s q => s.keep i false q.2.2.2) s)

/-- A plain load of checked parts: the little-endian value. -/
def State.loadParts (s : State) (i : Nat) (inv : Bool) : List (Word × Nat × Nat) → M (Nat × State)
  | [] => .ok (0, s)
  | (_, k, n) :: t => do
    let (x, s) ← s.plainLoad i inv k n
    let (y, s) ← s.loadParts i inv t
    .ok (x + y * 2 ^ (8 * n), s)

/-- The places of checked parts, as R203 watches them. -/
def placesOf (ps : List (Word × Nat × Nat)) : List (Nat × Word) := ps.map fun p => (p.2.1, p.1)

/-- One plain load of the running task at these places is watched (R203). -/
def State.watch (s : State) (i : Nat) (l : List (Nat × Word)) : State := s.trackLoad i ((s.core i).run.getD 0) (s.core i).phasec l

/-- Checked parts as a load that is left outstanding keeps them, the first at byte `pos` of the value. -/
def latePartsOf (pos : Nat) : List (Word × Nat × Nat) → List LoadPart
  | [] => []
  | (va, k, n) :: t => ⟨va, k, n, pos⟩ :: latePartsOf (pos + n) t

/-- A load may be left outstanding (R130): no part of it meets poison at its home, so that none traps later, or waits for another access. -/
def State.mayLeave (s : State) (i : Nat) (ps : List LoadPart) : Bool := ps.all fun p => !s.poisoned p.key && !s.granuleBusy p.key && !s.awaits i p.key p.n

/-- The register that a load names as its destination is not written by an earlier outstanding one any more. -/
def LateLoad.drop (l : LateLoad) (d : LoadDst) : LateLoad :=
  match l.dst, d with
  | .s x _ _, .s y _ _ => if x = y then { l with dst := .none } else l
  | _, _ => l

/-- Leave a load outstanding (R130): its register is written when its value comes. -/
def State.leave (s : State) (i : Nat) (dst : LoadDst) (strong : Bool) (ps : List LoadPart) : State :=
  s.tick.modCore i fun c =>
    let l : LateLoad := { id := s.serial, dst := dst, parts := ps, val := 0, bad := false, strong := strong, launch := c.run.getD 0, phasec := c.phasec, age := 0, told := [] }
    { c with defer := false, late := (c.late.map fun q => q.drop dst) ++ [l] }

/-- The bytes of x over checked parts. -/
def storeParts : List (Word × Nat × Nat) → Nat → List (List (Nat × Byte) × Word)
  | [], _ => []
  | (va, k, n) :: t, x => (at_ k n x, va) :: storeParts t (x / 2 ^ (8 * n))

/-! ### Scalar loads and stores (R104, R105) -/

/-- Bytes of a load size, and whether it sign-extends (R105). -/
def ldBytes : LdSize → Nat
  | .b | .bu => 1
  | .h | .hu => 2
  | .w | .wu => 4
  | .d => 8
def ldSigned : LdSize → Bool
  | .b | .h | .w => true
  | _ => false

def stBytes : StSize → Nat
  | .b => 1
  | .h => 2
  | .w => 4
  | .d => 8

/-- A loaded value as it is written (R104). -/
def ldValue (z : LdSize) (x : Nat) : Word := if ldSigned z then wordOfInt (sext x (8 * ldBytes z)) else BitVec.ofNat 64 x

/-- s[D] := memory at the address that `addr` gives (R104, R105); `inv` for an invariant load (R109). Where the core is to leave its next load
outstanding, D is written later (R130, log entry 16). -/
def loadScalar (i : Instr) (z : LdSize) (inv : Bool) (d : Reg) (addr : Core → M (Word × Core)) (s : State) : Host.Outcome State Fault Refusal :=
  runSeq i (fun k s => do
    let (ea, c) ← addr (s.core k)
    let n := ldBytes z
    let (ps, s) ← (s.setCore k c).checkBytes k .load ea n (ea.toNat % n != 0)
    let s ← s.issueLoad k
    if (s.core k).defer && !inv && decide (d.toNat < 56) && s.mayLeave k (latePartsOf 0 ps) then
      .ok (s.leave k (.s d.toNat n (ldSigned z)) false (latePartsOf 0 ps))
    else
      let (x, s) ← s.loadParts k inv ps
      let s := s.watch k (placesOf ps)
      let c ← (s.core k).putS k d (ldValue z x)
      .ok (s.setCore k c)) s

/-- Memory at the address that `addr` gives := the low bytes of s[src], which is read after the address (R104, R105). -/
def storeScalar (i : Instr) (z : StSize) (src : Reg) (addr : Core → M (Word × Core)) (s : State) : Host.Outcome State Fault Refusal :=
  runSeq i (fun k s => do
    let (ea, c) ← addr (s.core k)
    let (x, c) ← c.readS src
    let n := stBytes z
    let (ps, s) ← (s.setCore k c).checkBytes k .store ea n (ea.toNat % n != 0)
    s.issueStore k false (storeParts ps x.toNat)) s

/-- The address operand of a page A form. -/
def addrImm (a : Reg) (imm : BitVec 12) (c : Core) : M (Word × Core) := do
  let (x, c) ← c.readS a
  .ok (eaImm x imm, c)

/-- LDB (R104). -/
def execLdb (d a : Reg) (imm : BitVec 12) (s : State) : Host.Outcome State Fault Refusal := loadScalar (.ldb d a imm) .b false d (addrImm a imm) s

/-- LDBU (R104). -/
def execLdbu (d a : Reg) (imm : BitVec 12) (s : State) : Host.Outcome State Fault Refusal := loadScalar (.ldbu d a imm) .bu false d (addrImm a imm) s

/-- LDH (R104). -/
def execLdh (d a : Reg) (imm : BitVec 12) (s : State) : Host.Outcome State Fault Refusal := loadScalar (.ldh d a imm) .h false d (addrImm a imm) s

/-- LDHU (R104). -/
def execLdhu (d a : Reg) (imm : BitVec 12) (s : State) : Host.Outcome State Fault Refusal := loadScalar (.ldhu d a imm) .hu false d (addrImm a imm) s

/-- LDW (R104). -/
def execLdw (d a : Reg) (imm : BitVec 12) (s : State) : Host.Outcome State Fault Refusal := loadScalar (.ldw d a imm) .w false d (addrImm a imm) s

/-- LDWU (R104). -/
def execLdwu (d a : Reg) (imm : BitVec 12) (s : State) : Host.Outcome State Fault Refusal := loadScalar (.ldwu d a imm) .wu false d (addrImm a imm) s

/-- LDD (R104). -/
def execLdd (d a : Reg) (imm : BitVec 12) (s : State) : Host.Outcome State Fault Refusal := loadScalar (.ldd d a imm) .d false d (addrImm a imm) s

/-- STB (R104). -/
def execStb (b a : Reg) (imm : BitVec 12) (s : State) : Host.Outcome State Fault Refusal := storeScalar (.stb b a imm) .b b (addrImm a imm) s

/-- STH (R104). -/
def execSth (b a : Reg) (imm : BitVec 12) (s : State) : Host.Outcome State Fault Refusal := storeScalar (.sth b a imm) .h b (addrImm a imm) s

/-- STW (R104). -/
def execStw (b a : Reg) (imm : BitVec 12) (s : State) : Host.Outcome State Fault Refusal := storeScalar (.stw b a imm) .w b (addrImm a imm) s

/-- STD (R104). -/
def execStd (b a : Reg) (imm : BitVec 12) (s : State) : Host.Outcome State Fault Refusal := storeScalar (.std b a imm) .d b (addrImm a imm) s

/-- LDX (R105). -/
def execLdx (size : LdSize) (d : Reg) (m : MemOp) (s : State) : Host.Outcome State Fault Refusal := loadScalar (.ldx size d m) size false d (fun c => c.ea m) s

/-- STX (R105). -/
def execStx (size : StSize) (d : Reg) (m : MemOp) (s : State) : Host.Outcome State Fault Refusal := storeScalar (.stx size d m) size d (fun c => c.ea m) s

/-- LDI (R109, R197): no acquire orders it. -/
def execLdi (size : LdSize) (d : Reg) (m : MemOp) (s : State) : Host.Outcome State Fault Refusal := loadScalar (.ldi size d m) size true d (fun c => c.ea m) s

/-! ### Vector loads and stores (R106 to R109) -/

/-- One lane of a vector access: lane number (byte number for 4-bit elements), address, bytes, whether its address breaks the entry's
alignment. -/
structure LaneAt where
  i : Nat
  va : Word
  n : Nat
  mis : Bool
  deriving DecidableEq, Repr

/-- The lanes of VLD, VST and VLDI that m makes active (R106). -/
def lanesDense (w m : Nat) (ea : Word) : List LaneAt :=
  let n := max 1 (w / 8)
  ((List.range (64 / n)).filter fun i => bit m (i * n)).map fun i => ⟨i, ea + BitVec.ofNat 64 (i * n), n, ea.toNat % 4 != 0⟩

/-- The lanes of VLDS and VSTS (R107). -/
def lanesStrided (w m : Nat) (base stride : Word) : List LaneAt :=
  let n := w / 8
  ((List.range (512 / w)).filter fun i => active m w i).map fun i =>
    let va := base + BitVec.ofNat 64 i * stride
    ⟨i, va, n, va.toNat % min n 4 != 0⟩

/-- The lanes of VGATH and VSCAT (R108): indices are the INT32 lanes of v. -/
def lanesIndexed (w m : Nat) (base : Word) (v : Vec) (scale : Nat) : List LaneAt :=
  let n := w / 8
  ((List.range (512 / w)).filter fun i => active m w i).map fun i =>
    let va := base + wordOfInt (sext (lane v 32 i) 32 * 2 ^ scale)
    ⟨i, va, n, va.toNat % min n 4 != 0⟩

/-- Check the lanes in ascending order (R103). -/
def State.checkLanes (s : State) (i : Nat) (acc : Access) : List LaneAt → M (List (LaneAt × List (Word × Nat × Nat)) × State)
  | [] => .ok ([], s)
  | l :: t => do
    let (ps, s) ← s.checkBytes i acc l.va l.n l.mis
    let (r, s) ← s.checkLanes i acc t
    .ok ((l, ps) :: r, s)

/-- Load the checked lanes: each lane's number, size and value. -/
def State.loadLanes (s : State) (i : Nat) (inv : Bool) : List (LaneAt × List (Word × Nat × Nat)) → M (List (Nat × Nat × Nat) × State)
  | [] => .ok ([], s)
  | (l, ps) :: t => do
    let (x, s) ← s.loadParts i inv ps
    let (r, s) ← s.loadLanes i inv t
    .ok ((l.i, l.n, x) :: r, s)

/-- The bytes of lane number i of n bytes in a register. -/
def laneMask (i n : Nat) : Nat := (2 ^ n - 1) * 2 ^ (i * n)

/-- The bytes of a register that these lanes fill. -/
def lanesMask (l : List LaneAt) : Nat := l.foldl (fun t x => t + laneMask x.i x.n) 0

/-- v[D] := the lanes that `addr` gives, the others merged or zeroed (R86); `inv` for an invariant load (R109). Where the core is to leave its next load
outstanding, D is written later (R130, log entry 16). -/
def loadVector (i : Instr) (inv : Bool) (d : Reg) (addr : Nat → Core → M (List LaneAt × Core)) (s : State) : Host.Outcome State Fault Refusal :=
  runSeq i (fun k s => do
    let (m, z) ← (s.core k).pred
    let (ls, c) ← addr m (s.core k)
    let (ps, s) ← (s.setCore k c).checkLanes k .load ls
    let s ← if ls.isEmpty then .ok s else s.issueLoad k
    let parts := ps.flatMap fun p => latePartsOf (p.1.i * p.1.n) p.2
    if (s.core k).defer && !inv && !ls.isEmpty && decide (d.toNat < 32) && !(s.core k).pendingV d.toNat && s.mayLeave k parts then
      .ok (s.leave k (.v d.toNat (lanesMask ls) z) false parts)
    else
    let (xs, s) ← s.loadLanes k inv ps
    let s := s.watch k (ps.flatMap fun p => placesOf p.2)
    let v := xs.foldl (fun t x => t + x.2.2 * 2 ^ (8 * x.1 * x.2.1)) 0
    let bm := xs.foldl (fun t x => t + laneMask x.1 x.2.1) 0
    let c ← (s.core k).putV d (BitVec.ofNat 512 v) bm z
    .ok (s.setCore k c)) s

/-- The aligned word, or double word, that a store part lies in. -/
def pieceWord (x : List (Nat × Byte) × Word) : Nat × Nat := ((x.1.headD (0, 0)).1 / 4, if x.1.length = 8 then 8 else 4)

/-- Join a part to the piece of the same word, or put it behind the others. -/
def joinPiece (p : List (Nat × Byte) × Word) : List (List (Nat × Byte) × Word) → List (List (Nat × Byte) × Word)
  | [] => [p]
  | q :: t => if pieceWord q = pieceWord p then (q.1 ++ p.1, q.2) :: t else q :: joinPiece p t

/-- Add a store part to the pieces: its bytes replace those of earlier parts (R107, R108), and parts of one aligned word land together
(R110). -/
def addPiece (l : List (List (Nat × Byte) × Word)) (p : List (Nat × Byte) × Word) : List (List (Nat × Byte) × Word) :=
  joinPiece p ((l.map fun q => (q.1.filter fun b => !(p.1.any fun c => c.1 == b.1), q.2)).filter fun q => !q.1.isEmpty)

/-- Memory at the lanes that `addr` gives := the lanes of v[D], in ascending order. D is read after the address operands and before the checks of R103, also where
no lane is active: R106 does not order the stream trap or the pop of a stream code in D against them (log entry 59). -/
def storeVector (i : Instr) (d : Reg) (addr : Nat → Core → M (List LaneAt × Core)) (s : State) : Host.Outcome State Fault Refusal :=
  runSeq i (fun k s => do
    let (m, _) ← (s.core k).pred
    let (ls, c) ← addr m (s.core k)
    let (v, c) ← c.readV d
    let (ps, s) ← (s.setCore k c).checkLanes k .store ls
    let parts := ps.flatMap fun p => storeParts p.2 (bits v.toNat (8 * (p.1.i + 1) * p.1.n - 1) (8 * p.1.i * p.1.n))
    if parts.isEmpty then .ok s
    else s.issueStore k false (parts.foldl addPiece [])) s

/-- The lanes at an LM address (R106). -/
def addrDense (f : Fmt) (p : MemOp) (m : Nat) (c : Core) : M (List LaneAt × Core) := do
  let (ea, c) ← c.ea p
  .ok (lanesDense f.width m ea, c)

/-- The lanes at s[A] + disp + i · s[B] · 2^scale (R107). -/
def addrStrided (f : Fmt) (p : MemOp) (m : Nat) (c : Core) : M (List LaneAt × Core) := do
  let (x, c) ← c.readS p.a
  let (y, c) ← c.readS p.b
  .ok (lanesStrided f.width m (x + wordOfInt p.disp.toInt) (y <<< p.scale.toNat), c)

/-- The lanes at s[A] + disp + index · 2^scale (R108). -/
def addrIndexed (f : Fmt) (p : MemOp) (m : Nat) (c : Core) : M (List LaneAt × Core) := do
  let (x, c) ← c.readS p.a
  let (v, c) ← c.readV p.b
  .ok (lanesIndexed f.width m (x + wordOfInt p.disp.toInt) v p.scale.toNat, c)

/-- VLD (R106). -/
def execVld (f : Fmt) (d : Reg) (m : MemOp) (s : State) : Host.Outcome State Fault Refusal := loadVector (.vld f d m) false d (addrDense f m) s

/-- VST (R106). -/
def execVst (f : Fmt) (d : Reg) (m : MemOp) (s : State) : Host.Outcome State Fault Refusal := storeVector (.vst f d m) d (addrDense f m) s

/-- VLDS (R107). -/
def execVlds (f : Fmt) (d : Reg) (m : MemOp) (s : State) : Host.Outcome State Fault Refusal := loadVector (.vlds f d m) false d (addrStrided f m) s

/-- VSTS (R107). -/
def execVsts (f : Fmt) (d : Reg) (m : MemOp) (s : State) : Host.Outcome State Fault Refusal := storeVector (.vsts f d m) d (addrStrided f m) s

/-- VGATH (R108). -/
def execVgath (f : Fmt) (d : Reg) (m : MemOp) (s : State) : Host.Outcome State Fault Refusal := loadVector (.vgath f d m) false d (addrIndexed f m) s

/-- VSCAT (R108). -/
def execVscat (f : Fmt) (d : Reg) (m : MemOp) (s : State) : Host.Outcome State Fault Refusal := storeVector (.vscat f d m) d (addrIndexed f m) s

/-- VLDI (R109, R197). -/
def execVldi (f : Fmt) (d : Reg) (m : MemOp) (s : State) : Host.Outcome State Fault Refusal := loadVector (.vldi f d m) true d (addrDense f m) s

end Sys2Proof.Machine
end

