-- ==== Sys2Proof/Machine/ScalarFp.lean ====
section
/-!
DEFINITION. ScalarFp.lean: scalar floating point: FPS (R95) and FCVT (R96). A result and the flags it raises reach FPSTAT, or trap,
through runLocal (R79, R80).
-/
namespace Sys2Proof.Machine

open Sys2Proof

/-- FP32, or FP64 with F[5] (R95). -/
def fpsInfo (dbl : Bool) : FInfo := if dbl then fi64 else fi32

/-- An FP operand of a scalar register: its low w bits (R85). -/
def FInfo.ofWord (i : FInfo) (x : Word) : Nat := x.toNat % 2 ^ i.w

/-- s[D] := op of s[A] and s[B] as encodings, zero-extended (R85, R95). -/
def binF (dbl : Bool) (d a b : Reg) (op : FInfo → Env → Nat → Nat → Nat × FFlags) : CoreBody := fun k c => do
  let i := fpsInfo dbl
  let e := c.env
  let (x, c) ← c.readS a
  let (y, c) ← c.readS b
  let r := op i e (i.ofWord x) (i.ofWord y)
  c.gate r.2
  .ok (← c.putS k d (BitVec.ofNat 64 r.1), r.2)

/-- x + y, x - y, x · y, x / y on encodings, position i of R75. -/
def fpAdd (i : FInfo) (e : Env) (p x y : Nat) : Nat × FFlags := i.add e.rm e.sat (e.g p) (i.decode x) (i.decode y)
def fpSub (i : FInfo) (e : Env) (p x y : Nat) : Nat × FFlags := i.add e.rm e.sat (e.g p) (i.decode x) (i.decode y).neg
def fpMul (i : FInfo) (e : Env) (p x y : Nat) : Nat × FFlags := i.mul e.rm e.sat (e.g p) (i.decode x) (i.decode y)
def fpDiv (i : FInfo) (e : Env) (p x y : Nat) : Nat × FFlags := i.div e.rm e.sat (e.g p) (i.decode x) (i.decode y)
def fpSqrt (i : FInfo) (e : Env) (p x : Nat) : Nat × FFlags := i.sqrt e.rm e.sat (e.g p) (i.decode x)

/-- FADD (R95). -/
def bodyFadd (dbl : Bool) (d a b : Reg) : CoreBody := binF dbl d a b fun i e x y => fpAdd i e 0 x y
def execFadd (dbl : Bool) (d a b : Reg) (s : State) : Host.Outcome State Fault Refusal := runLocal (.fadd dbl d a b) (bodyFadd dbl d a b) s

/-- FSUB (R95). -/
def bodyFsub (dbl : Bool) (d a b : Reg) : CoreBody := binF dbl d a b fun i e x y => fpSub i e 0 x y
def execFsub (dbl : Bool) (d a b : Reg) (s : State) : Host.Outcome State Fault Refusal := runLocal (.fsub dbl d a b) (bodyFsub dbl d a b) s

/-- FMUL (R95). -/
def bodyFmul (dbl : Bool) (d a b : Reg) : CoreBody := binF dbl d a b fun i e x y => fpMul i e 0 x y
def execFmul (dbl : Bool) (d a b : Reg) (s : State) : Host.Outcome State Fault Refusal := runLocal (.fmul dbl d a b) (bodyFmul dbl d a b) s

/-- FDIV (R95). -/
def bodyFdiv (dbl : Bool) (d a b : Reg) : CoreBody := binF dbl d a b fun i e x y => fpDiv i e 0 x y
def execFdiv (dbl : Bool) (d a b : Reg) (s : State) : Host.Outcome State Fault Refusal := runLocal (.fdiv dbl d a b) (bodyFdiv dbl d a b) s

/-- FSQRT (R95). -/
def bodyFsqrt (dbl : Bool) (d a : Reg) : CoreBody := fun k c => do
  let i := fpsInfo dbl
  let e := c.env
  let (x, c) ← c.readS a
  let r := fpSqrt i e 0 (i.ofWord x)
  c.gate r.2
  .ok (← c.putS k d (BitVec.ofNat 64 r.1), r.2)
def execFsqrt (dbl : Bool) (d a : Reg) (s : State) : Host.Outcome State Fault Refusal := runLocal (.fsqrt dbl d a) (bodyFsqrt dbl d a) s

/-- FMIN (R95). -/
def bodyFmin (dbl : Bool) (d a b : Reg) : CoreBody := binF dbl d a b fun i _ x y => (i.minmax false x y, 0)
def execFmin (dbl : Bool) (d a b : Reg) (s : State) : Host.Outcome State Fault Refusal := runLocal (.fmin dbl d a b) (bodyFmin dbl d a b) s

/-- FMAX (R95). -/
def bodyFmax (dbl : Bool) (d a b : Reg) : CoreBody := binF dbl d a b fun i _ x y => (i.minmax true x y, 0)
def execFmax (dbl : Bool) (d a b : Reg) (s : State) : Host.Outcome State Fault Refusal := runLocal (.fmax dbl d a b) (bodyFmax dbl d a b) s

/-- FEQ (R95). -/
def bodyFeq (dbl : Bool) (d a b : Reg) : CoreBody := binF dbl d a b fun i _ x y => (b2n (FVal.eqNum (i.decode x) (i.decode y)), 0)
def execFeq (dbl : Bool) (d a b : Reg) (s : State) : Host.Outcome State Fault Refusal := runLocal (.feq dbl d a b) (bodyFeq dbl d a b) s

/-- FLT (R95). -/
def bodyFlt (dbl : Bool) (d a b : Reg) : CoreBody := binF dbl d a b fun i _ x y => (b2n (FVal.ltNum (i.decode x) (i.decode y)), 0)
def execFlt (dbl : Bool) (d a b : Reg) (s : State) : Host.Outcome State Fault Refusal := runLocal (.flt dbl d a b) (bodyFlt dbl d a b) s

/-- FLE (R95). -/
def bodyFle (dbl : Bool) (d a b : Reg) : CoreBody := binF dbl d a b fun i _ x y => (b2n (FVal.ltNum (i.decode x) (i.decode y) || FVal.eqNum (i.decode x) (i.decode y)), 0)
def execFle (dbl : Bool) (d a b : Reg) (s : State) : Host.Outcome State Fault Refusal := runLocal (.fle dbl d a b) (bodyFle dbl d a b) s

/-- The floating-point shape of an FCVT kind; none for the integers (R50). -/
def cvtInfo : CvtKind → Option FInfo
  | .f32 => some fi32
  | .f64 => some fi64
  | .f16 => some fi16
  | .bf16 => some fiBf
  | _ => none

/-- Width and signedness of an integer kind. -/
def cvtInt : CvtKind → Nat × Bool
  | .i32 => (32, true)
  | .u32 => (32, false)
  | .i64 => (64, true)
  | _ => (64, false)

/-- The least and largest value of an integer kind. -/
def cvtRange (t : CvtKind) : Int × Int :=
  let (w, sg) := cvtInt t
  if sg then (-(2 ^ (w - 1)), 2 ^ (w - 1) - 1) else (0, 2 ^ w - 1)

/-- The integer of a scalar register as an integer kind (R96). -/
def cvtRead (t : CvtKind) (x : Word) : Int :=
  let (w, sg) := cvtInt t
  if sg then sext x.toNat w else ((x.toNat % 2 ^ w : Nat) : Int)

/-- FCVT on a register's 64 bits (R96, R63): what is written and the flags. -/
def fcvtOf (t src : CvtKind) (e : Env) (x : Word) : Word × FFlags :=
  match cvtInfo src, cvtInfo t with
  | some i, some o =>
    let r := o.deliver e.rm e.sat (e.g 0) (i.decode (i.ofWord x))
    (BitVec.ofNat 64 r.1, r.2)
  | none, some o =>
    let r := o.deliver e.rm e.sat (e.g 0) (FVal.ofInt (cvtRead src x))
    (BitVec.ofNat 64 r.1, r.2)
  | some i, none =>
    let r := toInt (cvtRange t).1 (cvtRange t).2 e.rm (e.g 0) (i.decode (i.ofWord x))
    (wordOfInt r.1, r.2)
  | none, none =>
    let v := cvtRead src x
    let y := max (cvtRange t).1 (min v (cvtRange t).2)
    (wordOfInt y, if y = v then 0 else flNV)

/-- FCVT (R96). -/
def bodyFcvt (dst src : CvtKind) (d a : Reg) : CoreBody := fun k c => do
  let e := c.env
  let (x, c) ← c.readS a
  let r := fcvtOf dst src e x
  c.gate r.2
  .ok (← c.putS k d r.1, r.2)
def execFcvt (dst src : CvtKind) (d a : Reg) (s : State) : Host.Outcome State Fault Refusal := runLocal (.fcvt dst src d a) (bodyFcvt dst src d a) s

end Sys2Proof.Machine
end

