-- ==== Sys2Proof/Machine/VectorB.lean ====
section
/-!
DEFINITION. VectorB.lean: the vector operations of page B: element-wise arithmetic, special functions, bitwise operations, shifts,
compares (R111 to R114), reductions, scans, dot products (R121 to R123), sorting, lane moves and VRND (R124 to R129). Each entry has a
body, which a frame may run (R45), and a meaning, which is the body run as one instruction.
-/
namespace Sys2Proof.Machine

open Sys2Proof

/-! ### Lanes (R85, R86) -/

/-- A vector of lanes of width w from f on the active lanes, and the flags these raise; an inactive lane computes nothing. -/
def lanesOut (w m : Nat) (f : Nat → Nat × FFlags) : Vec × FFlags :=
  let rs := (List.range (512 / w)).map fun i => if active m w i then f i else (0, 0)
  (BitVec.ofNat 512 (ofLanes w (rs.map (·.1))), rs.foldl (fun a r => a ||| r.2) 0)

/-- A lane of an integer format as an integer. -/
def ilane (v : Vec) (w i : Nat) : Int := sext (lane v w i) w

/-- An integer result in w bits: wrapped, or clamped with SAT (R111). -/
def intRes (e : Env) (w : Nat) (x : Int) : Nat := wrapN w (if e.sat then clampS w x else x)

/-- A lane-wise operation of one vector operand. -/
def vUn (f : Fmt) (d a : Reg) (op : Env → Nat → Nat → Nat × FFlags) : CoreBody := fun _ c => do
  let w := f.width
  let e := c.env
  let (m, z) ← c.pred
  let (x, c) ← c.readV a
  let r := lanesOut w m fun i => op e i (lane x w i)
  c.gate r.2
  .ok (← c.putV d r.1 (laneBytes m w) z, r.2)

/-- A lane-wise operation of two operands, the second a vector or a broadcast scalar (R87). -/
def vBin (f : Fmt) (bc : Bool) (d a b : Reg) (op : Env → Nat → Nat → Nat → Nat × FFlags) : CoreBody := fun _ c => do
  let w := f.width
  let e := c.env
  let (m, z) ← c.pred
  let (x, c) ← c.readV a
  let (y, c) ← c.readVB bc w b
  let r := lanesOut w m fun i => op e i (lane x w i) (lane y w i)
  c.gate r.2
  .ok (← c.putV d r.1 (laneBytes m w) z, r.2)

/-- An element operation in the format: on encodings where it is a floating-point format, else on integers (R111). -/
def arith2 (f : Fmt) (fp : FInfo → Env → Nat → Nat → Nat → Nat × FFlags) (int : Int → Int → Int) : Env → Nat → Nat → Nat → Nat × FFlags :=
  fun e i x y => match fmtInfo f with
    | some o => fp o e i x y
    | none => (intRes e f.width (int (sext x f.width) (sext y f.width)), 0)

def arith1 (f : Fmt) (fp : FInfo → Env → Nat → Nat → Nat × FFlags) (int : Int → Int) : Env → Nat → Nat → Nat × FFlags :=
  fun e i x => match fmtInfo f with
    | some o => fp o e i x
    | none => (intRes e f.width (int (sext x f.width)), 0)

/-- The sign bit set, cleared or inverted; a NaN becomes the canonical NaN (R111). -/
def fpSign (o : FInfo) (x : Nat) (f : Bool → Bool) : Nat :=
  if (o.decode x).isNan then o.nanBits else o.signBit (f (bit x (o.w - 1))) + x % 2 ^ (o.w - 1)

/-- The merged mask register of a compare: the bits bm of x, the others kept or 0 (R86). -/
def Core.putKm (c : Core) (r : Nat) (x bm : Nat) (zero : Bool) : Core :=
  let y : Word := BitVec.ofNat 64 (if zero then x &&& bm else (x &&& bm) ||| ((c.kreg r).toNat &&& (allBytes - bm)))
  if zero || bm = allBytes then c.putK r y else c.setK r y

/-- A compare into a mask (R114). -/
def vCmp (f : Fmt) (bc : Bool) (d a b : Reg) (fp : FVal → FVal → Bool) (int : Int → Int → Bool) : CoreBody := fun _ c => do
  let w := f.width
  let (m, z) ← c.pred
  let (x, c) ← c.readV a
  let (y, c) ← c.readVB bc w b
  let t (i : Nat) : Bool := match fmtInfo f with
    | some o => fp (o.decode (lane x w i)) (o.decode (lane y w i))
    | none => int (ilane x w i) (ilane y w i)
  let bits := ofLanes (w / 8) ((List.range (512 / w)).map fun i => if t i then 2 ^ (w / 8) - 1 else 0)
  .ok (c.putKm d.toNat bits (laneBytes m w) z, 0)

/-! ### Element arithmetic (R111) -/

/-- VADD (R111). -/
def bodyVadd (f : Fmt) (bc : Bool) (d a b : Reg) : CoreBody := vBin f bc d a b (arith2 f fpAdd (· + ·))
def execVadd (f : Fmt) (bc : Bool) (d a b : Reg) (s : State) : Host.Outcome State Fault Refusal := runLocal (.vadd f bc d a b) (bodyVadd f bc d a b) s

/-- VSUB (R111). -/
def bodyVsub (f : Fmt) (bc : Bool) (d a b : Reg) : CoreBody := vBin f bc d a b (arith2 f fpSub (· - ·))
def execVsub (f : Fmt) (bc : Bool) (d a b : Reg) (s : State) : Host.Outcome State Fault Refusal := runLocal (.vsub f bc d a b) (bodyVsub f bc d a b) s

/-- VMUL (R111). -/
def bodyVmul (f : Fmt) (bc : Bool) (d a b : Reg) : CoreBody := vBin f bc d a b (arith2 f fpMul (· * ·))
def execVmul (f : Fmt) (bc : Bool) (d a b : Reg) (s : State) : Host.Outcome State Fault Refusal := runLocal (.vmul f bc d a b) (bodyVmul f bc d a b) s

/-- VDIV (R111, R112): floating point only. -/
def bodyVdiv (f : Fmt) (bc : Bool) (d a b : Reg) : CoreBody := vBin f bc d a b (arith2 f fpDiv (fun x _ => x))
def execVdiv (f : Fmt) (bc : Bool) (d a b : Reg) (s : State) : Host.Outcome State Fault Refusal := runLocal (.vdiv f bc d a b) (bodyVdiv f bc d a b) s

/-- VMIN (R111). -/
def bodyVmin (f : Fmt) (bc : Bool) (d a b : Reg) : CoreBody := vBin f bc d a b (arith2 f (fun o _ _ x y => (o.minmax false x y, 0)) min)
def execVmin (f : Fmt) (bc : Bool) (d a b : Reg) (s : State) : Host.Outcome State Fault Refusal := runLocal (.vmin f bc d a b) (bodyVmin f bc d a b) s

/-- VMAX (R111). -/
def bodyVmax (f : Fmt) (bc : Bool) (d a b : Reg) : CoreBody := vBin f bc d a b (arith2 f (fun o _ _ x y => (o.minmax true x y, 0)) max)
def execVmax (f : Fmt) (bc : Bool) (d a b : Reg) (s : State) : Host.Outcome State Fault Refusal := runLocal (.vmax f bc d a b) (bodyVmax f bc d a b) s

/-- VABS (R111). -/
def bodyVabs (f : Fmt) (d a : Reg) : CoreBody := vUn f d a (arith1 f (fun o _ _ x => (fpSign o x fun _ => false, 0)) (fun x => (x.natAbs : Int)))
def execVabs (f : Fmt) (d a : Reg) (s : State) : Host.Outcome State Fault Refusal := runLocal (.vabs f d a) (bodyVabs f d a) s

/-- VNEG (R111). -/
def bodyVneg (f : Fmt) (d a : Reg) : CoreBody := vUn f d a (arith1 f (fun o _ _ x => (fpSign o x not, 0)) (fun x => -x))
def execVneg (f : Fmt) (d a : Reg) (s : State) : Host.Outcome State Fault Refusal := runLocal (.vneg f d a) (bodyVneg f d a) s

/-- VSQRT (R111, R112). -/
def bodyVsqrt (f : Fmt) (d a : Reg) : CoreBody := vUn f d a (arith1 f fpSqrt (fun x => x))
def execVsqrt (f : Fmt) (d a : Reg) (s : State) : Host.Outcome State Fault Refusal := runLocal (.vsqrt f d a) (bodyVsqrt f d a) s

/-! ### Special functions (R112) -/

/-- VEXP2 (R112). -/
def bodyVexp2 (f : Fmt) (d a : Reg) : CoreBody := vUn f d a (arith1 f (fun o e p x => o.exp2 e.rm e.sat (e.g p) (o.decode x)) (fun x => x))
def execVexp2 (f : Fmt) (d a : Reg) (s : State) : Host.Outcome State Fault Refusal := runLocal (.vexp2 f d a) (bodyVexp2 f d a) s

/-- VLOG2 (R112). -/
def bodyVlog2 (f : Fmt) (d a : Reg) : CoreBody := vUn f d a (arith1 f (fun o e p x => o.log2 e.rm e.sat (e.g p) (o.decode x)) (fun x => x))
def execVlog2 (f : Fmt) (d a : Reg) (s : State) : Host.Outcome State Fault Refusal := runLocal (.vlog2 f d a) (bodyVlog2 f d a) s

/-- VRCP (R112). -/
def bodyVrcp (f : Fmt) (d a : Reg) : CoreBody := vUn f d a (arith1 f (fun o e p x => o.rcp e.rm e.sat (e.g p) (o.decode x)) (fun x => x))
def execVrcp (f : Fmt) (d a : Reg) (s : State) : Host.Outcome State Fault Refusal := runLocal (.vrcp f d a) (bodyVrcp f d a) s

/-- VRSQ (R112). -/
def bodyVrsq (f : Fmt) (d a : Reg) : CoreBody := vUn f d a (arith1 f (fun o e p x => o.rsq e.rm e.sat (e.g p) (o.decode x)) (fun x => x))
def execVrsq (f : Fmt) (d a : Reg) (s : State) : Host.Outcome State Fault Refusal := runLocal (.vrsq f d a) (bodyVrsq f d a) s

/-! ### Bitwise operations and shifts (R113) -/

/-- VAND (R113). -/
def bodyVand (f : Fmt) (bc : Bool) (d a b : Reg) : CoreBody := vBin f bc d a b fun _ _ x y => (x &&& y, 0)
def execVand (f : Fmt) (bc : Bool) (d a b : Reg) (s : State) : Host.Outcome State Fault Refusal := runLocal (.vand f bc d a b) (bodyVand f bc d a b) s

/-- VOR (R113). -/
def bodyVor (f : Fmt) (bc : Bool) (d a b : Reg) : CoreBody := vBin f bc d a b fun _ _ x y => (x ||| y, 0)
def execVor (f : Fmt) (bc : Bool) (d a b : Reg) (s : State) : Host.Outcome State Fault Refusal := runLocal (.vor f bc d a b) (bodyVor f bc d a b) s

/-- VXOR (R113). -/
def bodyVxor (f : Fmt) (bc : Bool) (d a b : Reg) : CoreBody := vBin f bc d a b fun _ _ x y => (x ^^^ y, 0)
def execVxor (f : Fmt) (bc : Bool) (d a b : Reg) (s : State) : Host.Outcome State Fault Refusal := runLocal (.vxor f bc d a b) (bodyVxor f bc d a b) s

/-- VSHL (R113). -/
def bodyVshl (f : Fmt) (bc : Bool) (d a b : Reg) : CoreBody := vBin f bc d a b fun _ _ x c => (if c ≥ f.width then 0 else x * 2 ^ c % 2 ^ f.width, 0)
def execVshl (f : Fmt) (bc : Bool) (d a b : Reg) (s : State) : Host.Outcome State Fault Refusal := runLocal (.vshl f bc d a b) (bodyVshl f bc d a b) s

/-- VSHR (R113). -/
def bodyVshr (f : Fmt) (bc : Bool) (d a b : Reg) : CoreBody := vBin f bc d a b fun _ _ x c => (if c ≥ f.width then 0 else x / 2 ^ c, 0)
def execVshr (f : Fmt) (bc : Bool) (d a b : Reg) (s : State) : Host.Outcome State Fault Refusal := runLocal (.vshr f bc d a b) (bodyVshr f bc d a b) s

/-- VSRA (R113). -/
def bodyVsra (f : Fmt) (bc : Bool) (d a b : Reg) : CoreBody :=
  vBin f bc d a b fun _ _ x c => (wrapN f.width (sext x f.width / 2 ^ (min c f.width)), 0)
def execVsra (f : Fmt) (bc : Bool) (d a b : Reg) (s : State) : Host.Outcome State Fault Refusal := runLocal (.vsra f bc d a b) (bodyVsra f bc d a b) s

/-! ### Compares (R114) -/

/-- VCEQ (R114). -/
def bodyVceq (f : Fmt) (bc : Bool) (d a b : Reg) : CoreBody := vCmp f bc d a b FVal.eqNum (· == ·)
def execVceq (f : Fmt) (bc : Bool) (d a b : Reg) (s : State) : Host.Outcome State Fault Refusal := runLocal (.vceq f bc d a b) (bodyVceq f bc d a b) s

/-- VCLT (R114). -/
def bodyVclt (f : Fmt) (bc : Bool) (d a b : Reg) : CoreBody := vCmp f bc d a b FVal.ltNum (fun x y => decide (x < y))
def execVclt (f : Fmt) (bc : Bool) (d a b : Reg) (s : State) : Host.Outcome State Fault Refusal := runLocal (.vclt f bc d a b) (bodyVclt f bc d a b) s

/-- VCLE (R114). -/
def bodyVcle (f : Fmt) (bc : Bool) (d a b : Reg) : CoreBody :=
  vCmp f bc d a b (fun x y => FVal.ltNum x y || FVal.eqNum x y) (fun x y => decide (x ≤ y))
def execVcle (f : Fmt) (bc : Bool) (d a b : Reg) (s : State) : Host.Outcome State Fault Refusal := runLocal (.vcle f bc d a b) (bodyVcle f bc d a b) s

/-- VCUN (R114). -/
def bodyVcun (f : Fmt) (bc : Bool) (d a b : Reg) : CoreBody := vCmp f bc d a b (fun x y => x.isNan || y.isNan) (fun _ _ => false)
def execVcun (f : Fmt) (bc : Bool) (d a b : Reg) (s : State) : Host.Outcome State Fault Refusal := runLocal (.vcun f bc d a b) (bodyVcun f bc d a b) s

/-! ### Reductions and scans (R121, R122) -/

/-- One level of the tree of R82 on its nodes, numbered from `base`: a node with one child passes it on. -/
def redLevel (op : Nat → Nat → Nat → Nat × FFlags) : Nat → List (Option Nat) → List (Option Nat) × FFlags
  | base, x :: y :: t =>
    let r := redLevel op (base + 1) t
    match x, y with
    | some a, some b => let v := op base a b; (some v.1 :: r.1, v.2 ||| r.2)
    | some a, none => (some a :: r.1, r.2)
    | none, b => (b :: r.1, r.2)
  | _, l => (l, 0)

/-- The tree of R82: levels until one node is left; node numbers go on from level to level (R75). -/
def redTree (op : Nat → Nat → Nat → Nat × FFlags) : Nat → Nat → List (Option Nat) → Option Nat × FFlags
  | 0, _, l => (l.headD none, 0)
  | k + 1, base, l =>
    if l.length ≤ 1 then (l.headD none, 0)
    else
      let r := redLevel op base l
      let q := redTree op k (base + r.1.length) r.1
      (q.1, r.2 ||| q.2)

/-- The lanes of a vector, none where inactive. -/
def activeLanes (w m : Nat) (x : Vec) : List (Option Nat) :=
  (List.range (512 / w)).map fun i => if active m w i then some (lane x w i) else none

/-- VREDS (R121, R82); a NaN that no addition met is delivered canonical too (R62). -/
def bodyVreds (f : Fmt) (d a : Reg) : CoreBody := fun k c => do
  let w := f.width
  let e := c.env
  let (m, _) ← c.pred
  let (x, c) ← c.readV a
  let l := activeLanes w m x
  match fmtInfo f with
  | some o =>
    let r := redTree (fun p x y => fpAdd o e p x y) 7 0 l
    c.gate r.2
    .ok (← c.putS k d (BitVec.ofNat 64 (o.canon (r.1.getD 0))), r.2)
  | none =>
    let sum : Int := l.foldl (fun t v => match v with | some v => t + sext v w | none => t) 0
    .ok (← c.putS k d (wordOfInt sum), 0)
def execVreds (f : Fmt) (d a : Reg) (s : State) : Host.Outcome State Fault Refusal := runLocal (.vreds f d a) (bodyVreds f d a) s

/-- The largest or smallest active lane (R121). -/
def vExtreme (f : Fmt) (mx : Bool) (d a : Reg) : CoreBody := fun k c => do
  let w := f.width
  let (m, _) ← c.pred
  let (x, c) ← c.readV a
  let l := (activeLanes w m x).filterMap id
  match fmtInfo f with
  | some o =>
    let r := l.foldl (fun t v => o.minmax mx t v) o.nanBits
    .ok (← c.putS k d (BitVec.ofNat 64 r), 0)
  | none =>
    let start : Int := if mx then -(2 ^ (w - 1)) else 2 ^ (w - 1) - 1
    let r := l.foldl (fun t v => if mx then max t (sext v w) else min t (sext v w)) start
    .ok (← c.putS k d (wordOfInt r), 0)

/-- VREDX (R121). -/
def bodyVredx (f : Fmt) (d a : Reg) : CoreBody := vExtreme f true d a
def execVredx (f : Fmt) (d a : Reg) (s : State) : Host.Outcome State Fault Refusal := runLocal (.vredx f d a) (bodyVredx f d a) s

/-- VREDN (R121). -/
def bodyVredn (f : Fmt) (d a : Reg) : CoreBody := vExtreme f false d a
def execVredn (f : Fmt) (d a : Reg) (s : State) : Host.Outcome State Fault Refusal := runLocal (.vredn f d a) (bodyVredn f d a) s

/-- The running sums of R122 over lanes from i on: what each active lane receives, in order, and the flags. -/
def scanGo (first : Nat → Nat) (op : Nat → Nat → Nat → Nat × FFlags) : Nat → Option Nat → List (Option Nat) → List Nat × FFlags
  | _, _, [] => ([], 0)
  | i, acc, none :: t => let r := scanGo first op (i + 1) acc t; (0 :: r.1, r.2)
  | i, none, some x :: t => let r := scanGo first op (i + 1) (some (first x)) t; (first x :: r.1, r.2)
  | i, some a, some x :: t =>
    let v := op i a x
    let r := scanGo first op (i + 1) (some v.1) t
    (v.1 :: r.1, v.2 ||| r.2)

/-- VSCAN (R122). -/
def bodyVscan (f : Fmt) (d a : Reg) : CoreBody := fun _ c => do
  let w := f.width
  let e := c.env
  let (m, z) ← c.pred
  let (x, c) ← c.readV a
  let first (v : Nat) : Nat := match fmtInfo f with
    | some o => if (o.decode v).isNan then o.nanBits else v
    | none => v
  let r := scanGo first (arith2 f fpAdd (· + ·) e) 0 none (activeLanes w m x)
  c.gate r.2
  .ok (← c.putV d (BitVec.ofNat 512 (ofLanes w r.1)) (laneBytes m w) z, r.2)
def execVscan (f : Fmt) (d a : Reg) (s : State) : Host.Outcome State Fault Refusal := runLocal (.vscan f d a) (bodyVscan f d a) s

/-! ### Dot products (R123) -/

/-- The exact sum of a group's products, and NV of R123's first two items: 0 · ∞ without a NaN factor; +∞ and -∞ in a group without a
NaN factor. -/
def dotVals (zneg : Bool) (vs : List (FVal × FVal)) : FVal × Bool :=
  let nanf := vs.any fun p => p.1.isNan || p.2.isNan
  let ps := vs.map fun p => FVal.mulX p.1 p.2
  let zi := ps.any (·.2)
  match ps with
  | [] => (.fin false 0 0, false)
  | p :: t =>
    let r := t.foldl (fun (acc : FVal × Bool) q => let y := FVal.addX zneg acc.1 q.1; (y.1, acc.2 || y.2)) (p.1, false)
    -- infinities of both signs make NaN whatever stands between them
    let pos := ps.any fun q => q.1 == .inf false
    let neg := ps.any fun q => q.1 == .inf true
    (r.1, zi || (pos && neg && !nanf))

/-- The same on encodings of a format. -/
def dotGroup (o : FInfo) (zneg : Bool) (xs : List (Nat × Nat)) : FVal × Bool := dotVals zneg (xs.map fun p => (o.decode p.1, o.decode p.2))

/-- VDOT (R123). A stream code in D is read and written, so it traps with STREAM (R35). -/
def bodyVdot (f : Fmt) (bc : Bool) (d a b : Reg) : CoreBody := fun _ c => do
  let w := f.width
  let g := 32 / w
  let e := c.env
  let (m, z) ← c.pred
  let (x, c) ← c.readV a
  let (y, c) ← c.readVB bc 32 b
  trapIf (decide (d.toNat ≥ 32)) .stream (BitVec.ofNat 64 (d.toNat - 32))
  let (acc, c) ← c.readV d
  let pairs (j : Nat) : List (Nat × Nat) := (List.range g).map fun t => (lane x w (g * j + t), lane y w (g * j + t))
  let r := lanesOut 32 m fun j =>
    match fmtInfo f with
    | some o =>
      let q := dotGroup o (zeroNeg e.rm) (pairs j)
      let v := FVal.addX (zeroNeg e.rm) (fi32.decode (lane acc 32 j)) q.1
      let u := fi32.deliver e.rm e.sat (e.g j) v.1
      (u.1, u.2 ||| if q.2 || v.2 then flNV else 0)
    | none =>
      let sum : Int := (pairs j).foldl (fun t p => t + sext p.1 w * sext p.2 w) 0
      (intRes e 32 (ilane acc 32 j + sum), 0)
  c.gate r.2
  .ok (← c.putV d r.1 (laneBytes m 32) z, r.2)
def execVdot (f : Fmt) (bc : Bool) (d a b : Reg) (s : State) : Host.Outcome State Fault Refusal := runLocal (.vdot f bc d a b) (bodyVdot f bc d a b) s

/-! ### Sorting (R124, R125) -/

/-- The order of keys (R124): x strictly before y. -/
def keyBefore (f : Fmt) (dn : Bool) (x y : Nat) : Bool :=
  match fmtInfo f with
  | some o =>
    let a := o.decode x
    let b := o.decode y
    if a.isNan then false else if b.isNan then true
    else if dn then FVal.below b a else FVal.below a b
  | none => if dn then decide (sext y f.width < sext x f.width) else decide (sext x f.width < sext y f.width)

/-- Put an entry behind every entry that it does not precede. -/
def sortInsert (lt : Nat → Nat → Bool) (e : Nat × Nat) : List (Nat × Nat) → List (Nat × Nat)
  | [] => [e]
  | x :: t => if lt e.1 x.1 then e :: x :: t else x :: sortInsert lt e t

/-- A stable merge of n entries that takes the smaller head, the first list's on equal keys (R125). -/
def mergeTake (lt : Nat → Nat → Bool) : Nat → List (Nat × Nat) → List (Nat × Nat) → List (Nat × Nat)
  | 0, _, _ => []
  | _ + 1, [], [] => []
  | n + 1, x :: s, [] => x :: mergeTake lt n s []
  | n + 1, [], y :: t => y :: mergeTake lt n [] t
  | n + 1, x :: s, y :: t => if lt y.1 x.1 then y :: mergeTake lt n (x :: s) t else x :: mergeTake lt n s (y :: t)

/-- The 16 (key, payload) entries of a pair. -/
def pairEntries (x y : Vec) : List (Nat × Nat) := (List.range 16).map fun i => (lane x 32 i, lane y 32 i)

/-- Write the entries to the pair D, D+1, the bytes that m selects (R86). -/
def Core.putPair (c : Core) (d : Reg) (l : List (Nat × Nat)) (m : Nat) (z : Bool) : M Core := do
  let c ← c.putV d (BitVec.ofNat 512 (ofLanes 32 (l.map (·.1)))) m z
  c.putV (d + 1) (BitVec.ofNat 512 (ofLanes 32 (l.map (·.2)))) m z

/-- VSORT (R124). -/
def bodyVsort (f : Fmt) (dn : Bool) (d : Reg) : CoreBody := fun _ c => do
  let (m, z) ← c.pred
  let (x, c) ← c.readV d
  let (y, c) ← c.readV (d + 1)
  .ok (← c.putPair d ((pairEntries x y).foldl (fun l e => sortInsert (keyBefore f dn) e l) []) m z, 0)
def execVsort (f : Fmt) (dn : Bool) (d : Reg) (s : State) : Host.Outcome State Fault Refusal := runLocal (.vsort f dn d) (bodyVsort f dn d) s

/-- VMRG (R125). -/
def bodyVmrg (f : Fmt) (dn : Bool) (d a : Reg) : CoreBody := fun _ c => do
  let (m, z) ← c.pred
  let (x, c) ← c.readV d
  let (y, c) ← c.readV (d + 1)
  let (u, c) ← c.readV a
  let (v, c) ← c.readV (a + 1)
  .ok (← c.putPair d (mergeTake (keyBefore f dn) 16 (pairEntries x y) (pairEntries u v)) m z, 0)
def execVmrg (f : Fmt) (dn : Bool) (d a : Reg) (s : State) : Host.Outcome State Fault Refusal := runLocal (.vmrg f dn d a) (bodyVmrg f dn d a) s

/-! ### Lane moves, VCLASS, VRND (R126, R127, R129) -/

/-- VPERM (R126). -/
def bodyVperm (f : Fmt) (d a b : Reg) : CoreBody := fun _ c => do
  let w := f.width
  let (m, z) ← c.pred
  let (x, c) ← c.readV a
  let (y, c) ← c.readV b
  let r := lanesOut w m fun i => (lane x w (lane y w i % (512 / w)), 0)
  .ok (← c.putV d r.1 (laneBytes m w) z, 0)
def execVperm (f : Fmt) (d a b : Reg) (s : State) : Host.Outcome State Fault Refusal := runLocal (.vperm f d a b) (bodyVperm f d a b) s

/-- VBCAST (R126). -/
def bodyVbcast (f : Fmt) (d a : Reg) : CoreBody := fun _ c => do
  let w := f.width
  let (m, z) ← c.pred
  let (x, c) ← c.readS a
  .ok (← c.putV d (splat w x.toNat) (laneBytes m w) z, 0)
def execVbcast (f : Fmt) (d a : Reg) (s : State) : Host.Outcome State Fault Refusal := runLocal (.vbcast f d a) (bodyVbcast f d a) s

/-- VEXT (R126, R86): an inactive lane keeps s[D], so nothing is written, or writes 0. -/
def bodyVext (f : Fmt) (d a b : Reg) : CoreBody := fun k c => do
  let w := f.width
  let (m, z) ← c.pred
  let (x, c) ← c.readV a
  let (y, c) ← c.readS b
  let j := y.toNat % (512 / w)
  if active m w j then
    .ok (← c.putS k d (if (fmtInfo f).isSome then BitVec.ofNat 64 (lane x w j) else wordOfInt (ilane x w j)), 0)
  else if z then .ok (← c.putS k d 0, 0)
  else .ok (c, 0)
def execVext (f : Fmt) (d a b : Reg) (s : State) : Host.Outcome State Fault Refusal := runLocal (.vext f d a b) (bodyVext f d a b) s

/-- VINS (R126). D is read and written, so a stream code in D traps with STREAM (R35, R51). -/
def bodyVins (f : Fmt) (d a b : Reg) : CoreBody := fun _ c => do
  let w := f.width
  let (m, z) ← c.pred
  let (x, c) ← c.readS a
  let (y, c) ← c.readS b
  trapIf (decide (d.toNat ≥ 32)) .stream (BitVec.ofNat 64 (d.toNat - 32))
  let (old, c) ← c.readV d
  .ok (← c.putV d (if active m w (y.toNat % (512 / w)) then setLane old w (y.toNat % (512 / w)) x.toNat else old) (laneBytes m w) z, 0)
def execVins (f : Fmt) (d a b : Reg) (s : State) : Host.Outcome State Fault Refusal := runLocal (.vins f d a b) (bodyVins f d a b) s

/-- VIOTA (R126). -/
def bodyViota (f : Fmt) (d a : Reg) : CoreBody := fun _ c => do
  let w := f.width
  let (m, z) ← c.pred
  let (x, c) ← c.readS a
  let r := lanesOut w m fun i => ((x.toNat + i) % 2 ^ w, 0)
  .ok (← c.putV d r.1 (laneBytes m w) z, 0)
def execViota (f : Fmt) (d a : Reg) (s : State) : Host.Outcome State Fault Refusal := runLocal (.viota f d a) (bodyViota f d a) s

/-- VRND (R129, R128). -/
def bodyVrnd (f : Fmt) (d a b : Reg) : CoreBody := fun _ c => do
  let (m, z) ← c.pred
  let (x, c) ← c.readS a
  let (y, c) ← c.readS b
  let r := lanesOut 32 m fun i =>
    let g := genG (x.toNat % 2 ^ 32) ((y.toNat + i) % 2 ^ 32)
    (if f = .f32 then (fi32.round .rne false 0 ⟨false, g / 2 ^ 8, -24, false⟩).1 else g, 0)
  .ok (← c.putV d r.1 (laneBytes m 32) z, 0)
def execVrnd (f : Fmt) (d a b : Reg) (s : State) : Host.Outcome State Fault Refusal := runLocal (.vrnd f d a b) (bodyVrnd f d a b) s

/-- VMOV (R126). -/
def bodyVmov (f : Fmt) (d a : Reg) : CoreBody := vUn f d a fun _ _ x => (x, 0)
def execVmov (f : Fmt) (d a : Reg) (s : State) : Host.Outcome State Fault Refusal := runLocal (.vmov f d a) (bodyVmov f d a) s

/-- The class code of an encoding (R127). -/
def classOf (o : FInfo) (x : Nat) : Nat :=
  match o.decode x with
  | .nan => 8
  | .inf neg => if neg then 0 else 7
  | .fin neg m _ =>
    let sub := bits x (o.w - 2) o.f = 0
    if m = 0 then (if neg then 3 else 4) else if sub then (if neg then 2 else 5) else (if neg then 1 else 6)

/-- VCLASS (R127). -/
def bodyVclass (f : Fmt) (d a : Reg) : CoreBody := vUn f d a fun _ _ x => (match fmtInfo f with | some o => classOf o x | none => 0, 0)
def execVclass (f : Fmt) (d a : Reg) (s : State) : Host.Outcome State Fault Refusal := runLocal (.vclass f d a) (bodyVclass f d a) s

end Sys2Proof.Machine
end

