-- ==== Sys2Proof/Machine/VectorLong.lean ====
section
/-!
DEFINITION. VectorLong.lean: the long vector operations: the FMA family, VSEL, VCVT (R115 to R117), block quantisation and its inverse
(R64 to R66, R118), WS352 cells (R69 to R71, R119), VSHUF (R120).
-/
namespace Sys2Proof.Machine

open Sys2Proof

/-! ### The FMA family and VSEL (R115, R116) -/

/-- ±x·y ± z in each active lane, one rounding (R82). -/
def vTri (f : Fmt) (bcB bcC : Bool) (d a b e : Reg) (nx nz : Bool) : CoreBody := fun _ c => do
  let w := f.width
  let v := c.env
  let (m, zr) ← c.pred
  let (x, c) ← c.readV a
  let (y, c) ← c.readVB bcB w b
  let (z, c) ← c.readVB bcC w e
  let sg (n : Bool) (t : FVal) : FVal := if n then t.neg else t
  let r := lanesOut w m fun i => match fmtInfo f with
    | some o => o.fma v.rm v.sat (v.g i) (sg nx (o.decode (lane x w i))) (o.decode (lane y w i)) (sg nz (o.decode (lane z w i)))
    | none => (0, 0)
  c.gate r.2
  .ok (← c.putV d r.1 (laneBytes m w) zr, r.2)

/-- VFMA (R115). -/
def bodyVfma (f : Fmt) (bcB bcC : Bool) (d a b c : Reg) : CoreBody := vTri f bcB bcC d a b c false false
def execVfma (f : Fmt) (bcB bcC : Bool) (d a b c : Reg) (s : State) : Host.Outcome State Fault Refusal := runLocal (.vfma f bcB bcC d a b c) (bodyVfma f bcB bcC d a b c) s

/-- VFMS (R115). -/
def bodyVfms (f : Fmt) (bcB bcC : Bool) (d a b c : Reg) : CoreBody := vTri f bcB bcC d a b c false true
def execVfms (f : Fmt) (bcB bcC : Bool) (d a b c : Reg) (s : State) : Host.Outcome State Fault Refusal := runLocal (.vfms f bcB bcC d a b c) (bodyVfms f bcB bcC d a b c) s

/-- VFNMA (R115). -/
def bodyVfnma (f : Fmt) (bcB bcC : Bool) (d a b c : Reg) : CoreBody := vTri f bcB bcC d a b c true false
def execVfnma (f : Fmt) (bcB bcC : Bool) (d a b c : Reg) (s : State) : Host.Outcome State Fault Refusal := runLocal (.vfnma f bcB bcC d a b c) (bodyVfnma f bcB bcC d a b c) s

/-- VFNMS (R115). -/
def bodyVfnms (f : Fmt) (bcB bcC : Bool) (d a b c : Reg) : CoreBody := vTri f bcB bcC d a b c true true
def execVfnms (f : Fmt) (bcB bcC : Bool) (d a b c : Reg) (s : State) : Host.Outcome State Fault Refusal := runLocal (.vfnms f bcB bcC d a b c) (bodyVfnms f bcB bcC d a b c) s

/-- VSEL (R116): bit floor(i·w/8) of the mask register selects A or B. -/
def bodyVsel (f : Fmt) (bcB : Bool) (k : BitVec 3) (d a b : Reg) : CoreBody := fun _ c => do
  let w := f.width
  let (m, z) ← c.pred
  let (x, c) ← c.readV a
  let (y, c) ← c.readVB bcB w b
  let q ← c.readK k.toNat
  let r := lanesOut w m fun i => (if active q.toNat w i then lane x w i else lane y w i, 0)
  .ok (← c.putV d r.1 (laneBytes m w) z, 0)
def execVsel (f : Fmt) (bcB : Bool) (k : BitVec 3) (d a b : Reg) (s : State) : Host.Outcome State Fault Refusal := runLocal (.vsel f bcB k d a b) (bodyVsel f bcB k d a b) s

/-! ### VCVT (R117) -/

/-- One element converted between formats (R117, R63), at position p of R75. -/
def convert (src dst : Fmt) (e : Env) (p x : Nat) : Nat × FFlags :=
  match fmtInfo src, fmtInfo dst with
  | some i, some o => o.deliver e.rm e.sat (e.g p) (i.decode x)
  | none, some o => o.deliver e.rm e.sat (e.g p) (FVal.ofInt (sext x src.width))
  | some i, none =>
    let r := toInt (-(2 ^ (dst.width - 1))) (2 ^ (dst.width - 1) - 1) e.rm (e.g p) (i.decode x)
    (wrapN dst.width r.1, r.2)
  | none, none => (intRes e dst.width (sext x src.width), 0)

/-- Write the bytes `part` of a register, of these the ones m selects; with ZERO the bytes m does not select become 0, whichever part they
lie in (R86, R117). A stream receives the selected bytes of the part, others 0. -/
def Core.putPart (c : Core) (d : Reg) (x : Vec) (part m : Nat) (z : Bool) : M Core := do
  if d.toNat ≥ 32 then c.putV d x (m &&& part) false
  else
    let c ← if z then c.putV d 0 (allBytes - m % 2 ^ 64) false else .ok c
    c.putV d x (m &&& part) false

/-- VCVT (R117). -/
def bodyVcvt (src dst : Fmt) (part : BitVec 4) (d a : Reg) : CoreBody := fun _ c => do
  let ws := src.width
  let wd := dst.width
  let n := 512 / max ws wd
  let p := part.toNat
  let e := c.env
  let (m, z) ← c.pred
  let (x, c) ← c.readV a
  let rs := (List.range n).map fun j =>
    convert src dst e (if wd < ws then p * n + j else j) (lane x ws (if ws < wd then p * n + j else j))
  let base := if wd < ws then p * n * wd else 0
  let v : Vec := BitVec.ofNat 512 (ofLanes wd (rs.map (·.1)) * 2 ^ base)
  let bytes := (2 ^ (n * wd / 8) - 1) * 2 ^ (base / 8)
  c.gate (rs.foldl (fun t r => t ||| r.2) 0)
  .ok (← c.putPart d v bytes m z, rs.foldl (fun t r => t ||| r.2) 0)
def execVcvt (src dst : Fmt) (part : BitVec 4) (d a : Reg) (s : State) : Host.Outcome State Fault Refusal := runLocal (.vcvt src dst part d a) (bodyVcvt src dst part d a) s

/-! ### Block formats (R64 to R66, R118) -/

/-- The element format of a block format, none for INT8 elements (R65). -/
def blockElem (f : Fmt) : Option FInfo :=
  match f with
  | .bx8e4 => some fiE4
  | .bx8e5 => some fiE5
  | .bx4 => some fiF4
  | _ => none

/-- Width of a block element: 4 for BX4, else 8. -/
def blockW (f : Fmt) : Nat := if f = .bx4 then 4 else 8

/-- emax of R66. -/
def blockEmax (f : Fmt) : Int := match f with | .bx8e4 => 8 | .bx8e5 => 15 | .bx4 => 2 | _ => 6

/-- Value times a power of two. -/
def FVal.scale (k : Int) : FVal → FVal
  | .fin s m e => .fin s m (e + k)
  | v => v

/-- A block element under its scale byte (R64, R65): a NaN scale makes every element NaN. -/
def blockValue (f : Fmt) (x scale : Nat) : FVal :=
  if scale = 255 then .nan
  else match blockElem f with
    | some o => (o.decode x).scale ((scale : Int) - 127)
    | none => (FVal.ofInt (sext x 8)).scale ((scale : Int) - 127)

/-- The 32 values of the block image at the bottom of x (R65). -/
def blockValues (f : Fmt) (x : Nat) : List FVal :=
  let w := blockW f
  let scale := bits x (32 * w + 7) (32 * w)
  (List.range 32).map fun j => blockValue f (bits x (w * j + w - 1) (w * j)) scale

/-- One element of a quantised block (R66): x·2^-s rounded with the range unbounded above, then clamped; a clamp raises NX alone.
A non-zero BXI8 element that rounds to zero raises NX and not UF: R78 defines tininess by a smallest normal, which INT8 has not (log entry 63). -/
def quantElem (f : Fmt) (e : Env) (j : Nat) (s : Int) (v : FVal) : Nat × FFlags :=
  match v, blockElem f with
  | .nan, _ => (0, 0)
  | .inf neg, some o => (o.signBit neg + o.maxBits, flINFCLIP)
  | .inf neg, none => (wrapN 8 (if neg then -127 else 127), flINFCLIP)
  | .fin neg m x, some o =>
    let r := o.round e.rm true (e.g j) ⟨neg, m, x - s, false⟩
    (r.1, if r.2 &&& flOF ≠ 0 then flNX else r.2)
  | .fin neg m x, none =>
    let r := roundInt e.rm (e.g j) ⟨neg, m, x - s, false⟩
    let y := max (-127) (min 127 r.1)
    (wrapN 8 y, if r.2 || y ≠ r.1 then flNX else 0)

/-- floor(log2) of a finite magnitude m·2^x. -/
def log2floor (m : Nat) (x : Int) : Int := (bitLen m : Int) - 1 + x

/-- Block quantisation of 32 values (R66): the image and the flags. -/
def quantBlock (f : Fmt) (e : Env) (vs : List FVal) : Nat × FFlags :=
  let w := blockW f
  if vs.any FVal.isNan then (255 * 2 ^ (32 * w), flNANSC)
  else
    let tops := vs.filterMap fun v => match v with | .fin _ m x => if m = 0 then none else some (log2floor m x) | _ => none
    let s0 : Int := match tops with
      | [] => 0
      | t :: ts => ts.foldl max t - blockEmax f
    let sc := min (max (s0 + 127) 0) 254
    let rs := vs.mapIdx fun j v => quantElem f e j (sc - 127) v
    (ofLanes w (rs.map (·.1)) + sc.toNat * 2 ^ (32 * w), rs.foldl (fun t r => t ||| r.2) 0)

/-- VQNT (R118). -/
def bodyVqnt (f : Fmt) (d a : Reg) : CoreBody := fun _ c => do
  let e := c.env
  let (m, z) ← c.pred
  let (x, c) ← c.readV a
  let (y, c) ← c.readV (a + 1)
  let vs := (lanes x 32 16 ++ lanes y 32 16).map fi32.decode
  let r := quantBlock f e vs
  c.gate r.2
  .ok (← c.putV d (BitVec.ofNat 512 r.1) m z, r.2)
def execVqnt (f : Fmt) (d a : Reg) (s : State) : Host.Outcome State Fault Refusal := runLocal (.vqnt f d a) (bodyVqnt f d a) s

/-- VDQ (R118). -/
def bodyVdq (f : Fmt) (d a : Reg) : CoreBody := fun _ c => do
  let e := c.env
  let (m, z) ← c.pred
  let (x, c) ← c.readV a
  let rs := (blockValues f x.toNat).mapIdx fun j v => fi32.deliver e.rm e.sat (e.g j) v
  let ws := rs.map (·.1)
  c.gate (rs.foldl (fun t r => t ||| r.2) 0)
  let c ← c.putV d (BitVec.ofNat 512 (ofLanes 32 (ws.take 16))) m z
  let c ← c.putV (d + 1) (BitVec.ofNat 512 (ofLanes 32 (ws.drop 16))) m z
  .ok (c, rs.foldl (fun t r => t ||| r.2) 0)
def execVdq (f : Fmt) (d a : Reg) (s : State) : Host.Outcome State Fault Refusal := runLocal (.vdq f d a) (bodyVdq f d a) s

/-! ### WS352 cells (R69 to R71, R119) -/

/-- A WS352 cell: VALUE and the four status bits OVF, NINF, PINF, NAN (R69). -/
structure WCell where
  value : Int
  st : BitVec 4
  deriving DecidableEq, Repr

/-- The cell of 48 bytes, as a little-endian number; reserved bits are ignored (R69). -/
def WCell.ofNat (x : Nat) : WCell := ⟨sext x 352, BitVec.ofNat 4 (x >>> 352)⟩

def WCell.toNat (c : WCell) : Nat := wrapN 352 c.value + c.st.toNat * 2 ^ 352

/-- Conversion into a cell (R70). -/
def WCell.ofVal : FVal → WCell
  | .nan => ⟨0, 1#4⟩
  | .inf neg => ⟨0, if neg then 4#4 else 2#4⟩
  | .fin neg m e => ⟨signed neg (if e + 160 ≥ 0 then m * 2 ^ (e + 160).toNat else m / 2 ^ (-(e + 160)).toNat), 0#4⟩

/-- The sum of two cells (R70). -/
def WCell.add (a b : WCell) : WCell :=
  let x := a.value + b.value
  let y := sext (wrapN 352 x) 352
  ⟨y, a.st ||| b.st ||| if x = y then 0#4 else 8#4⟩

/-- A cell converted to a floating-point format (R71), at position p of R75. -/
def WCell.deliver (o : FInfo) (e : Env) (p : Nat) (c : WCell) : Nat × FFlags :=
  let nan := c.st &&& 1#4 ≠ 0
  let pinf := c.st &&& 2#4 ≠ 0
  let ninf := c.st &&& 4#4 ≠ 0
  let ovf := c.st &&& 8#4 ≠ 0
  if nan then (o.nanBits, 0)
  else if ovf || (pinf && ninf) then o.invalid
  else if pinf then o.deliverInf e.sat false
  else if ninf then o.deliverInf e.sat true
  else if c.value = 0 then (0, 0)
  else o.round e.rm e.sat (e.g p) (realOf c.value (-160) false)

/-- VWSC.to (R119). The lanes are added to v[C] one by one, lane 0 first, which is the grouping that shows where a partial sum leaves the cell's range (R70, log
entry 64). -/
def bodyVwscTo (f : Fmt) (d a c : Reg) : CoreBody := fun _ k => do
  let (m, z) ← k.pred
  let (x, k) ← k.readV a
  let (y, k) ← k.readV c
  let vs := match fmtInfo f with
    | some o => (lanes x f.width (512 / f.width)).map o.decode
    | none => blockValues f x.toNat
  let r := vs.foldl (fun t v => t.add (WCell.ofVal v)) (WCell.ofNat (y.toNat % 2 ^ 384))
  .ok (← k.putV d (BitVec.ofNat 512 r.toNat) m z, 0)
def execVwscTo (f : Fmt) (d a c : Reg) (s : State) : Host.Outcome State Fault Refusal := runLocal (.vwscTo f d a c) (bodyVwscTo f d a c) s

/-- VWSC.from (R119). -/
def bodyVwscFrom (f : Fmt) (d a : Reg) : CoreBody := fun _ c => do
  let e := c.env
  let (m, z) ← c.pred
  let (x, c) ← c.readV a
  let r := match fmtInfo f with
    | some o => (WCell.ofNat (x.toNat % 2 ^ 384)).deliver o e 0
    | none => (0, 0)
  c.gate r.2
  .ok (← c.putV d (BitVec.ofNat 512 r.1) m z, r.2)
def execVwscFrom (f : Fmt) (d a : Reg) (s : State) : Host.Outcome State Fault Refusal := runLocal (.vwscFrom f d a) (bodyVwscFrom f d a) s

/-- VSHUF (R120). -/
def bodyVshuf (f : Fmt) (d a b c : Reg) : CoreBody := fun _ k => do
  let w := f.width
  let n := 512 / w
  let (m, z) ← k.pred
  let (x, k) ← k.readV a
  let (y, k) ← k.readV b
  let (t, k) ← k.readV c
  let v := ofLanes w ((List.range n).map fun i =>
    let j := lane t w i % (2 * n)
    if j < n then lane x w j else lane y w (j - n))
  .ok (← k.putV d (BitVec.ofNat 512 v) m z, 0)
def execVshuf (f : Fmt) (d a b c : Reg) (s : State) : Host.Outcome State Fault Refusal := runLocal (.vshuf f d a b c) (bodyVshuf f d a b c) s

end Sys2Proof.Machine
end

