-- ==== Sys2Proof/Machine/Strong.lean ====
section
/-!
DEFINITION. Strong.lean: strong loads and stores (R206, R207), PHASE and FENCE (R208, R209), ATOM (R210 to R212), and the steps of the
memory system (R130, R182, R204, R332, R345).
-/
namespace Sys2Proof.Machine

open Sys2Proof

/-- An event of another agent: what it does where it is enabled, else nothing. It reads what it acts on from State.arg. -/
def runEvent (f : Args → State → Option State) (s : State) : Host.Outcome State Fault Refusal := .next ((f s.arg s).getD s)

/-! ### LDS, STS (R206) -/

/-- The release of an access or a PHASE that carries one (R187, R190). -/
def State.releaseIf (s : State) (i : Nat) (rel : Bool) (sc : Scope) : M State := if rel then s.release i sc else .ok s

/-- The acquire of an access or a PHASE that carries one (R187, R190). -/
def State.acquireIf (s : State) (i : Nat) (acq : Bool) (sc : Scope) : State := if acq then s.acquireAt i sc else s

/-- A strong access to local store orders only its own core's accesses (R207): its release waits and publishes nothing. -/
def State.releaseTo (s : State) (i : Nat) (rel : Bool) (sc : Scope) (k : Nat) : M State :=
  if typeOfPa k == some .ls then (do stallUnless (!rel || s.released i sc); .ok s) else s.releaseIf i rel sc

/-- Its acquire makes nothing of others visible (R207). -/
def State.acquireFrom (s : State) (i : Nat) (acq : Bool) (sc : Scope) (k : Nat) : State := s.acquireIf i (acq && typeOfPa k != some .ls) sc

/-- LDS (R206). A relaxed one may take its value later than accesses after it that R191 does not keep behind it, where the core is to leave its next load
outstanding (log entry 16). -/
def execLds (size : LdSize) (acq : Bool) (scope : Scope) (d : Reg) (m : MemOp) (s : State) : Host.Outcome State Fault Refusal :=
  runSeq (.lds size acq scope d m) (fun k s => do
    let (ea, c) ← (s.core k).ea m
    let n := ldBytes size
    let (ps, s) ← (s.setCore k c).checkBytes k .strongLoad ea n (ea.toNat % n != 0)
    let key := (ps.headD (ea, 0, 0)).2.1
    let s ← s.settleStrong k true false key n
    stallUnless (!s.granuleBusy key)
    let s ← s.issueLoad k
    if (s.core k).defer && !acq && decide (d.toNat < 56) && s.mayLeave k (latePartsOf 0 ps) then
      .ok (s.leave k (.s d.toNat n (ldSigned size)) true (latePartsOf 0 ps))
    else
      let x := ofBytes ((List.range n).map fun j => s.strongByte k (key + j))
      let s := s.modCore k fun c => { c with l1d := c.l1d.filter fun l => l.la != key / 64 * 64 }
      let s := s.acquireFrom k acq scope key
      let c ← (s.core k).putS k d (ldValue size x)
      .ok (s.setCore k c)) s

/-- STS (R206): once a release is complete, the store waits its turn in the store buffer (R191, R207). -/
def execSts (size : StSize) (rel : Bool) (scope : Scope) (d : Reg) (m : MemOp) (s : State) : Host.Outcome State Fault Refusal :=
  runSeq (.sts size rel scope d m) (fun k s => do
    let (ea, c) ← (s.core k).ea m
    let (x, c) ← c.readS d
    let n := stBytes size
    let (ps, s) ← (s.setCore k c).checkBytes k .store ea n (ea.toNat % n != 0)
    let s ← s.releaseTo k rel scope (ps.headD (ea, 0, 0)).2.1
    stallUnless (!(s.core k).loadFirst (max (s.core k).acqEp (s.core k).relEp))
    s.issueStore k true (storeParts ps x.toNat)) s

/-! ### PHASE, FENCE (R187, R208) -/

/-- PHASE (R187, R208): the release completes, then the acquire takes effect; it counts as a phase (R203). -/
def execPhase (acq rel : Bool) (scope : Scope) (s : State) : Host.Outcome State Fault Refusal :=
  runSeq (.phase acq rel scope) (fun k s => do
    let s ← s.releaseIf k rel scope
    .ok ((s.acquireIf k acq scope).modCore k fun c => { c with phasec := (c.phasec + 1) % 2 ^ 16 })) s

/-- What FENCE puts before the core's later strong accesses (R191): all so far, by their numbers. -/
def Core.fenced (c : Core) (acq rel : Bool) (n : Nat) : Core :=
  { c with relEp := if rel then n else c.relEp, acqEp := if acq then n else c.acqEp, fullEp := if acq && rel then n else c.fullEp }

/-- FENCE (R191, R208): nothing waits but the later strong accesses that it orders behind earlier ones. -/
def execFence (acq rel : Bool) (scope : Scope) (s : State) : Host.Outcome State Fault Refusal :=
  runSeq (.fence acq rel scope) (fun k s => .ok (s.modCore k fun c => c.fenced acq rel s.serial)) s

/-! ### ATOM (R210 to R212) -/

def Order.acquires : Order → Bool
  | .acquire | .acqrel => true
  | _ => false
def Order.releases : Order → Bool
  | .release | .acqrel => true
  | _ => false

/-- The checks of an atomic of n bytes at ea, aligned to `al` (R211): those of R103 with read and write, then PROT for what a HOST page
does not take, then poison (R370). The physical key. -/
def State.checkAtom (s : State) (i : Nat) (ea : Word) (n al : Nat) (hostOk : Bool) : M (Nat × State) :=
  match s.chkItem1 i ea n with
  | some (c, v) => .error (.trap c v)
  | none =>
    if ea.toNat % al ≠ 0 then .error (.trap .align ea)
    else match s.chk34 i .rmw ea.toNat with
      | .error c => .error (.trap c ea)
      | .ok (k, e) =>
        if typeOfPa k == some .host && !hostOk then .error (.trap .prot ea)
        else match (List.range ((n + 7) / 8)).find? (fun j => s.poisonSeen i (s.place (s.isSup i) k (8 * j))) with
          | some j => .error (.trap .memue (ea + BitVec.ofNat 64 (8 * j)))
          | none => .ok (k, s.keep i false e)

/-- What the operations leave in memory for n bytes (R210, R211): old value, v and, for .cas, v2. FP forms round to nearest even and raise no flag. -/
def AtomOp.eval (op : AtomOp) (n old v v2 : Nat) : Nat :=
  match op with
  | .swap => v
  | .cas => if old = v then v2 else old
  | .add => old + v
  | .and => old &&& v
  | .or => old ||| v
  | .xor => old ^^^ v
  | .min => if sext old (8 * n) ≤ sext v (8 * n) then old else v
  | .max => if sext old (8 * n) ≤ sext v (8 * n) then v else old
  | .minu => Nat.min old v
  | .maxu => Nat.max old v
  | .fadd => (fpAdd (fpsInfo (n == 8)) envRne 0 old v).1
  | .fmin => (fpsInfo (n == 8)).minmax false old v
  | .fmax => (fpsInfo (n == 8)).minmax true old v
  | .ws => ((WCell.ofNat old).add (WCell.ofNat v)).toNat

/-- A HOST page takes the operation, as a PCIe AtomicOp (R211). -/
def AtomOp.hostOk (op : AtomOp) (n : Nat) : Bool := (op == .swap || op == .cas || op == .add) && (n == 4 || n == 8)

/-- One read-modify-write at its home for core i (R211): the old value. -/
def State.rmwHome (s : State) (i k : Nat) (r : Rmw) : Nat × State :=
  let old := s.rdObj (s.isSup i) k r.n
  (old, (s.writeBy i s.serial (s.objBytes (s.isSup i) k r.n (r.op.eval r.n old r.v r.v2))).tick.modCore i fun c => c.dropLine k)

/-- The core's atomic on r.n bytes at ea, aligned to `al`: checked, its release complete, taken by its home (R211, R215). At a page under migration it is
queued, and the core waits for its old value (R350); else it is performed. The old value, and the state after the acquire. -/
def State.atomic (s : State) (i : Nat) (ea : Word) (al : Nat) (ord : Order) (scope : Scope) (r : Rmw) : M (Nat × State) :=
  match (s.core i).rmw with
  | some (_, none) => .error .stall
  | some (_, some old) => .ok (old, (s.modCore i fun c => { c with rmw := none }).acquireIf i (Order.acquires ord) scope)
  | none => do
    let (key, s) ← s.checkAtom i ea r.n al (r.op.hostOk r.n)
    let s ← s.releaseTo i (Order.releases ord) scope key
    let s ← s.enterHome i key
    let s ← s.settleStrong i true true key r.n
    match s.holdAt (s.isSup i) key with
    | some h =>
      let q : HeldStore := { core := i, grp := s.serial, bytes := at_ key r.n 0, clr := [], plain := false, va := ea, launch := (s.core i).run.getD 0, phasec := 0, rmw := some r }
      .error (.wait ((s.queueAt h q).tick.modCore i fun c => { c with rmw := some (s.serial, none) }))
    | none =>
      let (old, s) := s.rmwHome i key r
      .ok (old, s.acquireFrom i (Order.acquires ord) scope key)

/-- A scalar ATOM (R210). The operands are read again once the atomic is performed, so that one that waits has consumed nothing. -/
def atomScalar (i : Instr) (n : Nat) (op : AtomOp) (ord : Order) (scope : Scope) (d : Reg) (m : MemOp) (s : State) : Host.Outcome State Fault Refusal :=
  runSeq i (fun k s => do
    let (ea, c) ← (s.core k).ea m
    let (v, c) ← c.readS d
    let v2 ← if op = .cas then (do let (y, _) ← c.readS (d + 1); .ok y) else .ok 0
    let (old, s) ← s.atomic k ea n ord scope ⟨op, n, v.toNat % 2 ^ (8 * n), v2.toNat % 2 ^ (8 * n)⟩
    let (_, c) ← (s.core k).ea m
    let (_, c) ← c.readS d
    let c ← c.putS k d (BitVec.ofNat 64 old)
    .ok (s.setCore k c)) s

/-- ATOM.swap (R210). -/
def execAtomSwap (size : StSize) (ord : Order) (scope : Scope) (d : Reg) (m : MemOp) (s : State) : Host.Outcome State Fault Refusal :=
  atomScalar (.atomSwap size ord scope d m) (stBytes size) .swap ord scope d m s

/-- ATOM.cas (R210). -/
def execAtomCas (size : StSize) (ord : Order) (scope : Scope) (d : Reg) (m : MemOp) (s : State) : Host.Outcome State Fault Refusal :=
  atomScalar (.atomCas size ord scope d m) (stBytes size) .cas ord scope d m s

/-- ATOM.add (R210). -/
def execAtomAdd (size : StSize) (ord : Order) (scope : Scope) (d : Reg) (m : MemOp) (s : State) : Host.Outcome State Fault Refusal :=
  atomScalar (.atomAdd size ord scope d m) (stBytes size) .add ord scope d m s

/-- ATOM.and (R210). -/
def execAtomAnd (size : StSize) (ord : Order) (scope : Scope) (d : Reg) (m : MemOp) (s : State) : Host.Outcome State Fault Refusal :=
  atomScalar (.atomAnd size ord scope d m) (stBytes size) .and ord scope d m s

/-- ATOM.or (R210). -/
def execAtomOr (size : StSize) (ord : Order) (scope : Scope) (d : Reg) (m : MemOp) (s : State) : Host.Outcome State Fault Refusal :=
  atomScalar (.atomOr size ord scope d m) (stBytes size) .or ord scope d m s

/-- ATOM.xor (R210). -/
def execAtomXor (size : StSize) (ord : Order) (scope : Scope) (d : Reg) (m : MemOp) (s : State) : Host.Outcome State Fault Refusal :=
  atomScalar (.atomXor size ord scope d m) (stBytes size) .xor ord scope d m s

/-- ATOM.min (R210). -/
def execAtomMin (size : StSize) (ord : Order) (scope : Scope) (d : Reg) (m : MemOp) (s : State) : Host.Outcome State Fault Refusal :=
  atomScalar (.atomMin size ord scope d m) (stBytes size) .min ord scope d m s

/-- ATOM.max (R210). -/
def execAtomMax (size : StSize) (ord : Order) (scope : Scope) (d : Reg) (m : MemOp) (s : State) : Host.Outcome State Fault Refusal :=
  atomScalar (.atomMax size ord scope d m) (stBytes size) .max ord scope d m s

/-- ATOM.minu (R210). -/
def execAtomMinu (size : StSize) (ord : Order) (scope : Scope) (d : Reg) (m : MemOp) (s : State) : Host.Outcome State Fault Refusal :=
  atomScalar (.atomMinu size ord scope d m) (stBytes size) .minu ord scope d m s

/-- ATOM.maxu (R210). -/
def execAtomMaxu (size : StSize) (ord : Order) (scope : Scope) (d : Reg) (m : MemOp) (s : State) : Host.Outcome State Fault Refusal :=
  atomScalar (.atomMaxu size ord scope d m) (stBytes size) .maxu ord scope d m s

/-- ATOM.fadd (R210). -/
def execAtomFadd (dbl : Bool) (ord : Order) (scope : Scope) (d : Reg) (m : MemOp) (s : State) : Host.Outcome State Fault Refusal :=
  atomScalar (.atomFadd dbl ord scope d m) (if dbl then 8 else 4) .fadd ord scope d m s

/-- ATOM.fmin (R210). -/
def execAtomFmin (dbl : Bool) (ord : Order) (scope : Scope) (d : Reg) (m : MemOp) (s : State) : Host.Outcome State Fault Refusal :=
  atomScalar (.atomFmin dbl ord scope d m) (if dbl then 8 else 4) .fmin ord scope d m s

/-- ATOM.fmax (R210). -/
def execAtomFmax (dbl : Bool) (ord : Order) (scope : Scope) (d : Reg) (m : MemOp) (s : State) : Host.Outcome State Fault Refusal :=
  atomScalar (.atomFmax dbl ord scope d m) (if dbl then 8 else 4) .fmax ord scope d m s

/-- ATOM.ws (R210): the cell in v[D] is added to the 48-byte cell in memory; the old cell comes back, bytes 48 to 63 zero. D is read and
written, so a stream code in D traps with STREAM (R35). -/
def execAtomWs (ord : Order) (scope : Scope) (d : Reg) (m : MemOp) (s : State) : Host.Outcome State Fault Refusal :=
  runSeq (.atomWs ord scope d m) (fun k s => do
    let (ea, c) ← (s.core k).ea m
    trapIf (decide (d.toNat ≥ 32)) .stream (BitVec.ofNat 64 (d.toNat - 32))
    let (v, _) ← c.readV d
    let (old, s) ← s.atomic k ea 64 ord scope ⟨.ws, 48, v.toNat % 2 ^ 384, 0⟩
    let (_, c) ← (s.core k).ea m
    let c ← c.putV d (BitVec.ofNat 512 old) allBytes false
    .ok (s.setCore k c)) s

/-! ### Steps of the memory system -/

/-- A core named by an event, its stalled instruction tried again. -/
def State.wake (s : State) (i : Nat) : State := s.modCore i fun c => { c with stalled := false }

/-- What the memory system may do for a core's loads besides returning data (R182, R188, R191, R192; log entry 16), by `n`: copy the line at physical
address `addr` into L1D ahead of any load; drop that copy; bring one aligned word of 8 bytes of it up to date; leave the core's next load outstanding; keep the
line of HOST as strong loads are to see it for a while; end that. A copy of a line of HOST that is brought up to date ends it too (R184). -/
def State.loadPath (s : State) (i a n : Nat) : Option State :=
  let la := a / 64 * 64
  let c := s.core i
  match n with
  | 0 => if cacheable a then some (s.fillLine i false a) else none
  | 1 => some (s.setCore i { c with l1d := c.l1d.filter fun l => l.la != la })
  | 2 =>
    let renew (l : L1Line) : L1Line :=
      { l with data := l.data.mapIdx fun j b => if (la + j) / 8 = a / 8 then s.byte (la + j) else b }
    some (s.setCore i { c with l1d := mapIf (fun l => l.la == la) renew c.l1d, hview := c.hview.filter fun l => l.la != la })
  | 3 => some (s.setCore i { c with defer := true })
  | 4 => if typeOfPa a == some .host && !(c.hview.any fun l => l.la == la) then some (s.setCore i { c with hview := putLine (s.lineOf a) c.hview }) else none
  | 5 => some (s.setCore i { c with hview := c.hview.filter fun l => l.la != la })
  | _ => none

/-- LOAD_RETURN (R130): the data of outstanding load `n` of core `core` have returned, all of them or, where `addr` is not 0, those of its aligned word of 8 bytes at
that physical address (R110, R196); where `q`, what else the memory system does for its loads. -/
def execLoadReturn (s : State) : Host.Outcome State Fault Refusal :=
  runEvent (fun x s =>
    let c := s.core x.core
    if x.q then (s.loadPath x.core x.addr x.n).map fun s => s.wake x.core
    else match c.late[x.n]? with
      | some l =>
        let now (p : LoadPart) : Bool := x.addr == 0 || p.key / 8 == x.addr / 8
        if (l.parts.any fun p => now p && s.granuleBusy p.key) || !l.parts.any now then none else some ((s.takeLate x.core l now).wake x.core)
      | none => if c.loads ≤ c.late.length then none else some (s.setCore x.core { c with loads := c.loads - 1, stalled := false })) s

/-- A store of the buffer may be performed: no earlier one there writes one of its bytes (R184, R110), and of a strong one none that R191 puts before it
remains: an earlier strong store to a scratchpad where it is one too, or one before a FENCE.rel, which must be seen too where it went to HOST (R192). What was
pushed to one stream goes in order (R231). -/
def State.mayPerform (s : State) (i : Nat) (before : List SbEntry) (e : SbEntry) : Bool :=
  let csp (e : SbEntry) : Bool := typeOfPa (e.bytes.headD (0, 0)).1 == some .csp
  !(before.any fun q => (q.bytes.any fun b => e.bytes.any fun b' => b.1 == b'.1) || (e.strong && q.strong && ((csp e && csp q) || decide (q.grp < e.after)))
      || (e.strm.isSome && q.strm == e.strm && q.grp != e.grp))
    && !(e.strong && (s.heldStrong i e.after || s.hostMissed i e.after))

/-- Store n of those that the core sees is performed at its home, if it may be: one that its cluster shares, or one of its own buffer behind those. -/
def State.performNth (s : State) (i n : Nat) : Option State :=
  let cl := clusterOf i
  let m := (s.cluster cl).sb.length
  match (s.cluster cl).sb[n]? with
  | some e => if !s.mayPerform e.1 ((s.sbOf i).take n) e.2 then none
    else (s.performEntry e.1 e.2 true).map fun s => s.setCluster cl { s.cluster cl with sb := (s.cluster cl).sb.eraseIdx n }
  | none =>
    match (s.core i).sb[n - m]? with
    | some e => if !s.mayPerform i ((s.sbOf i).take n) e then none
      else (s.performEntry i e false).map fun s => s.modCore i fun c => { c with sb := c.sb.eraseIdx (n - m) }
    | none => none

/-- STORE_PERFORMED (R182): store n of those that core `core` sees is performed at its home; where `q`, the n-th of its own buffer only holds no issue resource any
more (R130, R202). One that the full queue of a page under migration refuses leaves a ticket (R215, R332). -/
def execStorePerformed (s : State) : Host.Outcome State Fault Refusal :=
  runEvent (fun x s =>
    if x.q then
      match (s.core x.core).sb[x.n]? with
      | none => none
      | some e => if e.out then some ((s.modCore x.core fun c => { c with sb := c.sb.set x.n { e with out := false } }).wake x.core) else none
    else match s.performNth x.core x.n with
      | some s => some (s.wake x.core)
      | none =>
        let e := ((s.cluster (clusterOf x.core)).sb ++ (s.core x.core).sb.map fun e => (x.core, e))[x.n]?
        e.bind fun e =>
          let a := (e.2.bytes.headD (0, 0)).1
          match s.holdAt (s.isSup e.1) a with
          | some h => if s.mayPerform e.1 ((s.sbOf x.core).take x.n) e.2 && !s.holdTakes h e.1 a then s.askTicket e.1 a else none
          | none => none) s

/-- PAGE_TABLE_WALK (R343, R345): a walk for virtual address `addr` of core `core`, for fetch where `q`; a valid translation found stays in
the TLBs. Windows are never translated (R13). -/
def execPageTableWalk (s : State) : Host.Outcome State Fault Refusal :=
  runEvent (fun x s =>
    if x.addr ≥ 2 ^ 56 || (windowOf x.addr).isSome then none
    else match s.walk (s.partOf x.core) x.addr with
    | .found e => some (s.fill x.core x.q e)
    | _ => none) s

/-- DCONF_REPORT (R204): the oldest conflict report on its way reaches its core. A report names no task: that of a store which a saved task left outstanding
goes to DCONF of whatever context is on the core by then (log entry 60). -/
def execDconfReport (s : State) : Host.Outcome State Fault Refusal :=
  runEvent (fun _ s => match s.conflicts with
    | [] => none
    | r :: t =>
      let s := { s with conflicts := t }
      some (s.modCore r.core fun c =>
        let d := c.sys.dconf.toNat
        let d' := if bit d 63 then setBit d 62 true
          else setBits (setBit (setBit d 63 true) 61 r.store) 55 6 (bits r.va.toNat 55 6)
        { c with sys := { c.sys with dconf := BitVec.ofNat 64 d' }, stalled := false })) s

/-- HOME_RETRY_GRANT (R332): the home reserves an entry for its oldest ticket and signals the retry of core `core`'s ticket, which is
accepted; nothing while the queue of a page under migration has no entry to reserve (R350). -/
def execHomeRetryGrant (s : State) : Host.Outcome State Fault Refusal :=
  runEvent (fun x s =>
    match s.tickets.find? fun t => t.core = x.core ∧ t.granted = false with
    | none => none
    | some t =>
      let oldest := s.tickets.find? fun u => u.home = t.home ∧ u.granted = false
      let full := match s.holdAt (s.isSup t.core) t.addr with | some q => !s.holdRoom q | none => false
      if full || oldest ≠ some t then none
      else some ({ s with tickets := mapIf (fun u => u == t) (fun u => { u with granted := true }) s.tickets }.wake x.core)) s

end Sys2Proof.Machine
end

