-- ==== Sys2Proof/Machine/Barrier.lean ====
section
/-!
DEFINITION. Barrier.lean: barrier objects (R222 to R225) and rings (R226 to R228) in the own-cluster scratchpad window.
-/
namespace Sys2Proof.Machine

open Sys2Proof

/-- The address of a barrier object or ring header of n bytes (R224, R227): in the own-cluster scratchpad window (PROT), 16-byte aligned,
in the launch's allocation (LEASE), not poisoned. The physical key. -/
def State.checkBar (s : State) (i : Nat) (ea : Word) (al n : Nat) : M Nat :=
  match s.chkItem1 i ea n, windowOf ea.toNat with
  | some (c, v), _ => .error (.trap c v)
  | none, some (false, x) =>
    if ea.toNat % al ≠ 0 then .error (.trap .align ea)
    else match s.windowKey i false x with
      | none => .error (.trap .lease ea)
      | some k =>
        match (List.range ((n + 7) / 8)).find? (fun j => s.poisonSeen i (s.place (s.isSup i) k (8 * j))) with
        | some j => .error (.trap .memue (ea + BitVec.ofNat 64 (8 * j)))
        | none => .ok k
  | none, _ => .error (.trap .prot ea)

/-- The fields of a barrier object (R222). -/
structure BarObj where
  out : Nat
  inn : Nat
  pend : Nat
  exp : Nat
  gen : Nat
  deriving DecidableEq, Repr

def BarObj.ofNat (x : Nat) : BarObj := ⟨bits x 83 64, bits x 63 44, bits x 43 24, bits x 23 4, bits x 3 0⟩

/-- The object's 16 bytes with these fields; reserved bits as they were. -/
def BarObj.into (b : BarObj) (x : Nat) : Nat :=
  setBits (setBits (setBits (setBits (setBits x 83 64 b.out) 63 44 b.inn) 43 24 b.pend) 23 4 b.exp) 3 0 b.gen

/-- The generation completes where nothing is owed (R222). -/
def BarObj.settle (b : BarObj) : BarObj :=
  if b.pend = 0 ∧ b.inn = 0 ∧ b.out = 0 then { b with gen := (b.gen + 1) % 16, pend := b.exp } else b

/-- Change the object at a physical address, as a supervisor or a launch has it (R296). -/
def State.modBar (s : State) (sup : Bool) (k : Nat) (f : BarObj → BarObj) : State :=
  let x := s.rdObj sup k 16
  s.write (s.objBytes sup k 16 ((f (BarObj.ofNat x)).into x))

/-- Cores of a cluster, their stalled instructions tried again. -/
def State.wakeCluster (s : State) (cl : Nat) : State :=
  s.mapCores fun i c => if clusterOf i = cl then { c with stalled := false } else c

/-- A transfer of a copy is counted down at an object (R223, R249): IN, or OUT. -/
def State.countDown (s : State) (sup : Bool) (k : Nat) (inbound : Bool) : State :=
  (s.modBar sup k fun b =>
    (if inbound then { b with inn := (b.inn + 2 ^ 20 - 1) % 2 ^ 20 } else { b with out := (b.out + 2 ^ 20 - 1) % 2 ^ 20 }).settle).wakeCluster (cspCluster k)

/-- A barrier instruction: the address and, where `reads`, s[D] are read, the object is checked and its home entered, then `f` acts at the
bank ALU. The operands are read again at the end, so that a refused request or a wait has consumed nothing. -/
def barrier (i : Instr) (d : Reg) (m : MemOp) (reads rel : Bool) (f : Nat → Nat → Word → State → M (State × Option Word)) (s : State) :
    Host.Outcome State Fault Refusal :=
  runSeq i (fun k s => do
    let (ea, c) ← (s.core k).ea m
    let v ← if reads then (do let (x, _) ← c.readS d; .ok x) else .ok 0
    let key ← s.checkBar k ea 16 16
    let s ← s.releaseIf k rel .cluster
    let s ← s.enterHome k key
    let s ← s.settle k key 16
    let (s, r) ← f k key v s
    let (_, c) ← (s.core k).ea m
    let c ← if reads then (do let (_, c) ← c.readS d; .ok c) else .ok c
    let c ← match r with | some x => c.putS k d x | none => .ok c
    .ok (s.setCore k c)) s

/-- BARI (R224). -/
def execBari (d : Reg) (m : MemOp) (s : State) : Host.Outcome State Fault Refusal :=
  barrier (.bari d m) d m true false (fun k key v s =>
    let n := v.toNat % 2 ^ 20
    .ok (s.write (s.objBytes (s.isSup k) key 16 (({ out := 0, inn := 0, pend := n, exp := n, gen := 0 } : BarObj).into 0)), none)) s

/-- BARA (R224): an early arrival for the next generation waits. -/
def execBara (d : Reg) (m : MemOp) (s : State) : Host.Outcome State Fault Refusal :=
  barrier (.bara d m) d m false true (fun k key _ s => do
    let b := BarObj.ofNat (s.rdObj (s.isSup k) key 16)
    stallUnless (decide (b.pend ≠ 0))
    let s := (s.modBar (s.isSup k) key fun b => ({ b with pend := b.pend - 1 } : BarObj).settle).wakeCluster (cspCluster key)
    .ok (s, some (BitVec.ofNat 64 b.gen))) s

/-- BARW (R224). -/
def execBarw (d : Reg) (m : MemOp) (s : State) : Host.Outcome State Fault Refusal :=
  barrier (.barw d m) d m true false (fun k key v s => do
    stallUnless (decide ((BarObj.ofNat (s.rdObj (s.isSup k) key 16)).gen ≠ v.toNat % 16))
    .ok (s.acquire k, none)) s

/-- BARX (R224). -/
def execBarx (d : Reg) (m : MemOp) (s : State) : Host.Outcome State Fault Refusal :=
  barrier (.barx d m) d m true false (fun k key v s =>
    .ok ((s.modBar (s.isSup k) key fun b =>
      ({ b with inn := (b.inn + bits v.toNat 19 0) % 2 ^ 20, out := (b.out + bits v.toNat 39 20) % 2 ^ 20 } : BarObj).settle).wakeCluster (cspCluster key), none)) s

/-! ### Rings (R226, R227) -/

/-- The side word of a slot: its scratchpad offset from the header's two words. -/
def ringSide (w0 w1 slot : Nat) : Nat := bits w1 63 32 + 4 * (slot % (bits w0 43 32 + 1))

/-- A ring instruction on the slot s[D] mod N: `f` acts on the side word (COUNT, TAG) at the bank ALU, none where it waits. -/
def ring (i : Instr) (d : Reg) (m : MemOp) (rel acq : Bool) (f : Nat → Option Nat) (s : State) : Host.Outcome State Fault Refusal :=
  runSeq i (fun k s => do
    let (ea, c) ← (s.core k).ea m
    let (v, _) ← c.readS d
    let key ← s.checkBar k ea 16 16
    let s ← s.releaseIf k rel .cluster
    let s ← s.enterHome k key
    let s ← s.settle k key 16
    let off := ringSide (s.rd key 8) (s.rd (s.place (s.isSup k) key 8) 8) v.toNat
    let side ← s.checkBar k (BitVec.ofNat 64 (cspWin + off)) 4 4
    let s ← s.settle k side 4
    match f (s.rd side 4) with
    | none => .error .stall
    | some x =>
      let s := (s.wr side 4 x).wakeCluster (clusterOf k)
      let s := if acq then s.acquire k else s
      let (_, c) ← (s.core k).ea m
      let (_, c) ← c.readS d
      .ok (s.setCore k c)) s

/-- SLOTACQ (R227). -/
def execSlotacq (d : Reg) (m : MemOp) (s : State) : Host.Outcome State Fault Refusal :=
  ring (.slotacq d m) d m false true (fun x => if x % 4 = 0 then some 1 else none) s

/-- SLOTWAIT (R227). -/
def execSlotwait (d : Reg) (m : MemOp) (s : State) : Host.Outcome State Fault Refusal :=
  ring (.slotwait d m) d m false true (fun x => if x % 4 = 2 then some (x / 4 * 4 + 3) else none) s

/-- SLOTREL (R227). -/
def execSlotrel (d : Reg) (m : MemOp) (s : State) : Host.Outcome State Fault Refusal :=
  ring (.slotrel d m) d m true false (fun x => some (x / 4 * 4)) s

/-- SLOTREL.full (R227). -/
def execSlotrelFull (d : Reg) (m : MemOp) (s : State) : Host.Outcome State Fault Refusal :=
  ring (.slotrelFull d m) d m true false (fun x => some (x / 4 * 4 + 2)) s

/-- Bytes delivered into a slot of the ring whose header is at key, its side word at side (R226, R249): COUNT grows, and a filling slot that
reaches SLOTSZ is full. -/
def State.countRing (s : State) (key side n : Nat) : State :=
  let size := bits (s.rd key 8) 31 0
  let x := s.rd side 4
  let cnt := (x / 4 + n) % 2 ^ 30
  let tag := if x % 4 = 1 ∧ cnt ≥ size then 2 else x % 4
  (s.wr side 4 (cnt * 4 + tag)).wakeCluster (cspCluster side)

end Sys2Proof.Machine
end

