-- ==== Sys2Proof/Machine/Reduce.lean ====
section
/-!
DEFINITION. Reduce.lean: bank reductions: the object of R213 and the BANKOP forms (R214).
-/
namespace Sys2Proof.Machine

open Sys2Proof

/-- The rank-ordered tree of R82 over a list, rounding each node with `op`. -/
def rankTree (op : Nat → Nat → Nat) (l : List Nat) : Nat :=
  ((redTree (fun _ a b => (op a b, 0)) 13 0 (l.map some)).1).getD 0

/-- The contributions of ranks 0 to P-1 combined by operation M; each is read in the operation's format (R214), and a NaN result is canonical (R62). -/
def bankCombine (m : Nat) (l : List Nat) : Nat :=
  match m with
  | 0 => fi32.canon (rankTree (fun a b => (fpAdd fi32 envRne 0 a b).1) (l.map (· % 2 ^ 32)))
  | 1 => fi64.canon (rankTree (fun a b => (fpAdd fi64 envRne 0 a b).1) (l.map (· % 2 ^ 64)))
  | 2 => l.foldl (fun t x => (t + x) % 2 ^ 64) 0
  | 3 => (l.map (· % 2 ^ 32)).foldl (fi32.minmax false) fi32.nanBits
  | 4 => (l.map (· % 2 ^ 32)).foldl (fi32.minmax true) fi32.nanBits
  | 5 => rankTree (fun a b => if sext a 64 ≤ sext b 64 then a else b) (l.map (· % 2 ^ 64))
  | 6 => rankTree (fun a b => if sext a 64 ≤ sext b 64 then b else a) (l.map (· % 2 ^ 64))
  | _ => (l.foldl (fun (t : WCell) x => t.add (WCell.ofNat x)) ⟨0, 0#4⟩).toNat

/-- Bytes of a contribution or a result of operation M. -/
def bankBytes (m : Nat) : Nat := if m = 7 then 48 else 8

/-- The offset in an object at which rank r contributes (R213). -/
def bankSlot (m r : Nat) : Nat := 64 + (if m = 7 then 64 else 8) * r

/-- The checks of a reduction object (R214): items 1 to 4 of R103, 64-byte alignment, PROT for a local store, HOST or PEER object; then
poison (R370). -/
def State.checkBank (s : State) (i : Nat) (ea : Word) : M (Nat × State) :=
  match s.chkItem1 i ea 64 with
  | some (c, v) => .error (.trap c v)
  | none =>
    if ea.toNat % 64 ≠ 0 then .error (.trap .align ea)
    else match s.chk34 i .rmw ea.toNat with
      | .error .peercore => .error (.trap .prot ea)
      | .error c => .error (.trap c ea)
      | .ok (k, e) =>
        match typeOfPa k with
        | some .ls | some .host => .error (.trap .prot ea)
        | _ =>
          match (List.range 8).find? (fun j => s.poisonSeen i (s.place (s.isSup i) k (8 * j))) with
          | some j => .error (.trap .memue (ea + BitVec.ofNat 64 (8 * j)))
          | none => .ok (k, s.keep i false e)

/-- What a contribution comes to at the home (R214). -/
inductive BankStep where
  /-- rank beyond the members: BADRANK, answered at once -/
  | badRank (s : State)
  /-- the rank has contributed in this generation: wait before contributing -/
  | again
  /-- contributed; the generation is still open -/
  | wait (s : State) (gen : Nat)
  /-- contributed, and the generation is complete -/
  | done (s : State)
  /-- a contribution that this one would be combined with is poisoned, at an offset in the object: nothing is performed (R370) -/
  | poison (off : Nat)
  deriving DecidableEq, Repr

/-- One contribution of operation M, rank r, value v to the object at physical address obj, indivisibly at its home (R214), as a supervisor or a launch
has the object (R296). -/
def State.contribute (s : State) (sup : Bool) (obj m r v : Nat) : BankStep :=
  let w := s.rd obj 8
  let p := bits w 43 32 + 1
  let arr := bits w 31 16
  let gen := bits w 15 12
  if r ≥ p then .badRank (s.wr obj 8 (setBit w 1 true))
  else
    let ranks := if arr = 0 then [] else ((s.reds.find? fun q => q.1 = obj).map (·.2)).getD []
    if ranks.contains r then .again
    else
      let op := if arr = 0 then m else bits w 11 8
      let w := setBits (if op = m then w else setBit w 2 true) 11 8 op
      let at_ (o : Nat) : Nat := s.place sup obj o
      let s := s.write (s.objBytes sup (at_ (bankSlot op r)) (bankBytes op) v)
      let reds := s.reds.filter fun q => q.1 ≠ obj
      let slots := (List.range p).flatMap fun j => (List.range (bankBytes op / 8)).map fun b => bankSlot op j + 8 * b
      if arr + 1 = p then
        match slots.find? fun o => s.poisoned (at_ o) with
        | some o => .poison o
        | none =>
        let x := bankCombine op ((List.range p).map fun j => s.rdObj sup (at_ (bankSlot op j)) (bankBytes op))
        let s := (s.write (s.objBytes sup (at_ 8) (bankBytes op) x)).wr obj 8 (setBits (setBits w 31 16 0) 15 12 (gen + 1))
        .done { s with reds := reds }
      else
        .wait { s.wr obj 8 (setBits w 31 16 (arr + 1)) with reds := (obj, r :: ranks) :: reds } gen

/-- The scope of a reduction object (R214): the cluster for one in a scratchpad, else the device. -/
def bankScope (obj : Nat) : Scope := if typeOfPa obj = some .csp then .cluster else .device

/-- What core i collects from an object at ea: the acquire, then the result for its form (R214), MEMUE where a word of it is poisoned (R370). -/
def State.collect (s : State) (i obj m : Nat) (ea : Word) : M (Nat × State) :=
  match (List.range (bankBytes m / 8)).find? fun j => s.poisonSeen i (s.place (s.isSup i) obj (8 + 8 * j)) with
  | some j => .error (.trap .memue (ea + BitVec.ofNat 64 (8 + 8 * j)))
  | none =>
    let x := s.rdObj (s.isSup i) (s.place (s.isSup i) obj 8) (bankBytes m)
    .ok (if m = 0 ∨ m = 3 ∨ m = 4 then x % 2 ^ 32 else x, (s.acquireAt i (bankScope obj)).modCore i fun c => { c with bwait := false, bgen := 0 })

/-- The physical key of an address that has passed its checks before (R214: a resumed BANKOP checks nothing). -/
def State.reach (s : State) (i va : Nat) : Option Nat :=
  match windowOf va with
  | some (ls, x) => s.windowKey i ls x
  | none => (s.lookup i false va).map fun e => e.pa va

/-- Wake every core that waits for a generation. -/
def State.wakeBanks (s : State) : State :=
  s.mapCores fun _ c => if c.bwait then { c with stalled := false } else c

/-- BANKOP (R214), operation M; `value` reads the contribution and `put` writes the result. The operands are read again at the end, so that
a wait has consumed nothing. At a page under migration it waits before its home is entered, and contributes once, on the new page (R350, R351). -/
def bankop (i : Instr) (m : Nat) (a b : Reg) (value : Core → M (Nat × Core)) (put : Nat → Core → Nat → M Core) (s : State) :
    Host.Outcome State Fault Refusal :=
  let finish (k : Nat) (x : Nat) (s : State) : M State := do
    let (_, c) ← (s.core k).readS a
    let (_, c) ← c.readS b
    let (_, c) ← value c
    let c ← put k c x
    .ok (s.setCore k c)
  runSeq i (fun k s => do
    let (ea, c) ← (s.core k).readS a
    let (r, c) ← c.readS b
    let (v, _) ← value c
    if c.bwait then
      match s.reach k ea.toNat with
      | none => .error .stall
      | some obj =>
        stallUnless (bits (s.rd obj 8) 15 12 != c.bgen)
        let (x, s) ← s.collect k obj m ea
        finish k x s
    else
      let (obj, s) ← s.checkBank k ea
      let s ← s.release k (bankScope obj)
      stallUnless (!s.heldAt obj)
      let s ← s.enterHome k obj
      let s ← s.settle k obj 64
      match s.contribute (s.isSup k) obj m r.toNat v with
      | .again => .error .stall
      | .poison o => .error (.trap .memue (ea + BitVec.ofNat 64 o))
      | .badRank s => finish k (if m = 7 then 2 ^ 352 else 2 ^ 64 - 1) s
      | .wait s g => .error (.wait (s.modCore k fun c => { c with bwait := true, bgen := g }))
      | .done s =>
        let (x, s) ← s.wakeBanks.collect k obj m ea
        finish k x s) s

/-- A scalar contribution, and a scalar result. -/
def bankS (e : Reg) (c : Core) : M (Nat × Core) := do
  let (x, c) ← c.readS e
  .ok (x.toNat, c)
def bankPutS (d : Reg) (k : Nat) (c : Core) (x : Nat) : M Core := c.putS k d (BitVec.ofNat 64 x)

/-- The low 32 bits of a scalar contribution. -/
def bankS32 (e : Reg) (c : Core) : M (Nat × Core) := do
  let (x, c) ← c.readS e
  .ok (x.toNat % 2 ^ 32, c)

/-- BANKOP.add.f32 (R214). -/
def execBankopAddF32 (d a b c : Reg) (s : State) : Host.Outcome State Fault Refusal := bankop (.bankopAddF32 d a b c) 0 a b (bankS32 c) (bankPutS d) s

/-- BANKOP.add.f64 (R214). -/
def execBankopAddF64 (d a b c : Reg) (s : State) : Host.Outcome State Fault Refusal := bankop (.bankopAddF64 d a b c) 1 a b (bankS c) (bankPutS d) s

/-- BANKOP.add.i64 (R214). -/
def execBankopAddI64 (d a b c : Reg) (s : State) : Host.Outcome State Fault Refusal := bankop (.bankopAddI64 d a b c) 2 a b (bankS c) (bankPutS d) s

/-- BANKOP.min.f32 (R214). -/
def execBankopMinF32 (d a b c : Reg) (s : State) : Host.Outcome State Fault Refusal := bankop (.bankopMinF32 d a b c) 3 a b (bankS32 c) (bankPutS d) s

/-- BANKOP.max.f32 (R214). -/
def execBankopMaxF32 (d a b c : Reg) (s : State) : Host.Outcome State Fault Refusal := bankop (.bankopMaxF32 d a b c) 4 a b (bankS32 c) (bankPutS d) s

/-- BANKOP.min.i64 (R214). -/
def execBankopMinI64 (d a b c : Reg) (s : State) : Host.Outcome State Fault Refusal := bankop (.bankopMinI64 d a b c) 5 a b (bankS c) (bankPutS d) s

/-- BANKOP.max.i64 (R214). -/
def execBankopMaxI64 (d a b c : Reg) (s : State) : Host.Outcome State Fault Refusal := bankop (.bankopMaxI64 d a b c) 6 a b (bankS c) (bankPutS d) s

/-- BANKOP.ws (R214): D and C are vectors. -/
def execBankopWs (d a b c : Reg) (s : State) : Host.Outcome State Fault Refusal :=
  bankop (.bankopWs d a b c) 7 a b
    (fun k => do
      let (x, k) ← k.readV c
      .ok (x.toNat % 2 ^ 384, k))
    (fun _ k x => k.putV d (BitVec.ofNat 512 x) allBytes false) s

end Sys2Proof.Machine
end

