-- ==== Sys2Proof/Machine/Timeline.lean ====
section
/-!
DEFINITION. Timeline.lean: timeline contexts (R198 to R201, R217), WAITC (R202, R216), TIME and WAITT (R260), the carillon (R219 to R221), user
completion interrupts (R237 to R239).
-/
namespace Sys2Proof.Machine

open Sys2Proof

/-! ### Timelines (R199, R200) -/

/-- The largest number, at which counting stops (R200). -/
def tlMax : Word := -1

/-- VALUE from what is outstanding: the largest n such that operations 1 to n are all complete (R198). -/
def Timeline.settle (t : Timeline) : Timeline :=
  { t with value := match t.out with | [] => t.issued | x :: r => BitVec.ofNat 64 (r.foldl min x - 1) }

/-- Issue one operation: its number (R199). Once ISSUED is 2^64 − 1 every operation shares that number, and VALUE is below it while one of them is
outstanding (R200). -/
def Timeline.issue (t : Timeline) : Nat × Timeline :=
  if t.issued = tlMax then (tlMax.toNat, ({ t with ovf := true, out := t.out ++ [tlMax.toNat] } : Timeline).settle)
  else
    let n := t.issued + 1
    (n.toNat, { t with issued := n, ovf := t.ovf || decide (n = tlMax), out := t.out ++ [n.toNat] })

/-- Operation n completes (R199). -/
def Timeline.finish (t : Timeline) (n : Nat) (fail : Bool) : Timeline :=
  ({ t with out := t.out.erase n, err := t.err || fail } : Timeline).settle

/-- An operation of a task completes: its number counts, then its requested interrupt is raised (R199, R237, R242). Nothing changes for a
task that has ended since (R198). -/
def State.completeOp (s : State) (core launch serial tl n : Nat) (fail uci : Bool) (code : Nat) : State :=
  s.modCore core fun c =>
    match c.bankOf launch with
    | none => c
    | some b =>
      if b.serial ≠ serial then c
      else
        let b := { b with tls := SMap.set {} b.tls tl ((SMap.get {} b.tls tl : Timeline).finish n fail) }
        let b := if uci then { b with uci := b.uci ++ [({ tl := tl, num := BitVec.ofNat 64 n, status := code } : UciEvent)], uciOut := b.uciOut - 1 } else b
        { c.setBankOf launch b with stalled := false }

/-- Copy-class and tile commands outstanding (R202). -/
def Core.copies (c : Core) : Nat := (c.tl 0).out.length + (c.tl 3).out.length
def Core.tiles (c : Core) : Nat := (c.tl 1).out.length + (c.tl 2).out.length

/-- WAITC (R216, R202): 63 is any number. -/
def execWaitc (loads stores copies tiles : BitVec 6) (s : State) : Host.Outcome State Fault Refusal :=
  runSeq (.waitc loads stores copies tiles) (fun k s => do
    let c := s.core k
    let le (n : Nat) (m : BitVec 6) : Bool := decide (n ≤ m.toNat) || m == 63
    stallUnless (le c.loads loads && le c.stores stores && le c.copies copies && le c.tiles tiles)
    .ok s) s

/-- TLWAIT (R217, R199): an acquire, with what the context's completed operations wrote to HOST. -/
def execTlwait (tl a : Reg) (imm : IWord) (s : State) : Host.Outcome State Fault Refusal :=
  runSeq (.tlwait tl a imm) (fun k s => do
    let (x, c) ← (s.core k).readS a
    let t := if a = 0 then imm.toNat else x.toNat
    stallUnless (decide (t ≤ (c.tl tl.toNat).value.toNat))
    let s := s.setCore k c
    .ok (if t = 0 then s else s.modCore k fun c => c.freshen (c.tl tl.toNat).host)) s

/-- w2 of a context (R198). -/
def Timeline.flags (t : Timeline) : Word := BitVec.ofNat 64 (b2n t.err + 2 * b2n t.ovf)

/-- TLGET (R217): A is the destination. -/
def execTlget (tl a : Reg) (imm : IWord) (s : State) : Host.Outcome State Fault Refusal :=
  runLocal (.tlget tl a imm) (fun k c => do
    let t := c.tl tl.toNat
    .ok (← c.putS k a (if imm = 0 then t.value else if imm = 1 then t.issued else t.flags), 0)) s

/-- TLSET (R217, R201): what is waited for afterwards acquires the operations numbered under the new count. -/
def execTlset (tl a : Reg) (imm : IWord) (s : State) : Host.Outcome State Fault Refusal :=
  runLocal (.tlset tl a imm) (fun _ c => do
    let t := c.tl tl.toNat
    stallUnless t.out.isEmpty
    let (v, c) ← c.readS a
    .ok (c.setTl tl.toNat { t with value := v, issued := v, host := [], err := t.err && !bit imm.toNat 0, ovf := t.ovf && !bit imm.toNat 1 }, 0)) s

/-! ### Time (R260) -/

/-- TIME (R260). -/
def execTime (d : Reg) (s : State) : Host.Outcome State Fault Refusal :=
  runSeq (.time d) (fun k s => do
    let c ← (s.core k).putS k d s.time
    .ok (s.setCore k c)) s

/-- WAITT (R260). -/
def execWaitt (a : Reg) (s : State) : Host.Outcome State Fault Refusal :=
  runSeq (.waitt a) (fun k s => do
    let (t, c) ← (s.core k).readS a
    stallUnless (decide (t.toNat ≤ s.time.toNat))
    .ok (s.setCore k c)) s

/-! ### The carillon (R219 to R221) -/

/-- The channel of a tree that core i reaches. -/
def State.chan (s : State) (i : Nat) (dev : Bool) (ch : Nat) : Chan :=
  if dev then SMap.get {} s.dchans ch else SMap.get {} (s.cluster (clusterOf i)).chans ch

def State.setChan (s : State) (i : Nat) (dev : Bool) (ch : Nat) (x : Chan) : State :=
  if dev then { s with dchans := SMap.set {} s.dchans ch x }
  else s.setCluster (clusterOf i) { s.cluster (clusterOf i) with chans := SMap.set {} (s.cluster (clusterOf i)).chans ch x }

/-- The members of a device channel: the cores named by its core mask in each of its member clusters (R220). -/
def State.devMembers (s : State) (ch : Nat) : List Nat :=
  ((List.range 96).filter fun g => bit (SMap.get 0 s.dclus ch) g).flatMap fun g =>
    ((List.range 24).filter fun c => bit (SMap.get 0 s.dmask (ch * 96 + g)) c).map fun c => g * 24 + c

def State.members (s : State) (i : Nat) (dev : Bool) (ch : Nat) : List Nat :=
  if dev then s.devMembers ch else (s.chan i false ch).members

/-- Key of a channel in a core's arrival record. -/
def arrKey (dev : Bool) (ch : Nat) : Nat := if dev then 16 + ch else ch

/-- Stalled instructions of all cores are tried again. -/
def State.wakeAll (s : State) : State := s.mapCores fun _ c => { c with stalled := false }

/-- CARR (R219). -/
def execCarr (dev : Bool) (ch : BitVec 4) (s : State) : Host.Outcome State Fault Refusal :=
  runSeq (.carr dev ch) (fun k s => do
    let n := ch.toNat
    let mem := s.members k dev n
    if !mem.contains k then .ok s
    else
      let c := s.core k
      let x := s.chan k dev n
      let mine := SMap.get 0 c.arr (arrKey dev n)
      stallUnless (!(decide (mine ≠ 0) && mine == 1 + b2n x.gen))
      let s := s.setCore k { c with arr := SMap.set 0 c.arr (arrKey dev n) (1 + b2n x.gen) }
      let set := nset_insert x.arrived k
      if mem.all set.contains then .ok (s.setChan k dev n { x with gen := !x.gen, arrived := [] }).wakeAll
      else .ok (s.setChan k dev n { x with arrived := set })) s

/-- CWAIT (R219). -/
def execCwait (dev : Bool) (ch : BitVec 4) (s : State) : Host.Outcome State Fault Refusal :=
  runSeq (.cwait dev ch) (fun k s => do
    let n := ch.toNat
    let c := s.core k
    let mine := SMap.get 0 c.arr (arrKey dev n)
    if !(s.members k dev n).contains k || mine = 0 then .ok s
    else
      stallUnless (decide (mine ≠ 1 + b2n (s.chan k dev n).gen))
      .ok (s.setCore k { c with arr := SMap.set 0 c.arr (arrKey dev n) 0 })) s

/-- Device channels of a partition (R339). -/
def State.ownsChan (s : State) (p ch : Nat) : Bool :=
  let n := 16 / s.cfg.nparts
  decide (p * n ≤ ch) && decide (ch < (p + 1) * n)

/-- CMASK clears a channel: its set, its generation bit, every arrived flag of its cluster, or of its partition (R221, R339). -/
def State.clearChan (s : State) (i : Nat) (dev : Bool) (ch : Nat) : State :=
  let s := s.setChan i dev ch { s.chan i dev ch with arrived := [], gen := false }
  s.mapCores fun j c =>
    if if dev then s.partOf j = s.partOf i else clusterOf j = clusterOf i then { c with arr := SMap.set 0 c.arr (arrKey dev ch) 0, stalled := false } else c

/-- The members of a cluster channel of core i's cluster become the cores of a 24-bit mask (R221). -/
def State.cmaskC (s : State) (i ch mask : Nat) : State :=
  let mem := ((List.range 24).filter fun c => bit mask c).map fun c => clusterOf i * 24 + c
  (s.setChan i false ch { s.chan i false ch with members := mem }).clearChan i false ch

/-- The core mask of a device channel in core i's cluster (R221). -/
def State.cmaskD (s : State) (i ch mask : Nat) : State :=
  { s with dmask := SMap.set 0 s.dmask (ch * 96 + clusterOf i) (mask % 2 ^ 24) }.clearChan i true ch

/-- The member clusters of a device channel (R221). -/
def State.cmaskDc (s : State) (i ch set : Nat) : State := { s with dclus := SMap.set 0 s.dclus ch (set % 2 ^ 96) }.clearChan i true ch

/-- CMASK.c (R221). -/
def execCmaskC (a : Reg) (ch : BitVec 4) (s : State) : Host.Outcome State Fault Refusal :=
  runSeq (.cmaskC a ch) (fun k s => do
    let (x, c) ← (s.core k).readS a
    .ok ((s.setCore k c).cmaskC k ch.toNat x.toNat)) s

/-- CMASK.d (R221). On a device channel of another partition, which the supervisor can neither read nor write (R21, R339), it changes nothing (log entry 84). -/
def execCmaskD (a : Reg) (ch : BitVec 4) (s : State) : Host.Outcome State Fault Refusal :=
  runSeq (.cmaskD a ch) (fun k s => do
    let (x, c) ← (s.core k).readS a
    let s := s.setCore k c
    .ok (if s.ownsChan (s.partOf k) ch.toNat then s.cmaskD k ch.toNat x.toNat else s)) s

/-- CMASK.dc (R221): clusters 64 to 95 in the low word of s[B]. A device channel of another partition stays as it is (log entry 84). -/
def execCmaskDc (a b : Reg) (ch : BitVec 4) (s : State) : Host.Outcome State Fault Refusal :=
  runSeq (.cmaskDc a b ch) (fun k s => do
    let (x, c) ← (s.core k).readS a
    let (y, c) ← c.readS b
    let s := s.setCore k c
    .ok (if s.ownsChan (s.partOf k) ch.toNat then s.cmaskDc k ch.toNat (x.toNat + y.toNat % 2 ^ 32 * 2 ^ 64) else s)) s

/-! ### User completion interrupts (R237 to R239) -/

/-- The code of a scalar register after the bank swap: poison of the shadow bank stands under the codes 112 to 117 (R238, R370). -/
def swapCode (n : Nat) : Nat := if 48 ≤ n ∧ n < 54 then n + 64 else if 112 ≤ n ∧ n < 118 then n - 64 else n

/-- s48 to s53 and their shadow bank change places (R238), their poison with them. -/
def Core.swapBank (c : Core) : Core :=
  (List.range 6).foldl (fun c j =>
    let a := SMap.get 0 c.s (48 + j)
    let b := SMap.get 0 c.shadow (48 + j)
    { c with s := SMap.set 0 c.s (48 + j) b, shadow := SMap.set 0 c.shadow (48 + j) a }) { c with poison := { c.poison with s := c.poison.s.map swapCode } }

/-- An event may be taken on core i now (R238): a task's context is there, at a stop point, with EN = 1, INH = 0 and an event pending. A resumed PC that is
no word address traps first (R378). -/
def State.uciReady (s : State) (i : Nat) : Bool :=
  let c := s.core i
  let v := c.sys.ucivec.toNat
  !s.isSup i && c.run.isSome && c.atStop && decide (c.unitPc.toNat % 4 = 0) && bit v 0 && !bit v 1 && !c.bank.uci.isEmpty

/-- Taking the oldest event (R238), before the first word of a unit that has begun (R39). A frame that stands at an iteration boundary is left as a context save
leaves it: EPC names its RPT (R48). A stop point gives up the core's tickets (R215). -/
def State.takeUci (s : State) (i : Nat) : State :=
  let c := s.core i
  match c.bank.uci with
  | [] => s
  | e :: t =>
    let c := if c.frame.isSome then { c with frame := none, sys := { c.sys with epc := c.pc } } else c
    let c := c.swapBank
    let c := ((c.writeS 53 c.unitPc).writeS 52 e.num).writeS 51 (BitVec.ofNat 64 (e.tl * 256 + e.status % 256))
    let v := c.sys.ucivec.toNat
    { s with tickets := s.tickets.filter fun t => t.core ≠ i }.setCore i
      { c with bank := { c.bank with uci := t }, sys := { c.sys with ucivec := BitVec.ofNat 64 (setBit v 1 true) }
               pc := BitVec.ofNat 64 (bits v 55 2 * 4), pfx := [], stalled := false, pushing := none }

/-- USER_INTERRUPT_ENTRY (R238), on core `core`. -/
def execUserInterruptEntry (s : State) : Host.Outcome State Fault Refusal :=
  runEvent (fun x s => if s.uciReady x.core then some (s.takeUci x.core) else none) s

/-- UIRET (R239). A load that is still to write a register of the bank that goes away comes first (R130). -/
def execUiret (s : State) : Host.Outcome State Fault Refusal :=
  runCtl .uiret (fun k s => do
    let c := s.core k
    let v := c.sys.ucivec.toNat
    trapIf (!bit v 1) .illop c.word0
    stallUnless (!((List.range 6).any fun j => c.pendingS (48 + j)))
    let (t, c) ← c.readS 53
    let c := c.swapBank
    .ok (s.setCore k { c with sys := { c.sys with ucivec := BitVec.ofNat 64 (setBit v 1 false) }, pc := wordPc t, slot := none, pfx := [], stalled := false })) s

end Sys2Proof.Machine
end

