-- ==== Sys2Proof/Machine/Stream.lean ====
section
/-!
DEFINITION. Stream.lean: streams (R229 to R232) and ports (R233 to R235).
-/
namespace Sys2Proof.Machine

open Sys2Proof

/-! ### Streams -/

/-- Extent and stride of dimension d of a descriptor (R229). -/
def strmExt (w : List Word) (d : Nat) : Nat := bits (w.getD (1 + d / 2) 0).toNat (32 * (d % 2) + 31) (32 * (d % 2))
def strmStr (w : List Word) (d : Nat) : Int := sext (bits (w.getD (3 + d / 2) 0).toNat (32 * (d % 2) + 31) (32 * (d % 2))) 32

/-- The eight words of a descriptor keep R229. -/
def strmDescOk (w : List Word) : Bool :=
  let w0 := (w.getD 0 0).toNat
  let nd := w0 % 2 ^ 32
  decide (w0 / 2 ^ 32 = 64) && decide (1 ≤ nd) && decide (nd ≤ 4)
    && ((List.range 4).all fun d =>
      if d < nd then decide (strmExt w d ≥ 1) && decide (strmStr w d % 4 = 0) else decide (strmExt w d = 0) && decide (strmStr w d = 0))
    && w.getD 5 0 == 0 && w.getD 6 0 == 0 && w.getD 7 0 == 0

/-- Lowest and highest byte of a pattern, as exact integers (R230). -/
def strmSpan (base : Word) (w : List Word) : Int × Int :=
  let reach (d : Nat) : Int := ((strmExt w d : Int) - 1) * strmStr w d
  let ds := (List.range 4).filter (· < (w.getD 0 0).toNat % 2 ^ 32)
  (ds.foldl (fun a d => a + min 0 (reach d)) (base.toNat : Int), ds.foldl (fun a d => a + max 0 (reach d)) ((base.toNat : Int) + 63))

/-- The window whose backed extent holds an exact address, with the offset (R13). -/
def backedWindow (x : Int) : Option (Bool × Nat) :=
  if x < 0 then none
  else match windowOf x.toNat with
    | some (true, o) => if o < 2 ^ 17 then some (true, o) else none
    | some (false, o) => if o < 2 ^ 22 then some (false, o) else none
    | none => none

/-- The checks of SBIND on a pattern, in the order of R230. -/
def State.checkPattern (s : State) (i : Nat) (base : Word) (w : List Word) : M Unit :=
  let (lo, hi) := strmSpan base w
  match backedWindow lo with
  | none => .error (.trap .prot (wordOfInt lo))
  | some (l1, o1) =>
    match backedWindow hi with
    | none => .error (.trap .prot (wordOfInt hi))
    | some (l2, o2) =>
      if l1 != l2 then .error (.trap .prot (wordOfInt hi))
      else if (s.windowKey i l1 o1).isNone then .error (.trap .lease (wordOfInt lo))
      else if (s.windowKey i l2 o2).isNone then .error (.trap .lease (wordOfInt hi))
      else trapIf (base.toNat % 4 ≠ 0) .align base

/-- SDRAIN on stream q: an output stream's pushed items are all performed, then it is unbound; an input stream's items are discarded
(R230). -/
def Core.drain (c : Core) (q : Nat) : M Core := do
  let t := c.strmAt q
  stallUnless (!t.output || c.pushedTo q = 0)
  .ok (c.setStrm q {})

/-- SBIND (R230). It is not one of the loads that R202 counts. An input binding waits for what the core has pushed to its output streams, which its items must
show (R25, R110). -/
def execSbind (out : Bool) (d a b : Reg) (s : State) : Host.Outcome State Fault Refusal :=
  runSeq (.sbind out d a b) (fun k s => do
    let (base, c) ← (s.core k).readS a
    let (ptr, c) ← c.readS b
    let ls : List LaneAt := (List.range 8).map fun j => ⟨j, ptr + BitVec.ofNat 64 (8 * j), 8, ptr.toNat % 8 != 0⟩
    let (ps, s) ← (s.setCore k c).checkLanes k .load ls
    let (xs, s) ← s.loadLanes k false ps
    let s := s.watch k (ps.flatMap fun p => placesOf p.2)
    let w := xs.map fun x => BitVec.ofNat 64 x.2.2
    trapIf (!strmDescOk w) .stream (BitVec.ofNat 64 (d.toNat - 32))
    s.checkPattern k base w
    stallUnless (out || (s.core k).sb.all fun e => e.strm.isNone)
    let c ← (s.core k).drain (d.toNat - 32)
    .ok (s.setCore k (c.setStrm (d.toNat - 32) ({ bound := true, output := out, base := base, desc := w.take 5, next := 0, buf := [] } : Strm)))) s

/-- SDRAIN (R230). -/
def execSdrain (d : Reg) (s : State) : Host.Outcome State Fault Refusal :=
  runLocal (.sdrain d) (fun _ c => do .ok (← c.drain (d.toNat - 32), 0)) s

/-- STREAM_PREFETCH (R231): input stream n of core `core` reads its next item ahead as plain loads of the core, word by word, at most 4 items ahead: the next word where
`q`, else what is left of the item. Poison met stays with the item (R370). A stopped core reads nothing (R365, R280). -/
def execStreamPrefetch (s : State) : Host.Outcome State Fault Refusal :=
  runEvent (fun x s =>
    let c := s.core x.core
    let q := c.strmAt x.n
    if (s.gonged x.core && c.atStop) || !q.bound || q.output || decide (q.buf.length ≥ 4) || decide (q.next + q.buf.length ≥ strmItems q.desc) then none
    else
      let k := q.next + q.buf.length
      let va := (strmAddr q.base q.desc k).toNat
      let keys := s.strmKeys x.core q k
      if keys.length < 16 then none
      else
        let m := q.part.length
        let now := (List.range (if x.q then m + 1 else 16)).drop m
        match now.find? fun j => s.poisonSeen x.core (keys.getD j 0) with
        | some j => some (s.setCore x.core { c.setStrm x.n { q with buf := q.buf ++ [.bad (BitVec.ofNat 64 (va + 4 * j))], part := [] } with stalled := false })
        | none =>
          let words := q.part ++ now.map fun j => ofBytes ((List.range 4).map fun b => s.loadByte x.core false (keys.getD j 0 + b))
          let q := if words.length < 16 then { q with part := words } else { q with buf := q.buf ++ [.ok (BitVec.ofNat 512 (ofLanes 32 words))], part := [] }
          some (s.setCore x.core { c.setStrm x.n q with stalled := false })) s

/-- STREAM_WRITE_OUT (R231): the oldest pushed item of output stream n of core `core` is performed. -/
def execStreamWriteOut (s : State) : Host.Outcome State Fault Refusal :=
  runEvent (fun x s =>
    let c := s.core x.core
    match c.sb.find? fun e => e.strm == some x.n with
    | none => none
    | some e =>
      -- a word of it that an earlier store must precede stays, with those behind it
      let free (j : Nat) : Bool := match c.sb[j]? with
        | some y => y.grp == e.grp && s.mayPerform x.core ((s.cluster (clusterOf x.core)).sb.map (·.2) ++ (c.sb.take j).filter fun z => z.grp != e.grp) y
        | none => false
      if !((List.range c.sb.length).any free) then none
      else (s.performAll x.core (fun y => y.grp == e.grp && (List.range c.sb.length).any fun j => free j && (c.sb[j]?.map (·.bytes)) == some y.bytes) c.sb.length 0).map
        fun s => s.wake x.core) s

/-! ### Ports -/

/-- The clusters of a launch, as a set of 96 bits (R291). -/
def Launch.clusters (l : Launch) : Nat := l.word 4 + bits (l.word 5) 31 0 * 2 ^ 64

/-- PBIND (R234). A supervisor core has no launch, so no core is its launch's. -/
def execPbind (d a : Reg) (s : State) : Host.Outcome State Fault Refusal :=
  runSeq (.pbind d a) (fun k s => do
    let (x, c) ← (s.core k).readS a
    let ok := decide (x.toNat < 2 ^ 15) && (match coreOfId (bits x.toNat 11 0), s.launch (s.partOf k) (c.run.getD 0) with
      | some t, some l => !s.isSup k && bit l.clusters (clusterOf t)
      | _, _ => false)
    trapIf (!ok) .prot x
    let p := d.toNat - 56
    .ok (s.setCore k (c.setTxp p { c.txp p with bind := some x }))) s

/-- PEND (R234). -/
def execPend (d a : Reg) (s : State) : Host.Outcome State Fault Refusal :=
  runLocal (.pend d a) (fun k c => do
    let (x, c) ← c.readS a
    .ok (← c.send k (d.toNat - 56) x true, 0)) s

/-- The status that PPOLL returns (R234). -/
def Core.portStatus (c : Core) (p : Nat) : Word :=
  let t := c.txp p
  let q := (c.rxp p).q
  let head := match q with
    | [] => 0
    | w :: _ => w.src * 2 ^ 20 + b2n w.trunc * 2 ^ 11 + b2n w.last * 2 ^ 10
  BitVec.ofNat 64 (b2n t.drop * 2 ^ 63 + head + b2n t.pkt.isSome * 2 ^ 9 + q.length)

/-- PPOLL (R234). -/
def execPpoll (d a : Reg) (s : State) : Host.Outcome State Fault Refusal :=
  runLocal (.ppoll d a) (fun k c => do
    let p := a.toNat - 56
    let x := c.portStatus p
    .ok (← (c.setTxp p { c.txp p with drop := false }).putS k d x, 0)) s

/-- DROP of a port of the launch's task on the core (R234): on the core while its context is there, else with the bank that is kept for it. -/
def Core.dropped (c : Core) (l p : Nat) : Core :=
  if c.run = some l ∨ (l = 0 ∧ c.run = none) then c.setTxp p { c.txp p with drop := true }
  else match c.bankOf l with
    | some b => c.setBankOf l { b with drops := if b.drops.contains p then b.drops else b.drops ++ [p] }
    | none => c

/-- PORT_WORD_DELIVERY (R235): word n under way joins its destination queue of 8, if no earlier word is under way to that queue; a word whose
destination holds no allocation of its launch any more is discarded. -/
def execPortWordDelivery (s : State) : Host.Outcome State Fault Refusal :=
  runEvent (fun x s =>
    match s.wires[x.n]? with
    | none => none
    | some w =>
      if (s.wires.take x.n).any fun v => v.dst = w.dst ∧ v.dstPort = w.dstPort ∧ v.launch = w.launch then none
      else
        let s := { s with wires := s.wires.eraseIdx x.n }
        match (s.core w.dst).bankOf w.launch with
        | none => some (s.modCore w.core fun c => c.dropped w.launch w.port)
        | some _ =>
          let r := s.rxOf w.dst w.launch w.dstPort
          let word : RxWord := ⟨w.w, coreId w.core, w.port, w.last, w.trunc⟩
          if r.q.length ≥ 8 then none
          else some ((s.setRxOf w.dst w.launch w.dstPort { r with q := r.q ++ [word] }).modCore w.dst fun c => { c with stalled := false })) s

end Sys2Proof.Machine
end

