-- ==== Sys2Proof/Machine/Sched.lean ====
section
/-!
DEFINITION. Sched.lean: what the scheduler knows and does: the launch record's fields (R291, R294), teams and channels (R295), where
allocations go (R296), what work a core of a launch would get (R303, R304, R320), how a task starts (R297, R298) and how a step commits
(R322). The events and instructions that use them are in Launch.lean and Causal.lean.
-/
namespace Sys2Proof.Machine

open Sys2Proof

/-! ### Fields of the record (R291, R294) -/

def Launch.nlease (l : Launch) : Nat := bits (l.word 0) 40 36
def Launch.nlvl (l : Launch) : Nat := bits (l.word 0) 35 33
def Launch.cond (l : Launch) : Bool := bit (l.word 0) 29
def Launch.accr (l : Launch) : Nat := bits (l.word 0) 26 24
def Launch.lsu (l : Launch) : Nat := bits (l.word 0) 23 19
def Launch.tcsp (l : Launch) : Nat := bits (l.word 0) 18 8
def Launch.tbank (l : Launch) : Bool := bit (l.word 0) 7
def Launch.cbank (l : Launch) : Bool := bit (l.word 1) 11
def Launch.ccsp (l : Launch) : Nat := bits (l.word 1) 10 0

def lvlDomain (x : Nat) : Nat := bits x 35 32
def lvlScope (x : Nat) : Nat := bits x 31 30
def lvlChv (x : Nat) : Bool := bit x 29
def lvlTree (x : Nat) : Bool := bit x 28
def lvlChan (x : Nat) : Nat := bits x 27 24
def lvlSize (x : Nat) : Nat := bits x 23 0

/-- The placement levels in use, outermost first. -/
def Launch.levels (l : Launch) : List Nat := (List.range (l.nlvl + 1)).map fun i => l.word (12 + i)

/-! ### Teams and channels (R295) -/

/-- The team size: GSIZE of the CLUSTER level, or 1. -/
def Launch.teamSize (l : Launch) : Nat := match l.levels.find? fun x => lvlDomain x = 3 with
  | some x => max 1 (lvlSize x)
  | none => 1

/-- The launch's clusters in ascending order. -/
def Launch.clusterList (l : Launch) : List Nat := (List.range 96).filter fun g => bit l.clusters g

def Launch.teamsPer (l : Launch) : Nat := 24 / l.teamSize
def Launch.nteams (l : Launch) : Nat := l.clusterList.length * l.teamsPer

/-- Cluster of team t, and its index there. -/
def Launch.teamAt (l : Launch) (t : Nat) : Nat × Nat := (l.clusterList.getD (t / l.teamsPer) 0, t % l.teamsPer)

/-- Cores of team t, by rank. -/
def Launch.teamCores (l : Launch) (t : Nat) : List Nat :=
  let (g, j) := l.teamAt t
  (List.range l.teamSize).map fun r => g * 24 + j * l.teamSize + r

/-- The index in the module of the DIE or DEVICE group that team t belongs to, for a level of `size` cores. -/
def Launch.groupOf (l : Launch) (die : Bool) (size t : Nat) : Nat :=
  let per := max 1 (size / l.teamSize)
  if !die then t / per
  else
    let dieOf (u : Nat) : Nat := (l.teamAt u).1 / 24
    let ts := List.range l.nteams
    let here := (ts.filter fun u => dieOf u = dieOf t ∧ u < t).length
    let before := ((List.range (dieOf t)).map fun d => ceilDiv (ts.filter fun u => dieOf u = d).length per).foldl (· + ·) 0
    before + here / per

/-- The channel a level binds for team t: device tree or not, channel number. -/
def Launch.levelChan (l : Launch) (x t : Nat) : Option (Bool × Nat) :=
  if !lvlChv x then none
  else if lvlDomain x = 3 then some (false, lvlChan x + (l.teamAt t).2)
  else some (true, lvlChan x + l.groupOf (lvlDomain x == 2) (lvlSize x) t)

/-- The channels of team t with the level words that bind them. -/
def Launch.teamChans (l : Launch) (t : Nat) : List (Nat × Bool × Nat) := l.levels.filterMap fun x => (l.levelChan x t).map fun c => (x, c)

/-- The cores of a level's group on a device channel (R295): those of every team of the group. -/
def Launch.chanTeams (l : Launch) (x ch : Nat) : List Nat := (List.range l.nteams).filter fun t => l.levelChan x t == some (true, ch)

/-! ### Where allocations go (R296, R300) -/

/-- A launch or its partition is stopped by a GONG (R365). -/
def State.stoppedL (s : State) (l : Launch) : Bool := decide (l.gong > 0) || decide ((s.prt l.part).gong > 0)

/-- Place of a local store allocation of `units` on a core that holds `as`: base and save slot. -/
def lsPlace (as : List Alloc) (units : Nat) : Option (Nat × Nat) :=
  match as with
  | [] => some (0, 0)
  | [a] =>
    let n := units * 4096
    let e := a.base + a.units * 4096
    if n ≤ a.base then some (0, 1 - a.slot) else if e + n ≤ 0x1E000 then some (e, 1 - a.slot) else none
  | _ => none

/-- The banks in which an allocation of a scratchpad has words: an interleaved one in all 64 (R296). -/
def CsAlloc.inBanks (a : CsAlloc) : List Nat := if a.size = 0 then [] else if a.banks.isEmpty then List.range 64 else a.banks

/-- The lowest free place of n bytes in a cluster's scratchpad beside the allocations `as`, with its banks where it is to be confined: whole banks of its own, the
lowest that hold nothing (R296; log entry 62). -/
def csPlace (as : List CsAlloc) (n : Nat) (confined : Bool) : Option (Nat × List Nat) :=
  let starts := 0 :: as.map fun a => a.base + a.size
  let ok (b : Nat) : Bool := decide (b + n ≤ 2 ^ 22) && as.all fun a => decide (a.size = 0) || (a.banks.isEmpty && (decide (b + n ≤ a.base) || decide (a.base + a.size ≤ b)))
  let banks := (List.range 64).filter fun b => !(as.any fun a => a.inBanks.contains b)
  if n = 0 then some (0, [])
  else if confined then (if ceilDiv n 65536 ≤ banks.length then some (0, banks.take (ceilDiv n 65536)) else none)
  else ((starts.filter ok).foldl (fun (m : Option Nat) b => some (min (m.getD b) b)) none).map fun b => (b, [])

/-- The launches with an allocation in a cluster. -/
def State.launchesIn (s : State) (cl : Nat) : List Nat :=
  (((s.cores.filter fun c => clusterOf c.1 = cl).flatMap fun c => c.2.allocs.map (·.launch))).eraseDups

/-- The launches that have their reservation of accumulator regions in a cluster (R133): those with an allocation there, and those of another cluster whose gang has
bound regions there. -/
def State.reserving (s : State) (cl : Nat) : List Nat :=
  (s.launchesIn cl ++ (s.cluster cl).regions.filterMap fun r => r.2.owner.map fun o => o.2.1).eraseDups

/-- Accumulator regions reserved in a cluster (R133). -/
def State.accrIn (s : State) (p cl : Nat) : Nat :=
  ((s.reserving cl).map fun id => match s.launch p id with | some l => l.accr | none => 0).foldl (· + ·) 0

/-- Team t of the launch holds its allocations. -/
def State.admitted (s : State) (l : Launch) (t : Nat) : Bool :=
  (l.teamCores t).any fun i => ((s.core i).alloc l.id).isSome

/-- The team allocation of team t and the launch's cluster allocation beside what a cluster holds. -/
def Launch.csPlaces (l : Launch) (as : List CsAlloc) (t : Nat) : Option (CsAlloc × CsAlloc) :=
  let new (team : Option Nat) (units : Nat) (p : Nat × List Nat) : CsAlloc := { launch := l.id, team := team, base := p.1, size := units * 4096, banks := p.2 }
  match (csPlace as (l.tcsp * 4096) l.tbank).map (new (some t) l.tcsp) with
  | none => none
  | some a =>
    match as.find? fun a => a.launch = l.id ∧ a.team = none with
    | some b => some (a, b)
    | none => (csPlace (as ++ [a]) (l.ccsp * 4096) l.cbank).map fun p => (a, new none l.ccsp p)

/-- The same for team t's cluster as it stands. -/
def State.csPlaces (s : State) (l : Launch) (t : Nat) : Option (CsAlloc × CsAlloc) := l.csPlaces (s.cluster (l.teamAt t).1).cs t

/-- The instruction that a core would run next is a YIELD (R302). -/
def State.atYield (s : State) (i : Nat) : Bool :=
  let c := s.core i
  c.atStop && c.pfx.isEmpty && c.frame.isNone && s.runnable i && s.peek i c.pc == some 0x08000000

/-- Team t of launch l can be admitted now (R300). -/
def State.fits (s : State) (l : Launch) (t : Nat) : Bool :=
  let cl := (l.teamAt t).1
  ((l.teamCores t).all fun i =>
      let as := (s.core i).allocs
      !s.isSup i && decide (as.length < 2) && (lsPlace as l.lsu).isSome && as.all fun a => match s.launch l.part a.launch with
        | some k => decide (l.prio > k.prio) || (decide (l.prio = k.prio) && decide ((s.core i).run = some k.id) && s.atYield i)
        | none => true)
    && (s.csPlaces l t).isSome
    && decide (s.accrIn l.part cl + (if (s.reserving cl).contains l.id then 0 else l.accr) ≤ 4)
    && (l.teamChans t).all fun x =>
      let ch := s.chan (cl * 24) x.2.1 x.2.2
      (decide (ch.owner = 0) || decide (ch.owner = l.id)) && (!x.2.1 || s.ownsChan l.part x.2.2)

/-- Bind the channels of team t: owner and members, by CMASK (R295, R221). A channel that the launch holds already stays as it is. -/
def State.bindChans (s : State) (l : Launch) (t : Nat) : State :=
  let cl := (l.teamAt t).1
  (l.teamChans t).foldl (fun s x =>
    let (w, dev, ch) := x
    if (s.chan (cl * 24) dev ch).owner = l.id then s
    else
      let own (s : State) : State := s.setChan (cl * 24) dev ch { s.chan (cl * 24) dev ch with owner := l.id }
      if !dev then own (s.cmaskC (cl * 24) ch (((l.teamCores t).map fun i => 2 ^ (i % 24)).foldl (· + ·) 0))
      else
        let cores := (l.chanTeams w ch).flatMap l.teamCores
        let cls := (cores.map clusterOf).eraseDups
        let s := cls.foldl (fun s g => s.cmaskD (g * 24) ch (((cores.filter fun i => clusterOf i = g).map fun i => 2 ^ (i % 24)).foldl (· + ·) 0)) s
        own (s.cmaskDc (cl * 24) ch ((cls.map fun g => 2 ^ g).foldl (· + ·) 0))) s

/-- A save slot that was left poisoned is in use again: its STATE is 0 (R368). -/
def State.reuseSlot (s : State) (i slot : Nat) : State :=
  if bits (s.slotWord i slot 0) 19 16 = 3 then s.setSlotState i slot 0 else s

/-- Admit team t: its cores' allocations, the scratchpad's, the channels; its launch's turn of its priority is over (R300). -/
def State.admitTeam (s : State) (l : Launch) (t : Nat) : State :=
  match s.csPlaces l t with
  | none => s
  | some (b, cb) =>
    let cl := (l.teamAt t).1
    let x := s.cluster cl
    let add (a : CsAlloc) : List CsAlloc := if a.size = 0 || x.cs.any (fun q => q.launch = a.launch ∧ q.team = a.team) then [] else [a]
    let s := s.setCluster cl { x with cs := x.cs ++ add b ++ add cb }
    let s := (s.bindChans l t).modPart l.part fun p => { p with turn := SMap.set 0 p.turn l.prio l.id }
    ((l.teamCores t).zip (List.range l.teamSize)).foldl (fun s p =>
      let (base, slot) := (lsPlace (s.core p.1).allocs l.lsu).getD (0, 0)
      let a : Alloc := { launch := l.id, base := base, units := l.lsu, slot := slot, team := t, trank := p.2, csBase := b.base, csBanks := b.banks, csUnits := l.tcsp
                         ccBase := cb.base, ccBanks := cb.banks, ccUnits := l.ccsp, st := .idle, current := false, coord := 0, rb := 0, re := 0, bank := {} }
      (s.reuseSlot p.1 slot).modCore p.1 fun c => { c with allocs := c.allocs ++ [a] }) s

/-! ### Work (R303, R304, R320) -/

/-- The cores of a launch with their allocations. -/
def State.holders (s : State) (l : Launch) : List (Nat × Alloc) :=
  s.cores.filterMap fun c => if s.partOf c.1 = l.part then (c.2.alloc l.id).map fun a => (c.1, a) else none

/-- The range that a core holds for a launch: in its registers while the task is there, else with the scheduler (R301, R356). -/
def State.heldRange (s : State) (i : Nat) (a : Alloc) : Word × Word := if (s.core i).run = some a.launch then (s.core i).range else (a.rb, a.re)

/-- Indices left in a range. -/
def rangeLen (r : Word × Word) : Nat := r.2.toNat - r.1.toNat

/-- Distance of a victim from a thief: team, cluster, die, device (R303). -/
def stealDist (i : Nat) (a : Alloc) (j : Nat) (b : Alloc) : Nat :=
  if a.team = b.team then 0 else if clusterOf i = clusterOf j then 1 else if i / 576 = j / 576 then 2 else 3

/-- The victim of a steal by core i (R303): the nearest domain with a candidate, then the largest count, then the lowest COREID. -/
def State.victim (s : State) (l : Launch) (i : Nat) (a : Alloc) : Option Nat :=
  let cands := ((s.holders l).filter fun h => h.1 ≠ i ∧ rangeLen (s.heldRange h.1 h.2) ≥ 2).map fun h =>
    (stealDist i a h.1 h.2, rangeLen (s.heldRange h.1 h.2), h.1)
  let better (x y : Nat × Nat × Nat) : Bool :=
    decide (x.1 < y.1) || (decide (x.1 = y.1) && (decide (x.2.1 > y.2.1) || (decide (x.2.1 = y.2.1) && decide (x.2.2 < y.2.2))))
  (cands.foldl (fun (m : Option (Nat × Nat × Nat)) x => match m with | none => some x | some y => some (if better x y then x else y)) none).map (·.2.2)

/-- The step at a victim, indivisible with NEXTI (R303): the thief's range. -/
def State.stealFrom (s : State) (l : Launch) (j : Nat) : Option (State × Word × Word) :=
  match (s.core j).alloc l.id with
  | none => none
  | some b =>
    let r := s.heldRange j b
    if rangeLen r < 2 then none
    else
      let mid : Word := r.1 + BitVec.ofNat 64 ((rangeLen r + 1) / 2)
      let s := s.modCore j fun c => if c.run = some l.id then { c with sys := { c.sys with rangee := mid } } else c.setAlloc { b with re := mid }
      some (s, mid, r.2)

/-- Two microseconds in units of the time counter (R259, R320). -/
def homeWait : Nat := 2000 * 256

/-- Core i may run patch k of a launch at time `now` (R320). -/
def Launch.eligible (l : Launch) (now i k : Nat) : Bool :=
  match l.patches[k]? with
  | some p => match p.since with
    | some t => decide (p.home = 0x7F) || decide (p.home = clusterOf i) || p.far || decide (t + homeWait ≤ now)
    | none => false
  | none => false

/-- The runnable patches in the order of their keys: the lowest level first, then the lowest index (R320). -/
def Launch.order (l : Launch) : List Nat :=
  let d (k : Nat) : Nat := match l.patches[k]? with | some p => (l.endLevel + 2 ^ 32 - p.ln) % 2 ^ 32 | none => 0
  let ins (k : Nat) (t : List Nat) : List Nat := t.takeWhile (fun j => decide (d j ≥ d k)) ++ k :: t.dropWhile (fun j => decide (d j ≥ d k))
  ((List.range l.patches.length).filter fun k => match l.patches[k]? with | some p => p.since.isSome | none => false).foldl (fun t k => ins k t) []

/-- A launch hands out work: ready, not stopped, not abandoned, not complete (R365, R366). -/
def State.serving (s : State) (l : Launch) : Bool := l.st == .ready && !s.stoppedL l && !l.abandoned && l.result.isNone

/-- Work for core i of a launch whose task there has ended: s1 and s2 of the task, and the state in which it is assigned (R303, R304, R320). A
range comes to the caller, who puts it where it is held. -/
def State.grab (s : State) (l : Launch) (i : Nat) (a : Alloc) : Option (State × Word × Word) :=
  if !s.serving l then none
  else match l.kind with
  | 0 => match l.whole, l.returned with
    | some r, _ => some (s.setLaunch { l with whole := none }, r.1, r.2)
    | none, r :: t => some (s.setLaunch { l with returned := t }, r.1, r.2)
    | none, [] => match s.victim l i a with
      | some j => s.stealFrom l j
      | none => none
  | 1 => match l.order.find? fun k => l.eligible s.time.toNat i k with
    | some k => match l.patches[k]? with
      | some p => some (s.setPatch l k { p with claim := true, since := none, far := false } [k], BitVec.ofNat 64 k, BitVec.ofNat 64 p.ln)
      | none => none
    | none => none
  | _ => match l.queue with
    | [] => none
    | x :: t => some (s.setLaunch { l with queue := t, qseq := l.qseq + 1 }, x, BitVec.ofNat 64 l.qseq)

/-- A QPUSH to the launch is in progress (R304). -/
def State.pushed (s : State) (l : Launch) : Bool := s.cores.any fun c => decide (s.partOf c.1 = l.part) && c.2.pushing == some l.id

/-- Every patch is finished, no index is held anywhere, or the queue is empty, no core holds a current task and no QPUSH is in progress (R304, R306). -/
def State.exhausted (s : State) (l : Launch) : Bool :=
  match l.kind with
  | 0 => (match l.whole with | some r => decide (rangeLen r = 0) | none => true) && l.returned.isEmpty
      && (s.holders l).all fun h => decide (rangeLen (s.heldRange h.1 h.2) = 0)
  | 1 => l.patches.all l.finished
  | _ => l.queue.isEmpty && !s.pushed l && (s.holders l).all fun h =>
      !(if (s.core h.1).run = some l.id then (s.core h.1).current else h.2.current) && (match h.2.st with | .assigned _ _ => false | _ => true)

/-- A TAKE of core i would return (R307). -/
def State.takeReady (s : State) (l : Launch) (i : Nat) (a : Alloc) : Bool := (s.grab l i a).isSome || s.exhausted l || l.abandoned

/-- An allocation has something to run on its core (R301). -/
def State.hasWork (s : State) (i : Nat) (a : Alloc) : Bool :=
  match s.launch (s.partOf i) a.launch with
  | none => false
  | some l => !s.stoppedL l && !l.abandoned && match a.st with
    | .idle => (s.grab l i a).isSome
    | .assigned _ _ | .ready => true
    | .away => a.current || s.takeReady l i a
    | .running | .parked | .ended => false

/-- The priority of an allocation's launch on core i. -/
def State.prioOf (s : State) (i : Nat) (a : Alloc) : Nat := match s.launch (s.partOf i) a.launch with | some l => l.prio | none => 0

/-- The other allocation of a core goes first: a higher priority, or the same and admitted later (R301, R302), with work to run. -/
def State.outranked (s : State) (i : Nat) (a : Alloc) : Bool :=
  let later := ((s.core i).allocs.dropWhile fun b => b.launch ≠ a.launch).drop 1
  (s.core i).allocs.any fun b => decide (b.launch ≠ a.launch) && s.hasWork i b
    && (decide (s.prioOf i b > s.prioOf i a) || (decide (s.prioOf i b = s.prioOf i a) && later.any fun d => d.launch = b.launch))

/-- Ask the task on core i to stop at its next stop point where allocation a outranks it (R301). -/
def State.press (s : State) (i : Nat) (a : Alloc) : State :=
  s.modCore i fun c => match c.run with
    | some k => match c.alloc k with
      | some b => if k ≠ a.launch && decide (s.prioOf i a > s.prioOf i b) then { c with preempt := true } else c
      | none => c
    | none => c

/-! ### Starting a task (R297, R298) -/

/-- TASKKIND of a launch's task (R299). -/
def Launch.taskKind (l : Launch) (a : Alloc) : Word :=
  BitVec.ofNat 64 (a.team * 2 ^ 32 + a.trank * 2 ^ 16 + b2n l.cond * 32 + b2n l.ddet * 16 + l.prio * 4 + l.kind)

/-- The registers of R297 that a start and a TAKE both set. -/
def Core.setCoord (c : Core) (l : Launch) (s1 s2 : Word) : Core :=
  let c := ((c.writeS 1 s1).writeS 2 s2).writeS 3 (BitVec.ofNat 64 (l.word 3))
  let r := decide (l.kind = 0)
  { c with current := true, coord := s1, sys := { c.sys with rangeb := if r then s1 else 0, rangee := if r then s2 else 0 } }

/-- What a task's start acquires at system scope (R197, R298): what was released before its launch became runnable, before its patch did, or before its item came. -/
def State.startAcquire (s : State) (i : Nat) (l : Launch) (s1 : Word) : State :=
  let s := s.learnPubs i l.know
  match l.kind with
  | 0 => s
  | 1 => match l.patches[s1.toNat]? with | some p => s.learnPubs i p.know | none => s
  | _ => s.acquireAt i .system

/-- The task of allocation a starts at ENTRY on core i with s1 and s2 (R297); its start acquires (R298), and invariant loads keep no copy of before (R197). -/
def State.startTask (s : State) (i : Nat) (l : Launch) (a : Alloc) (s1 s2 : Word) : State :=
  let s := (s.tick.reuseSlot i a.slot).startAcquire i l s1
  let c := s.core i
  let y : Sys := { epc := c.sys.epc, ecause := c.sys.ecause, eval := c.sys.eval, eslot := c.sys.eslot
                   launchctl := BitVec.ofNat 64 (l.id * 2 ^ 32), launchid := BitVec.ofNat 64 l.id, taskkind := l.taskKind a }
  let c' : Core := { c.vacate with s := [], v := [], k := [], shadow := [], sys := y, poison := {}, run := some l.id, phasec := 0
                                   bank := { rx := a.bank.rx, serial := s.serial }, pc := BitVec.ofNat 64 (l.word 2), l1i := [] }
  s.setCore i ((c'.setAlloc { a with st := .running, current := true, rb := 0, re := 0, bank := {} }).setCoord l s1 s2
    |>.writeS 54 (BitVec.ofNat 64 (lsWin + l.lsu * 4096)))

/-! ### Committing a causal step (R322) -/

/-- The index of a neighbour of a step's patch that breaks the serial limit, for END's check (R322 step 1). -/
def Launch.levelBreach (l : Launch) (k : Nat) : Bool :=
  match l.patches[k]? with
  | none => false
  | some p => p.neighbours.any fun q => match l.patches[q]? with
    | some q => decide ((p.ln + p.step + 2 ^ 32 - q.lo) % 2 ^ 32 ≥ 2 ^ 31)
    | none => false

/-- The commit of patch k by core i, whose release is complete (R322 steps 3 and 4): a start of a patch that it makes runnable acquires that release (R298). -/
def State.commit (s : State) (i : Nat) (l : Launch) (k : Nat) : State :=
  match l.patches[k]? with
  | none => s
  | some p =>
    let p' := { p with ln := (p.ln + p.step) % 2 ^ 32, lo := if p.count = l.nver then (p.lo + p.step) % 2 ^ 32 else p.lo
                       head := (p.head + 1) % l.nver, claim := false, held := false }
    s.setPatchBy { all := s.visible i } l k p' (k :: p.neighbours)

/-- Release the accumulator bindings of a core in a launch whose earlier commands are complete: every handle with an END that waits for no
command any more (R136). -/
def State.settleHandles (s : State) : State :=
  let cmdsOn (h : Handle) (n : Nat) : Bool := s.cmds.any fun c => decide (c.id < n) && decide (c.core = h.core) && decide (c.launch = h.launch) && (match c.kind with
    | .mxz k _ _ _ _ | .mxrd k _ _ _ | .mxwr k _ _ => decide (k = h.h)
    | .mxq => c.snap.isEmpty || decide (bits (ofBytes (c.snap.take 8)) 11 8 = h.h)
    | _ => false)
  let due := s.handles.filter fun h => h.rels.any fun n => !cmdsOn h n
  let clear (s : State) (h : Handle) : State := h.regs.foldl (fun s r =>
    let x := s.cluster r.1
    s.setCluster r.1 { x with regions := SMap.set {} x.regions r.2 {} }) s
  let s' := due.foldl clear s
  let free (h : Handle) : Handle := { h with rels := h.rels.filter (cmdsOn h), regs := [], rows := 0, cols := 0, wset := none, refused := false }
  let hs := mapIf (fun h => due.contains h) free s'.handles
  { s' with handles := hs.filter (fun h => !(h.regs.isEmpty && h.rels.isEmpty && h.named.isNone && !h.refused)) }

/-- END releases the task's bindings once the commands queued on them have completed (R136). -/
def State.endHandles (s : State) (i launch : Nat) : State :=
  { s with handles := mapIf (fun h => decide (h.core = i) && decide (h.launch = launch)) (fun h => { h with rels := h.rels ++ [s.serial], named := none }) s.handles }.settleHandles

/-- The finish of a task as END and TAKE do it, after its accesses are performed (R101, R307): the step commits, the core's range ends. -/
def State.finishTask (s : State) (i : Nat) (l : Launch) : State :=
  let c := s.core i
  let s := if l.kind = 1 ∧ c.current then s.commit i l c.coord.toNat else s
  (s.modCore i fun c => { c with current := false, sys := { c.sys with rangeb := 0, rangee := 0 } }).wakeAll

end Sys2Proof.Machine
end

