-- ==== Sys2Proof/Machine/Launch.lean ====
section
/-!
DEFINITION. Launch.lean: END and YIELD (R101, R302), TAKE and NEXTI (R307), LAUNCH and QPUSH (R308), a launch's arrival with its checks (R291 to
R295, R402), its predicate (R305), the admission of teams (R300), task starts (R297) and steals (R303).
-/
namespace Sys2Proof.Machine

open Sys2Proof

/-! ### Ending, yielding, taking -/

/-- The launch that runs on core i. -/
def State.running (s : State) (i : Nat) : Option Launch := match (s.core i).run with
  | some id => s.launch (s.partOf i) id
  | none => none

/-- What END and TAKE do before they finish a task (R101, R322 steps 1 and 2): the serial limit is checked, every access performed, the
release at device scope done; a stopped launch commits nothing (R365). -/
def State.finishChecks (s : State) (i : Nat) (l : Launch) : M State := do
  let c := s.core i
  trapIf (decide (l.kind = 1) && c.current && l.levelBreach c.coord.toNat) .level c.coord
  stallUnless (decide (c.loads = 0) && !(decide (l.kind = 1) && c.current && s.stoppedL l))
  s.release i .device

/-- A core leaves its launch's task: what stays with the allocation, in state st (R233, R307). -/
def State.leaveTask (s : State) (i : Nat) (st : TaskSt) : State :=
  s.modCore i fun c => match c.run with
    | some id => match c.alloc id with
      | some a => (c.setAlloc { a with st := st, current := false, rb := 0, re := 0, bank := { rx := c.bank.rx } }).vacate
      | none => c.vacate
    | none => c.vacate

/-- END (R101, R307, R322, R136). -/
def execEndTask (s : State) : Host.Outcome State Fault Refusal :=
  runCtl .endTask (fun k s => do
    let c := s.core k
    trapIf (s.isSup k) .illop c.word0
    match s.running k with
    | none => .ok (s.leaveTask k .ended)
    | some l =>
      let s ← s.finishChecks k l
      let s := (s.closePackets k).finishTask k l
      let s := s.endHandles k l.id
      .ok (s.leaveTask k (if c.current then .idle else .ended))) s

/-- The team of a launch that core i belongs to. -/
def Launch.teamOf (l : Launch) (i : Nat) : Option Nat := (List.range l.nteams).find? fun t => (l.teamCores t).contains i

/-- Team t of launch l is waiting and can be admitted (R300). -/
def State.canAdmit (s : State) (l : Launch) (t : Nat) : Bool :=
  s.serving l && decide (t < l.nteams) && !s.admitted l t && !s.exhausted l && s.fits l t

/-- Some team of the launch can be admitted. -/
def State.canAdmitAny (s : State) (l : Launch) : Bool := (List.range l.nteams).any (s.canAdmit l)

/-- A launch of a higher priority has a team to admit: it goes first (R300). -/
def State.above (s : State) (p prio : Nat) : Bool := s.launches.any fun m => decide (m.part = p) && decide (m.prio > prio) && s.canAdmitAny m

/-- The launches of one priority in the order of their turns: those that follow the one admitted last, then the others (R300). -/
def State.rota (s : State) (p prio : Nat) : List Launch :=
  let ls := s.launches.filter fun l => l.part = p ∧ l.prio = prio
  let t := SMap.get 0 (s.prt p).turn prio
  ls.filter (fun l => serialLt t l.id) ++ ls.filter fun l => !serialLt t l.id

/-- A ready launch of the yielding task's priority whose team can be admitted to core i now (R302), in the order of R300. -/
def State.yieldTo (s : State) (i : Nat) (k : Launch) : Option (Launch × Nat) :=
  if s.above k.part k.prio then none
  else firstSome (fun l =>
    if l.id = k.id then none
    else match l.teamOf i with
      | some t => if s.canAdmit l t then some (l, t) else none
      | none => none) (s.rota k.part k.prio)

/-- YIELD (R101, R302). -/
def execYield (s : State) : Host.Outcome State Fault Refusal :=
  runSeq .yield (fun k s => .ok (match s.running k with
    | none => s
    | some l => match s.yieldTo k l with
      | none => s
      | some (m, t) => (m.teamCores t).foldl (fun s i => s.modCore i fun c => if c.run.isSome then { c with preempt := true } else c) (s.admitTeam m t))) s

/-- TAKE (R307). The finish is performed once: a TAKE that waits afterwards has no current task. -/
def execTake (nb : Bool) (d : Reg) (s : State) : Host.Outcome State Fault Refusal :=
  runCtl (.take nb d) (fun k s => do
    trapIf (s.isSup k) .illop (s.core k).word0
    match s.running k with
    | none => .error .stall
    | some l =>
      let cur := (s.core k).current
      let s ← if cur then s.finishChecks k l else .ok s
      let s := if cur then s.finishTask k l else s
      let i : Instr := .take nb d
      let give (s : State) (x : Word) : M State := do
        let c ← (s.core k).putS k d x
        (s.setCore k c).retire k i
      match s.launch l.part l.id, (s.core k).alloc l.id with
      | some l, some a =>
        match s.grab l k a with
        | some (s, s1, s2) => give ((s.startAcquire k l s1).modCore k fun c => { c.setCoord l s1 s2 with phasec := 0 }) 0
        | none => if s.exhausted l then give s 2 else if nb then give s 1 else .error (.wait s)
      | _, _ => .error .stall) s

/-- NEXTI (R307). -/
def execNexti (d : Reg) (s : State) : Host.Outcome State Fault Refusal :=
  runSeq (.nexti d) (fun k s => do
    let c := s.core k
    let b := c.sys.rangeb
    let range := match s.running k with | some l => decide (l.kind = 0) | none => false
    if range && decide (b.toNat < c.sys.rangee.toNat) then
      let c ← { c with sys := { c.sys with rangeb := b + 1 } }.putS k d b
      .ok (s.setCore k c)
    else .ok (s.setCore k (← c.putS k d (-1)))) s

/-! ### LAUNCH, QPUSH (R308) -/

/-- A launch as it arrives (R291). -/
def newLaunch (part id : Nat) (words : List Word) (pa parent prio : Nat) : Launch :=
  { id := id, part := part, record := words, recPa := pa, parent := parent, kids := [], issuerPrio := prio, st := .arrived, leases := [], gong := 0, whole := none
    returned := [], queue := [], qseq := 0, rule0 := 0, rule1 := 0, patches := [], frozen := false, lost := 0, abandoned := false, result := none }

/-- A predecessor counts as completed for a launch (R305): its ID is 0, it is not incomplete, or it is at least 65,536 launches older, 0 being no ID. -/
def State.predDone (s : State) (l : Launch) (id : Nat) : Bool :=
  decide (id = 0) || decide ((l.id + 2 ^ 32 - id) % 2 ^ 32 - b2n (decide (l.id < id)) ≥ 65536) || (s.launch l.part id).isNone

/-- The predecessors that a record names (R305). -/
def Launch.preds (l : Launch) : List Nat := [l.word 9 % 2 ^ 32, l.word 9 / 2 ^ 32, l.word 10 % 2 ^ 32, l.word 10 / 2 ^ 32]

/-- The conditional launches of a partition whose last predecessor has completed now: PRED is read, once (R305). -/
def State.catchPreds (s : State) (part : Nat) : State :=
  let due (l : Launch) : Bool := decide (l.part = part) && l.cond && l.pred.isNone && l.preds.all (s.predDone l)
  { s with launches := mapIf due (fun l => { l with pred := some ((s.schedRead part (l.word 8) 1).bind List.head?) }) s.launches }

/-- A launch joins its partition's queue: the next LAUNCHID, w31 written (R306, R308). -/
def State.enqueue (s : State) (part : Nat) (words : List Word) (pa parent prio : Nat) : Nat × State :=
  let id := (s.prt part).nextLid
  let s := s.modPart part fun p => { p with nextLid := if (id + 1) % 2 ^ 32 = 0 then 1 else (id + 1) % 2 ^ 32 }
  let s := s.wr (pa + 248) 8 (id * 2 ^ 32)
  let up := mapIf (fun l => l.part = part ∧ l.id = parent) (fun l => { l with kids := l.kids ++ [id] }) s.launches
  (id, { s with launches := up ++ [newLaunch part id words pa parent prio] }.catchPreds part)

/-- The queue of a priority has room (R308, R402: 64 launches). -/
def State.queueRoom (s : State) (part prio : Nat) : Bool := decide ((s.launches.filter fun l => l.part = part ∧ l.prio = prio).length < 64)

/-- LAUNCH (R308). -/
def execLaunch (d a : Reg) (s : State) : Host.Outcome State Fault Refusal :=
  runSeq (.launch d a) (fun k s => do
    let (ra, _) ← (s.core k).readS a
    let part := s.partOf k
    match s.chkItem1 k ra 256 with
    | some (x, v) => .error (.trap x v)
    | none =>
      trapIf (ra.toNat % 256 ≠ 0) .align ra
      match s.chk34 k .load ra.toNat with
      | .error x => .error (.trap x ra)
      | .ok (pa, e) =>
        trapIf ((windowOf ra.toNat).isSome || typeOfPa pa == some .host) .prot ra
        let s ← s.release k .system
        match (List.range 32).find? fun j => s.poisonPlain k (pa + 8 * j) with
        | some j => .error (.trap .memue (ra + BitVec.ofNat 64 (8 * j)))
        | none =>
          let (xs, s) ← s.loadLanes k false ((List.range 32).map fun j => (⟨j, ra + BitVec.ofNat 64 (8 * j), 8, false⟩, [(ra + BitVec.ofNat 64 (8 * j), pa + 8 * j, 8)]))
          let s := s.watch k ((List.range 32).map fun j => (pa + 8 * j, ra + BitVec.ofNat 64 (8 * j)))
          let record := xs.map fun x => BitVec.ofNat 64 x.2.2
          let own := s.running k
          stallUnless (s.queueRoom part (newLaunch part 0 record pa 0 0).prio && !s.heldAt (pa + 248))
          let (id, s) := s.enqueue part record pa ((own.map (·.id)).getD 0) ((own.map (·.prio)).getD 3)
          let s := s.keep k false e
          let (_, c) ← (s.core k).readS a
          let c ← c.putS k d (BitVec.ofNat 64 id)
          .ok (s.setCore k c)) s

/-- The items that a QUEUE launch holds, those at QBASE counting before the scheduler has taken them in (R304). -/
def Launch.items (l : Launch) : Nat := l.queue.length + if l.st = .arrived then l.word 7 / 2 ^ 32 else 0

/-- The scheduler keeps a pushed item in its ring at QBASE too (R304): the item's number modulo QCAP is its place (log entry 38). -/
def State.ringPut (s : State) (l : Launch) (item : Word) : State :=
  match s.schedPa l.part .store (l.word 6 + 8 * ((l.qseq + l.items) % (l.word 7 % 2 ^ 32))) with
  | some a => s.schedWr a 8 item.toNat
  | none => s

/-- QPUSH (R308). While it waits for its release it is in progress (R304). -/
def execQpush (d a b : Reg) (s : State) : Host.Outcome State Fault Refusal :=
  runSeq (.qpush d a b) (fun k s => do
    let (x, c) ← (s.core k).readS a
    let (item, c) ← c.readS b
    let t := if a = 0 then (c.run.getD 0) else x.toNat % 2 ^ 32
    let s ← match s.release k .device with
      | .ok s => .ok s
      | .error _ => .error (.wait (s.modCore k fun c => { c with pushing := some t }))
    let (s, st) := match s.launch (s.partOf k) t with
      | none => (s, 1)
      | some l =>
        if l.kind ≠ 2 then (s, 1)
        else if l.items ≥ l.word 7 % 2 ^ 32 then (s, 2)
        else (((s.ringPut l item).setLaunch { l with queue := l.queue ++ [item] }).wakeAll, 0)
    let c ← { c with stalled := false, pushing := none }.putS k d (BitVec.ofNat 64 st)
    .ok (s.setCore k c)) s

/-! ### The checks of a record (R291 to R295, R300) -/

/-- The lease table of a record (R293); none where it breaks R293 or cannot be read. -/
def State.leaseTable (s : State) (l : Launch) : Option (List (Nat × Nat)) :=
  if l.nlease = 0 then (if l.word 11 = 0 then some [] else none)
  else if l.word 11 % 8 ≠ 0 then none
  else match s.schedRead l.part (l.word 11) (2 * l.nlease) with
    | none => none
    | some ws =>
      let rs := (List.range l.nlease).map fun k => ((ws.getD (2 * k) 0).toNat, (ws.getD (2 * k + 1) 0).toNat)
      if rs.all fun r => decide (r.1 % 2 ^ 16 = 0) && decide (r.2 % 2 ^ 16 = 0) && decide (r.2 ≥ 2 ^ 16) && decide (r.1 + r.2 ≤ 2 ^ 56) then some rs else none

/-- Level word i keeps R294 and R295. -/
def Launch.levelOk (l : Launch) (i : Nat) : Bool :=
  let x := l.word (12 + i)
  if i > l.nlvl then decide (x = 0)
  else
    let dom := lvlDomain x
    let gs := lvlSize x
    let inner := if i < l.nlvl then lvlSize (l.word (13 + i)) else 1
    decide (x < 2 ^ 36) && decide (dom ≤ 4)
      && (decide (i = 0) || decide (lvlDomain (l.word (11 + i)) < dom))
      && decide (lvlScope x = ([3, 2, 2, 1, 0] : List Nat).getD dom 9)
      && (match dom with
          | 0 => true
          | 4 => decide (gs = 1)
          | 3 => decide (1 ≤ gs) && decide (gs ≤ 24)
          | _ => decide (gs ≥ 1) && decide (gs % inner = 0))
      && (!lvlChv x || (decide (dom ≠ 0) && decide (dom ≠ 4) && lvlTree x == decide (dom ≠ 3)))
      && (List.range l.nteams).all fun t => match l.levelChan x t with | some (_, c) => decide (c ≤ 15) | none => true

/-- The first word of a record that fails a check of BADREC (R292), the lease table's outcome being given; FIRST above END is word 6 (log entry 83). -/
def Launch.badWord (l : Launch) (leases : Bool) : Option Nat :=
  let w := l.word
  let id (k : Nat) : Bool := decide (k = 0) || serialLt k l.id
  let ok (k : Nat) : Bool := match k with
    | 0 => decide (w 0 < 2 ^ 41) && decide (w 0 % 128 = 0) && decide (l.nlease ≤ 16) && decide (l.kind ≠ 3) && decide (l.accr ≤ 4) && decide (1 ≤ l.lsu)
        && decide (l.lsu ≤ 30) && decide (l.tcsp ≤ 1024) && decide (l.prio ≤ l.issuerPrio)
    | 1 => decide (w 1 < 2 ^ 12)
    | 2 => decide (w 2 % 4 = 0)
    | 4 => decide (l.clusters ≠ 0)
    | 5 => decide (w 5 < 2 ^ 32)
    | 6 => decide (l.kind ≠ 0) || decide (w 6 ≤ w 7)
    | 7 => (decide (l.kind ≠ 0) || decide (w 7 < 2 ^ 63))
        && (decide (l.kind ≠ 2) || (decide (1 ≤ w 7 % 2 ^ 32) && decide (w 7 % 2 ^ 32 ≤ 2 ^ 20) && decide (w 7 / 2 ^ 32 ≤ w 7 % 2 ^ 32)))
    | 8 => if l.cond then decide (w 8 % 8 = 0) else decide (w 8 = 0)
    | 9 => !l.cond || (id (w 9 % 2 ^ 32) && id (w 9 / 2 ^ 32))
    | 10 => !l.cond || (id (w 10 % 2 ^ 32) && id (w 10 / 2 ^ 32))
    | 11 => leases
    | 12 | 13 | 14 | 15 | 16 | 17 | 18 | 19 => l.levelOk (k - 12)
    | 20 | 21 | 22 | 23 | 24 | 25 | 26 | 27 | 28 | 29 | 30 => decide (w k = 0)
    | 31 => decide (bits (w 31) 31 16 = 0)
    | _ => true
  (List.range 32).find? fun k => !ok k

/-- The lowest FEAT bit that the record's fields need and the partition lacks (R57, R292). -/
def Launch.missing (l : Launch) (feat : Nat) : Option Nat :=
  missingFeat feat ((if l.kind = 1 then [3] else []) ++ (if l.kind = 2 then [14] else []) ++ (if l.ddet then [15] else []))

/-- The launch can never be placed, even beside nothing (R292, R300); a team with the supervisor core among its cores is never admitted (R342). -/
def State.neverFits (s : State) (l : Launch) : Bool :=
  l.clusterList.any (fun g => s.partOfCluster g ≠ l.part) || (l.csPlaces [] 0).isNone
    || ((List.range l.nteams).all fun t => (l.teamCores t).any s.isSup)
    || (List.range l.nteams).any fun t => (l.teamChans t).any fun x => x.2.1 && !s.ownsChan l.part x.2.2

/-- The outcome of a record's checks: a completion code and DETAIL, or the launch with what it begins with (R292 to R295, R303, R304). -/
def State.checkRecord (s : State) (l : Launch) : Launch :=
  let table := s.leaseTable l
  match l.badWord table.isSome with
  | some k => { l with result := some (0x82, k) }
  | none => match l.missing (s.prt l.part).featmask.toNat with
    | some b => { l with result := some (0x83, b) }
    | none =>
      if s.neverFits l then { l with result := some (0x84, 0) }
      else
        let items := if l.kind ≠ 2 then [] else (List.range (l.word 7 / 2 ^ 32)).map fun k =>
          match s.schedRead l.part (l.word 6 + 8 * k) 1 with
          | some [x] => x
          | _ => Config.openWord (s.fresh + k)
        { l with leases := table.getD [], know := s.pubs, queue := items ++ l.queue, whole := if l.kind = 0 then some (BitVec.ofNat 64 (l.word 6), BitVec.ofNat 64 (l.word 7)) else none
                 st := if l.kind = 1 then .validating else if l.cond then .waiting else .ready }

/-- Make the checks of a launch that has arrived. -/
def State.vet (s : State) (l : Launch) : State :=
  let s' := s.setLaunch (s.checkRecord l)
  { s' with fresh := s'.fresh + (if l.kind = 2 then l.word 7 / 2 ^ 32 else 0) }

/-- LAUNCH_ARRIVAL (R402, R292): with `q` the checks of launch `lid` that LAUNCH queued in partition `part`; else the scheduler takes the next
slot of the partition's host ring, and checks it. -/
def execLaunchArrival (s : State) : Host.Outcome State Fault Refusal :=
  runEvent (fun x s =>
    if x.q then match s.launch x.part x.lid with
      | some l => if l.st == .arrived && l.result.isNone && !l.abandoned then some (s.vet l) else none
      | none => none
    else
      let p := s.prt x.part
      if !p.en || !p.ready || p.head = p.tail || decide (x.part ≥ s.cfg.nparts) then none
      else
        let pa := p.hqbase + 256 * (p.head % 2 ^ p.log2)
        let record := (List.range 32).map fun j =>
          if s.poisoned (pa + 8 * j) then Config.openWord (s.fresh + j) else BitVec.ofNat 64 (s.rd (pa + 8 * j) 8)
        if !s.queueRoom x.part (newLaunch x.part 0 record pa 0 0).prio || s.heldAt (pa + 248) then none
        else
          let s := { s with fresh := s.fresh + 32 }
          let (id, s) := s.enqueue x.part record pa 0 3
          let s := s.modPart x.part fun p => { p with head := (p.head + 1) % 2 ^ 32 }
          match s.launch x.part id with
          | some l => some (s.vet l)
          | none => some s) s

/-- PREDICATE_READ (R305): what PRED held when the last predecessor of launch `lid` completed decides; a word that could not be read is open. -/
def execPredicateRead (s : State) : Host.Outcome State Fault Refusal :=
  runEvent (fun x s => match s.launch x.part x.lid with
    | none => none
    | some l =>
      if !(l.st == .waiting) || l.abandoned || l.result.isSome || s.stoppedL l then none
      else match l.pred with
        | none => none
        | some p =>
          let v := p.getD (Config.openWord s.fresh)
          let s := if p.isNone then s.draw else s
          some (s.setLaunch (if v = 0 then { l with result := some (0x81, 0) } else { l with st := .ready, know := s.pubs }))) s

/-! ### Admission, starts, steals -/

/-- TEAM_ADMISSION (R300, R301): team `team` of launch `lid`; no launch of higher priority, and none of its priority whose turn comes first, has a team to admit. -/
def execTeamAdmission (s : State) : Host.Outcome State Fault Refusal :=
  runEvent (fun x s => match s.launch x.part x.lid with
    | none => none
    | some l =>
      let first := ((s.rota l.part l.prio).find? s.canAdmitAny).map (·.id)
      if s.above l.part l.prio || first != some l.id || !s.canAdmit l x.team then none
      else
        let s := s.admitTeam l x.team
        some ((l.teamCores x.team).foldl (fun s i => match (s.core i).alloc l.id with
          | some a => if s.hasWork i a then s.press i a else s
          | none => s) s)) s

/-- TASK_START (R297, R298, R303, R304): core `core` is free, and a task of launch `lid` goes first there. -/
def execTaskStart (s : State) : Host.Outcome State Fault Refusal :=
  runEvent (fun x s =>
    let c := s.core x.core
    match s.launch (s.partOf x.core) x.lid, c.alloc x.lid with
    | some l, some a =>
      if c.run.isSome || !s.serving l || s.isSup x.core || s.outranked x.core a then none
      else match a.st with
        | .assigned s1 s2 => some (if l.kind = 0 then s.startTask x.core l a a.rb a.re else s.startTask x.core l a s1 s2)
        | .idle => (s.grab l x.core a).map fun r => r.1.startTask x.core l ((r.1.core x.core |>.alloc l.id).getD a) r.2.1 r.2.2
        | _ => none
    | _, _ => none) s

/-- STEAL_REQUEST (R303): core `core`, which holds an allocation of launch `lid` and no task of it, asks for work and is assigned part of another
core's range; where `q`, of core `id`, which an earlier report made the victim. -/
def execStealRequest (s : State) : Host.Outcome State Fault Refusal :=
  runEvent (fun x s =>
    let c := s.core x.core
    match s.launch (s.partOf x.core) x.lid, c.alloc x.lid with
    | some l, some a =>
      let busy := match c.run with
        | some k => match c.alloc k with | some b => decide (s.prioOf x.core b ≥ l.prio) | none => true
        | none => false
      if busy || !s.serving l || decide (l.kind ≠ 0) || !(a.st == .idle) || l.whole.isSome || !l.returned.isEmpty || s.outranked x.core a then none
      else match (if x.q then some x.id else s.victim l x.core a) with
        | none => none
        | some j => if j = x.core then none else (s.stealFrom l j).map fun r =>
          (r.1.modCore x.core fun c => c.setAlloc { a with st := .assigned r.2.1 r.2.2, rb := r.2.1, re := r.2.2 }).press x.core a
    | _, _ => none) s

end Sys2Proof.Machine
end

