-- ==== Sys2Proof/Machine/Causal.lean ====
section
/-!
DEFINITION. Causal.lean: the causal scheduler (15): validation (R316 to R318), dispatch (R320, R321), LVGET (R323), LVSET (R331), LAUNCHCTL's
commands (R330).
-/
namespace Sys2Proof.Machine

open Sys2Proof

/-! ### Validation (R316 to R318) -/

/-- A patch record from its 16 words. -/
def patchOf (w : List Word) : Patch :=
  let n (k : Nat) : Nat := (w.getD k 0).toNat
  { ln := n 0 / 2 ^ 32, lo := n 0 % 2 ^ 32, step := bits (n 1) 63 48, nnb := bits (n 1) 47 44, head := bits (n 1) 43 42, claim := bit (n 1) 41
    held := bit (n 1) 40, home := n 1 % 128, nb := (List.range 8).map fun k => bits (n (2 + k / 2)) (32 * (k % 2) + 23) (32 * (k % 2))
    vp := (List.range 4).map fun k => w.getD (6 + k) 0, since := none, far := false }

/-- Check 0x02 on one patch record: false where it fails (R318). -/
def patchOk (l : Launch) (w : List Word) : Bool :=
  let p := patchOf w
  let v := l.nver
  let nbw (k : Nat) : Nat := bits (w.getD (2 + k / 2) 0).toNat (32 * (k % 2) + 31) (32 * (k % 2))
  let vp (k : Nat) : Nat := (w.getD (6 + k) 0).toNat
  decide (bits (w.getD 1 0).toNat 39 7 = 0)
    && (List.range 8).all (fun k => if k < p.nnb then decide (nbw k < 2 ^ 24) else decide (nbw k = 0))
    && (List.range 4).all (fun k => if k < v then decide (vp k ≠ 0) && decide (vp k % 64 = 0) else decide (vp k = 0))
    && (List.range v).all (fun j => (List.range j).all fun k => vp j ≠ vp k)
    && (List.range 4).all (fun k => w.getD (12 + k) 0 == 0)
    && !p.claim && !p.held && decide (p.step ≠ 0) && decide (p.nnb ≤ 8) && decide (p.head < v)
    && decide ((p.ln + 2 ^ 32 - p.lo) % 2 ^ 32 % p.step = 0) && decide (p.count ≤ v)
    && (decide (p.home = 0x7F) || (decide (p.home < 96) && bit l.clusters p.home))

/-- An address lies in a lease range of the launch. -/
def Launch.covers (l : Launch) (va : Nat) : Bool := l.leases.any fun r => decide (r.1 ≤ va) && decide (va < r.1 + r.2)

/-- The first index whose record fails a check; an unreadable record (none) fails none (R316). -/
def firstBad (ps : List (Option Patch)) (bad : Nat → Patch → Bool) : Option Nat :=
  (List.range ps.length).find? fun i => match ps[i]? with | some (some p) => bad i p | _ => false

/-- Validation of a causal launch (R316 to R318): the launch with its rule and patches, and the reason and FAILP of a rejection. -/
def State.validate (s : State) (l : Launch) : Launch × Option (Nat × Nat) :=
  let ra := l.word 7
  match s.schedRead l.part ra 8 with
  | none => (l, some (if ra % 64 ≠ 0 then 1 else 8, 0))
  | some r =>
    let l := { l with rule0 := r.getD 0 0, rule1 := r.getD 1 0 }
    let np := bits (r.getD 0 0).toNat 23 0 + 1
    let n (k : Nat) : Nat := (r.getD k 0).toNat
    let ruleOk := decide (bits (n 0) 47 35 = 0) && decide (bits (n 0) 31 25 = 0) && decide (n 1 < 2 ^ 32) && decide (n 2 < 2 ^ 32)
      && (List.range 5).all (fun k => decide (n (3 + k) = 0)) && decide (2 ≤ l.nver) && decide (l.nver ≤ 4) && decide (ra % 64 = 0) && decide (l.word 6 % 128 = 0)
    if !ruleOk then (l, some (1, 0))
    else
      let raw := (List.range np).map fun i => s.schedRead l.part (l.word 6 + 128 * i) 16
      let ps : List (Option Patch) := raw.map fun o => o.map patchOf
      let at_? (i : Nat) : Option Patch := (ps.getD i none)
      let smax := ((ps.filterMap id).map (·.step)).foldl max 0
      let c2 := (List.range np).find? fun i => match raw[i]? with | some (some w) => !patchOk l w | _ => false
      let c3 := firstBad ps fun i p => p.neighbours.any fun q => decide (q ≥ np) || decide (q = i)
      let c4 := firstBad ps fun i p => p.neighbours.any fun q => match at_? q with | some x => !x.neighbours.contains i | none => false
      let c5 := firstBad ps fun _ p => p.neighbours.any fun q => match at_? q with | some x => !serialLe x.lo p.ln | none => false
      let c6 := firstBad ps fun _ p => decide (l.lag < l.ahead * p.step)
      let c7 := firstBad ps fun _ p => decide ((l.endLevel + 2 ^ 32 - p.lo) % 2 ^ 32 + smax - 1 > 2 ^ 31 - 1)
      let c8 := if !l.covers ra then some 0 else (List.range np).find? fun i => !l.covers (l.word 6 + 128 * i) || (match at_? i with
        | none => true
        | some p => (p.vp.take l.nver).any fun v => !l.covers v.toNat)
      let first := firstSome (fun (c : Nat × Option Nat) => c.2.map fun i => (c.1, i)) [(2, c2), (3, c3), (4, c4), (5, c5), (6, c6), (7, c7), (8, c8)]
      match first with
      | some f => (l, some f)
      | none =>
        let l := { l with patches := ps.filterMap id, st := if l.cond then .waiting else .ready, know := s.pubs }
        (l.reeval s.time.toNat s.pubs (List.range np), none)

/-- CAUSAL_VALIDATION (R316), of launch `lid`: a rejection completes it with BADRULE after REASON and FAILP are written. -/
def execCausalValidation (s : State) : Host.Outcome State Fault Refusal :=
  runEvent (fun x s => match s.launch x.part x.lid with
    | none => none
    | some l =>
      if !(l.st == .validating) || l.abandoned || l.result.isSome || s.stoppedL l then none
      else match s.validate l with
        | (l, none) => some (s.setLaunch l)
        | (l, some (c, i)) =>
          let s := match s.schedPa l.part .store (l.word 7 + 16) with
            | some a => s.schedWr a 4 (c * 2 ^ 24 + i % 2 ^ 24)
            | none => s
          some (s.setLaunch { l with result := some (0x85, c) })) s

/-! ### Dispatch (R320, R321) -/

/-- CAUSAL_DISPATCH (R320): core `core` is free and asks for work; it receives the first patch it is eligible for, and its task starts. -/
def execCausalDispatch (s : State) : Host.Outcome State Fault Refusal :=
  runEvent (fun x s =>
    let c := s.core x.core
    match s.launch (s.partOf x.core) x.lid, c.alloc x.lid with
    | some l, some a =>
      if c.run.isSome || decide (l.kind ≠ 1) || !(a.st == .idle) || s.isSup x.core || s.outranked x.core a then none
      else match s.grab l x.core a with
        | some (t, s1, s2) => match t.launch l.part l.id with
          | some l => some (t.startTask x.core l a s1 s2)
          | none => none
        | none => none
    | _, _ => none) s

/-- HOME_ELIGIBILITY_TIMEOUT (R320, R321): patch n of launch `lid` has been runnable for 2 µs; every core of the launch is eligible, as it is by the time alone
(`Launch.eligible`), and those that wait ask again. -/
def execHomeEligibilityTimeout (s : State) : Host.Outcome State Fault Refusal :=
  runEvent (fun x s => match s.launch x.part x.lid with
    | none => none
    | some l => match l.patches[x.n]? with
      | some p => match p.since with
        | some t => if s.time.toNat < t + homeWait || p.far then none
          else some (s.setLaunch { l with patches := l.patches.set x.n { p with far := true } }).wakeAll
        | none => none
      | none => none) s

/-! ### LVGET (R323) -/

/-- The four words that LVGET returns for patch k of a launch. -/
def Launch.lvget (l : Launch) (k slot : Nat) (t : Option Nat) : Option (List Word) :=
  match l.patches[k]? with
  | none => none
  | some p =>
    let v := l.nver
    let buf (p : Patch) (j : Nat) : Word := p.vp.getD (j % v) 0
    let w (n : Nat) : Word := BitVec.ofNat 64 n
    if slot = 8 then some [buf p (p.head + 1), buf p p.head, 0, w p.step]
    else if slot ≥ p.nnb then none
    else
      let t := t.getD p.ln
      match l.patches[p.nb.getD slot 0]? with
      | none => none
      | some q =>
        let lo := if q.claim && decide (q.count = v) then (q.lo + q.step) % 2 ^ 32 else q.lo
        if serialLt t lo then some [0, 0, 0, 0]
        else if serialLe q.ln t then some [buf q q.head, buf q q.head, w ((t + 2 ^ 32 - q.ln) % 2 ^ 32), 0]
        else
          let j := (q.ln + 2 ^ 32 - t) % 2 ^ 32 / q.step
          let hi := (q.ln + 2 ^ 32 - j * q.step % 2 ^ 32) % 2 ^ 32
          let low := if hi = t then t else (hi + 2 ^ 32 - q.step) % 2 ^ 32
          let jl := if hi = t then j else j + 1
          some [buf q (q.head + v * (jl + 1) - jl), buf q (q.head + v * (j + 1) - j), w ((t + 2 ^ 32 - low) % 2 ^ 32), w ((hi + 2 ^ 32 - low) % 2 ^ 32)]

/-- LVGET (R323): it stalls until the scheduler answers, which a GONG delays (R365). -/
def execLvget (tsrc : Bool) (slot : BitVec 4) (d b : Reg) (s : State) : Host.Outcome State Fault Refusal :=
  runSeq (.lvget tsrc slot d b) (fun k s => do
    let c := s.core k
    let (t, c) ← if tsrc then (do let (y, c) ← c.readS b; .ok (some (y.toNat % 2 ^ 32), c)) else .ok (none, c)
    let put (s : State) (ws : List Word) : State :=
      s.setCore k ((List.range 4).foldl (fun c j => c.writeS (d.toNat + j) (ws.getD j 0)) c)
    match s.running k with
    | none => .ok (put s [])
    | some l =>
      if l.kind ≠ 1 || !c.current then .ok (put s [])
      else
        stallUnless (!s.stoppedL l)
        match l.lvget c.coord.toNat slot.toNat t with
        | none => .ok (put s [])
        | some ws => .ok ((put s ws).acquireAt k .device)) s

/-! ### LVSET (R331) -/

/-- The outcome of LVSET at the scheduler: the status, and the state. -/
def State.lvset (s : State) (part lid idx lvl : Nat) (reseat : Bool) : Nat × State :=
  match s.launch part lid with
  | none => (1, s)
  | some l =>
    if l.kind ≠ 1 then (1, s)
    else match l.patches[idx]? with
      | none => (2, s)
      | some p =>
        let qs := p.neighbours.filterMap fun q => l.patches[q]?
        if p.claim then (3, s)
        else if !reseat && !(serialLe p.lo lvl && serialLe lvl p.ln && decide ((lvl + 2 ^ 32 - p.lo) % 2 ^ 32 % p.step = 0)) then (4, s)
        else if (qs.any fun q => !serialLe q.lo lvl) || (reseat && qs.any fun q => !serialLe lvl q.ln) then (5, s)
        else if reseat && decide ((l.endLevel + 2 ^ 32 - lvl) % 2 ^ 32 + l.smax - 1 > 2 ^ 31 - 1) && !serialLe l.endLevel lvl then (6, s)
        else
          let p' : Patch := if reseat then { p with lo := lvl, ln := lvl }
            else
              let back := (p.ln + 2 ^ 32 - lvl) % 2 ^ 32 / p.step
              { p with head := (p.head + l.nver * (back + 1) - back) % l.nver, ln := lvl }
          (0, s.setPatch l idx p' (idx :: p.neighbours))

/-- The launch that an LVSET of core k names by s[B] = y (R331): 0 is its own. -/
def State.lvsetTarget (s : State) (k : Nat) (y : Word) : Nat := if y.toNat % 2 ^ 32 = 0 then ((s.core k).run).getD 0 else y.toNat % 2 ^ 32

/-- At user privilege the target is none that the task may set: neither its own launch nor one that this submitted (R331). What cannot be read is no target yet. -/
def State.lvsetForeign (s : State) (k : Nat) (a b : Reg) : Bool :=
  let c := match (s.hand k).readS a with | .ok (_, c) => c | .error _ => s.hand k
  match c.readS b with
  | .ok (y, _) =>
    let kids := match s.running k with | some l => l.kids | none => []
    !s.isSup k && !decide (s.lvsetTarget k y = ((s.core k).run).getD 0) && !kids.contains (s.lvsetTarget k y)
  | .error _ => false

/-- Both forms of LVSET. Its PRIV comes where R30 has it, before PREFIX and the causes of the operands; it waits while the launch is stopped (R365), and until a
launch has been validated (log entry 72). -/
def lvsetInstr (i : Instr) (reseat : Bool) (d a b c : Reg) (s : State) : Host.Outcome State Fault Refusal :=
  let k := s.cur
  let early := match (s.core k).preTrap (s.feat k) (s.isSup k) i with
    | some (.illop, _) | some (.feature, _) => true
    | _ => false
  if !early && s.lvsetForeign k a b then .next (s.takeTrap k .priv (s.core k).word0 ((s.core k).nextPc i))
  else runSeq i (fun k s => do
    let (x, r) ← (s.core k).readS a
    let (y, r) ← r.readS b
    let (z, r) ← r.readS c
    trapIf (decide (x.toNat ≥ 2 ^ 24)) .illop r.word0
    let lid := s.lvsetTarget k y
    let s ← s.release k .device
    stallUnless (match s.launch (s.partOf k) lid with | some l => !s.stoppedL l && !(decide (l.kind = 1) && l.patches.isEmpty) | none => true)
    let (st, s) := s.lvset (s.partOf k) lid x.toNat (z.toNat % 2 ^ 32) reseat
    let r ← r.putS k d (BitVec.ofNat 64 st)
    .ok (s.setCore k r)) s

/-- LVSET (R331): a rewind. -/
def execLvset (d a b c : Reg) (s : State) : Host.Outcome State Fault Refusal := lvsetInstr (.lvset d a b c) false d a b c s

/-- LVSET.reseat (R331). -/
def execLvsetReseat (d a b c : Reg) (s : State) : Host.Outcome State Fault Refusal := lvsetInstr (.lvsetReseat d a b c) true d a b c s

/-! ### LAUNCHCTL's commands (R330) -/

/-- LRESUME of an incomplete launch: STATUS and the state. -/
def State.lresume (s : State) (part lid : Nat) : Nat × State :=
  match s.launch part lid with
  | none => (1, s)
  | some l =>
    if !l.frozen then (2, s)
    else (0, (s.setLaunch (({ l with frozen := false } : Launch).reeval s.time.toNat s.pubs (List.range l.patches.length))).wakeAll)

/-- CODE of ABANDON for a command (R248, R155, R172, R269). -/
def CmdKind.abandonCode : CmdKind → Nat
  | .cpy | .cred _ | .cflag _ | .chase => 5
  | .repart => 7
  | .mxq | .mxz .. | .mxrd .. | .mxwr .. => 8
  | .rcfg | .rtab | .rstep => 7

/-- Every task of an abandoned launch ends without commit: contexts are discarded, posted commands end with ABANDON, once what they have asked of peers is answered (R20, R242, R330, R366). -/
def State.abandonLaunch (s : State) (part lid : Nat) : Nat × State :=
  match s.launch part lid with
  | none => (1, s)
  | some l =>
    let s := s.setLaunch { l with abandoned := true, whole := none, returned := [], queue := [] }
    let s := (s.holders l).foldl (fun s h =>
      let i := h.1
      let here := decide ((s.core i).run = some lid)
      let s := if here then s.closePackets i else s
      let s := { s with tickets := s.tickets.filter fun t => !(here && decide (t.core = i)) }
      let s := if here then s.modCore i fun c => c.vacate else if h.2.st == .away || h.2.st == .parked || h.2.st == .ready then s.setSlotState i h.2.slot 0 else s
      s.modCore i fun c => c.setAlloc { h.2 with st := .ended, current := false, rb := 0, re := 0, bank := {} }) s
    let mine (c : Cmd) : Bool := decide (c.part = part) && decide (c.launch = lid) && !(c.phase == .finished)
    (0, ((s.cmds.filter mine).foldl (fun s c =>
      let (c, s) := s.withdraw { c with code := c.kind.abandonCode, cause := 0, faddr := 0 }
      s.setCmd { c with phase := if c.pend.isEmpty then .finished else .waiting }) s).wakeAll)

/-- LAUNCHCTL after a command for launch lid (R330). -/
def launchctlWord (lid status : Nat) : Word := BitVec.ofNat 64 (lid % 2 ^ 32 * 2 ^ 32 + status * 2 ^ 16)

/-- CMD of a written word carried out for core i; LID and STATUS are written (R330). -/
def State.launchctl (s : State) (i : Nat) (v : Word) : State :=
  let lid := v.toNat / 2 ^ 32
  let (st, s) := match v.toNat % 16 with
    | 0 => (0, s)
    | 1 => s.lresume (s.partOf i) lid
    | 2 => s.abandonLaunch (s.partOf i) lid
    | _ => (3, s)
  s.modCore i fun c => { c with sys := { c.sys with launchctl := launchctlWord lid st } }

/-- LAUNCHCTL as SGET reads it: FROZEN and RUNNING live (R330). -/
def State.readLaunchctl (s : State) (i : Nat) : Word :=
  let x := (s.core i).sys.launchctl.toNat
  match s.launch (s.partOf i) (x / 2 ^ 32) with
  | none => BitVec.ofNat 64 x
  | some l => BitVec.ofNat 64 (x + b2n l.frozen * 256 + b2n (l.patches.any fun p => p.claim && !p.held) * 512)

/-- LRESUME (R330): supervisor core `core` wrote w to LAUNCHCTL with CMD 1. -/
def execLresume (s : State) : Host.Outcome State Fault Refusal :=
  runEvent (fun x s => if s.isSup x.core && decide (x.core < ncores) && decide (x.w.toNat % 16 = 1) && s.released x.core .device then
      some ((s.publish x.core .device).launchctl x.core x.w) else none) s

/-- LAUNCH_ABANDON (R330): the same with CMD 2. -/
def execLaunchAbandon (s : State) : Host.Outcome State Fault Refusal :=
  runEvent (fun x s => if s.isSup x.core && decide (x.core < ncores) && decide (x.w.toNat % 16 = 2) then some (s.launchctl x.core x.w) else none) s

/-- LAUNCHCTL_BADCMD (R330): the same with CMD 3 to 15. -/
def execLaunchctlBadcmd (s : State) : Host.Outcome State Fault Refusal :=
  runEvent (fun x s => if s.isSup x.core && decide (x.core < ncores) && decide (x.w.toNat % 16 ≥ 3) then some (s.launchctl x.core x.w) else none) s

end Sys2Proof.Machine
end

