-- ==== Sys2Proof/Machine/Engine.lean ====
section
/-!
DEFINITION. Engine.lean: what the engines share: posting a command with its snapshot and number (R240, R199, R200), engine addresses (R150, R248,
R371), what holds a command (R242, R365), and its completion (R199, R242, R370).
-/
namespace Sys2Proof.Machine

open Sys2Proof

/-! ### Posting (R240) -/

/-- Read n bytes at va as plain loads of the core, for a command's snapshot (R240): ALIGN unless va is a multiple of `al`. -/
def State.snapshot (s : State) (i : Nat) (va : Word) (n al : Nat) : M (List Byte × State) := do
  let ls : List LaneAt := (List.range (n / 8)).map fun j => ⟨j, va + BitVec.ofNat 64 (8 * j), 8, va.toNat % al != 0⟩
  let (ps, s) ← s.checkLanes i .load ls
  let (xs, s) ← s.loadLanes i false ps
  .ok (xs.flatMap fun x => bytesOf 8 x.2.2, s.watch i (ps.flatMap fun p => placesOf p.2))

/-- Room for one more completion interrupt (R237). -/
def Core.uciRoom (c : Core) : Bool := decide (c.bank.uciOut + c.bank.uci.length < 32)

/-- A fresh command; the cluster of its issuing core carries it out. -/
def newCmd (id core launch : Nat) (coord : Word) (serial part : Nat) (sup : Bool) (tl num : Nat) (kind : CmdKind) (a v z : Word) (snap : List Byte) : Cmd :=
  { id := id, core := core, ecl := clusterOf core, launch := launch, coord := coord, serial := serial, part := part, sup := sup, tl := tl, num := num, kind := kind, release := false, uci := false
    a := a, v := v, c := z, snap := snap, phase := .posted, upto := id, after := [], phasec := 0, timed := false, code := 0, cause := 0, faddr := 0
    flags := 0, memberFail := 0, members := [], pend := [], got := [], parts := [], outDone := false, k := 0, hops := 0, addr := 0 }

/-- Issue a command of core i on timeline tl (R199, R200, R240): its number, and the state with it posted. -/
def State.post (s : State) (i tl : Nat) (kind : CmdKind) (a v z : Word) (snap : List Byte) (rel uci : Bool) : Nat × State :=
  let c := s.core i
  let (n, t) := (c.tl tl).issue
  let l := c.run.getD 0
  let after := if rel then (s.cmds.filter fun x => x.core = i ∧ x.launch = l ∧ x.serial = c.bank.serial ∧ x.tl = tl).map (·.id) else []
  let cmd := { newCmd s.serial i l c.coord c.bank.serial (s.partOf i) (s.isSup i) tl n kind a v z snap with release := rel, uci := uci, after := after, phasec := c.phasec }
  let c := c.setTl tl t
  let c := if uci then { c with bank := { c.bank with uciOut := c.bank.uciOut + 1 } } else c
  (n, { (s.setCore i c).tick with cmds := s.cmds ++ [cmd] })

/-- Word k of a snapshot. -/
def snapWord (b : List Byte) (k : Nat) : Nat := ofBytes ((b.drop (8 * k)).take 8)

/-- n bytes at offset o of a snapshot, as a number. -/
def snapAt (b : List Byte) (o n : Nat) : Nat := ofBytes ((b.drop o).take n)

/-! ### Engine addresses (R150, R248, R371) -/

/-- Where an engine address lies: a byte of this module, or a physical address of a peer. -/
inductive Loc where
  | here (k : Nat)
  | peer (chip pa : Nat)
  deriving DecidableEq, Repr

/-- A physical scratchpad or local store byte lies in the launch's current allocation there (R371). -/
def State.inAllocation (s : State) (launch k : Nat) : Bool :=
  match typeOfPa k with
  | some .csp =>
    (s.cluster (cspCluster k)).cs.any fun a => decide (a.launch = launch) && (a.index ((k - cspBase) % 2 ^ 22)).isSome
  | some .ls =>
    let i := (k - lsBase) / 2 ^ 17
    let off := (k - lsBase) % 2 ^ 17
    (s.core i).allocs.any fun a => decide (a.launch = launch) && decide (a.base ≤ off) && decide (off < a.base + a.units * 4096)
  | _ => true

/-- An engine address of a command (R150, R248): windows name the issuing core's cluster and core; others pass the launch's leases and the
partition's table, through the TLB of the engine's own cluster. The context save area of a task's local store window lies outside its allocation: LEASE, for a read as for a write
(log entry 75). -/
def State.engAddr (s : State) (c : Cmd) (acc : Access) (va : Nat) : Except Cause Loc :=
  if va ≥ 2 ^ 56 then .error .prot
  else match windowOf va with
  | some (ls, x) =>
    if x ≥ (if ls then 2 ^ 17 else 2 ^ 22) then .error .prot
    else if c.sup then .ok (.here (if ls then lsKey c.core x else cspKey (clusterOf c.core) x))
    else match (s.core c.core).alloc c.launch with
      | some a => match allocKey c.core a ls x with
        | some k => .ok (.here k)
        | none => .error .lease
      | none => .error .lease
  | none =>
    if !c.sup && !s.leased c.part c.launch va then .error .lease
    else match s.lookupEng c.ecl va with
      | none => .error .prot
      | some e =>
        if !acc.allowed e || (!c.sup && !e.u) then .error .prot
        else if e.type = 4 then .ok (.peer e.chip (e.pa va))
        else if !s.backed c.part e.type (e.pa va) then .error .prot
        else if !(acc == .load) && !c.sup && !s.inAllocation c.launch (e.pa va) then .error .lease
        else .ok (.here (e.pa va))

/-- The peer that the translation of an engine address names, whatever the entry permits (R256, R347). -/
def State.routeOf (s : State) (c : Cmd) (va : Nat) : Option Nat :=
  if va ≥ 2 ^ 56 || (windowOf va).isSome then none
  else (s.lookupEng c.ecl va).bind fun e => if e.type = 4 then some e.chip else none

/-- The translation an engine used stays in its cluster's TLB (R343). -/
def State.keepEng (s : State) (cl va : Nat) : State :=
  if (windowOf va).isSome then s
  else match s.lookupEng cl va with
    | some e =>
      let x := s.cluster cl
      if x.l2tlb.contains e then s else s.setCluster cl { x with l2tlb := e :: x.l2tlb }
    | none => s

/-! ### What holds a command, and its end -/

/-- A GONG holds the command (R242, R154, R170, R365). -/
def State.cmdHeld (s : State) (c : Cmd) : Bool :=
  !c.sup && (match s.launch c.part c.launch with | some l => s.stoppedL l | none => decide ((s.prt c.part).gong > 0))

/-- A byte of this module whose page is under migration, for an access that writes there or waits behind a queued write (R242, R350). What the firmware writes to
the new page is its copy, and does not wait. -/
def State.locBusy (s : State) (fw write : Bool) : Loc → Bool
  | .here k => if write then (s.holdAt fw k).isSome else s.granuleBusy k
  | .peer .. => false

/-- An engine's access to an engine address waits at a page under migration (R242, R350). -/
def State.vaBusy (s : State) (c : Cmd) (write : Bool) (va : Nat) : Bool :=
  match s.engAddr c (if write then .store else .load) va with
  | .ok l => s.locBusy c.sup write l
  | .error _ => false

/-- The command may do its work: posted without .release, or started (R243). -/
def Cmd.mayRun (c : Cmd) : Bool := (c.phase == .posted && !c.release) || c.phase == .started

/-- The core's stores that precede the command are performed, what it has pushed to its output streams among them (R208), and those of its cluster that it sees,
so that the command observes them (R241); none where one waits, which is also while one is queued at a page under migration (R350). A supervisor's command, which may be
the copy of a migration, does not wait for other cores' stores. -/
def State.settleCmd (s : State) (c : Cmd) : Option State :=
  let own (s : State) : Option State := s.performAll c.core (fun e => e.grp < c.upto) (s.core c.core).sb.length 0
  (if c.sup then own s else s.performSeen c.core fun e => e.grp < c.upto).bind fun t =>
    if t.holds.any (fun h => h.q.any fun q => (q.core = c.core ∧ q.grp < c.upto) || (!c.sup && q.shared && clusterOf q.core = clusterOf c.core)) then none else some t

/-- One write of an engine for its command, at its home (R183). -/
def State.writeCmd (s : State) (c : Cmd) (l : List (Nat × Byte)) : State := s.writeBy (ncores + 1) c.id l

/-- How much of each line of HOST a load must see to see what the command wrote (R199). -/
def State.hostBounds (s : State) (id : Nat) : Bounds :=
  s.hist.filterMap fun h =>
    if typeOfPa h.1 == some .host && h.2.any (· == (ncores + 1, id)) then some (h.1, h.2.length - h.2.idxOf (ncores + 1, id)) else none

/-- A wait on the command's context will acquire its writes to HOST (R199). -/
def State.noteHost (s : State) (c : Cmd) : State :=
  let b := s.hostBounds c.id
  if b.isEmpty then s
  else s.modCore c.core fun x => match x.bankOf c.launch with
    | some k =>
      let t : Timeline := SMap.get {} k.tls c.tl
      if k.serial ≠ c.serial then x else x.setBankOf c.launch { k with tls := SMap.set {} k.tls c.tl { t with host := t.host.join b } }
    | none => x

/-- Queue an operation of an engine at a page under migration (R350), as request `idx` of its command; where the queue refuses it, the engine leaves a ticket
(R215, R332). None: it holds one already. -/
def State.queueEng (s : State) (c : Cmd) (h : Hold) (k n idx : Nat) (op : EngOp) (va : Nat) : Option (Bool × State) :=
  let src := ncores + 1 + c.ecl
  if s.holdTakes h src k then
    some (true, (s.useTicket src k).queueAt h { core := src, grp := s.serial, bytes := at_ k n 0, clr := [], plain := false, va := BitVec.ofNat 64 va, launch := c.launch
                                                phasec := c.phasec, eng := some (c.id, idx, op) })
  else (s.askTicket src k).map fun s => (false, s)

/-- The command leaves: its number counts, its interrupt is raised (R199, R242), bindings that waited for it go (R136), MEMUE is reported (R370). -/
def State.finishCmd (s : State) (c : Cmd) (fail memue : Bool) : State :=
  let s := { s with cmds := s.cmds.filter fun x => x.id ≠ c.id }
  let s := s.noteHost c
  let s := s.completeOp c.core c.launch c.serial c.tl c.num fail c.uci c.code
  let s := s.settleHandles
  let msg : FaultMsg := ⟨2, Cause.memue.code, coreId c.core, 0, c.faddr, 0, c.launch, c.coord, s.time, c.tl, c.num, 0, ncores + c.ecl⟩
  if memue then s.postFault c.part msg else s

/-- One write of a copy engine at its home (R183), tracked as a plain write of the issuing core (R203); `va` is the virtual address of byte k. -/
def State.engWrite (s : State) (c : Cmd) (l : List (Nat × Byte)) (k va : Nat) : State :=
  (s.writeCmd c l).track c.core c.launch c.phasec true true k (BitVec.ofNat 64 va)

/-- Write the low n bytes of x at an engine address, where it can be written (a command's status words; where not, the word is dropped and the command completes all the same,
log entry 68); a copy engine's is tracked (R203). -/
def State.engPut (s : State) (c : Cmd) (va n x : Nat) : State :=
  match s.engAddr c .store va with
  | .ok (.here k) => match c.kind with
    | .cpy | .cred _ | .repart => s.engWrite c (at_ k n x) k va
    | _ => s.writeCmd c (at_ k n x)
  | _ => s

end Sys2Proof.Machine
end

