-- ==== Sys2Proof/Machine/Copy.lean ====
section
/-!
DEFINITION. Copy.lean: CPY, CRED and CFLAG (R240 to R253): posting, the descriptor, the copy engine's steps, barrier and ring counts, requests to
peers (R245, R254).
-/
namespace Sys2Proof.Machine

open Sys2Proof

/-! ### Posting (R240) -/

/-- A posting instruction of the copy class: `read` gives the snapshot, `val` the value register of CFLAG. -/
def postCopy (i : Instr) (p : PostOp) (kind : CmdKind) (tl : Nat) (val : Option Reg) (read : Nat → State → Word → M (List Byte × State)) (s : State) :
    Host.Outcome State Fault Refusal :=
  runSeq i (fun k s => do
    let (a, c) ← (s.core k).readS p.a
    let (v, c) ← match val with
      | some b => c.readS b
      | none => .ok (0, c)
    stallUnless (decide (c.copies < 32) && (!p.uci || c.uciRoom))
    let (snap, s) ← read k (s.setCore k c) a
    let (n, s) := s.post k tl kind a v 0 snap p.release p.uci
    let c ← (s.core k).putS k p.d (BitVec.ofNat 64 n)
    .ok (s.setCore k c)) s

/-- The 192-byte descriptor, 64-byte aligned. -/
def readDesc (k : Nat) (s : State) (a : Word) : M (List Byte × State) := s.snapshot k a 192 64

/-- CPY (R240, R250). -/
def execCpy (p : PostOp) (s : State) : Host.Outcome State Fault Refusal := postCopy (.cpy p) p .cpy 0 none readDesc s

/-- CRED.add.f32 (R251). -/
def execCredAddF32 (p : PostOp) (s : State) : Host.Outcome State Fault Refusal := postCopy (.credAddF32 p) p (.cred 0) 0 none readDesc s

/-- CRED.add.f64 (R251). -/
def execCredAddF64 (p : PostOp) (s : State) : Host.Outcome State Fault Refusal := postCopy (.credAddF64 p) p (.cred 1) 0 none readDesc s

/-- CRED.add.i32 (R251). -/
def execCredAddI32 (p : PostOp) (s : State) : Host.Outcome State Fault Refusal := postCopy (.credAddI32 p) p (.cred 2) 0 none readDesc s

/-- CRED.min.f32 (R251). -/
def execCredMinF32 (p : PostOp) (s : State) : Host.Outcome State Fault Refusal := postCopy (.credMinF32 p) p (.cred 3) 0 none readDesc s

/-- CRED.max.f32 (R251). -/
def execCredMaxF32 (p : PostOp) (s : State) : Host.Outcome State Fault Refusal := postCopy (.credMaxF32 p) p (.cred 4) 0 none readDesc s

/-- CRED.min.i32 (R251). -/
def execCredMinI32 (p : PostOp) (s : State) : Host.Outcome State Fault Refusal := postCopy (.credMinI32 p) p (.cred 5) 0 none readDesc s

/-- CRED.max.i32 (R251). -/
def execCredMaxI32 (p : PostOp) (s : State) : Host.Outcome State Fault Refusal := postCopy (.credMaxI32 p) p (.cred 6) 0 none readDesc s

/-- CRED.ws (R251). -/
def execCredWs (p : PostOp) (s : State) : Host.Outcome State Fault Refusal := postCopy (.credWs p) p (.cred 7) 0 none readDesc s

/-- CFLAG (R253): nothing is read at issue. -/
def execCflag (p : PostOp) (b : Reg) (s : State) : Host.Outcome State Fault Refusal :=
  postCopy (.cflag p b) p (.cflag false) 0 (some b) (fun _ s _ => .ok ([], s)) s

/-- CFLAG.add (R253). -/
def execCflagAdd (p : PostOp) (b : Reg) (s : State) : Host.Outcome State Fault Refusal :=
  postCopy (.cflagAdd p b) p (.cflag true) 0 (some b) (fun _ s _ => .ok ([], s)) s

/-! ### The descriptor (R246, R247) -/

namespace Desc

def esize (b : List Byte) : Nat := snapWord b 2 / 2 ^ 32
def ndim (b : List Byte) : Nat := snapWord b 2 % 2 ^ 32
def ext (b : List Byte) (d : Nat) : Nat := snapAt b (24 + 4 * d) 4
def sstr (b : List Byte) (d : Nat) : Int := sext (snapAt b (60 + 4 * d) 4) 32
def dstr (b : List Byte) (d : Nat) : Int := sext (snapAt b (96 + 4 * d) 4) 32
def tb (b : List Byte) : Bool := bit (snapWord b 16) 35
def rg (b : List Byte) : Bool := bit (snapWord b 16) 34
def sb (b : List Byte) : Bool := bit (snapWord b 16) 33
def db (b : List Byte) : Bool := bit (snapWord b 16) 32
def rank (b : List Byte) : Nat := bits (snapWord b 21) 51 40
def flow (b : List Byte) : Nat := bits (snapWord b 21) 23 16
def slot (b : List Byte) : Nat := bits (snapWord b 21) 11 0

/-- The number of elements. -/
def count (b : List Byte) : Nat := ((List.range 9).filter (· < ndim b)).foldl (fun n d => n * ext b d) 1

/-- Address of element e from a base and strides (R247). -/
def elemAddr (b : List Byte) (base : Nat) (str : Nat → Int) (e : Nat) : Nat :=
  let r := ((List.range 9).filter (· < ndim b)).foldl (fun (a : Int × Nat) d => (a.1 + (a.2 % ext b d : Nat) * str d, a.2 / ext b d)) ((base : Int), e)
  wrapN 64 r.1

def srcAddr (b : List Byte) (e : Nat) : Nat := elemAddr b (snapWord b 0) (sstr b) e
def dstAddr (b : List Byte) (e : Nat) : Nat := elemAddr b (snapWord b 1) (dstr b) e

end Desc

/-- A rank form of CRED (R251). -/
def CmdKind.isRank : CmdKind → Bool
  | .cred 0 | .cred 1 => true
  | _ => false

/-- Largest power of two that divides n, at most 8 (R247). -/
def pow2Of (n : Nat) : Nat := if n % 8 = 0 then 8 else if n % 4 = 0 then 4 else if n % 2 = 0 then 2 else 1

/-- Source and destination alignment of an element (R247, R251). -/
def CmdKind.align (k : CmdKind) (esize : Nat) : Nat × Nat :=
  match k with
  | .cred 7 => (16, 64)
  | .cred 1 => (8, 8)
  | .cred _ => (4, 4)
  | _ => (pow2Of esize, pow2Of esize)

/-- A flow is reserved to a partition (R256): defined, with at least one slot, all its slots in one port's table. -/
def State.flowReserved (s : State) (p f : Nat) : Bool :=
  let e := (SMap.get 0 (s.prt p).flows f).toNat
  let slots := s.resv.filter fun q => decide (bits q.2.toNat 15 15 = 1) && decide (bits q.2.toNat 14 12 = p) && decide (q.2.toNat % 256 = f)
  bit e 16 && !slots.isEmpty && slots.all fun q => slots.all fun r => q.1 / 64 = r.1 / 64

/-- The fields of a descriptor keep R246 and R248, but for FLOW. -/
def descOk (k : CmdKind) (b : List Byte) : Bool :=
  let nd := Desc.ndim b
  let es := Desc.esize b
  let w := snapWord b
  decide (1 ≤ nd) && decide (nd ≤ 9)
    && (List.range 9).all (fun d => if d < nd then decide (Desc.ext b d ≥ 1) else decide (Desc.ext b d = 0) && Desc.sstr b d == 0 && Desc.dstr b d == 0)
    && (match k with
        | .cred 1 => decide (es = 8)
        | .cred 7 => decide (es = 48)
        | .cred _ => decide (es = 4)
        | _ => decide (1 ≤ es) && decide (es ≤ 64))
    && decide (w 16 < 2 ^ 36) && decide (bits (w 21) 63 52 = 0) && decide (bits (w 21) 39 24 = 0) && decide (bits (w 21) 15 12 = 0)
    && decide (Desc.count b * es < 2 ^ 40)
    && (Desc.db b || decide (w 17 = 0)) && (Desc.sb b || decide (w 18 = 0)) && (Desc.rg b || k.isRank || decide (w 19 = 0))
    && (Desc.tb b || decide (w 20 = 0)) && (k.isRank || decide (Desc.rank b = 0)) && (Desc.rg b || decide (Desc.slot b = 0))
    && (!Desc.rg b || (match k with | .cred _ => false | _ => true))

/-- FLOW is 0, or a flow of the partition whose DSTID is the peer of the first destination element, as the page table has it (R256). -/
def State.flowOk (s : State) (c : Cmd) : Bool :=
  let f := Desc.flow c.snap
  decide (f = 0) || (s.flowReserved c.part f && match s.routeOf c (Desc.dstAddr c.snap 0) with
    | some chip => decide (chip = (SMap.get 0 (s.prt c.part).flows f).toNat % 2 ^ 10)
    | _ => false)

/-! ### Units of a command (R247, R248, R251) -/

/-- What an engine moves at once: unit number, element, source pieces (virtual address, bytes), destination address, bytes. -/
structure CUnit where
  u : Nat
  e : Nat
  src : List (Nat × Nat)
  dst : Nat
  n : Nat
  mis : Option Nat
  deriving DecidableEq, Repr

/-- The units of element e. -/
def elemUnits (k : CmdKind) (b : List Byte) (e : Nat) : List CUnit :=
  let es := Desc.esize b
  let (al, dal) := k.align es
  let x := Desc.srcAddr b e
  let y := Desc.dstAddr b e
  let mis := if x % al ≠ 0 then some x else if y % dal ≠ 0 then some y else none
  match k with
  | .cred _ => [⟨e, e, (List.range (ceilDiv es 8)).map (fun j => ((x + 8 * j) % 2 ^ 64, min es 8)), y, es, mis⟩]
  | _ => (List.range (es / al)).map fun j => ⟨e * (es / al) + j, e, [((x + j * al) % 2 ^ 64, al)], (y + j * al) % 2 ^ 64, al, mis⟩

/-- A unit whose addresses resolve: where its source pieces and destination lie. -/
structure UnitAt where
  unit : CUnit
  src : List (Loc × Nat)
  dst : Loc
  deriving DecidableEq, Repr

/-- Resolve a unit: a fault (code, cause, address), or where it lies (R248, R251, R370). -/
def State.resolve (s : State) (c : Cmd) (x : CUnit) : Except (Nat × Nat × Nat) UnitAt :=
  let isRed := match c.kind with | .cred _ => true | _ => false
  let bad (q : Cause) (a : Nat) : Except (Nat × Nat × Nat) UnitAt := .error (2, q.code, a)
  match x.mis with
  | some a => bad .align a
  | none =>
    let srcs := x.src.map fun p => (p, s.engAddr c .load p.1)
    match firstSome (fun p => match p.2 with | .error q => some (q, p.1.1) | .ok _ => none) srcs with
    | some (q, a) => bad q a
    | none =>
      match s.engAddr c (if isRed then .rmw else .store) x.dst with
      | .error q => bad q x.dst
      | .ok d =>
        let locs := srcs.filterMap fun p => match p.2 with | .ok l => some (l, p.1.2) | .error _ => none
        let host (l : Loc) : Bool := match l with | .here k => typeOfPa k == some .host | _ => false
        let hostBad := match c.kind with
          | .cred 2 => false
          | .cred 0 | .cred 1 => host d || locs.any fun l => host l.1
          | .cred _ => host d
          | _ => false
        let poison (n : Nat) (l : Loc) : Bool := match l with | .here k => (List.range (ceilDiv n 8)).any fun j => s.poisoned (k + 8 * j) | _ => false
        if hostBad then bad .prot (match (x.src.zip locs).find? fun p => !host d && host p.2.1 with | some p => p.1.1 | none => x.dst)
        else match (x.src.zip locs).find? fun p => poison p.2.2 p.2.1 with
          | some p => .error (3, Cause.memue.code, p.1.1)
          | none => if isRed && !c.kind.isRank && poison x.n d then .error (3, Cause.memue.code, x.dst) else .ok ⟨x, locs, d⟩

/-- A command that failed, with the code. -/
def Cmd.failed (c : Cmd) (code cause faddr : Nat) : Cmd := { c with code := code, cause := cause, faddr := BitVec.ofNat 64 faddr }

/-- The barrier object, or ring header, at an engine address: in a scratchpad, of this module or of a peer (R248, R274), 16-byte aligned (R249). -/
def State.objectAt (s : State) (c : Cmd) (va : Nat) : Except Cause Loc :=
  if va % 16 ≠ 0 then .error .align
  else match s.engAddr c .rmw va with
    | .error q => .error q
    | .ok (.here k) => if typeOfPa k == some .csp then .ok (.here k) else .error .prot
    | .ok (.peer chip pa) => if typeOfPa pa == some .csp then .ok (.peer chip pa) else .error .prot

/-- The side word of slot `slot` of the ring whose header is at hdr (R226): SIDE is an offset in the scratchpad as a supervisor, or the allocation that the header
lies in, shows it. None where there is no such place. -/
def State.sideKey (s : State) (sup : Bool) (hdr slot : Nat) : Option Nat :=
  let cl := cspCluster hdr
  let off := ringSide (s.rd hdr 8) (s.rd (s.place sup hdr 8) 8) slot
  let x := (hdr - cspBase) % 2 ^ 22
  if sup then (if off < 2 ^ 22 then some (cspKey cl off) else none)
  else
    match (s.cluster cl).cs.find? fun a => (a.index x).isSome with
    | none => none
    | some a =>
      let as := (s.cluster cl).cs.filter fun b => b.launch = a.launch
      let t := match s.launch (s.partOfCluster cl) a.launch with | some l => l.tcsp * 4096 | none => 0
      if off < t then (if a.team.isSome then some (cspKey cl (csOff a.base a.banks off)) else none)
      else match as.find? fun a => a.team = none with
        | some b => if off - t < b.size then some (cspKey cl (csOff b.base b.banks (off - t))) else none
        | none => none

/-- The objects a descriptor names resolve; else the cause and the address (R249). -/
def State.objectsFault (s : State) (c : Cmd) : Option (Cause × Nat) :=
  let w := snapWord c.snap
  let chk (use : Bool) (va : Nat) : Option (Cause × Nat) := if use then (match s.objectAt c va with | .error q => some (q, va) | .ok _ => none) else none
  match chk (Desc.db c.snap) (w 17), chk (Desc.sb c.snap) (w 18), chk (Desc.rg c.snap) (w 19) with
  | some f, _, _ => some f
  | none, some f, _ => some f
  | none, none, some f => some f
  | none, none, none =>
    if Desc.rg c.snap then
      match s.objectAt c (w 19) with
      | .ok (.here k) => if !s.poisoned k && !s.poisoned (s.place c.sup k 8) && (s.sideKey c.sup k (Desc.slot c.snap)).isNone then some (.lease, w 19) else none
      | .ok (.peer ..) => none
      | .error q => some (q, w 19)
    else none

/-- A word of a barrier object, or of a ring's header and the slot's side word, is poisoned (R370): the address of the object. -/
def State.objectPoison (s : State) (c : Cmd) : Option Nat :=
  let w := snapWord c.snap
  let hdr (use : Bool) (va : Nat) : Option Nat :=
    if !use then none
    else match s.objectAt c va with
      | .ok (.here k) => if s.poisoned k || s.poisoned (s.place c.sup k 8) then some va else none
      | _ => none
  let side : Option Nat := if !Desc.rg c.snap then none else match s.objectAt c (w 19) with
    | .ok (.here k) => (s.sideKey c.sup k (Desc.slot c.snap)).bind fun x => if s.poisoned x then some (w 19) else none
    | _ => none
  firstSome id [hdr (Desc.db c.snap) (w 17), hdr (Desc.sb c.snap) (w 18), hdr (Desc.rg c.snap) (w 19), side]

/-! ### Requests to peers (R245, R254, R258) -/

/-- A cell from this module to a peer as it is known. -/
def State.cellTo (s : State) (chip part flow cmd idx : Nat) (kind : CellKind) : Sys2Proof.Cell :=
  { dstId := BitVec.ofNat 10 chip, dstInc := (SMap.get {} s.peers chip).inc, srcId := s.cfg.chip, srcInc := s.incarn, part := part
    flow := BitVec.ofNat 8 flow, cmd := cmd, idx := idx, kind := kind }

/-- The answer to a request cell. -/
def State.ackTo (s : State) (x : Sys2Proof.Cell) (ok poisoned : Bool) (data : List Byte) : Sys2Proof.Cell :=
  s.cellTo x.srcId.toNat x.part 0 x.cmd x.idx (.ack x.cmd x.idx ok poisoned data)

/-- Send a cell. -/
def State.emit (s : State) (x : Sys2Proof.Cell) : State := { s with cells := s.cells ++ [x] }

/-- The module knows the peer as ACTIVE (R258). -/
def State.peerActive (s : State) (chip : Nat) : Bool := (SMap.get {} s.peers chip).active

/-- The unit's source lies on a peer. -/
def UnitAt.far (u : UnitAt) : Bool := u.src.any fun l => match l.1 with | .peer .. => true | _ => false

/-- The peers a resolved unit concerns. -/
def UnitAt.peers (u : UnitAt) : List Nat :=
  (match u.dst with | .peer c _ => [c] | _ => []) ++ u.src.filterMap fun l => match l.1 with | .peer c _ => some c | _ => none

/-- The local source bytes of a unit as one number. -/
def State.unitData (s : State) (u : UnitAt) : Nat :=
  ofBytes (u.src.flatMap fun l => match l.1 with | .here k => (List.range l.2).map fun j => s.byte (k + j) | _ => List.replicate l.2 0)

/-- The combination of an accumulating CRED on numbers of the element's size (R251). -/
def credOp (m old src : Nat) : Nat :=
  match m with
  | 2 => (old + src) % 2 ^ 32
  | 3 => fi32.minmax false old src
  | 4 => fi32.minmax true old src
  | 5 => if sext old 32 ≤ sext src 32 then old else src
  | 6 => if sext old 32 ≤ sext src 32 then src else old
  | _ => ((WCell.ofNat old).add (WCell.ofNat src)).toNat

/-- Put a unit's data at its local destination: copied, or combined (R247, R251); the bytes. -/
def State.applyUnit (s : State) (c : Cmd) (k n x : Nat) : List (Nat × Byte) :=
  match c.kind with
  | .cred m => s.objBytes c.sup k n (credOp m (s.rdObj c.sup k n) x)
  | _ => at_ k n x

/-! ### Counts (R249) and completion (R242, R248) -/

/-- Bytes count into slot `slot` of the ring whose header is at k (R249), unless the header or the side word is poisoned (R370). -/
def State.ringAt (s : State) (sup : Bool) (k slot n : Nat) : State :=
  if s.poisoned k || s.poisoned (s.place sup k 8) then s
  else match s.sideKey sup k slot with
    | some side => if s.poisoned side then s else s.countRing k side n
    | none => s

/-- A transfer counts down at the barrier object at k (R223), unless it is poisoned (R370). -/
def State.barAt (s : State) (sup : Bool) (k : Nat) (inb : Bool) : State :=
  if s.poisoned k || s.poisoned (s.place sup k 8) then s else s.countDown sup k inb

/-- The cores of a cluster acquire through its barrier or ring what the command wrote to HOST (R249, R282). -/
def State.hostThrough (s : State) (c : Cmd) (cl : Nat) : State :=
  let b := s.hostBounds c.id
  if b.isEmpty then s else s.setCluster cl { s.cluster cl with pub := (s.cluster cl).pub.join b }

/-- Bytes that a write of the command has delivered count into its ring slot (R249), here or at a peer. -/
def State.ringBytes (s : State) (c : Cmd) (n : Nat) : State :=
  if !Desc.rg c.snap then s
  else match s.objectAt c (snapWord c.snap 19) with
    | .ok (.here k) => (s.hostThrough c (cspCluster k)).ringAt c.sup k (Desc.slot c.snap) n
    | .ok (.peer chip pa) => { s with cells := s.cells ++ [s.cellTo chip c.part 0 c.id 0 (.count true true pa n (Desc.slot c.snap))] }
    | .error _ => s

/-- Count a command down at a barrier object it names (R249), here or at a peer. -/
def State.countAt (s : State) (c : Cmd) (use inb : Bool) (w : Nat) : State :=
  if !use then s
  else match s.objectAt c (snapWord c.snap w) with
    | .ok (.here k) => (s.hostThrough c (cspCluster k)).barAt c.sup k inb
    | .ok (.peer chip pa) => { s with cells := s.cells ++ [s.cellTo chip c.part 0 c.id 0 (.count inb false pa 0 0)] }
    | .error _ => s

/-- The command's reads are performed: OUT counts down, once (R249). -/
def State.readsDone (s : State) (c : Cmd) : Cmd × State :=
  if c.outDone || c.pend.any (fun p => p.1 % 2 = 0) then (c, s) else ({ c with outDone := true }, s.countAt c (Desc.sb c.snap) false 18)

/-- Count a completed command at its barrier objects (R249). -/
def State.countObjects (s : State) (c : Cmd) : State :=
  if c.code = 1 ∨ c.code = 6 ∨ (s.objectsFault c).isSome then s
  else (s.countAt c (Desc.db c.snap) true 17).countAt c (Desc.sb c.snap && !c.outDone) false 18

/-- A command that met poison in an object it counts at completes with MEMUE (R370). -/
def State.countsPoison (s : State) (c : Cmd) : Cmd :=
  if c.code ≠ 0 || !descOk c.kind c.snap then c
  else match s.objectPoison c with
    | some a => { c with code := 3, cause := Cause.memue.code, faddr := BitVec.ofNat 64 a }
    | none => c

/-- A CPY or CRED completes: the counts, its status words, its number (R242, R248, R249). Status words that cannot be written any more, because the descriptor's page
does not resolve or lacks W, are not written, and the command completes all the same (log entry 68). -/
def State.finishCopy (s : State) (c : Cmd) : State :=
  let c := s.countsPoison c
  let s := if descOk c.kind c.snap then s.countObjects c else s
  let s := (s.engPut c (c.a.toNat + 176) 8 c.faddr.toNat).engPut c (c.a.toNat + 184) 8 (c.cause * 256 + c.code)
  s.finishCmd c (decide (c.code ≠ 0)) (decide (c.code = 3))

/-- The page of the command's status words is under migration (R242). -/
def State.statusBusy (s : State) (c : Cmd) : Bool := s.vaBusy c true (c.a.toNat + 176) || s.vaBusy c true (c.a.toNat + 184)

/-- A CPY or CRED whose work is over completes, as soon as its status can be written. -/
def State.closeCopy (s : State) (c : Cmd) (code cause faddr : Nat) : State :=
  let c := { c with code := code, cause := cause, faddr := BitVec.ofNat 64 faddr, phase := .finished }
  if s.statusBusy c then s.setCmd c else s.finishCopy c

/-! ### CPY and the accumulating CRED (R244, R245, R247 to R251) -/

/-- A unit whose source and destination lie here is moved, or combined at its home, by one write (R247, R251). -/
def State.moveUnit (s : State) (c : Cmd) (u : UnitAt) : State :=
  match u.dst with
  | .here k => (s.engWrite c (s.applyUnit c k u.unit.n (s.unitData u)) k u.unit.dst).ringBytes c u.unit.n
  | .peer .. => s

/-- A page under migration holds the unit (R242, R350). -/
def State.unitBusy (s : State) (c : Cmd) (u : UnitAt) : Bool := s.locBusy c.sup true u.dst || u.src.any fun l => s.locBusy c.sup false l.1

/-- The element of an accumulating CRED that its home would queue (R350): its sources can be read here and now, its destination lies on a page under migration. -/
def State.toQueue (s : State) (c : Cmd) (u : UnitAt) : Bool :=
  (match c.kind with | .cred _ => true | _ => false) && u.peers.isEmpty && s.locBusy c.sup true u.dst && !(u.src.any fun l => s.locBusy c.sup false l.1)

/-- Every unit of the command, with where it lies. -/
def State.units (s : State) (c : Cmd) : List (CUnit × Except (Nat × Nat × Nat) UnitAt) :=
  ((List.range (Desc.count c.snap)).flatMap (elemUnits c.kind c.snap)).map fun u => (u, s.resolve c u)

/-- A unit of a command of a reserved flow whose destination is not on the flow's module (R256). -/
def State.astray (s : State) (c : Cmd) (u : UnitAt) : Bool :=
  let flow := Desc.flow c.snap
  decide (flow ≠ 0) && (match u.dst with | .peer chip _ => decide (chip ≠ (SMap.get 0 (s.prt c.part).flows flow).toNat % 2 ^ 10) | .here _ => true)

/-- Places on peers that a resolved unit reads. -/
def UnitAt.farPlaces (u : UnitAt) : List (Nat × Nat × Nat) := u.src.filterMap fun l => match l.1 with | .peer chip pa => some (chip, pa, l.2) | .here _ => none

/-- An earlier command of the context, not finished, reads one of these places of a peer: two reads of one location keep their order (R245, CoRR). -/
def State.readsFirst (s : State) (c : Cmd) (ps : List (Nat × Nat × Nat)) : Bool :=
  !ps.isEmpty && s.cmds.any fun e => decide (e.id < c.id) && decide (e.core = c.core) && decide (e.launch = c.launch) && decide (e.serial = c.serial)
    && (match e.kind with | .cpy | .cred _ => true | _ => false) && !(e.phase == .finished) && descOk e.kind e.snap
    && (s.units e).any fun r => match r.2 with
      | .ok u => u.farPlaces.any fun p => ps.any fun q => decide (p.1 = q.1) && decide (p.2.1 < q.2.1 + q.2.2) && decide (q.2.1 < p.2.1 + p.2.2)
      | .error _ => false

/-- Unit number n of a command moves ahead of the others (R244: in any order). -/
def State.copyUnit (s : State) (c : Cmd) (n : Nat) : Option State :=
  match s.settleCmd c with
  | none => none
  | some s =>
    if !descOk c.kind c.snap || !s.flowOk c || (s.objectsFault c).isSome || c.parts.contains n then none
    else match ((List.range (Desc.count c.snap)).flatMap (elemUnits c.kind c.snap)).find? fun u => u.u = n with
    | none => none
    | some x => match s.resolve c x with
      | .error _ => none
      | .ok u => if s.astray c u || !u.peers.isEmpty || s.unitBusy c u then none else some ((s.moveUnit c u).setCmd { c with phase := .started, parts := n :: c.parts })

/-- The requests to peers that a unit needs first: its reads, or else its write. Reads of piece j have the even number 2·(u·w + j) for w pieces a
unit, the write the odd one behind the first. -/
def State.ask (s : State) (c : Cmd) (u : UnitAt) : List (Nat × Sys2Proof.Cell) :=
  let i := 2 * (u.unit.u * u.src.length)
  let far := (u.src.zip (List.range u.src.length)).filterMap fun l => match l.1.1 with
    | .peer chip pa => some (i + 2 * l.2, s.cellTo chip c.part 0 c.id (i + 2 * l.2) (.read pa l.1.2))
    | _ => none
  match far, u.dst with
  | [], .peer chip pa =>
    let data := bytesOf u.unit.n (s.unitData u)
    let kind : CellKind := match c.kind with | .cred m => .cred (BitVec.ofNat 3 m) pa data | _ => .write pa data
    [(i + 1, s.cellTo chip c.part (Desc.flow c.snap) c.id (i + 1) kind)]
  | _, _ => far

/-- Put a request behind the others: a write that goes on where the last one ends, in the same 128-byte block, travels in its cell (R254, R281). -/
def joinWrite (l : List (Nat × Sys2Proof.Cell)) (x : Nat × Sys2Proof.Cell) : List (Nat × Sys2Proof.Cell) :=
  match l with
  | [] => [x]
  | y :: t => match y.2.kind, x.2.kind with
    | .write pa d, .write pb e =>
      if y.2.dstId = x.2.dstId ∧ pb = pa + d.length ∧ pb / 128 = pa / 128 then (y.1, { y.2 with kind := .write pa (d ++ e) }) :: t else x :: y :: t
    | _, _ => x :: y :: t

/-- The bytes a write request carries. -/
def cellBytes (x : Sys2Proof.Cell) : Nat := match x.kind with | .write _ d => d.length | _ => 0

/-- The pieces of a unit with a source on a peer that lie here, as read. -/
def State.nearPieces (s : State) (u : UnitAt) : List (Nat × List Byte) :=
  (u.src.zip (List.range u.src.length)).filterMap fun l => match l.1.1 with
    | .here k => some (2 * (u.unit.u * u.src.length + l.2), (List.range l.1.2).map fun j => s.byte (k + j))
    | _ => none

/-- An element of a CRED joins the queue of the page under migration that holds its destination (R350); its command awaits it there. -/
def State.queueUnit (s : State) (c : Cmd) (u : UnitAt) : Option State :=
  match u.dst, c.kind with
  | .here k, .cred m =>
    let idx := 2 * (u.unit.u * u.src.length) + 1
    (s.holdAt c.sup k).bind fun h => (s.queueEng c h k u.unit.n idx (.cred m u.unit.n (s.unitData u)) u.unit.dst).map fun r =>
      if r.1 then r.2.setCmd { c with phase := .started, parts := u.unit.u :: c.parts, pend := c.pend ++ [(idx, ownHome, [0])] } else r.2
  | _, _ => none

/-- CPY and the accumulating CRED do the rest of their work (R247 to R251): elements for a page under migration go to its queue, one at a time, then local
units, one write each, then requests to peers. None where the command waits. -/
def State.runCopy (s : State) (c : Cmd) : Option State :=
  match s.settleCmd c with
  | none => none
  | some s =>
    if !descOk c.kind c.snap || !s.flowOk c then some (s.closeCopy c 1 0 0)
    else match s.objectsFault c with
    | some (q, a) => some (s.closeCopy c 2 q.code a)
    | none =>
      let rs := s.units c
      let faults := rs.filterMap fun r => match r.2 with
        | .error f => some (r.1.e, f)
        | .ok u => if s.astray c u then some (r.1.e, (2, Cause.prot.code, r.1.dst)) else none
      let oks := rs.filterMap fun r => match r.2 with | .ok u => if s.astray c u || c.parts.contains u.unit.u then none else some u | .error _ => none
      match oks.find? (s.toQueue c) with
      | some u => s.queueUnit c u
      | none =>
      if oks.any (s.unitBusy c) || s.readsFirst c (oks.flatMap UnitAt.farPlaces) then none
      else
        let stale := (oks.flatMap UnitAt.peers).any fun p => !s.peerActive p
        let (code, cause, faddr) : Nat × Nat × Nat := if stale then (4, 0, 0)
          else match faults[Config.faddrPick s.fresh % faults.length]? with
            | some f => f.2
            | none => (0, 0, 0)
        let todo : List UnitAt := if stale then oks.filter (fun u => u.peers.isEmpty && Config.elemDone s.fresh u.unit.e)
          else if faults.isEmpty then oks
          else oks.filter fun u => !(faults.any fun f => f.1 = u.unit.e) && Config.elemDone s.fresh u.unit.e
        let s := if code = 0 then s else s.draw
        let s := (todo.filter fun u => u.peers.isEmpty).foldl (fun s u => s.moveUnit c u) s
        let reqs : List (Nat × Sys2Proof.Cell) := (((todo.filter fun u => !u.peers.isEmpty).flatMap (s.ask c)).foldl joinWrite []).reverse
        if reqs.isEmpty && c.pend.isEmpty then some (s.closeCopy c code cause faddr)
        else
          let c := { c with code := code, cause := cause, faddr := BitVec.ofNat 64 faddr, phase := .waiting, got := (todo.filter UnitAt.far).flatMap s.nearPieces
                            pend := c.pend ++ reqs.map fun (r : Nat × Sys2Proof.Cell) => (r.1, r.2.dstId.toNat, [cellBytes r.2]) }
          let (c, s) := { s with cells := s.cells ++ reqs.map Prod.snd }.readsDone c
          some (s.setCmd c)

/-! ### Rank CRED (R252) -/

/-- What a rank contribution comes to at the header's home (R252). -/
inductive RankStep where
  /-- the rank has contributed in this generation already -/
  | stall
  | badRank
  /-- element e of rank r's contribution is poisoned: nothing is performed (R370) -/
  | poison (r e : Nat)
  /-- contributed, in generation gen -/
  | took (gen : Nat) (s : State)
  deriving DecidableEq, Repr

/-- A contribution to the group at header hdr, indivisibly at its home: element e of `data` goes to `keys` e and, by the last of the generation,
the tree over the contributions to `dsts` e. -/
def State.rankContribute (s : State) (hdr m rank esize : Nat) (keys dsts : List Nat) (data : List Byte) : RankStep :=
  let w := s.rd hdr 8
  let p := bits w 43 32 + 1
  let arr := bits w 31 16
  let gen := bits w 15 12
  if rank ≥ p then .badRank
  else
    let ranks := if arr = 0 then [] else ((s.reds.find? fun q => q.1 = hdr).map (·.2)).getD []
    if ranks.contains rank then .stall
    else
      let op := if arr = 0 then m else bits w 11 8
      let w := setBits (if op = m then w else setBit w 2 true) 11 8 op
      let sz := (dsts.length * esize + 63) / 64 * 64
      let places := (hdr, rank, keys) :: (if arr = 0 then s.rankSlots.filter (fun q => q.1 ≠ hdr) else s.rankSlots)
      -- where a member has given fewer elements, what lies at the place of the others
      let key (r e : Nat) : Nat := ((places.find? fun q => q.1 = hdr ∧ q.2.1 = r).bind fun q => q.2.2[e]?).getD (keys.getD e 0 + r * sz - rank * sz)
      let s := (keys.zip (List.range keys.length)).foldl (fun s k => s.write (((data.drop (k.2 * esize)).take esize).mapIdx fun j b => (k.1 + j, b))) s
      let reds := s.reds.filter fun q => q.1 ≠ hdr
      if arr + 1 = p then
        let cells := (List.range p).flatMap fun r => (List.range dsts.length).map fun e => (r, e)
        match cells.find? fun x => s.poisoned (key x.1 x.2) with
        | some x => .poison x.1 x.2
        | none =>
          let s := (dsts.zip (List.range dsts.length)).foldl (fun t d =>
            t.wr d.1 esize (bankCombine (if op = 1 then 1 else 0) ((List.range p).map fun r => s.rd (key r d.2) esize))) s
          let s := s.wr hdr 8 (setBits (setBits w 31 16 0) 15 12 (gen + 1))
          let due := s.owed.filter fun o => o.1 = hdr
          .took gen { s with reds := reds, rankSlots := places.filter (fun q => q.1 ≠ hdr), owed := s.owed.filter (fun o => o.1 ≠ hdr), cells := s.cells ++ due.map (·.2.2) }
      else .took gen { s.wr hdr 8 (setBits w 31 16 (arr + 1)) with reds := (hdr, rank :: ranks) :: reds, rankSlots := places }

/-- Where element e of a command's contribution lies (R252): RGADDR + 64 + RANK·S + e·ESIZE. -/
def rankAddr (b : List Byte) (r e : Nat) : Nat :=
  (snapWord b 19 + 64 + r * ((Desc.count b * Desc.esize b + 63) / 64 * 64) + e * Desc.esize b) % 2 ^ 64

/-- The writes of the command's contribution, and of the destination elements where it completed generation g, count as plain writes of the issuing core (R203). -/
def State.trackRank (s : State) (c : Cmd) (hdr g : Nat) (keys dsts : List Nat) : State :=
  let one (va : Nat → Nat) (s : State) (p : Nat × Nat) : State := s.track c.core c.launch c.phasec true true p.1 (BitVec.ofNat 64 (va p.2))
  let s := (keys.zip (List.range keys.length)).foldl (one fun e => rankAddr c.snap (Desc.rank c.snap) e) s
  if bits (s.rd hdr 8) 15 12 = g then s else (dsts.zip (List.range dsts.length)).foldl (one (Desc.dstAddr c.snap)) s

/-- The places of a command's contribution, or the first fault (R248, R252): all on the header's module, none in HOST. -/
def State.rankPlaces (s : State) (c : Cmd) (home : Option Nat) : Except (Nat × Nat) (List Nat) :=
  (List.range (Desc.count c.snap)).mapM fun e =>
    let va := rankAddr c.snap (Desc.rank c.snap) e
    match s.engAddr c .rmw va, home with
    | .error q, _ => .error (q.code, va)
    | .ok (.here k), none => if typeOfPa k == some .host then .error (Cause.prot.code, va) else .ok k
    | .ok (.peer chip pa), some h => if chip = h then .ok pa else .error (Cause.prot.code, va)
    | _, _ => .error (Cause.prot.code, va)

/-- The cells of a contribution to another module's group: at most four elements in each, so that the payload stays within 128 bytes (R254). -/
def State.rankCells (s : State) (c : Cmd) (m chip pa : Nat) (keys dsts : List Nat) (data : List Byte) : List Sys2Proof.Cell :=
  let es := Desc.esize c.snap
  (List.range (ceilDiv dsts.length 4)).map fun j =>
    s.cellTo chip c.part (Desc.flow c.snap) c.id 1
      (.rank (BitVec.ofNat 3 m) pa (Desc.rank c.snap) es (4 * j) dsts.length ((keys.drop (4 * j)).take 4) ((dsts.drop (4 * j)).take 4) ((data.drop (4 * j * es)).take (4 * es)))

/-- The unit's source lies on a peer and has not been read yet. -/
def Cmd.lacks (c : Cmd) (u : UnitAt) : Bool :=
  u.far && !(c.got.any fun p => p.1 = 2 * u.unit.u)

/-- The source bytes of a unit of a rank CRED: read from its peer, or here. -/
def State.rankData (s : State) (c : Cmd) (u : UnitAt) : List Byte :=
  if u.far then ((c.got.find? fun p => p.1 = 2 * u.unit.u).map fun p => p.2.take u.unit.n).getD []
  else bytesOf u.unit.n (s.unitData u)

/-- A rank CRED reads the source elements that lie on peers (R248, R252): hops 2 marks the command while it waits for them. -/
def State.gatherRank (s : State) (c : Cmd) (us : List UnitAt) : State :=
  let reqs : List (Nat × Nat × Sys2Proof.Cell) := us.flatMap fun u => u.src.filterMap fun l => match l.1 with
    | .peer chip pa => some (2 * u.unit.u, chip, s.cellTo chip c.part 0 c.id (2 * u.unit.u) (.read pa u.unit.n))
    | _ => none
  { s with cells := s.cells ++ reqs.map fun (r : Nat × Nat × Sys2Proof.Cell) => r.2.2 }.setCmd { c with phase := .waiting, hops := 2, pend := reqs.map fun (r : Nat × Nat × Sys2Proof.Cell) => (r.1, r.2.1, []) }

/-- CRED_RANK_CONTRIBUTION (R252): command id contributes at its group header, or sends its contribution to the header's module; it reads the source
elements that lie on peers first. A header that is not 64-byte aligned is FAULT, ALIGN (log entry 82). -/
def execCredRankContribution (s : State) : Host.Outcome State Fault Refusal :=
  runEvent (fun x s => match s.cmd x.id with
    | none => none
    | some c =>
      let gathered := c.phase == .waiting && decide (c.hops = 2) && c.pend.isEmpty && decide (c.code = 0)
      if !c.kind.isRank || !(c.mayRun || gathered) || s.cmdHeld c || (descOk c.kind c.snap && Desc.tb c.snap && !c.timed) then none
      else match s.settleCmd c with
      | none => none
      | some s =>
        let m := match c.kind with | .cred m => m | _ => 0
        let done (code cause faddr : Nat) : Option State := some (s.closeCopy c code cause faddr)
        let ga := snapWord c.snap 19
        if !descOk c.kind c.snap || !s.flowOk c then done 1 0 0
        else match s.objectsFault c with
        | some (q, a) => done 2 q.code a
        | none =>
          let rs := s.units c
          match firstSome (fun r => match r.2 with | .error f => some f | .ok _ => none) rs with
          | some f => done f.1 f.2.1 f.2.2
          | none =>
            let us := rs.filterMap fun r => match r.2 with | .ok u => some u | .error _ => none
            let missing := us.filter c.lacks
            let data := us.flatMap (s.rankData c)
            let lost := missing.any fun u => u.peers.any fun p => !s.peerActive p
            if ga % 64 ≠ 0 then done 2 Cause.align.code ga
            else match s.engAddr c .rmw ga with
            | .error q => done 2 q.code ga
            | .ok (.here k) =>
              if typeOfPa k == some .host || us.any (fun u => match u.dst with | .peer .. => true | _ => false) then done 2 Cause.prot.code ga
              else if s.poisoned k then done 3 Cause.memue.code ga
              else if lost then done 4 0 0
              else if !missing.isEmpty then some (s.gatherRank c missing)
              else match (if Desc.rank c.snap > bits (s.rd k 8) 43 32 then .ok [] else s.rankPlaces c none) with
              | .error f => done 2 f.1 f.2
              | .ok keys =>
                if s.heldAt k || keys.any s.heldAt || us.any (s.unitBusy c) then none
                else
                  let dsts := us.filterMap fun u => match u.dst with | .here d => some d | _ => none
                  match s.rankContribute k m (Desc.rank c.snap) (Desc.esize c.snap) keys dsts data with
                  | .stall => none
                  | .badRank => done 6 0 0
                  | .poison r e => done 3 Cause.memue.code (rankAddr c.snap r e)
                  | .took g s =>
                    let s := s.trackRank c k g keys dsts
                    let (c, s) := s.readsDone { c with phase := .waiting, hops := 0, k := g, addr := BitVec.ofNat 64 k }
                    some (s.setCmd c)
            | .ok (.peer chip pa) =>
              if us.any (fun u => match u.dst with | .peer q _ => decide (q ≠ chip) | .here _ => true) then done 2 Cause.prot.code ga
              else if lost || !s.peerActive chip then done 4 0 0
              else if !missing.isEmpty then some (s.gatherRank c missing)
              else match s.rankPlaces c (some chip) with
              | .error f =>
                -- the home checks RANK before anything else: a contribution of no elements asks it
                let cell := s.cellTo chip c.part (Desc.flow c.snap) c.id 1 (.rank (BitVec.ofNat 3 m) pa (Desc.rank c.snap) (Desc.esize c.snap) 0 0 [] [] [])
                some ({ s with cells := s.cells ++ [cell] }.setCmd { c.failed 2 f.1 f.2 with phase := .waiting, hops := 1, pend := [(1, chip, [])] })
              | .ok keys =>
                let dsts := us.filterMap fun u => match u.dst with | .peer _ d => some d | _ => none
                let cells := s.rankCells c m chip pa keys dsts data
                some ({ s with cells := s.cells ++ cells }.setCmd { c with phase := .waiting, hops := 1, pend := [(1, chip, []), (3, chip, [])] })) s

/-! ### CFLAG (R253) -/

/-- CFLAG does its write (R253). -/
def State.runFlag (s : State) (c : Cmd) (add : Bool) : Option State :=
  match s.settleCmd c with
  | none => none
  | some s =>
    let done (s : State) (code cause : Nat) : Option State :=
      some (s.finishCmd { c with code := code, cause := cause, faddr := if code = 0 then 0 else c.a } (decide (code ≠ 0)) (decide (code = 3)))
    if c.a.toNat % 8 ≠ 0 then done s 2 Cause.align.code
    else match s.engAddr c (if add then .rmw else .store) c.a.toNat with
    | .error q => done s 2 q.code
    | .ok (.here k) =>
      match s.holdAt c.sup k with
      | some h => (s.queueEng c h k 8 1 (.flag add c.v) c.a.toNat).map fun r =>
          if r.1 then r.2.setCmd { c with phase := .waiting, pend := [(1, ownHome, [])] } else r.2
      | none =>
        if add && s.poisoned k then done s 3 Cause.memue.code
        else done (s.writeCmd c (at_ k 8 ((if add then s.rd k 8 else 0) + c.v.toNat))) 0 0
    | .ok (.peer chip pa) =>
      if !s.peerActive chip then done s 4 0
      else
        let cell := s.cellTo chip c.part 0 c.id 1 (.flag add pa c.v)
        some ({ s with cells := s.cells ++ [cell] }.setCmd { c with phase := .waiting, pend := [(1, chip, [])] })

/-! ### The engine's events -/

/-- A command of the copy class. -/
def CmdKind.isCopy : CmdKind → Bool
  | .cpy | .cred _ | .cflag _ => true
  | _ => false

/-- What the completed commands of the command's context wrote to HOST. -/
def State.earlierHost (s : State) (c : Cmd) : Bounds :=
  match (s.core c.core).bankOf c.launch with
  | some b => if b.serial = c.serial then (SMap.get {} b.tls c.tl : Timeline).host else []
  | none => []

/-- COMMAND_RELEASE_START (R243): command id carries .release; the core's earlier accesses are performed, so that its release at system scope is complete,
and so are the earlier commands of its context, with what they wrote to HOST seen everywhere (R192, R243). -/
def execCommandReleaseStart (s : State) : Host.Outcome State Fault Refusal :=
  runEvent (fun x s => match s.cmd x.id with
    | none => none
    | some c =>
      let early := (s.core c.core).late.any (fun l => decide (l.id < c.upto)) || !s.hostSeen .system c.core ((s.visible c.core).join (s.earlierHost c)) || s.conflicts.any (fun x => decide (x.core = c.core) && x.store)
      if !(c.phase == .posted) || !c.release || s.cmdHeld c || early || c.after.any (fun i => (s.cmd i).isSome) then none
      else (s.settleCmd c).map fun s => (s.publish c.core .system).setCmd { c with phase := .started }) s

/-- COPY_NOTBEFORE_START (R250): the time of a command with TB has come. -/
def execCopyNotbeforeStart (s : State) : Host.Outcome State Fault Refusal :=
  runEvent (fun x s => match s.cmd x.id with
    | none => none
    | some c =>
      if !c.kind.isCopy || !c.mayRun || !Desc.tb c.snap || c.timed || s.cmdHeld c || decide (s.time.toNat < snapWord c.snap 20) then none
      else some (s.setCmd { c with timed := true })) s

/-- COPY_COMMAND_COMPLETE (R242): command id does its local work and completes, or asks its peers and completes when all have answered. With `q`
its unit n moves ahead of the others. -/
def execCopyCommandComplete (s : State) : Host.Outcome State Fault Refusal :=
  runEvent (fun x s => match s.cmd x.id with
    | none => none
    | some c =>
      if !c.kind.isCopy || s.cmdHeld c then none
      else
        let flag := match c.kind with | .cflag _ => true | _ => false
        let finish (s : State) : Option State :=
          if flag then some (s.finishCmd c (decide (c.code ≠ 0)) (decide (c.code = 3)))
          else if s.statusBusy c then none else some (s.finishCopy c)
        if c.phase == .finished then finish s
        else if c.phase == .waiting then
          if !c.pend.isEmpty then none
          else if c.kind.isRank && decide (c.hops = 2) && decide (c.code = 0) then none
          else if c.kind.isRank && decide (c.hops = 0) && decide (c.code = 0) && decide (bits (s.rd c.addr.toNat 8) 15 12 = c.k) then none
          else finish s
        else if !c.mayRun || c.kind.isRank then none
        else match c.kind with
          | .cflag add => s.runFlag c add
          | _ => if descOk c.kind c.snap && Desc.tb c.snap && !c.timed then none else if x.q then s.copyUnit c x.n else s.runCopy c) s

/-- What an answer says went wrong, if nothing had gone wrong before (R242, R248): poison is MEMUE, a refusal PROT, at `addr`. -/
def Cmd.heard (c : Cmd) (ok poisoned : Bool) (addr : Nat) : Cmd :=
  if c.code ≠ 0 then c else if poisoned then c.failed 3 Cause.memue.code addr else if ok then c else c.failed 2 Cause.prot.code addr

/-- A unit whose pieces are all here goes to its destination (R247, R251): written here, or sent to its peer. None while a page under migration holds it. -/
def State.deliver (s : State) (c : Cmd) (u : CUnit) (w v : Nat) : Option State :=
  match s.engAddr c (match c.kind with | .cred _ => .rmw | _ => .store) u.dst with
  | .error q => some (s.setCmd (c.failed 2 q.code u.dst))
  | .ok (.here k) =>
    let idx := 2 * (u.u * w) + 1
    match s.holdAt c.sup k, c.kind with
    | some h, .cred m => (s.queueEng c h k u.n idx (.cred m u.n v) u.dst).bind fun r =>
        if r.1 then (let (c, s) := r.2.readsDone { c with pend := c.pend ++ [(idx, ownHome, [0])] }; some (s.setCmd c)) else none
    | some _, _ => none
    | none, _ =>
      let bad := match c.kind with | .cred _ => (List.range (ceilDiv u.n 8)).any fun j => s.poisoned (s.place c.sup k (8 * j)) | _ => false
      let (c, s) := (if bad then (c.failed 3 Cause.memue.code u.dst, s) else (c, (s.engWrite c (s.applyUnit c k u.n v) k u.dst).ringBytes c u.n) : Cmd × State)
      let (c, s) := s.readsDone c
      some (s.setCmd c)
  | .ok (.peer chip pa) =>
    if !s.peerActive chip then (let (c, s) := s.withdraw (c.failed 4 0 0); some (s.setCmd c))
    else
      let kind : CellKind := match c.kind with | .cred m => .cred (BitVec.ofNat 3 m) pa (bytesOf u.n v) | _ => .write pa (bytesOf u.n v)
      let i := 2 * (u.u * w) + 1
      let s := { s with cells := s.cells ++ [s.cellTo chip c.part (Desc.flow c.snap) c.id i kind] }
      let (c, s) := s.readsDone { c with pend := c.pend ++ [(i, chip, [match kind with | .write _ d => d.length | _ => 0])] }
      some (s.setCmd c)

/-- An answer to request idx of a repartition (R269, R270): a word of ITEMS is kept; a write is performed, and with the last write of a delivered part that part is
acknowledged. A refused write is a failed translation, a refused item a member whose launch was abandoned. -/
def State.answerRepart (s : State) (c : Cmd) (idx : Nat) (ok poisoned : Bool) (data : List Byte) : State :=
  let c := if c.code ≥ 2 then c
    else if poisoned then c.failed 5 Cause.memue.code (snapWord c.snap 2 + 8 * (idx / 4))
    else if !ok then c.failed (if idx % 4 = 3 && !data.isEmpty then 7 else 4) 0 0
    else if idx % 4 = 0 then { c with got := (idx, data) :: c.got }
    else c
  let acks := c.acks.map fun a => (a.1.filter (· ≠ idx), a.2)
  let c := { c with acks := acks.filter fun a => !a.1.isEmpty }
  ((acks.filter fun a => a.1.isEmpty).foldl (fun (s : State) a => s.emit (s.ackTo a.2 ok false [])) s).setCmd c

/-- An answer of a peer to request idx of command c (R242, R248): a read's data go to their destination, or are kept for a rank CRED; of the two answers to a
contribution, request 3's says that the home has taken it, with which its reads are performed, and request 1's that its generation is complete. None while the
destination's page is under migration. -/
def State.answer (s : State) (c : Cmd) (idx : Nat) (ok poisoned : Bool) (data : List Byte) : Option State :=
  if !(c.pend.any fun p => p.1 = idx) || c.phase == .finished then some s
  else
    let bytes := ((c.pend.find? fun p => p.1 = idx).map fun p => p.2.2.headD 0).getD 0
    let c := { c with pend := c.pend.filter fun p => p.1 ≠ idx }
    match c.kind with
    | .cflag _ => some (s.setCmd (c.heard ok poisoned c.a.toNat))
    | .repart => some (s.answerRepart c idx ok poisoned data)
    | _ =>
      if c.kind.isRank then
        let c' := c.heard ok poisoned (if idx % 2 = 0 then Desc.srcAddr c.snap (idx / 2) else snapWord c.snap 19)
        if idx % 2 = 0 then some (s.setCmd (if ok && !poisoned then { c with got := (idx, data) :: c.got } else c'))
        else if idx = 3 then (let (c, s) := s.readsDone c; some (s.setCmd c))
        else some (s.setCmd { (if ok || poisoned || data.isEmpty then c' else c.failed 6 0 0) with pend := [] })
      else
        let es := Desc.esize c.snap
        let per := match c.kind with | .cred _ => 1 | _ => es / (c.kind.align es).1
        let w := match c.kind with | .cred 7 => 6 | _ => 1
        match (elemUnits c.kind c.snap (idx / 2 / w / per)).find? fun u => u.u = idx / 2 / w with
        | none => some (s.setCmd c)
        | some u =>
          if poisoned || !ok then
            let (c, s) := s.readsDone (c.heard ok poisoned (if idx % 2 = 0 then ((u.src[idx / 2 % w]?).map (·.1)).getD 0 else u.dst))
            some (s.setCmd c)
          else if idx % 2 = 1 then some ((s.ringBytes c bytes).setCmd c)
          else
            let c := { c with got := (idx, data) :: c.got }
            let piece (j : Nat) : Option (List Byte) := (c.got.find? fun p => p.1 = 2 * (u.u * w + j)).map (·.2)
            if (List.range w).any fun j => (piece j).isNone then some (s.setCmd c)
            else
              let v := ofBytes (((List.range w).flatMap fun j => (piece j).getD []).take u.n)
              s.deliver { c with got := c.got.filter fun p => p.1 / 2 / w ≠ u.u } u w v

end Sys2Proof.Machine
end

