-- ==== Sys2Proof/Machine/Chase.lean ====
section
/-!
DEFINITION. Chase.lean: chained loads (R261 to R265, R353).
-/
namespace Sys2Proof.Machine

open Sys2Proof

/-- The packet's bytes (R240, R261): in the local store window, 16-byte aligned, 32 + 16·n bytes. -/
def readPacket (k : Nat) (s : State) (a : Word) : M (List Byte × State) := do
  let inLs (x : Word) : Bool := match windowOf x.toNat with | some (true, _) => true | _ => false
  trapIf (!inLs a) .prot a
  let (h, s) ← s.snapshot k a 32 16
  let (t, s) ← s.snapshot k (a + 32) (16 * (bits (snapWord h 0) 34 32 + 1)) 16
  .ok (h ++ t, s)

/-- CHASE (R240, R261). -/
def execChase (p : PostOp) (s : State) : Host.Outcome State Fault Refusal := postCopy (.chase p) p .chase 3 none readPacket s

/-- Steps of a packet: mask and second word. -/
def packetSteps (b : List Byte) : List (BitVec 128) := (List.range (bits (snapWord b 0) 34 32 + 1)).map fun k => BitVec.ofNat 128 (snapAt b (32 + 16 * k) 16)

def stepOp (x : BitVec 128) : Nat := bits x.toNat 103 96
def stepMask (x : BitVec 128) : Nat := x.toNat % 2 ^ 64
def stepOff (x : BitVec 128) : Int := sext (bits x.toNat 95 64) 32
def stepLoads (x : BitVec 128) : Bool := stepOp x == 1 || stepOp x == 2

/-- The packet passes its check (R262). -/
def packetOk (b : List Byte) : Bool :=
  let w0 := snapWord b 0
  let st := packetSteps b
  let rport := bit w0 31
  decide (w0 < 2 ^ 35) && decide (bits w0 30 27 = 0) && decide (bits w0 23 17 = 0) && decide (snapWord b 3 = 0)
    && (if rport then decide (w0 % 2 ^ 17 = 0) else decide (bits w0 26 24 = 0) && decide (w0 % 16 = 0))
    && (List.range st.length).all fun k =>
      let x := st.getD k 0
      decide (x.toNat < 2 ^ 104) && decide (1 ≤ stepOp x) && decide (stepOp x ≤ 5)
        && (stepLoads x || (decide (k + 1 = st.length) && decide (stepMask x = 0) && decide (stepOff x = 0)))

/-- How one step at a local home ends: a result code with its cause, or the value it gives (R262). -/
inductive StepEnd where
  | bad (code cause : Nat)
  | val (x : Word) (s : State)
  deriving DecidableEq, Repr

/-- Step x at physical address pa for virtual address a, indivisibly at its home (R262). -/
def State.chainStep (s : State) (x : BitVec 128) (operand : Word) (a : Word) (pa : Nat) : StepEnd :=
  let n := if stepOp x = 2 then 4 else 8
  match typeOfPa pa with
  | some .cms | some .dev =>
    if a.toNat % n ≠ 0 then .bad 2 Cause.align.code
    else if s.poisoned pa then .bad 4 Cause.memue.code
    else
      let old := s.rd pa n
      if stepLoads x then .val (wordOfInt ((BitVec.ofNat 64 old &&& BitVec.ofNat 64 (stepMask x)).toNat + stepOff x)) s
      else
        let new := match stepOp x with
          | 3 => (fpAdd fi64 envRne 0 old operand.toNat).1
          | 4 => old + operand.toNat
          | _ => operand.toNat
        .val (BitVec.ofNat 64 old) (s.wr pa 8 new)
  | _ => .bad 2 Cause.prot.code

/-- A page under migration holds the step (R350): a load waits behind a queued write. A read-modify-write waits too where it comes from another module, whose
pages the firmware does not migrate; one of this module is queued. -/
def State.chainBusy (s : State) (x : BitVec 128) (pa : Nat) : Bool := if stepLoads x then s.granuleBusy pa else s.heldAt pa

/-- The chain of command c ends with a result (R264): STEP and HOPS stand in k and hops. After MEMUE, wherever it was met, the value is the address a_k (R262), which
the fault message names (R360, R370). -/
def State.endChain (s : State) (c : Cmd) (code cause : Nat) (v : Word) : State :=
  s.setCmd { c with phase := .finished, code := code, cause := cause, v := v, faddr := if code = 4 then v else 0, pend := [] }

/-- The chain ends with BADPKT or PEERRESET, STEP 0 and HOPS 0: the value is open (R262, R263). -/
def State.endChainOpen (s : State) (c : Cmd) (code : Nat) : State :=
  (s.endChain { c with k := 0, hops := 0 } code 0 (Config.openWord s.fresh)).draw

/-- One step, or forward, of a chain on its origin module (R262, R263). A read-modify-write for a page under migration joins its queue (R350). -/
def State.originStep (s : State) (c : Cmd) : Option State :=
  let steps := packetSteps c.snap
  let x := steps.getD c.k 0
  match s.engAddr c .load c.addr.toNat with
  | .error q => some (s.endChain c 2 q.code c.addr)
  | .ok (.peer chip _) =>
    if c.hops ≥ 16 then some (s.endChain c 3 0 c.addr)
    else if !s.peerActive chip then some (s.endChainOpen c 5)
    else
      let cell := s.cellTo chip c.part 0 c.id 0 (.chase c.id s.cfg.chip.toNat s.incarn (coreId c.core) c.k (c.hops + 1) c.addr (BitVec.ofNat 64 (snapWord c.snap 2)) steps)
      some ({ s with cells := s.cells ++ [cell] }.setCmd { c with phase := .waiting, hops := c.hops + 1, pend := [(0, chip, [])] })
  | .ok (.here pa) =>
    let queued := if stepLoads x || decide (c.addr.toNat % 8 ≠ 0) then none else s.holdAt c.sup pa
    match queued with
    | some h => (s.queueEng c h pa 8 0 .chase c.addr.toNat).map fun r =>
        if r.1 then r.2.setCmd { c with phase := .waiting, pend := [(0, ownHome, [])] } else r.2
    | none =>
    if stepLoads x && s.granuleBusy pa then none
    else match s.chainStep x (BitVec.ofNat 64 (snapWord c.snap 2)) c.addr pa with
    | .bad code cause => some (s.endChain c code cause c.addr)
    | .val y s =>
      if c.k + 1 = steps.length then some (s.endChain c 0 0 y)
      else some (s.setCmd { c with phase := .running, k := c.k + 1, addr := y })

/-- Access list i of a partition admits a CHIPID (R352). A poisoned byte of it admits none, because it returns no data to anyone (R369, log entry 58). -/
def State.listAdmits (s : State) (p i chip : Nat) : Bool :=
  let a := (s.prt p).albase + (i - 1) * 128 + chip / 8
  decide (i ≠ 0) && !s.poisoned a && bit (s.byte a).toNat (chip % 8)

/-- The partition that serves chained loads of other modules (R340, R353). -/
def State.chainPart (s : State) : Nat := ((List.range s.cfg.nparts).find? fun p => (s.prt p).chain).getD 0

/-- Status word of a chain's result (R264). -/
def chainStatus (code cause hops step : Nat) : Word := BitVec.ofNat 64 (cause % 256 * 2 ^ 24 + hops % 32 * 2 ^ 19 + step % 8 * 2 ^ 16 + code)

/-- One step, or forward, of another module's chain that this module serves (R263, R353); its packet is `cell`. The result goes to the incarnation that
sent the chain (R264). -/
def State.servedStep (s : State) (n : Nat) (cell : Sys2Proof.Cell) : Option State :=
  match cell.kind with
  | .chase id origin inc coreid k hops addr operand steps =>
    let s0 := { s with chains := s.chains.eraseIdx n }
    let x := steps.getD k 0
    let answer (s : State) (code cause : Nat) (v : Word) : Option State :=
      some { s with cells := s.cells ++ [{ s.cellTo origin cell.part 0 id 0 (.chaseResult id coreid v (chainStatus code cause hops k)) with dstInc := inc }] }
    let p := s.chainPart
    match s.walk p addr.toNat with
    | .found e =>
      if addr.toNat ≥ 2 ^ 56 || !e.r || !s.listAdmits p e.openList origin then answer s0 2 Cause.prot.code addr
      else if e.type = 4 then
        if hops ≥ 16 then answer s0 3 0 addr
        else if !s.peerActive e.chip then answer s0.draw 5 0 (Config.openWord s0.fresh)
        else some { s0 with cells := s0.cells ++ [s0.cellTo e.chip cell.part 0 id 0 (.chase id origin inc coreid k (hops + 1) addr operand steps)] }
      else if !s.backed p e.type (e.pa addr.toNat) then answer s0 2 Cause.prot.code addr
      else if s.chainBusy x (e.pa addr.toNat) then none
      else match s0.chainStep x operand addr (e.pa addr.toNat) with
        | .bad code cause => answer s0 code cause addr
        | .val y s1 =>
          if k + 1 = steps.length then answer s1 0 0 y
          else some { s1 with chains := s1.chains ++ [{ cell with kind := .chase id origin inc coreid (k + 1) hops y operand steps }] }
    | _ => answer s0 2 Cause.prot.code addr
  | _ => none

/-- CHASE_STEP (R262): the next step of command id's chain at its owner here, or with `q` of the n-th chain served for another module. -/
def execChaseStep (s : State) : Host.Outcome State Fault Refusal :=
  runEvent (fun x s =>
    if x.q then match s.chains[x.n]? with
      | some cell => s.servedStep x.n cell
      | none => none
    else match s.cmd x.id with
      | none => none
      | some c =>
        if !(c.kind == .chase) || s.cmdHeld c then none
        else if c.phase == .running then s.originStep c
        else if !c.mayRun then none
        else match s.settleCmd c with
          | none => none
          | some s =>
            let c := { c with addr := BitVec.ofNat 64 (snapWord c.snap 1) }
            if packetOk c.snap then s.originStep c else some (s.endChainOpen c 1)) s

/-- Where a chain's result goes on a port: room for two words, no packet under way (R235, R264). -/
def State.portRoom (s : State) (c : Cmd) (p : Nat) : Bool :=
  let r := s.rxOf c.core c.launch p
  decide (r.q.length + (s.wires.filter fun w => w.dst = c.core ∧ w.dstPort = p ∧ w.launch = c.launch).length ≤ 6) && r.owner.isNone

/-- CHASE_RESULT (R264): the result of command id reaches its origin, and tl3 advances. A task that has ended gets nothing. Where RETOFF lies outside the launch's
allocation the command completes with FAULT, CAUSE LEASE, and nothing is written (R371). -/
def execChaseResult (s : State) : Host.Outcome State Fault Refusal :=
  runEvent (fun x s => match s.cmd x.id with
    | none => none
    | some c =>
      if !(c.kind == .chase) || !(c.phase == .finished) || s.cmdHeld c then none
      else
        let alive := match (s.core c.core).bankOf c.launch with | some b => decide (b.serial = c.serial) | none => false
        let st := chainStatus c.code c.cause c.hops c.k
        let w0 := snapWord c.snap 0
        let memue := decide (c.code = 4)
        if !alive then some (s.finishCmd c true memue)
        else if bit w0 31 then
          let p := bits w0 26 24
          if !s.portRoom c p then none
          else
            let r := s.rxOf c.core c.launch p
            let word (w : Word) (last : Bool) : RxWord := ⟨w, coreId c.core, 8, last, false⟩
            let s := s.setRxOf c.core c.launch p { r with q := r.q ++ [word c.v false, word st true] }
            some (s.finishCmd c (decide (c.code ≠ 0)) memue)
        else
          let o := lsWin + w0 % 2 ^ 17
          match s.engAddr c .store o, s.engAddr c .store (o + 8) with
          | .ok (.here a), .ok (.here b) => some (((s.writeCmd c (at_ a 8 c.v.toNat)).writeCmd c (at_ b 8 st.toNat)).finishCmd c (decide (c.code ≠ 0)) memue)
          | _, _ => some (s.finishCmd (if c.code = 0 then { c with code := 2, cause := Cause.lease.code } else c) true memue)) s

end Sys2Proof.Machine
end

