-- ==== Sys2Proof/Machine/Repart.lean ====
section
/-!
DEFINITION. Repart.lean: repartition (R266 to R270). What the other members bring stands in the event's arguments; the items they deliver here arrive in cells.
-/
namespace Sys2Proof.Machine

open Sys2Proof

/-- The block and, behind it, the member table, both read at issue (R240, R266). -/
def readBlock (k : Nat) (s : State) (a : Word) : M (List Byte × State) := do
  let (b, s) ← s.snapshot k a 128 64
  let m := snapWord b 1
  let n := bits (snapWord b 0) 25 16 + 1
  let ls : List LaneAt := (List.range n).map fun j => ⟨j, BitVec.ofNat 64 (m + 2 * j), 2, m % 2 != 0⟩
  let (ps, s) ← s.checkLanes k .load ls
  let (xs, s) ← s.loadLanes k false ps
  .ok (b ++ xs.flatMap fun x => bytesOf 2 x.2.2, s.watch k (ps.flatMap fun p => placesOf p.2))

/-- REPART (R240, R266). -/
def execRepart (p : PostOp) (s : State) : Host.Outcome State Fault Refusal := postCopy (.repart p) p .repart 3 none readBlock s

/-! ### Keys (R267) -/

/-- Interleave bits j = 20 down to 0 of the coordinates (I of R267). -/
def interleave (xs : List Nat) : Nat :=
  (List.range 21).foldl (fun o j => xs.foldl (fun o x => 2 * o + b2n (bit x (20 - j))) o) 0

/-- The transform that HILBERT makes before I (R267). -/
def hilbert (xs : List Nat) : List Nat :=
  let m := xs.length
  let g (l : List Nat) (i : Nat) : Nat := l.getD i 0
  let pass (l : List Nat) (j : Nat) : List Nat :=
    let q := 2 ^ (20 - j)
    (List.range m).foldl (fun l i =>
      if bit (g l i) (20 - j) then l.set 0 (g l 0 ^^^ (q - 1))
      else
        let t := (g l 0 ^^^ g l i) &&& (q - 1)
        let l := l.set 0 (g l 0 ^^^ t)
        l.set i (g l i ^^^ t)) l
  let l := (List.range 20).foldl pass xs
  let l := (List.range (m - 1)).foldl (fun l i => l.set (i + 1) (g l (i + 1) ^^^ g l i)) l
  let t := (List.range 20).foldl (fun t j => if bit (g l (m - 1)) (20 - j) then t ^^^ (2 ^ (20 - j) - 1) else t) 0
  l.map (· ^^^ t)

/-- The key of an item (R267). -/
def itemKey (curve koff : Nat) (item : List Byte) : Nat :=
  let co (i : Nat) : Nat := snapAt item (koff + 4 * i) 4 % 2 ^ 21
  match curve with
  | 0 => snapAt item koff 8
  | 1 => interleave [co 0, co 1] * 2 ^ 22
  | 2 => interleave [co 0, co 1, co 2] * 2
  | 3 => interleave (hilbert [co 0, co 1]) * 2 ^ 22
  | _ => interleave (hilbert [co 0, co 1, co 2]) * 2

/-! ### The collective (R268, R269) -/

/-- An item with what orders it. -/
structure RepItem where
  key : Nat
  rank : Nat
  idx : Nat
  load : Nat
  data : List Byte
  deriving DecidableEq, Repr

/-- Items of one member. -/
def memberItems (rank curve koff loff : Nat) (lunit : Bool) (items : List (List Byte)) : List RepItem :=
  items.mapIdx fun i d => ⟨itemKey curve koff d, rank, i, if lunit then 1 else snapAt d loff 4, d⟩

/-- Ascending (key, source rank, source index). -/
def RepItem.before (a b : RepItem) : Bool :=
  decide (a.key < b.key) || (decide (a.key = b.key) && (decide (a.rank < b.rank) || (decide (a.rank = b.rank) && decide (a.idx ≤ b.idx))))

/-- Insert in order. -/
def insertItem (x : RepItem) : List RepItem → List RepItem
  | [] => [x]
  | y :: t => if x.before y then x :: y :: t else y :: insertItem x t

def sortItems (l : List RepItem) : List RepItem := l.foldr insertItem []

/-- start_p (R268): the least bucket c with P · (loads below c) ≥ p · total; 65536 where there is none. -/
def startOf (items : List RepItem) (np p : Nat) : Nat :=
  if p ≥ np then 65536
  else
    let total := (items.map (·.load)).foldl (· + ·) 0
    -- the sum changes only behind a bucket that holds items
    let cands := 0 :: (items.map fun x => x.key / 2 ^ 48 + 1)
    let below (c : Nat) : Nat := ((items.filter fun x => x.key / 2 ^ 48 < c).map (·.load)).foldl (· + ·) 0
    ((cands.filter fun c => c ≤ 65535 ∧ np * below c ≥ p * total).foldl (fun (m : Option Nat) c => some (min (m.getD c) c)) none).getD 65536

/-- The fields of a block keep R266; the table names this module once, at RANK. -/
def blockOk (chip : Nat) (b : List Byte) : Bool :=
  let w := snapWord b
  let np := bits (w 0) 25 16 + 1
  let isz := bits (w 3) 8 0
  let curve := bits (w 4) 23 21
  let koff := bits (w 4) 7 0
  let loff := bits (w 4) 15 8
  let lunit := bit (w 4) 20
  let table := (List.range np).map fun p => snapAt b (128 + 2 * p) 2
  let dims := if curve = 1 ∨ curve = 3 then 2 else 3
  decide (bits (w 0) 31 26 = 0) && decide (bits (w 0) 15 10 = 0) && decide (w 0 % 2 ^ 10 < np) && decide (w 2 % 8 = 0)
    && decide (bits (w 3) 31 9 = 0) && decide (isz % 8 = 0) && decide (8 ≤ isz) && decide (isz ≤ 256)
    && decide (w 4 < 2 ^ 24) && decide (bits (w 4) 19 16 = 0) && decide (curve ≤ 4)
    && (if lunit then decide (loff = 0) else decide (loff % 4 = 0) && decide (loff + 4 ≤ isz))
    && (if curve = 0 then decide (koff % 8 = 0) && decide (koff + 8 ≤ isz) else decide (koff % 4 = 0) && decide (koff + 4 * dims ≤ isz))
    && decide (bits (w 6) 63 32 = 0) && decide (w 11 < 256) && decide (w 12 = 0) && decide (w 13 = 0) && decide (w 14 = 0) && decide (w 15 = 0)
    && table.all (· < 2 ^ 10) && decide (table.getD (w 0 % 2 ^ 10) 0 = chip) && decide ((table.filter (· = chip)).length = 1)
    && (match windowOf (w 1) with | some (true, _) => false | _ => true)

/-- The member table lies in memory of a type that R266 admits. -/
def State.tableOk (s : State) (c : Cmd) : Bool :=
  (List.range (bits (snapWord c.snap 0) 25 16 + 1)).all fun p => match s.engAddr c .load (snapWord c.snap 1 + 2 * p) with
    | .ok (.here k) => (match typeOfPa k with | some .csp | some .cms | some .dev => true | _ => false)
    | _ => true

/-- n bytes of ITEMS from byte o on, word by word, those of peers as they were read (request 4·j for word j); or code and address of the first failure (R269). -/
def State.repRead (s : State) (c : Cmd) (o n : Nat) : Except (Nat × Nat) (List Byte) :=
  let base := snapWord c.snap 2
  let rs := (List.range (n / 8)).map fun j => (o / 8 + j, s.engAddr c .load (base + o + 8 * j))
  match firstSome (fun r => match r.2 with
      | .ok (.here k) => if s.poisoned k then some (5, base + 8 * r.1) else none
      | .ok (.peer chip _) => if s.peerActive chip then none else some (6, base + 8 * r.1)
      | .error _ => some (4, base + 8 * r.1)) rs with
  | some f => .error f
  | none => .ok (rs.flatMap fun r => match r.2 with
      | .ok (.here k) => (List.range 8).map fun j => s.byte (k + j)
      | _ => ((c.got.find? fun g => g.1 = 4 * r.1).map (·.2)).getD [])

/-- The words of ITEMS that lie on peers and have not been read (R248, R269), each with its request. -/
def State.repAsk (s : State) (c : Cmd) : List (Nat × Sys2Proof.Cell) :=
  (List.range (snapWord c.snap 3 / 2 ^ 32 * (bits (snapWord c.snap 3) 8 0 / 8))).filterMap fun j =>
    match s.engAddr c .load (snapWord c.snap 2 + 8 * j) with
    | .ok (.peer chip pa) => if c.got.any fun g => g.1 = 4 * j then none else some (4 * j, s.cellTo chip c.part 0 c.id (4 * j) (.read pa 8))
    | _ => none

/-- The pieces in which n bytes at an engine address are written: words, or single bytes at an address that is no multiple of 8. -/
def repPieces (va n : Nat) : List (Nat × Nat) :=
  let w := if va % 8 = 0 then 8 else 1
  (List.range (n / w)).map fun j => (w * j, w)

/-- The code of the first of n bytes that cannot be written at an engine address: a translation fails, or a peer is STALE (R258, R269). -/
def State.repFault (s : State) (c : Cmd) (va n : Nat) : Option Nat :=
  firstSome (fun p => match s.engAddr c .store (va + p.1) with
    | .error _ => some 4
    | .ok (.peer chip _) => if s.peerActive chip then none else some 6
    | .ok (.here _) => none) (repPieces va n)

/-- Write bytes at an engine address: those that lie here are written, those of peers leave in cells (R248), of which the first byte's piece gives the request number. -/
def State.repStore (s : State) (c : Cmd) (va idx : Nat) (d : List Byte) : List (Nat × Sys2Proof.Cell) × State :=
  (repPieces va d.length).foldl (fun (r : List (Nat × Sys2Proof.Cell) × State) p =>
    let x := (d.drop p.1).take p.2
    match r.2.engAddr c .store (va + p.1) with
    | .ok (.here k) => (r.1, r.2.engWrite c (x.mapIdx fun i b => (k + i, b)) k (va + p.1))
    | .ok (.peer chip pa) => (joinWrite r.1 (idx + 4 * p.1, r.2.cellTo chip c.part 0 c.id (idx + 4 * p.1) (.write pa x)), r.2)
    | .error _ => r) ([], s)

/-- The parts of an item in cells: at most 112 bytes each (R254). -/
def itemParts (n : Nat) : List (Nat × Nat) := (List.range (ceilDiv n 112)).map fun j => (112 * j, min 112 (n - 112 * j))

/-- The cells that carry an item to its owner (R254). -/
def State.itemCells (s : State) (c : Cmd) (chip tag me : Nat) (x : RepItem) : List (Nat × Sys2Proof.Cell) :=
  (itemParts x.data.length).map fun p =>
    let n := 4 * (4 * x.idx + p.1 / 112) + 3
    (n, s.cellTo chip c.part 0 c.id n (.item tag me x.idx p.1 ((x.data.drop p.1).take p.2)))

/-- A request of a command, as it awaits its answer. -/
def asked (r : Nat × Sys2Proof.Cell) : Nat × Nat × List Nat := (r.1, r.2.dstId.toNat, [cellBytes r.2])

/-- The collective with what the other members bring (R268, R269): command c with its code and counts, and the state. Its own items go to RECV and SPILL, or to their
owners in cells, whose acknowledgements it awaits; those of other members for its RECV are due (R270). A failure that shows before then leaves nothing written, of
the subsets that R269 leaves open (log entry 74). -/
def State.collective (s : State) (c : Cmd) (ms : List RepMember) : Cmd × State :=
  let b := c.snap
  let w := snapWord b
  let np := bits (w 0) 25 16 + 1
  let tag := w 0 / 2 ^ 32
  let me := w 0 % 2 ^ 10
  let ni := w 3 / 2 ^ 32
  let isz := bits (w 3) 8 0
  let curve := bits (w 4) 23 21
  let lunit := bit (w 4) 20
  let cap := w 6 % 2 ^ 32
  let table := (List.range np).map fun p => BitVec.ofNat 10 (snapAt b (128 + 2 * p) 2)
  let fail (code addr : Nat) : Cmd × State :=
    ({ c with phase := .finished, code := code, cause := if code = 5 then Cause.memue.code else 0, faddr := BitVec.ofNat 64 addr, got := [] }, s)
  let differs (m : RepMember) : Bool := m.tag != tag || m.pm1 + 1 != np || m.table != table || m.isz != isz || m.curve != curve || m.lunit != lunit
  if ms.any differs then fail 3 0
  else
    let own := (List.range ni).map fun i => s.repRead c (i * isz) isz
    let ownFail := firstSome (fun r => match r with | .error f => some f | .ok _ => none) own
    let others := (ms.filterMap (·.failed)).foldl (fun (m : Option Nat) x => some (min (m.getD x) x)) none
    match ownFail, others with
    | some f, _ => fail f.1 f.2
    | none, some code => fail code 0
    | none, none =>
      let mine := memberItems me curve (bits (w 4) 7 0) (bits (w 4) 15 8) lunit (own.filterMap fun r => match r with | .ok d => some d | .error _ => none)
      let all := sortItems (mine ++ ms.flatMap fun m => memberItems m.rank m.curve m.koff m.loff m.lunit m.items)
      let start (p : Nat) : Nat := startOf all np p
      let ownerOf (x : RepItem) : Nat := ((List.range np).find? fun p => start p ≤ x.key / 2 ^ 48 ∧ x.key / 2 ^ 48 < start (p + 1)).getD 0
      let list (p : Nat) : List RepItem := all.filter fun x => ownerOf x = p
      let capOf (p : Nat) : Nat := if p = me then cap else ((ms.find? fun m => m.rank = p).map (·.cap)).getD 0
      let refused (x : RepItem) : Bool := ((list (ownerOf x)).drop (capOf (ownerOf x))).contains x
      let recv := (list me).take cap
      let kept := mine.filter refused
      let excess := (list me).length - recv.length
      let put (r : List (Nat × Sys2Proof.Cell) × State) (base tag : Nat) (l : List (RepItem × Nat)) : List (Nat × Sys2Proof.Cell) × State :=
        l.foldl (fun r p => let q := r.2.repStore c (base + p.2 * isz) (4 * (p.2 * isz) + tag) p.1.data; (r.1 ++ q.1.reverse, q.2)) r
      match if (s.repFault c (w 5) (recv.length * isz)).isSome then s.repFault c (w 5) (recv.length * isz) else s.repFault c (w 7) (kept.length * isz) with
      | some code => fail code 0
      | none =>
        let placed := recv.zip (List.range recv.length)
        let (writes, s) := put (put ([], s) (w 5) 1 (placed.filter fun p => decide (p.1.rank = me))) (w 7) 2 (kept.zip (List.range kept.length))
        let due := (placed.filter fun p => decide (p.1.rank ≠ me)).flatMap fun p => (itemParts isz).map fun q => ({ rank := p.1.rank, idx := p.1.idx, off := q.1, pos := p.2 } : RepDue)
        let counts := bytesOf 8 (recv.length * 2 ^ 32 + excess) ++ bytesOf 8 ((mine.length - kept.length) * 2 ^ 32 + kept.length)
          ++ bytesOf 8 (start (me + 1) * 2 ^ 32 + start me)
        let out := mine.filter fun x => !refused x && decide (ownerOf x ≠ me)
        let cells := writes ++ out.flatMap fun x => s.itemCells c (table.getD (ownerOf x) 0).toNat tag me x
        ({ c with phase := if cells.isEmpty && due.isEmpty then .finished else .waiting, hops := 3, code := if excess = 0 ∧ kept = [] then 0 else 1, got := [(8, counts)]
                  pend := cells.map asked, due := due }, { s with cells := s.cells ++ cells.map Prod.snd })

/-- A page that the collective reads or writes is under migration (R242). -/
def State.repartBusy (s : State) (c : Cmd) : Bool :=
  let w := snapWord c.snap
  let isz := bits (w 3) 8 0
  let any (write : Bool) (base n : Nat) : Bool := (List.range (n * (isz / 8))).any fun j => s.vaBusy c write (base + 8 * j)
  !s.holds.isEmpty && (any false (w 2) (w 3 / 2 ^ 32) || any true (w 5) (w 6 % 2 ^ 32) || any true (w 7) (w 3 / 2 ^ 32))

/-- A member, other than this module, that this module does not know as ACTIVE (R258). -/
def State.staleMember (s : State) (c : Cmd) : Bool :=
  (List.range (bits (snapWord c.snap 0) 25 16 + 1)).any fun p =>
    decide (p ≠ snapWord c.snap 0 % 2 ^ 10) && !s.peerActive (snapAt c.snap (128 + 2 * p) 2)

/-- The command begins its part in the collective, or has read the words of ITEMS that lie on peers (hops 2) and goes on. -/
def Cmd.mayCollect (c : Cmd) : Bool := c.mayRun || (c.phase == .waiting && decide (c.hops = 2) && c.pend.isEmpty && decide (c.code = 0))

/-- REPART_COLLECTIVE (R268, R270): the last member has arrived; `members` are the other ranks, each once. Items that lie on peers are read first. A STALE
member ends the command with PEERRESET, and nothing is sent (R258). -/
def execRepartCollective (s : State) : Host.Outcome State Fault Refusal :=
  runEvent (fun x s => match s.cmd x.id with
    | none => none
    | some c =>
      if !(c.kind == .repart) || !c.mayCollect || s.cmdHeld c then none
      else match s.settleCmd c with
      | none => none
      | some s =>
        let np := bits (snapWord c.snap 0) 25 16 + 1
        let me := snapWord c.snap 0 % 2 ^ 10
        if !blockOk s.cfg.chip.toNat c.snap || !s.tableOk c then some (s.setCmd { c with phase := .finished, code := 2 })
        else if s.staleMember c then some (s.setCmd { c with phase := .finished, code := 6, got := [] })
        else if !((List.range np).all fun p => decide (p = me) || decide ((x.members.filter fun m => m.rank = p).length = 1)) || decide (x.members.length ≠ np - 1) || s.repartBusy c then none
        else
          let asks := s.repAsk c
          let total := snapWord c.snap 3 / 2 ^ 32 * bits (snapWord c.snap 3) 8 0
          if !asks.isEmpty && (match s.repRead c 0 total with | .ok _ => true | .error _ => false) && x.members.all (fun m => m.failed.isNone) then
            some ({ s with cells := s.cells ++ asks.map Prod.snd }.setCmd { c with phase := .waiting, hops := 2, pend := asks.map asked })
          else
            let r := s.collective c x.members
            some (r.2.setCmd r.1)) s

/-- A part of an item that another member delivers (R269, R270): it goes to its place in RECV, and is acknowledged once it is performed there. A part of no
instance of the TAG here is refused: its launch was abandoned, or it failed. None while the instance has not started, or is held. -/
def State.takeItem (s : State) (x : Sys2Proof.Cell) (tag rank idx off : Nat) (data : List Byte) : Option State :=
  let gone : Option State := some (s.emit (s.ackTo x false false [1]))
  match s.cmds.find? fun c => c.kind == .repart && decide (snapWord c.snap 0 / 2 ^ 32 = tag) && decide (snapAt c.snap (128 + 2 * rank) 2 = x.srcId.toNat) with
  | none => gone
  | some c =>
    let isz := bits (snapWord c.snap 3) 8 0
    if c.code ≥ 2 then gone
    else if c.hops ≠ 3 || s.cmdHeld c then none
    else match c.due.find? fun d => d.rank = rank && d.idx = idx && d.off = off with
    | none => gone
    | some d =>
      let va := snapWord c.snap 5 + d.pos * isz + off
      if data.length ≠ min 112 (isz - off) then gone
      else if (repPieces va data.length).any fun p => s.vaBusy c true (va + p.1) then none
      else match s.repFault c va data.length with
      | some code => some ((s.emit (s.ackTo x false false [])).setCmd { c with code := code, due := [] })
      | none =>
        let (writes, s) := s.repStore c va (4 * (d.pos * isz + off) + 1) data
        let c := { c with due := c.due.filter fun e => e ≠ d, pend := c.pend ++ writes.map asked
                          acks := if writes.isEmpty then c.acks else c.acks ++ [(writes.map (·.1), x)] }
        let s : State := { s with cells := s.cells ++ (writes.map Prod.snd).reverse }.setCmd c
        some (if writes.isEmpty then s.emit (s.ackTo x true false []) else s)

/-- REPART_COMPLETE (R269, R270): its writes and its items are acknowledged, and what other members deliver has been performed here; the counts and CODE are written to
the block, where it can still be written (log entry 68), and tl3 advances. -/
def execRepartComplete (s : State) : Host.Outcome State Fault Refusal :=
  runEvent (fun x s => match s.cmd x.id with
    | none => none
    | some c =>
      let busy := (List.range 4).any fun j => s.vaBusy c true (c.a.toNat + 64 + 8 * j)
      let closed := c.phase == .finished || (c.phase == .waiting && c.pend.isEmpty && (decide (c.code ≥ 2) || (decide (c.hops = 3) && c.due.isEmpty)))
      if !(c.kind == .repart) || !closed || s.cmdHeld c || busy then none
      else
        let s := c.acks.foldl (fun (s : State) a => s.emit (s.ackTo a.2 false false [1])) s
        let g := if c.code ≥ 2 then [] else (c.got.find? fun p => p.1 = 8).map (·.2) |>.getD []
        let s := (List.range 3).foldl (fun s j => s.engPut c (c.a.toNat + 64 + 8 * j) 8 (ofBytes ((g.drop (8 * j)).take 8))) s
        some ((s.engPut c (c.a.toNat + 88) 8 c.code).finishCmd c (decide (c.code ≥ 2)) (decide (c.code = 5)))) s

end Sys2Proof.Machine
end

