-- ==== Sys2Proof/Machine/Matrix.lean ====
section
/-!
DEFINITION. Matrix.lean: accumulator handles and regions (R132 to R137), the tile-task record (R138 to R140), what an operation computes
(R141 to R147), and the dispatcher's and the engines' steps (R148 to R161) with MXQ, MXZ, MXRD and MXWR.
-/
namespace Sys2Proof.Machine

open Sys2Proof

/-! ### Handles and regions (R132 to R136) -/

def newHandle (core launch h : Nat) : Handle :=
  { core := core, launch := launch, h := h, named := none, refused := false, rows := 0, cols := 0, regs := [], wset := none, rels := [] }

def State.handle (s : State) (core launch h : Nat) : Handle :=
  (s.handles.find? fun x => x.core = core ∧ x.launch = launch ∧ x.h = h).getD (newHandle core launch h)

/-- Put a handle back; one that says nothing is not kept. -/
def State.setHandle (s : State) (x : Handle) : State :=
  let others := s.handles.filter fun y => !(decide (y.core = x.core) && decide (y.launch = x.launch) && decide (y.h = x.h))
  { s with handles := if x = newHandle x.core x.launch x.h then others else others ++ [x] }

def blocks128 (n : Nat) : Nat := ceilDiv n 128
def Handle.mb (x : Handle) : Nat := blocks128 x.rows
def Handle.nb (x : Handle) : Nat := blocks128 x.cols
def Handle.bound (x : Handle) : Bool := !x.regs.isEmpty

def State.region (s : State) (r : Nat × Nat) : Region := SMap.get {} (s.cluster r.1).regions r.2
def State.setRegion (s : State) (r : Nat × Nat) (x : Region) : State :=
  s.setCluster r.1 { s.cluster r.1 with regions := SMap.set {} (s.cluster r.1).regions r.2 x }

/-- Release a handle's binding (R136): its regions are free, their words and its latched set gone. -/
def State.releaseHandle (s : State) (x : Handle) : State :=
  (x.regs.foldl (fun s r => s.setRegion r {}) s).setHandle { x with rows := 0, cols := 0, regs := [], wset := none }

/-- The cluster of row i of blocks for a core (R134). -/
def gangCluster (core i : Nat) : Nat :=
  let cl := clusterOf core
  cl / 4 * 4 + (cl % 4 + i) % 4

/-- A free region for block column j of nb in a cluster (R134): engine j when nb = 2, either engine when nb = 1; the lowest one. -/
def State.freeRegion (s : State) (cl j nb : Nat) : Option Nat :=
  (if nb = 2 then [2 * j, 2 * j + 1] else [0, 1, 2, 3]).find? fun r => (s.region (cl, r)).owner.isNone

/-- Regions of a cluster that a launch holds. -/
def State.regionsHeld (s : State) (part launch cl : Nat) : Nat :=
  ((s.cluster cl).regions.filter fun r => match r.2.owner with
    | some (i, l, _, _) => decide (s.partOf i = part) && decide (l = launch)
    | none => false).length

/-- The regions that a binding of mb × nb blocks would take now, block by block; none where one is not free or not reserved to the launch
(R133, R134): in a cluster where the launch has no reservation yet, as its gang reaches it, the reservation must fit beside the others'. -/
def State.regionsFor (s : State) (core : Nat) (l : Launch) (mb nb : Nat) : Option (List (Nat × Nat)) :=
  ((List.range mb).mapM fun i =>
    let cl := gangCluster core i
    if s.regionsHeld l.part l.id cl + nb > l.accr || (!(s.reserving cl).contains l.id && decide (s.accrIn l.part cl + l.accr > 4)) then none
    else (List.range nb).mapM fun j => (s.freeRegion cl j nb).map fun r => (cl, r)).map List.flatten

/-- A request that can never be granted (R135). -/
def Launch.bindHopeless (l : Launch) (core mb nb : Nat) : Bool :=
  decide (nb > l.accr) || (List.range mb).any fun i => !l.clusterList.contains (gangCluster core i)

/-- Bind a handle to regions, its words zero (R159). -/
def State.bind (s : State) (x : Handle) (rows cols : Nat) (regs : List (Nat × Nat)) : State :=
  let s := (regs.mapIdx fun b r => (b, r)).foldl (fun s p => s.setRegion p.2 { owner := some (x.core, x.launch, x.h, p.1), words := [] }) s
  s.setHandle { x with rows := rows, cols := cols, regs := regs, wset := none, refused := false }

/-- The word of a bound handle at row m, column n; and writing it. -/
def State.accWord (s : State) (x : Handle) (m n : Nat) : Nat :=
  match x.regs[m / 128 * x.nb + n / 128]? with
  | some r => SMap.get 0 (s.region r).words (m % 128 * 128 + n % 128)
  | none => 0

def State.setAccWord (s : State) (x : Handle) (m n v : Nat) : State :=
  match x.regs[m / 128 * x.nb + n / 128]? with
  | some r =>
    let g := s.region r
    s.setRegion r { g with words := SMap.set 0 g.words (m % 128 * 128 + n % 128) v }
  | none => s

/-! ### The tile-task record (R138) -/

namespace Mx

def w (b : List Byte) (k : Nat) : Nat := snapWord b k
def n (b : List Byte) : Nat := bits (w b 0) 50 42
def m (b : List Byte) : Nat := bits (w b 0) 41 32
def deptl (b : List Byte) : Nat := bits (w b 0) 25 24
def bfmt (b : List Byte) : Nat := bits (w b 0) 23 20
def afmt (b : List Byte) : Nat := bits (w b 0) 19 16
def sp (b : List Byte) : Bool := bit (w b 0) 15
def uci (b : List Byte) : Bool := bit (w b 0) 13
def wkeep (b : List Byte) : Bool := bit (w b 0) 12
def acc (b : List Byte) : Nat := bits (w b 0) 11 8
def opc (b : List Byte) : Nat := bits (w b 0) 7 0
def depn (b : List Byte) : Nat := w b 1
def astride (b : List Byte) : Int := sext (w b 2 / 2 ^ 32) 32
def k (b : List Byte) : Nat := bits (w b 2) 24 0
def aaddr (b : List Byte) : Nat := w b 3
def ascaddr (b : List Byte) : Nat := w b 4
def bstride (b : List Byte) : Int := sext (w b 5 / 2 ^ 32) 32
def ascstride (b : List Byte) : Int := sext (w b 5) 32
def baddr (b : List Byte) : Nat := w b 6
def bxaddr (b : List Byte) : Nat := w b 7
def bxstride (b : List Byte) : Int := sext (w b 8) 32
def cbaddr (b : List Byte) : Nat := w b 9

/-- PROGRESS[j]. -/
def progress (b : List Byte) (j : Nat) : Nat := snapAt b (96 + 4 * j) 4

end Mx

/-- The format a code names; FP32 for a code that names none. -/
def mxFmt (x : Nat) : Fmt := (fmtOf (BitVec.ofNat 4 x)).getD .f32

def isBlockFmt : Fmt → Bool
  | .bx8e4 | .bx8e5 | .bx4 | .bxi8 => true
  | _ => false

/-- What an operation works on: kind 0 dense, 1 sparse, 2 CB2; formats, K-block length (R142). -/
structure MxOp where
  kind : Nat
  af : Fmt
  bf : Fmt
  k : Nat
  kb : Nat
  deriving DecidableEq, Repr

/-- The kind of weights a record names (R144, R146). -/
def mxKind (b : List Byte) : Nat :=
  match Mx.opc b with
  | 1 => 0
  | 2 => 1
  | 3 => 2
  | _ => if Mx.sp b then 1 else if Mx.bfmt b = 0xC then 2 else 0

/-- The operation of a record, with the B format of the latched set where it is used (R147). -/
def mxOp (b : List Byte) (x : Handle) : MxOp :=
  let bf := match Mx.wkeep b, x.wset with
    | true, some t => t.bfmt
    | _, _ => Mx.bfmt b
  let af := mxFmt (Mx.afmt b)
  let f := mxFmt bf
  ⟨mxKind b, af, f, Mx.k b, 512 / max 1 (max af.width f.width)⟩

/-- The number of K-blocks. -/
def MxOp.nkb (o : MxOp) : Nat := ceilDiv o.k (max 1 o.kb)

/-- Integer mode (R141). -/
def MxOp.int (o : MxOp) : Bool := (o.af == .i8 || o.af == .i4) && (o.bf == .i8 || o.bf == .i4)

/-- Row groups of block row i of a handle: its rows clipped to the shape. -/
def Handle.rowGroups (x : Handle) (i : Nat) : Nat := ceilDiv (min 128 (x.rows - 128 * i)) 8

/-- A member's position from its PROGRESS entry. -/
def memberOf (p : Nat) : Member := ⟨bit p 31, bits p 23 20, bits p 19 0⟩

/-- A record breaks R139. With WKEEP = 1 the rules of R142 on the multiple of K look at AFMT and the operation alone, not at the latched B format, so that
such a K is FORMAT and not BADREC (log entry 65). -/
def mxBadRec (b : List Byte) (x : Handle) (num : Nat) (hasUci : Bool) : Bool :=
  let w := Mx.w b
  let wload := Mx.opc b == 4
  let o := mxOp b x
  let blkA := isBlockFmt o.af
  let bBlk := isBlockFmt (mxFmt (Mx.bfmt b))
  let kind := mxKind b
  let keep := Mx.wkeep b
  let useBx := !keep && (bBlk || kind == 1 || kind == 2)
  let four := o.af.width == 4 || (!keep && (mxFmt (Mx.bfmt b)).width == 4)
  let blocks := x.mb * x.nb
  decide (bits (w 0) 63 51 ≠ 0) || decide (bits (w 0) 31 26 ≠ 0) || bit (w 0) 14 || decide (bits (w 2) 31 25 ≠ 0) || decide (w 8 ≥ 2 ^ 32)
    || (Mx.uci b && !hasUci)
    || decide (Mx.opc b = 0) || decide (Mx.opc b > 4) || (Mx.sp b && !wload)
    || (if wload then decide (Mx.m b ≠ 0) else decide (Mx.m b < 1) || decide (Mx.m b > 512))
    || decide (Mx.n b < 1) || decide (Mx.n b > 256) || decide (Mx.k b < 1) || decide (Mx.k b > 2 ^ 24) || (wload && decide (Mx.k b > 16 * o.kb))
    || decide (Mx.aaddr b % 64 ≠ 0) || decide (Mx.baddr b % 64 ≠ 0) || decide (Mx.astride b % 64 ≠ 0) || decide (Mx.bstride b % 64 ≠ 0) || decide (Mx.cbaddr b % 64 ≠ 0)
    || ((!blkA || wload) && (decide (Mx.ascaddr b ≠ 0) || decide (Mx.ascstride b ≠ 0)))
    || (!useBx && decide (Mx.bxaddr b ≠ 0)) || (decide (Mx.bxaddr b = 0) && decide (Mx.bxstride b ≠ 0))
    || (!(kind == 2 && !keep) && decide (Mx.cbaddr b ≠ 0))
    || (keep && (decide (Mx.bfmt b ≠ 0) || decide (Mx.baddr b ≠ 0) || decide (Mx.bstride b ≠ 0)))
    || (four && decide (Mx.k b % 2 ≠ 0)) || ((blkA || bBlk) && decide (Mx.k b % 32 ≠ 0)) || (kind == 2 && decide (Mx.k b % 64 ≠ 0)) || (kind == 1 && decide (Mx.k b % 8 ≠ 0))
    || ((List.range 8).any fun j =>
      let p := Mx.progress b j
      let t := memberOf p
      decide (bits p 30 24 ≠ 0) || (x.bound && decide (j ≥ blocks) && decide (p ≠ 0))
        || (!t.done && x.bound && decide (j < blocks) && (decide (t.rg ≥ x.rowGroups (j / x.nb)) || decide (t.kb % 16 ≠ 0) || decide (t.kb ≥ o.nkb))))
    || (decide (Mx.deptl b = 1) && decide (Mx.depn b ≥ num))

/-- A record breaks R141: formats outside the sets of the operation, or masked. -/
def mxBadFmt (b : List Byte) (feat : Nat) : Bool :=
  let a := Mx.afmt b
  let f := Mx.bfmt b
  let keep := Mx.wkeep b
  let inSet : Bool := match Mx.opc b with
    | 1 => decide (1 ≤ f) && decide (f ≤ 0xB)
    | 2 => decide (1 ≤ f) && decide (f ≤ 7)
    | 3 => f == 0xC
    | _ => if Mx.sp b then decide (1 ≤ f) && decide (f ≤ 7) else decide (1 ≤ f) && decide (f ≤ 0xC)
  let masked (x : Nat) : Bool := ((x == 5 || x == 7 || x == 0xA) && !bit feat 8) || (decide (8 ≤ x) && decide (x ≤ 0xC) && !bit feat 7)
  decide (a < 1) || decide (a > 0xB) || (!keep && !inSet) || masked a || masked f

/-- The status that a record's checks give before anything else is read (R155): 0 where it passes. -/
def mxCheck (b : List Byte) (x : Handle) (num feat : Nat) : Nat :=
  let keep := Mx.wkeep b
  let latched := x.wset.any fun t => decide (t.kind = mxKind b) && Mx.opc b != 4
  if mxBadRec b x num (bit feat 13) then 1
  else if mxBadFmt b feat then 3
  else if !x.bound || decide (Mx.m b > x.rows) || decide (Mx.n b > x.cols) then 2
  else if keep && !latched then 4
  else if keep && !(x.wset.any fun t => decide (t.k = Mx.k b) && decide (t.afmt = Mx.afmt b) && decide (Mx.n b ≤ t.n)) then 3
  else 0

/-! ### Reading operands (R143, R144, R150, R151) -/

/-- Why an engine's read does not succeed: it waits at a page under migration, or the operation fails with a code, a cause and an address. -/
inductive MxStop where
  | held
  | fail (code cause addr : Nat)
  deriving DecidableEq, Repr

/-- A scratchpad byte that a matrix or rule engine reaches only through a page and that is another cluster's (R12). -/
def Cmd.foreign (c : Cmd) (va k : Nat) : Bool :=
  typeOfPa k == some .csp && (windowOf va).isNone && decide (cspCluster k ≠ c.ecl) && decide (cspCluster k ≠ clusterOf c.core)

/-- Where the word at va that an engine reads lies: in DEV, CMS or the own scratchpad alone (R12, R150, R172). A failure names address a. -/
def State.engWord (s : State) (c : Cmd) (va a : Nat) : Except MxStop Nat :=
  match s.engAddr c .load va with
  | .error x => .error (.fail 5 x.code a)
  | .ok (.peer ..) => .error (.fail 5 Cause.peercore.code a)
  | .ok (.here k) =>
    if typeOfPa k == some .ls || typeOfPa k == some .host || c.foreign va k then .error (.fail 5 Cause.prot.code a)
    else if s.heldAt k || s.granuleBusy k then .error .held
    else .ok k

/-- Where the words of the aligned segment of g bytes at va lie: one by one in a window, whose allocation may be confined to some banks (R296). -/
def State.engWords (s : State) (c : Cmd) (g va a : Nat) : Except MxStop (List Nat) :=
  if (windowOf va).isSome then (List.range (g / 8)).mapM fun j => s.engWord c (va + 8 * j) (max a (va + 8 * j))
  else (s.engWord c va a).map fun k => (List.range (g / 8)).map fun j => k + 8 * j

/-- n bytes at va as an engine reads them, by aligned segments of g bytes (R151, R169), in ascending order of address: what the first segment that fails meets is the
outcome (log entry 77). -/
def State.engRead (s : State) (c : Cmd) (g va n : Nat) : Except MxStop (List Byte) :=
  if n = 0 then .ok []
  else do
    let parts ← (List.range ((va + n - 1) / g - va / g + 1)).mapM fun j => do
      let seg := (va / g + j) * g
      let lo := max va seg
      let ws ← s.engWords c g (seg % 2 ^ 64) (lo % 2 ^ 64)
      match (ws.zip (List.range ws.length)).find? fun w => s.poisoned w.1 with
      | some w => .error (.fail 6 Cause.memue.code ((seg + 8 * w.2) % 2 ^ 64))
      | none => .ok (((ws.flatMap fun k => (List.range 8).map fun i => s.byte (k + i)).drop (lo - seg)).take (min (va + n) (seg + g) - lo))
    .ok parts.flatten

/-- The matrix engine's reads: 64-byte segments (R151). -/
def State.mxRead (s : State) (c : Cmd) (va n : Nat) : Except MxStop (List Byte) := s.engRead c 64 va n

/-- n elements of width w from bytes. -/
def unpack (w n : Nat) (b : List Byte) : List Nat :=
  let x := ofBytes b
  (List.range n).map fun j => bits x (w * j + w - 1) (w * j)

/-- The value of an element under its scale byte (R143). -/
def mxValue (f : Fmt) (x scale : Nat) : FVal :=
  match fmtInfo f with
  | some o => o.decode x
  | none => match f with
    | .i8 => FVal.ofInt (sext x 8)
    | .i4 => FVal.ofInt (sext x 4)
    | _ => blockValue f x scale

/-- The address of row r of an operand. -/
def mxRow (base : Nat) (stride : Int) (r : Nat) : Nat := wrapN 64 ((base : Int) + r * stride)

/-- Elements t0 to t1 of A row m (R143). -/
def State.mxA (s : State) (c : Cmd) (o : MxOp) (m t0 t1 : Nat) : Except MxStop (List FVal) := do
  let b := c.snap
  let wa := o.af.width
  let xs ← s.mxRead c (mxRow (Mx.aaddr b) (Mx.astride b) m + t0 * wa / 8) ((t1 - t0) * wa / 8)
  let sc ← if isBlockFmt o.af then s.mxRead c (mxRow (Mx.ascaddr b) (Mx.ascstride b) m + t0 / 32) (ceilDiv t1 32 - t0 / 32) else .ok []
  .ok ((unpack wa (t1 - t0) xs).mapIdx fun j x => mxValue o.af x ((sc.getD (j / 32) 0).toNat))

/-- The bytes of row n of the weights for the engines of block row i, of its side row, and the codebook: from the latched set, or from memory. -/
def State.mxBRow (s : State) (c : Cmd) (keep : Option WSet) (i n off len : Nat) : Except MxStop (List Byte) :=
  match keep with
  | some t => .ok (((t.rows.getD (i * t.n + n) []).drop off).take len)
  | none => s.mxRead c (mxRow (Mx.baddr c.snap) (Mx.bstride c.snap) n + off) len

def State.mxSide (s : State) (c : Cmd) (keep : Option WSet) (i n off len : Nat) : Except MxStop (List Byte) :=
  match keep with
  | some t => .ok (((t.side.getD (i * t.n + n) []).drop off).take len)
  | none => s.mxRead c (mxRow (Mx.bxaddr c.snap) (Mx.bxstride c.snap) n + off) len

def State.mxBook (s : State) (c : Cmd) (o : MxOp) (keep : Option WSet) (i : Nat) : Except MxStop (List Byte) :=
  if o.kind ≠ 2 then .ok []
  else match keep with
  | some t => .ok ((t.book.drop (1024 * i)).take 1024)
  | none => s.mxRead c (Mx.cbaddr c.snap) 1024

/-- Weight j of a CB2 index under a scale byte (R67, R143). -/
def cb2Value (book : List Byte) (idx j scale : Nat) : FVal :=
  let count := bits (ofBytes ((book.drop (4 * (idx % 256))).take 4)) (4 * j + 3) (4 * j)
  let mag := count + 2 * b2n (bit idx 15)
  let sign (i : Nat) : Bool := bit idx (8 + i)
  let neg := if j < 7 then sign j else (List.range 7).foldl (fun t i => t != sign i) false
  if scale = 255 then .nan
  else (FVal.fin (neg && decide (mag ≠ 0)) mag (-2)).scale ((scale : Int) - 127)

/-- A metadata nibble that breaks R144 among the first n of a side row. -/
def sparseBad (side : List Byte) (n : Nat) : Bool :=
  (unpack 4 n side).any fun x => decide (x % 4 ≥ x / 4)

/-- Positions t0 to t1 of weight row n (R143, R144): the value, none where the position is absent. -/
def State.mxB (s : State) (c : Cmd) (o : MxOp) (keep : Option WSet) (book : List Byte) (i n t0 t1 : Nat) : Except MxStop (List (Option FVal)) :=
  let wb := o.bf.width
  match o.kind with
  | 1 => do
    let xs ← s.mxBRow c keep i n (t0 / 2 * wb / 8) ((t1 - t0) / 2 * wb / 8)
    let side ← s.mxSide c keep i n (t0 / 8) ((t1 - t0) / 8)
    if sparseBad side ((t1 - t0) / 4) then .error (.fail 7 0 0)
    else
      let kept := (unpack wb ((t1 - t0) / 2) xs).map fun x => mxValue o.bf x 0
      .ok ((unpack 4 ((t1 - t0) / 4) side).mapIdx (fun g x => (List.range 4).map fun p =>
        if p = x % 4 then kept[2 * g]? else if p = x / 4 then kept[2 * g + 1]? else none)).flatten
  | 2 => do
    let xs ← s.mxBRow c keep i n (t0 / 4) ((t1 - t0) / 4)
    let side ← s.mxSide c keep i n (t0 / 64) (ceilDiv t1 64 - t0 / 64)
    .ok (((unpack 16 ((t1 - t0) / 8) xs).mapIdx fun u x => (List.range 8).map fun j =>
      some (cb2Value book x j ((side.getD ((t0 % 64 + 8 * u) / 64) 0).toNat))).flatten)
  | _ => do
    let xs ← s.mxBRow c keep i n (t0 * wb / 8) ((t1 - t0) * wb / 8)
    let side ← if isBlockFmt o.bf then s.mxSide c keep i n (t0 / 32) (ceilDiv t1 32 - t0 / 32) else .ok []
    .ok ((unpack wb (t1 - t0) xs).mapIdx fun j x => some (mxValue o.bf x ((side.getD (j / 32) 0).toNat)))

/-! ### What a row group computes (R145, R83) -/

/-- An exact integer value as an integer. -/
def FVal.asInt : FVal → Int
  | .fin neg m e => (if neg then -(m : Int) else m) * (2 ^ e.toNat : Nat)
  | _ => 0

/-- One accumulator word after the K-blocks of a pass: positions paired, cut into blocks of kb. -/
def mxAccumulate (o : MxOp) (acc : Nat) (a : List FVal) (b : List (Option FVal)) : Nat × Nat :=
  let pairs := (a.zip b).filterMap fun p => p.2.map fun y => (p.1, y)
  let cut := chunks o.kb 16 (a.zip b)
  if o.int then
    let sum : Int := pairs.foldl (fun t p => t + p.1.asInt * p.2.asInt) 0
    (wrapN 32 (acc + sum), 0)
  else
    cut.foldl (fun r blk =>
      let q := dotVals false (blk.filterMap fun p => p.2.map fun y => (p.1, y))
      let v := FVal.addX false (fi32.decode r.1) q.1
      let u := fi32.deliver .rne false 0 v.1
      (u.1, r.2 ||| u.2.toNat ||| (if q.2 || v.2 then 0x10 else 0))) (acc, 0)

/-- The command as the engines of block row i carry it out: in the cluster of R134, whose TLB translates (R150). -/
def Cmd.atBlock (c : Cmd) (i : Nat) : Cmd := { c with ecl := gangCluster c.core i }

/-- What member j at position t computes (R154): the new words of its row group and the flags. Its engine's own cluster translates (R150). All segments
of a row group and pass are read at one instant, which is one of the times that R151 allows (log entry 66). -/
def State.mxGroup (s : State) (c : Cmd) (x : Handle) (j : Nat) (t : Member) : Except MxStop (List (Nat × Nat × Nat) × Nat) := do
  let c := c.atBlock (j / x.nb)
  let b := c.snap
  let o := mxOp b x
  let keep := if Mx.wkeep b then x.wset else none
  let t0 := t.kb * o.kb
  let t1 := min o.k ((t.kb + 16) * o.kb)
  let r0 := j / x.nb * 128 + 8 * t.rg
  let rows := ((List.range 8).map (r0 + ·)).filter fun m => decide (m < Mx.m b) && decide (m < (j / x.nb + 1) * 128)
  let cols := ((List.range 128).map (j % x.nb * 128 + ·)).filter fun n => decide (n < Mx.n b)
  if rows.isEmpty || cols.isEmpty then .ok ([], 0)
  else
    let as ← rows.mapM fun m => s.mxA c o m t0 t1
    let book ← s.mxBook c o keep (j / x.nb)
    let bs ← cols.mapM fun n => s.mxB c o keep book (j / x.nb) n t0 t1
    let out := ((rows.zip as).map fun p => (cols.zip bs).map fun q =>
      let r := mxAccumulate o (s.accWord x p.1 q.1) p.2 q.2
      ((p.1, q.1, r.1), r.2)).flatten
    .ok (out.map (·.1), out.foldl (fun f r => f ||| r.2) 0)

/-- The position after a row group (R154). -/
def Member.next (t : Member) (groups nkb : Nat) : Member :=
  if t.rg + 1 < groups then { t with rg := t.rg + 1 }
  else if t.kb + 16 < nkb then { t with rg := 0, kb := t.kb + 16 }
  else ⟨true, 0, nkb⟩

/-- The set that a WLOAD latches (R146), as the engines of each block row read it (R150). -/
def State.mxLoad (s : State) (c : Cmd) (x : Handle) : Except MxStop WSet := do
  let b := c.snap
  let o := mxOp b x
  let n := Mx.n b
  let rowLen := match o.kind with | 1 => o.k / 2 * o.bf.width / 8 | 2 => o.k / 4 | _ => o.k * o.bf.width / 8
  let sideLen := match o.kind with | 1 => o.k / 8 | 2 => o.k / 64 | _ => if isBlockFmt o.bf then o.k / 32 else 0
  let all (f : Cmd → Nat → Except MxStop (List Byte)) : Except MxStop (List (List Byte)) :=
    ((List.range x.mb).mapM fun i => (List.range n).mapM (f (c.atBlock i))).map List.flatten
  let rows ← all fun c r => s.mxBRow c none 0 r 0 rowLen
  let side ← all fun c r => s.mxSide c none 0 r 0 sideLen
  let book ← ((List.range x.mb).mapM fun i => s.mxBook (c.atBlock i) o none 0).map List.flatten
  if o.kind = 1 ∧ side.any (fun y => sparseBad y (o.k / 4)) then .error (.fail 7 0 0)
  else .ok { kind := o.kind, k := o.k, n := n, bfmt := Mx.bfmt b, afmt := Mx.afmt b, rows := rows, side := side, book := book }

/-! ### Turn, dependence, start (R137, R148) -/

/-- The handle a matrix command acts on; none for an MXQ whose record is not read yet. -/
def Cmd.handleNo (c : Cmd) : Option Nat :=
  match c.kind with
  | .mxz h _ _ _ _ | .mxrd h _ _ _ | .mxwr h _ _ => some h
  | .mxq => if c.snap.isEmpty then none else some (Mx.acc c.snap)
  | _ => none

def CmdKind.isMatrix : CmdKind → Bool
  | .mxq | .mxz .. | .mxrd .. | .mxwr .. => true
  | _ => false

/-- No earlier command of the core is still to complete on the handle, or may be (R137). -/
def State.inTurn (s : State) (c : Cmd) (h : Nat) : Bool :=
  !(s.cmds.any fun x => decide (x.id < c.id) && decide (x.core = c.core) && decide (x.launch = c.launch) && x.kind.isMatrix
      && (match x.handleNo with | some g => decide (g = h) | none => true))

/-- The dependence of an operation is met (R148). The timeline of a task that has ended is gone: there its commands tell, none of number DEPN or below being still to
complete; a DEPN above all its numbers counts as met (log entry 76). -/
def State.depMet (s : State) (c : Cmd) : Bool :=
  let tl := Mx.deptl c.snap
  let n := Mx.depn c.snap
  let gone := !(s.cmds.any fun x => decide (x.core = c.core) && decide (x.launch = c.launch) && decide (x.serial = c.serial) && decide (x.tl = tl) && decide (x.num ≤ n))
  decide (n = 0) || (match (s.core c.core).bankOf c.launch with
    | some b => if b.serial = c.serial then decide (n ≤ (SMap.get {} b.tls tl : Timeline).value.toNat) else gone
    | none => gone)

/-- PROGRESS in the record (R138, R154). -/
def Member.word (t : Member) : Nat := b2n t.done * 2 ^ 31 + t.rg % 16 * 2 ^ 20 + t.kb % 2 ^ 20

/-- A word of PROGRESS lies in a page under migration. -/
def State.progressBusy (s : State) (c : Cmd) : Bool := (List.range c.members.length).any fun j => s.vaBusy c true (c.a.toNat + 96 + 4 * j)

def State.writeProgress (s : State) (c : Cmd) : State :=
  (c.members.mapIdx fun j t => (j, t)).foldl (fun s p => s.engPut c (c.a.toNat + 96 + 4 * p.1) 4 p.2.word) s

/-- The command's status is known (R155). -/
def State.mxEnd (s : State) (c : Cmd) (code cause faddr member : Nat) : State :=
  s.setCmd { c with phase := .finished, code := code, cause := cause, faddr := BitVec.ofNat 64 faddr, memberFail := member }

/-- The dispatcher reads the record (R140): the 16 words, or the status that ends the operation. None where it waits. -/
def State.readRecord (s : State) (c : Cmd) : Option State :=
  match s.settleCmd c with
  | none => none
  | some s =>
    match s.mxRead c c.a.toNat 128 with
    | .ok b => some ((s.keepEng c.ecl c.a.toNat).setCmd { c with snap := b, phase := .started })
    | .error .held => none
    | .error (.fail code cause a) => some (s.mxEnd c code cause a 0)

/-- An operation whose record is read begins, in its turn (R148, R146). Its record is checked before its dependence is waited for: what R155 finds before
anything is read beyond the record completes it at once. -/
def State.startOp (s : State) (c : Cmd) : Option State :=
  let h := Mx.acc c.snap
  if !s.inTurn c h then none
  else
    let x := s.handle c.core c.launch h
    let code := mxCheck c.snap x c.num (s.feat c.core)
    if code ≠ 0 then some (s.mxEnd c code 0 0 0)
    else if !s.depMet c then none
    else
      let ms := (List.range (x.mb * x.nb)).map fun j => memberOf (Mx.progress c.snap j)
      let nkb := (mxOp c.snap x).nkb
      let c := { c with members := ms }
      if ms.all (·.done) then some (s.mxEnd { c with members := ms.map fun _ => ⟨true, 0, nkb⟩ } 0 0 0 0)
      else if Mx.opc c.snap ≠ 4 then some (s.setCmd { c with phase := .running })
      else match s.mxLoad c x with
        | .error .held => none
        | .error (.fail code cause a) =>
          some ((s.draw.setHandle { x with wset := if Config.elemDone s.fresh 0 then x.wset else none }).mxEnd c code cause a 0)
        | .ok t => some ((s.setHandle { x with wset := some t }).mxEnd { c with members := ms.map fun _ => ⟨true, 0, nkb⟩ } 0 0 0 0)

/-- The words that an MXRD or MXWR moves: row, column, address (R160). -/
def moveWords (a v : Word) (rows cols : Nat) : List (Nat × Nat × Nat) :=
  ((List.range rows).map fun r => (List.range cols).map fun n => (r, n, wrapN 64 ((a.toNat : Int) + (r : Nat) * v.toInt + 4 * (n : Nat)))).flatten

/-- An MXRD or MXWR does its work (R160), each element by one access of its own; none where it waits. All elements are moved in one step (R152 leaves
their order open; log entry 67), through the TLB of the cluster whose engine holds it (R150). -/
def State.moveTile (s : State) (c : Cmd) (h rows cols : Nat) (read : Bool) : Option State :=
  let x := s.handle c.core c.launch h
  if rows = 0 ∨ x.refused ∨ !x.bound ∨ rows > x.rows ∨ cols > x.cols then some (s.mxEnd c 1 0 0 0)
  else match s.settleCmd c with
  | none => none
  | some s =>
    let ws := moveWords c.a c.v rows cols
    let place (c : Cmd) (va : Nat) : Except Cause Nat := match s.engAddr c (if read then .store else .load) va with
      | .error q => .error q
      | .ok (.peer ..) => .error .peercore
      | .ok (.here k) => if typeOfPa k == some .ls || typeOfPa k == some .host || c.foreign va k then .error .prot else .ok k
    let at_' := ws.map fun w => (w, place (c.atBlock (w.1 / 128)) w.2.2)
    if at_'.any fun w => match w.2 with | .ok k => s.heldAt k || (!read && s.granuleBusy k) | .error _ => false then none
    else
      let bad := firstSome (fun (w : (Nat × Nat × Nat) × Except Cause Nat) => match w.2 with | .error q => some (q, w.1.2.2) | .ok _ => none) at_'
      let good := at_'.filterMap fun w => match w.2 with | .ok k => some (w.1, k) | .error _ => none
      if read then
        let todo := good.mapIdx fun j w => (j, w)
        let todo := if bad.isSome then todo.filter fun p => Config.elemDone s.fresh p.1 else todo
        let s := todo.foldl (fun t p => t.writeCmd c (at_ p.2.2 4 (s.accWord x p.2.1.1 p.2.1.2.1))) s
        match bad with
        | some (q, a) => some (s.draw.mxEnd c 1 q.code a 0)
        | none =>
          let free := match c.kind with | .mxrd _ _ _ f => f | _ => false
          some ((if free then s.releaseHandle x else s).mxEnd c 0 0 0 0)
      else
        let poison := good.find? fun w => s.poisoned w.2
        let fails := bad.isSome || poison.isSome
        let (s', _) := good.foldl (fun (p : State × Nat) w =>
          let v := if (fails && Config.keepWord (s.fresh + p.2)) || s.poisoned w.2 then s.accWord x w.1.1 w.1.2.1 else s.rd w.2 4
          (p.1.setAccWord x w.1.1 w.1.2.1 v, p.2 + 1)) (s, 0)
        let s' := if fails then { s' with fresh := s'.fresh + good.length } else s'
        match bad, poison with
        | some (q, a), _ => some (s'.mxEnd c 1 q.code a 0)
        | none, some w => some (s'.mxEnd c 1 Cause.memue.code w.1.2.2 0)
        | none, none => some (s'.mxEnd c 0 0 0 0)

/-- An MXZ that needs no new binding, in its turn (R159). -/
def State.startMxz (s : State) (c : Cmd) (h rows cols : Nat) (free bad : Bool) : Option State :=
  let x := s.handle c.core c.launch h
  if free then some ((s.releaseHandle { x with refused := false }).mxEnd c 0 0 0 0)
  else if bad then some (s.mxEnd c 1 0 0 0)
  else if x.bound ∧ x.mb = blocks128 rows ∧ x.nb = blocks128 cols then some ((s.bind x rows cols x.regs).mxEnd c 0 0 0 0)
  else none

/-- MATRIX_OPERATION_START (R137, R140, R148): command `id` of the dispatcher's: its record is read, or in its turn it begins. -/
def execMatrixOperationStart (s : State) : Host.Outcome State Fault Refusal :=
  runEvent (fun a s => match s.cmd a.id with
    | none => none
    | some c =>
      if s.cmdHeld c then none
      else match c.kind, c.phase with
      | .mxq, .posted => s.readRecord c
      | .mxq, .started => s.startOp c
      | .mxz h rows cols free bad, .posted => if s.inTurn c h then s.startMxz c h rows cols free bad else none
      | .mxrd h rows cols _, .posted => if s.inTurn c h then s.moveTile c h rows cols true else none
      | .mxwr h rows cols, .posted => if s.inTurn c h then s.moveTile c h rows cols false else none
      | _, _ => none) s

/-- Requests of cores in the cluster group that wait and came before number k (R135). -/
def State.waitsBefore (s : State) (c : Cmd) (k : Nat) : Bool :=
  s.cmds.any fun x => x.phase == .waiting && decide (clusterOf x.core / 4 = clusterOf c.core / 4)
    && decide (x.k < k) && (match x.kind with | .mxz .. => true | _ => false)

/-- MATRIX_BIND_GRANT (R134, R135, R159): MXZ command `id`, in its turn, asks for regions; it is granted, refused, or waits in its order. -/
def execMatrixBindGrant (s : State) : Host.Outcome State Fault Refusal :=
  runEvent (fun a s => match s.cmd a.id with
    | none => none
    | some c => match c.kind with
      | .mxz h rows cols false false =>
        let x := s.handle c.core c.launch h
        let mb := blocks128 rows
        let nb := blocks128 cols
        if s.cmdHeld c || !s.inTurn c h || !(c.phase == .posted || c.phase == .waiting) || (x.bound && decide (x.mb = mb) && decide (x.nb = nb)) then none
        else match s.launch c.part c.launch with
          -- no launch has reserved regions to a supervisor core: the request can never be granted
          | none => some (((if x.bound then s.releaseHandle x else s).setHandle { newHandle c.core c.launch h with named := x.named, rels := x.rels, refused := true }).mxEnd c 1 0 0 0)
          | some l =>
            let s := if x.bound then s.releaseHandle x else s
            let x := s.handle c.core c.launch h
            let refuse (s : State) : Option State := some ((s.setHandle { x with refused := true }).mxEnd c 1 0 0 0)
            let holds := s.handles.any fun y => decide (y.core = c.core) && decide (y.launch = c.launch) && y.bound
            let arrival := if c.phase == .waiting then c.k else s.serial
            if l.bindHopeless c.core mb nb then refuse s
            else match s.regionsFor c.core l mb nb with
              | some regs =>
                if !holds && s.waitsBefore c arrival then (if c.phase == .waiting then none else some (s.tick.setCmd { c with phase := .waiting, k := arrival }))
                else some ((s.bind x rows cols regs).mxEnd c 0 0 0 0)
              | none =>
                if holds then refuse s
                else if c.phase == .waiting then none
                else some (s.tick.setCmd { c with phase := .waiting, k := arrival })
      | _ => none) s

/-! ### Row groups, parking, completion (R154 to R156) -/

/-- A running operation parks at this boundary: PROGRESS is written (R154), as soon as no page under migration holds it. -/
def State.parkMatrix (s : State) (c : Cmd) : State :=
  if c.kind == .mxq && c.phase == .running && !s.progressBusy c then (s.writeProgress c).setCmd { c with phase := .parked } else s

/-- MATRIX_ROW_GROUP (R154, R156): member `n` of operation `id` applies its next row group, or meets what parks or fails the operation. -/
def execMatrixRowGroup (s : State) : Host.Outcome State Fault Refusal :=
  runEvent (fun a s => match s.cmd a.id with
    | none => none
    | some c =>
      if !(c.kind == .mxq) || !(c.phase == .running) then none
      else if s.cmdHeld c then some (s.parkMatrix c)
      else match c.members[a.n]? with
      | none => none
      | some t =>
        if t.done then none
        else
          let x := s.handle c.core c.launch (Mx.acc c.snap)
          match s.mxGroup c x a.n t with
          | .error .held => some (s.parkMatrix c)
          | .error (.fail code cause addr) => some (s.mxEnd c code cause addr a.n)
          | .ok (ws, flags) =>
            let s := ws.foldl (fun s w => s.setAccWord x w.1 w.2.1 w.2.2) s
            let ms := c.members.set a.n (t.next (x.rowGroups (a.n / x.nb)) (mxOp c.snap x).nkb)
            let c := { c with members := ms, flags := c.flags ||| flags }
            some (if ms.all (·.done) then s.mxEnd { c with members := ms.map fun _ => ⟨true, 0, (mxOp c.snap x).nkb⟩ } 0 0 0 0 else s.setCmd c)) s

/-- MATRIX_RESUME (R154): parked operation `id` goes on from its position when nothing holds it. -/
def execMatrixResume (s : State) : Host.Outcome State Fault Refusal :=
  runEvent (fun a s => match s.cmd a.id with
    | none => none
    | some c =>
      let x := s.handle c.core c.launch (Mx.acc c.snap)
      let held := (c.members.mapIdx fun j t => (j, t)).any fun p => !p.2.done && (match s.mxGroup c x p.1 p.2 with | .error .held => true | _ => false)
      if !(c.kind == .mxq) || !(c.phase == .parked) || s.cmdHeld c || held then none
      else some (s.setCmd { c with phase := .running })) s

/-- Ask for one more completion interrupt of the command's task: for a request that is known only at completion (R153). -/
def State.askUci (s : State) (c : Cmd) : State :=
  s.modCore c.core fun k => match k.bankOf c.launch with
    | some b => if b.serial = c.serial then k.setBankOf c.launch { b with uciOut := b.uciOut + 1 } else k
    | none => k

/-- The task has room for one more completion interrupt (R237). -/
def State.uciFull (s : State) (c : Cmd) : Bool :=
  match (s.core c.core).bankOf c.launch with
  | some b => decide (b.serial = c.serial) && decide (b.uciOut + b.uci.length ≥ 32)
  | none => false

/-- The record that was queued had every entry DONE: the operation has done nothing (R140). -/
def Cmd.idle (c : Cmd) : Bool := (List.range c.members.length).all fun j => (memberOf (Mx.progress c.snap j)).done

/-- MATRIX_COMPLETE (R155, R146): command `id` whose status is known writes its record and counts. -/
def execMatrixComplete (s : State) : Host.Outcome State Fault Refusal :=
  runEvent (fun a s => match s.cmd a.id with
    | none => none
    | some c =>
      if !c.kind.isMatrix || !(c.phase == .finished) || s.cmdHeld c then none
      else
        let uci := !c.snap.isEmpty && c.kind == .mxq && Mx.uci c.snap && bit (s.feat c.core) 13
        if uci && s.uciFull c then none
        else if !(c.kind == .mxq) then some (s.finishCmd c (decide (c.code ≠ 0)) (decide (c.cause = Cause.memue.code)))
        else if s.vaBusy c true (c.a.toNat + 80) then none
        else
          let s := s.engPut c (c.a.toNat + 80) 8 (c.memberFail * 2 ^ 24 + c.cause * 2 ^ 16 + c.flags % 32 * 2 ^ 8 + c.code)
          let s := s.engPut c (c.a.toNat + 88) 8 c.faddr.toNat
          let s := s.writeProgress c
          let x := s.handle c.core c.launch (Mx.acc c.snap)
          let s := if !c.idle && Mx.opc c.snap != 4 && !Mx.wkeep c.snap then s.setHandle { x with wset := none } else s
          some ((if uci then s.askUci c else s).finishCmd { c with uci := uci } (decide (c.code ≠ 0)) (decide (c.code = 6)))) s

/-! ### Instructions (R158 to R160) -/

/-- Post a matrix command on tl1. -/
def State.postTile (s : State) (k : Nat) (kind : CmdKind) (a v : Word) : M (Nat × State) := do
  stallUnless (decide ((s.core k).tiles < 16))
  .ok (s.post k 1 kind a v 0 [] false false)

/-- MXQ (R158). The record is checked as a plain load; a page that may not be written takes no status and no PROGRESS later, and nothing else comes of it
(log entry 68). -/
def execMxq (d a : Reg) (s : State) : Host.Outcome State Fault Refusal :=
  runSeq (.mxq d a) (fun k s => do
    let (ra, c) ← (s.core k).readS a
    match firstSome (fun (j : Nat) => (s.chk1 k (ra.toNat + j)).map fun x => (x, ra + BitVec.ofNat 64 j)) (List.range 128) with
    | some (x, v) => .error (.trap x v)
    | none =>
      trapIf (decide (ra.toNat % 128 ≠ 0)) .align ra
      match s.chk34 k .load ra.toNat with
      | .error x => .error (.trap x ra)
      | .ok (pa, e) =>
        trapIf (typeOfPa pa == some .ls || typeOfPa pa == some .host) .prot ra
        let (n, s) ← ((s.setCore k c).keep k false e).postTile k .mxq ra 0
        let c ← (s.core k).putS k d (BitVec.ofNat 64 n)
        .ok (s.setCore k c)) s

/-- Name the shape of a handle at issue (R160); none after a release. -/
def State.nameHandle (s : State) (k h : Nat) (sh : Option (Nat × Nat)) : State :=
  s.setHandle { s.handle k ((s.core k).run.getD 0) h with named := sh }

/-- MXZ aD, shape (R159): the shape as an immediate, or in s[A], read at issue. -/
def execMxz (d a : Reg) (imm : BitVec 17) (s : State) : Host.Outcome State Fault Refusal :=
  runSeq (.mxz d a imm) (fun k s => do
    let (x, c) ← if a = 0 then .ok ((BitVec.ofNat 64 imm.toNat : Word), s.core k) else (s.core k).readS a
    let bad := decide (x.toNat ≥ 2 ^ 17)
    let rows := x.toNat % 512 + 1
    let cols := bits x.toNat 16 9 + 1
    let (_, s) ← (s.setCore k c).postTile k (.mxz d.toNat rows cols false bad) 0 0
    .ok (s.nameHandle k d.toNat (if bad then none else some (rows, cols)))) s

/-- MXZ.free (R159). -/
def execMxzFree (d : Reg) (s : State) : Host.Outcome State Fault Refusal :=
  runSeq (.mxzFree d) (fun k s => do
    let (_, s) ← s.postTile k (.mxz d.toNat 0 0 true false) 0 0
    .ok (s.nameHandle k d.toNat none)) s

/-- The checks at issue of the words that an MXRD or MXWR names (R160, R103). -/
def State.checkTile (s : State) (k : Nat) (acc : Access) : List (Nat × Nat × Nat) → M State
  | [] => .ok s
  | w :: t => do
    let va : Word := BitVec.ofNat 64 w.2.2
    let (key, e) ← match s.chk1 k w.2.2 with
      | some c => .error (.trap c va)
      | none => match s.chk34 k acc w.2.2 with
        | .error c => .error (.trap c va)
        | .ok r => .ok r
    trapIf (typeOfPa key == some .ls || typeOfPa key == some .host) .prot va
    (s.keep k false e).checkTile k acc t

/-- MXRD and MXWR at issue (R160). -/
def moveInstr (i : Instr) (d a b : Reg) (acc : Access) (kind : Nat → Nat → CmdKind) (free : Bool) (s : State) : Host.Outcome State Fault Refusal :=
  runSeq i (fun k s => do
    let (x, c) ← (s.core k).readS a
    let (y, c) ← c.readS b
    let s := s.setCore k c
    let (rows, cols) := (s.handle k (c.run.getD 0) d.toNat).named.getD (0, 0)
    let s ← if rows = 0 then .ok s
      else match s.chk1 k x.toNat with
        | some q => .error (.trap q x)
        | none => do
          trapIf (decide (x.toNat % 4 ≠ 0)) .align x
          trapIf (decide (y.toNat % 4 ≠ 0)) .align y
          s.checkTile k acc (moveWords x y rows cols)
    let (_, s) ← s.postTile k (kind rows cols) x y
    .ok (if free then s.nameHandle k d.toNat none else s)) s

/-- MXRD (R160). -/
def execMxrd (free : Bool) (d a b : Reg) (s : State) : Host.Outcome State Fault Refusal :=
  moveInstr (.mxrd free d a b) d a b .store (fun rows cols => .mxrd d.toNat rows cols free) free s

/-- MXWR (R160). -/
def execMxwr (d a b : Reg) (s : State) : Host.Outcome State Fault Refusal :=
  moveInstr (.mxwr d a b) d a b .load (fun rows cols => .mxwr d.toNat rows cols) false s

end Sys2Proof.Machine
end

