-- ==== Sys2Proof/Machine/Rule.lean ====
section
/-!
DEFINITION. Rule.lean: the rule engine (07): the tile descriptor (R162, R163), neighbourhoods and tables (R164, R165), generations (R166, R167),
turns and parking (R170, R171), and RCFG, RTAB, RSTEP, RGEN (R173 to R177).
-/
namespace Sys2Proof.Machine

open Sys2Proof

/-! ### The descriptor (R162, R163, R165) -/

/-- A tile's configuration, as words w0 and w1 give it. -/
structure Tile where
  w : Nat
  h : Nat
  halo : Nat
  b : Nat
  nbr : Nat
  total : Bool
  cheq : Bool
  par : Nat
  buf0 : Nat
  buf1 : Nat
  tbl : Nat
  deriving DecidableEq, Repr

def tileOf (w0 w1 : Nat) : Tile :=
  { w := 16 * (bits w0 4 0 + 1), h := 16 * (bits w0 9 5 + 1), halo := bits w0 15 12, b := 2 ^ bits w0 11 10, nbr := bits w0 17 16
    total := bit w0 18, cheq := bit w0 19, par := bits w0 20 20, buf0 := 64 * bits w1 15 0, buf1 := 64 * bits w1 31 16, tbl := 64 * bits w1 47 32 }

def Tile.sw (t : Tile) : Nat := t.w + 2 * t.halo
def Tile.sh (t : Tile) : Nat := t.h + 2 * t.halo
/-- Row pitch in bytes (R163). -/
def Tile.pitch (t : Tile) : Nat := ceilDiv (t.sw * t.b) 512 * 64
def Tile.size (t : Tile) : Nat := t.sh * t.pitch
def Tile.radius (t : Tile) : Nat := if t.nbr = 2 then 2 else 1
/-- Reach of one generation (R167). -/
def Tile.reach (t : Tile) : Nat := if t.cheq then 2 * t.radius else t.radius

/-- Offsets of the neighbourhood's cells in raster order (R164). -/
def Tile.offsets (t : Tile) : List (Int × Int) :=
  match t.nbr with
  | 0 => [(0, -1), (-1, 0), (0, 0), (1, 0), (0, 1)]
  | 1 => ([-1, 0, 1] : List Int).flatMap fun dy => ([-1, 0, 1] : List Int).map fun dx => (dx, dy)
  | _ => ([-2, -1, 0, 1, 2] : List Int).flatMap fun dy => ([-2, -1, 0, 1, 2] : List Int).map fun dx => (dx, dy)

def Tile.ncells (t : Tile) : Nat := t.offsets.length
/-- S of R165. -/
def Tile.sumMax (t : Tile) : Nat := (t.ncells - 1) * (2 ^ t.b - 1)
/-- The table length a configuration requires (R165). -/
def Tile.tableLen (t : Tile) : Nat := if t.total then 2 ^ t.b * (t.sumMax + 1) else 2 ^ (t.b * t.ncells)

/-- Two byte ranges overlap. -/
def overlaps (a b : Nat × Nat) : Bool := decide (a.1 < b.1 + b.2) && decide (b.1 < a.1 + a.2)

/-- No two of the ranges overlap. -/
def apart : List (Nat × Nat) → Bool
  | [] => true
  | x :: t => !(t.any (overlaps x)) && apart t

/-- Bytes of scratchpad that a command's window shows (R296, R342). -/
def State.windowSize (s : State) (c : Cmd) : Nat :=
  if c.sup then 2 ^ 22
  else match (s.core c.core).alloc c.launch with
  | some a => (a.csUnits + a.ccUnits) * 4096
  | none => 0

/-- RCFG's checks (R174); `off` is the descriptor's window offset. -/
def tileOk (w0 w1 off size : Nat) : Bool :=
  let t := tileOf w0 w1
  let areas := [(off, 64), (t.buf0, t.size), (t.tbl, t.tableLen)] ++ (if t.cheq then [] else [(t.buf1, t.size)])
  decide (w0 < 2 ^ 21) && decide (w1 < 2 ^ 48) && decide (bits w0 11 10 ≠ 3) && decide (t.nbr ≠ 3) && decide (1 ≤ t.halo) && decide (t.halo ≤ 8)
    && (t.total || (decide (t.b * t.ncells ≤ 16) && decide (t.nbr ≠ 2))) && (!t.cheq || decide (bits w1 31 16 = 0))
    && areas.all (fun a => decide (a.1 + a.2 ≤ size)) && apart areas

/-! ### Cells (R163, R166) -/

/-- The code of stored cell (x, y) in the rows of a buffer, each given as one little-endian number. -/
def cellAt (t : Tile) (rows : List Nat) (x y : Nat) : Nat := bits (rows.getD y 0) (x * t.b + t.b - 1) (x * t.b)

/-- Ring distance of a stored cell (R163). -/
def Tile.dist (t : Tile) (x y : Nat) : Nat := min (min x y) (min (t.sw - 1 - x) (t.sh - 1 - y))

/-- The table index of a stored cell (R165). -/
def Tile.index (t : Tile) (rows : List Nat) (x y : Nat) : Nat :=
  let cs := t.offsets.map fun o => cellAt t rows ((x : Int) + o.1).toNat ((y : Int) + o.2).toNat
  if t.total then
    let own := cellAt t rows x y
    own * (t.sumMax + 1) + (cs.foldl (· + ·) 0 - own)
  else ofLanes t.b cs

/-- update(x, y) (R166). -/
def Tile.update (t : Tile) (table : List Byte) (rows : List Nat) (x y : Nat) : Nat := (table.getD (t.index rows x y) 0).toNat % 2 ^ t.b

/-- The rows after a generation (SYNC), or after half-step p (CHEQ) (R166). -/
def Tile.advance (t : Tile) (table : List Byte) (rows : List Nat) (p : Nat) : List Nat :=
  (List.range t.sh).map fun y => ofLanes t.b ((List.range t.sw).map fun x =>
    if t.dist x y ≥ t.radius ∧ (!t.cheq ∨ (x + y + t.par) % 2 = p) then t.update table rows x y else cellAt t rows x y)

/-- The address of a scratchpad offset in the window. -/
def cspVa (off : Nat) : Nat := cspWin + off

/-- Bytes of a row that hold cells. -/
def Tile.rowBytes (t : Tile) : Nat := ceilDiv (t.sw * t.b) 8

/-- A word of scratchpad as the engine reads it (R169): what it has read of it before, else what is there now. One outside the allocation, where a descriptor that
software has changed may lead, gives an open value and no fault (log entry 35). -/
def State.ruleWord (s : State) (c : Cmd) (va : Nat) : Except MxStop (List Byte) :=
  match c.got.find? fun p => p.1 = va with
  | some p => .ok p.2
  | none => match s.engAddr c .load va with
    | .ok (.here k) =>
      if s.poisoned k then .error (.fail 6 Cause.memue.code va)
      else .ok ((List.range 8).map fun j => s.byte (k + j))
    | _ => .ok (bytesOf 8 (Config.openWord (s.fresh + va / 8)).toNat)

/-- n bytes of scratchpad as the engine reads them, by aligned words (R169). -/
def State.ruleRead (s : State) (c : Cmd) (va n : Nat) : Except MxStop (List Byte) :=
  if n = 0 then .ok []
  else ((List.range ((va + n - 1) / 8 - va / 8 + 1)).mapM fun j => s.ruleWord c (va / 8 * 8 + 8 * j)).map fun ws => (ws.flatten.drop (va % 8)).take n

/-- The rows of the buffer at an offset, as the engine reads them. -/
def State.tileRows (s : State) (c : Cmd) (t : Tile) (buf : Nat) : Except MxStop (List Nat) :=
  (List.range t.sh).mapM fun y => (s.ruleRead c (cspVa (buf + y * t.pitch)) t.rowBytes).map ofBytes

/-- An area of the tile does not lie in the command's scratchpad: open values have been read of it, and the next are others. -/
def State.drawOpen (s : State) (c : Cmd) (t : Tile) : State :=
  if max (max (t.buf0 + t.size) (t.buf1 + t.size)) (t.tbl + t.tableLen) ≤ s.windowSize c then s else { s with fresh := s.fresh + 2 ^ 61 }

/-- Write bytes at a window address of a command's scratchpad; what lies outside the allocation is not written (R371, log entry 35). -/
def State.cspPut (s : State) (c : Cmd) (off : Nat) (b : List (Nat × Byte)) : State :=
  s.write (b.filterMap fun p => match s.engAddr c .store (cspVa (off + p.1)) with
    | .ok (.here k) => some (k, p.2)
    | _ => none)

/-- The cells of row y that a generation (SYNC), or half-step p (CHEQ), writes, as a mask of the row's bits (R166). -/
def Tile.rowMask (t : Tile) (p y : Nat) : Nat :=
  ofLanes t.b ((List.range t.sw).map fun x => if !t.cheq ∨ (t.dist x y ≥ t.radius ∧ (x + y + t.par) % 2 = p) then 2 ^ t.b - 1 else 0)

/-- Write the cells of the rows that half-step p writes into the buffer at an offset; the other bits stay as they are in memory. -/
def State.putRows (s : State) (c : Cmd) (t : Tile) (buf p : Nat) (rows : List Nat) : State :=
  (rows.mapIdx fun y r => (y, r)).foldl (fun s q =>
    let off := buf + q.1 * t.pitch
    let m := t.rowMask p q.1
    let new (j : Nat) : Option (Nat × Byte) :=
      let mj := bits m (8 * j + 7) (8 * j)
      let old := match s.engAddr c .load (cspVa (off + j)) with | .ok (.here k) => (s.byte k).toNat | _ => 0
      if mj = 0 then none else some (j, BitVec.ofNat 8 ((bits q.2 (8 * j + 7) (8 * j) &&& mj) ||| (old &&& (255 - mj))))
    s.cspPut c off ((List.range t.rowBytes).filterMap new)) s

/-! ### Word w2 (R162) -/

/-- Words k of a command's descriptor; none where one is poisoned. -/
def State.descWord (s : State) (c : Cmd) (k : Nat) : Except MxStop Nat := (s.engRead c 8 (c.a.toNat + 8 * k) 8).map ofBytes

def State.putDesc (s : State) (c : Cmd) (k x : Nat) : State := s.engPut c (c.a.toNat + 8 * k) 8 x

/-- w2 and w3 are written whole (R162): w3 as it stands, an open value where it cannot be read (log entry 70). -/
def State.putW2 (s : State) (c : Cmd) (w : Nat) : State :=
  match s.descWord c 3 with
  | .ok l => (s.putDesc c 2 w).putDesc c 3 l
  | .error _ => ((s.putDesc c 2 w).putDesc c 3 ((Config.openWord s.fresh).toNat % 2 ^ 17)).draw

/-- w2 with some of its fields replaced. -/
def w2Status (w x : Nat) : Nat := setBits w 31 24 x
def w2Busy (w : Nat) (b : Bool) : Nat := setBit w 15 b
def w2Remain (w n : Nat) : Nat := setBits w 19 16 n

/-! ### Turns (R170, R171) -/

def sameTask (c x : Cmd) : Bool := decide (c.core = x.core) && decide (c.launch = x.launch) && decide (c.serial = x.serial)

/-- Rule commands at the engine of a command's cluster. -/
def State.ruleCmds (s : State) (c : Cmd) : List Cmd := s.cmds.filter fun x => x.kind.isRule && decide (clusterOf x.core = clusterOf c.core)

/-- A posted command lets later ones of other tasks pass: a parked command of its own task is before it, or a GONG holds it. -/
def State.standsAside (s : State) (x : Cmd) : Bool :=
  s.cmdHeld x || s.cmds.any fun y => y.kind.isRule && sameTask y x && decide (y.id < x.id) && y.phase == .parked

/-- The engine executes the command, or has still to complete it; one that a GONG holds stands aside. -/
def State.ruleBusy (s : State) (x : Cmd) : Bool := x.phase == .running || (x.phase == .finished && !s.cmdHeld x)

/-- The command may begin (R171). -/
def State.ruleTurn (s : State) (c : Cmd) : Bool :=
  !(s.cmdHeld c) && c.phase == .posted && !((s.ruleCmds c).any fun x => decide (x.id ≠ c.id) && (s.ruleBusy x
    || (decide (x.id < c.id) && (sameTask x c || (x.phase == .posted && !s.standsAside x)))))

/-- The issuing task has left its core by pre-emption or a trap (R170). A task that has ENDed without waiting for its RSTEP can be resumed or abandoned no more: that RSTEP
runs on, whatever happens to its core (log entry 79). -/
def State.taskAway (s : State) (c : Cmd) : Bool :=
  !c.sup && (match (s.core c.core).alloc c.launch with
    | some a => decide (a.bank.serial = c.serial) && (a.st == .away || a.st == .parked || a.st == .ready)
    | none => false)

/-- A running RSTEP parks at this boundary; w2 holds its state already, and the table is loaded again later (R170). -/
def State.parkRule (s : State) (c : Cmd) : State :=
  if c.kind == .rstep && c.phase == .running then s.setCmd { c with phase := .parked, got := [] } else s

/-! ### The engine's work -/

/-- The command's status is known; `a` is the address of a fault. -/
def State.ruleEnd (s : State) (c : Cmd) (code a : Nat) : State := s.setCmd { c with phase := .finished, code := code, faddr := BitVec.ofNat 64 a }

/-- The table area as words, each with its address (R176). -/
def State.loadTable (s : State) (c : Cmd) (t : Tile) : Except MxStop (List (Nat × List Byte)) :=
  (List.range (ceilDiv t.tableLen 8)).mapM fun j => (s.ruleWord { c with got := [] } (cspVa (t.tbl + 8 * j))).map fun b => (cspVa (t.tbl + 8 * j), b)

/-- A word read before lies in the table area. -/
def Tile.inTable (t : Tile) (va : Nat) : Bool := decide (cspVa t.tbl ≤ va) && decide (va < cspVa t.tbl + t.tableLen)

/-- An RSTEP in its turn (R176): its checks, then BUSY, REMAIN and the table; none where it waits. -/
def State.startRstep (s : State) (c : Cmd) : Option State :=
  match s.settleCmd c with
  | none => none
  | some s =>
    let r : Except MxStop (Nat × Nat × Nat) := do
      let w0 ← s.descWord c 0
      let w1 ← s.descWord c 1
      let w2 ← s.descWord c 2
      .ok (w0, w1, w2)
    match r with
    | .error .held => none
    | .error (.fail code _ a) => some (s.ruleEnd c code a)
    | .ok (w0, w1, w2) =>
      let t := tileOf w0 w1
      if !bit w2 20 then some (s.ruleEnd c 1 0)
      else if !bit w2 21 then some (s.ruleEnd c 3 0)
      else if c.v.toNat * t.reach > t.halo then some (s.ruleEnd c 4 0)
      else
        let w := w2Remain (w2Busy w2 true) c.v.toNat
        let c := { c with k := 1, snap := bytesOf 8 w0 ++ bytesOf 8 w1 ++ bytesOf 8 w }
        if c.v.toNat = 0 then some (s.ruleEnd c 0 0)
        else match s.loadTable c t with
          | .error .held => none
          | .error (.fail code _ a) => some ((s.putW2 c w).ruleEnd c code a)
          | .ok tab => some (((s.putW2 c w).drawOpen c t).setCmd { c with phase := .running, got := tab })

/-- The configuration of a running RSTEP, and w2 as the engine holds it: the descriptor words it read when it began (R169). -/
def Cmd.tile (c : Cmd) : Tile := tileOf (snapWord c.snap 0) (snapWord c.snap 1)
def Cmd.w2 (c : Cmd) : Nat := snapWord c.snap 2

/-- The offset of the buffer that the next generation reads, and of the one it writes (R166). -/
def Cmd.buffers (c : Cmd) : Nat × Nat :=
  let t := c.tile
  if t.cheq then (t.buf0, t.buf0) else if bit c.w2 22 then (t.buf1, t.buf0) else (t.buf0, t.buf1)

/-- The engine reads a word of the buffer ahead of the rest, or a word of the table area again (R169). -/
def State.readAhead (s : State) (c : Cmd) (off : Nat) : Option State :=
  let t := c.tile
  let inside (b n : Nat) : Bool := decide (b ≤ off) && decide (off < b + n)
  if off % 8 ≠ 0 || !(inside t.tbl t.tableLen || inside c.buffers.1 t.size) then none
  else match s.ruleWord { c with got := [] } (cspVa off) with
    | .ok b => some ((s.drawOpen c t).setCmd { c with got := (cspVa off, b) :: c.got.filter fun p => p.1 ≠ cspVa off })
    | .error _ => none

/-- One SYNC generation or one CHEQ half-step of a running RSTEP, applied as a unit (R166), with the table as it was loaded (R176). -/
def State.ruleUnit (s : State) (c : Cmd) : Option State :=
  let t := c.tile
  let w2 := c.w2
  let r : Except MxStop (List Byte × List Nat) := do
    let table ← s.ruleRead c (cspVa t.tbl) t.tableLen
    let rows ← s.tileRows c t c.buffers.1
    .ok (table, rows)
  match r with
  | .error .held => none
  | .error (.fail code _ a) => some (s.ruleEnd c code a)
  | .ok (table, rows) =>
    let hs := t.cheq && bit w2 23
    let s := (s.drawOpen c t).putRows c t c.buffers.2 (b2n hs) (t.advance table rows (b2n hs))
    let first := t.cheq && !hs
    let left := bits w2 19 16 - 1
    let w := if first then setBit w2 23 true
      else
        let w := setBits (w2Remain w2 left) 63 32 (bits w2 63 32 + 1)
        if t.cheq then setBit w 23 false else setBit w 22 (!bit w2 22)
    let s := s.putW2 c w
    let c := { c with snap := c.snap.take 16 ++ bytesOf 8 w, got := c.got.filter fun p => t.inTable p.1 }
    some (if !first && left = 0 then s.ruleEnd c 0 0 else s.setCmd c)

/-- RULE_HALF_STEP (R166, R170, R176): RSTEP command `id` begins in its turn, runs its next generation or half-step, or parks at this
boundary. With `q` it reads the scratchpad word at offset `addr` ahead. -/
def execRuleHalfStep (s : State) : Host.Outcome State Fault Refusal :=
  runEvent (fun x s => match s.cmd x.id with
    | none => none
    | some c =>
      if !(c.kind == .rstep) then none
      else if c.phase == .posted then (if s.ruleTurn c then s.startRstep c else none)
      else if !(c.phase == .running) then none
      else if s.cmdHeld c || s.taskAway c then some (s.parkRule c)
      else if x.q then s.readAhead c x.addr else s.ruleUnit c) s

/-- RULE_RESUME (R170, R171): parked RSTEP `id` goes on: its task is on its core again, nothing holds it, and the engine is free; it loads the table again. -/
def execRuleResume (s : State) : Host.Outcome State Fault Refusal :=
  runEvent (fun x s => match s.cmd x.id with
    | none => none
    | some c =>
      if !(c.kind == .rstep) || !(c.phase == .parked) || s.cmdHeld c || s.taskAway c || (s.ruleCmds c).any s.ruleBusy then none
      else match s.loadTable c c.tile with
        | .error .held => none
        | .error (.fail code _ a) => some (s.ruleEnd c code a)
        | .ok tab => some ((s.drawOpen c c.tile).setCmd { c with phase := .running, got := tab })) s

/-- What a completion leaves in w2 (R172, R176): STATUS; of an RSTEP that has begun or ends with MEMUE or ABANDON BUSY = 0 and REMAIN, the
generations still owed, of which the field keeps four bits (log entry 70); of an RTAB that fails otherwise than with BADCFG TVALID = 0. -/
def Cmd.lastW2 (c : Cmd) (w : Nat) : Nat :=
  let w := w2Status w c.code
  match c.kind with
  | .rstep => if c.k = 1 then w2Busy w false else if c.code ≥ 6 then w2Remain (w2Busy w false) c.v.toNat else w
  | .rtab => if c.code = 2 ∨ c.code = 5 ∨ c.code = 6 then setBit w 21 false else w
  | _ => w

/-- A completion writes w2 and w3; a w2 that cannot be read is an open value in its other fields (R172). -/
def State.putStatus (s : State) (c : Cmd) : State :=
  if c.k = 1 then s.putW2 c (c.lastW2 c.w2)
  else match s.descWord c 2 with
    | .ok w => s.putW2 c (c.lastW2 w)
    | .error _ => s.draw.putW2 c (c.lastW2 (Config.openWord s.fresh).toNat)

/-- A rule command completes: its status is written, its number counts (R172). -/
def State.ruleDone (s : State) (c : Cmd) : State := (s.putStatus c).finishCmd c (decide (c.code ≠ 0)) (decide (c.code = 6))

/-- RCFG's work (R174). -/
def State.runRcfg (s : State) (c : Cmd) : State :=
  let s := ((s.putDesc c 0 c.v.toNat).putDesc c 1 c.c.toNat).putDesc c 3 0
  let ok := tileOk c.v.toNat c.c.toNat (c.a.toNat - cspWin) (s.windowSize c)
  (s.putDesc c 2 (if ok then 2 ^ 20 else 1 * 2 ^ 24)).finishCmd c (!ok) false

/-- RTAB's work (R175); none where it waits. -/
def State.runRtab (s : State) (c : Cmd) : Option State :=
  let r : Except MxStop (Nat × Nat × Nat) := do
    let w0 ← s.descWord c 0
    let w1 ← s.descWord c 1
    let w2 ← s.descWord c 2
    .ok (w0, w1, w2)
  match r with
  | .error .held => none
  | .error (.fail code _ a) => some (s.ruleDone { c with code := code, faddr := BitVec.ofNat 64 a })
  | .ok (w0, w1, w2) =>
    let t := tileOf w0 w1
    if !bit w2 20 then some (s.ruleDone { c with code := 1 })
    else if c.c.toNat ≠ t.tableLen then some (s.ruleDone { c with code := 2 })
    else match s.engRead c 8 c.v.toNat t.tableLen with
      | .error .held => none
      | .error (.fail code _ a) => some (s.ruleDone { c with code := code, faddr := BitVec.ofNat 64 a })
      | .ok b =>
        if b.any fun x => decide (x.toNat ≥ 2 ^ t.b) then some (s.ruleDone { c with code := 2 })
        else
          let s := s.keepEng c.ecl c.v.toNat
          let s := (s.cspPut c t.tbl (b.mapIdx fun j x => (j, x))).putDesc c 3 t.tableLen
          some ((s.putDesc c 2 (w2Status (setBit w2 21 true) 0)).finishCmd c false false)

/-- RULE_COMMAND_COMPLETE (R172): RCFG or RTAB `id` does its work in its turn; an RSTEP whose status is known reports it. -/
def execRuleCommandComplete (s : State) : Host.Outcome State Fault Refusal :=
  runEvent (fun x s => match s.cmd x.id with
    | none => none
    | some c => match c.kind with
      | .rcfg => if s.ruleTurn c then (s.settleCmd c).map fun s => s.runRcfg c else none
      | .rtab => if s.ruleTurn c then (match s.settleCmd c with | some s => s.runRtab c | none => none) else none
      | .rstep =>
        if !(c.phase == .finished) || decide (c.code = 7) || s.cmdHeld c then none
        else some (s.ruleDone c)
      | _ => none) s

/-- RULE_ABANDON (R170 to R172): rule command `id` of a task or launch that was abandoned, or of a lost task, completes with ABANDON, behind the earlier ones of its
task and while the engine executes no other. -/
def execRuleAbandon (s : State) : Host.Outcome State Fault Refusal :=
  runEvent (fun x s => match s.cmd x.id with
    | none => none
    | some c =>
      if !c.kind.isRule || !(c.phase == .finished) || decide (c.code ≠ 7) || s.cmdHeld c
          || (s.ruleCmds c).any (fun y => y.phase == .running || (sameTask y c && decide (y.id < c.id))) then none
      else some (s.ruleDone c)) s

/-! ### Instructions (R173) -/

/-- The check of a descriptor address at issue (R173): its physical key. -/
def State.checkDesc (s : State) (k : Nat) (a : Word) : M Nat :=
  match windowOf a.toNat with
  | some (false, x) =>
    if x ≥ 2 ^ 22 then .error (.trap .prot a)
    else if a.toNat % 64 ≠ 0 then .error (.trap .align a)
    else match s.windowKey k false x with
      | some key => .ok key
      | none => .error (.trap .lease a)
  | _ => .error (.trap .prot a)

/-- Post a rule command on tl2 (R173). -/
def postRule (i : Instr) (d : Reg) (kind : CmdKind) (ops : Core → M (Word × Word × Word × Core)) (s : State) : Host.Outcome State Fault Refusal :=
  runSeq i (fun k s => do
    let (a, v, z, c) ← ops (s.core k)
    let s := s.setCore k c
    let _ ← s.checkDesc k a
    stallUnless (decide (c.tiles < 16))
    let (n, s) := s.post k 2 kind a v z [] false false
    let c ← (s.core k).putS k d (BitVec.ofNat 64 n)
    .ok (s.setCore k c)) s

/-- s[A], s[B] and s[C], in that order. -/
def readABC (a b c : Reg) (k : Core) : M (Word × Word × Word × Core) := do
  let (x, k) ← k.readS a
  let (y, k) ← k.readS b
  let (z, k) ← k.readS c
  .ok (x, y, z, k)

/-- RCFG (R174). -/
def execRcfg (d a b c : Reg) (s : State) : Host.Outcome State Fault Refusal := postRule (.rcfg d a b c) d .rcfg (readABC a b c) s

/-- RTAB (R175). -/
def execRtab (d a b c : Reg) (s : State) : Host.Outcome State Fault Refusal := postRule (.rtab d a b c) d .rtab (readABC a b c) s

/-- RSTEP (R176): the count is an immediate, or bits [31:0] of s[B] at issue. -/
def execRstep (creg : Bool) (n : BitVec 4) (d a b : Reg) (s : State) : Host.Outcome State Fault Refusal :=
  postRule (.rstep creg n d a b) d .rstep (fun k => do
    let (x, k) ← k.readS a
    let (y, k) ← if creg then k.readS b else .ok ((BitVec.ofNat 64 n.toNat : Word), k)
    .ok (x, BitVec.ofNat 64 (y.toNat % 2 ^ 32), 0, k)) s

/-- RGEN (R177): w2 as it stands in memory. The rule lets the value trail the engine by any number of boundaries; the model's trails by none, and shows what software
has stored there (log entry 80). -/
def execRgen (d a : Reg) (s : State) : Host.Outcome State Fault Refusal :=
  runSeq (.rgen d a) (fun k s => do
    let (x, c) ← (s.core k).readS a
    let key ← s.checkDesc k x
    trapIf (s.poisonSeen k (key + 16)) .memue (x + 16)
    let c ← c.putS k d (BitVec.ofNat 64 (s.rd (key + 16) 8))
    .ok (s.setCore k c)) s

end Sys2Proof.Machine
end

