-- ==== Sys2Proof/Machine/System.lean ====
section
/-!
DEFINITION. System.lean: TRAP, ERET (R362, R363), the supervisor's PARK, GONG and GONG.release (R364, R365, R280), SRESUME (R366) and TLBI
(R348); the posting of fault messages (R361, R379); saving and restoring a context (R356, R358, R368); the completion of a launch (R306, R292)
and the release of a team's allocations (R372).
-/
namespace Sys2Proof.Machine

open Sys2Proof

/-! ### TRAP, ERET -/

/-- TRAP (R363): BREAK with the code in EVAL. -/
def execTrap (code : BitVec 6) (s : State) : Host.Outcome State Fault Refusal :=
  runCtl (.trap code) (fun _ _ => .error (.trap .brk (BitVec.ofNat 64 code.toNat))) s

/-- ERET (R362). -/
def execEret (s : State) : Host.Outcome State Fault Refusal :=
  runCtl .eret (fun k s => .ok (s.modCore k fun c => { c.returnTrap with pfx := [], stalled := false })) s

/-! ### The mailbox (R361, R364) -/

/-- Offset of the mailbox header in the supervisor core's local store, and of entry n (R361). -/
def mailboxOff : Nat := 0x18000
def mailEntryOff (n : Nat) : Nat := 0x18040 + 64 * (n % 255)

/-- HEAD and TAIL as they stand at their homes. -/
def State.mailHead (s : State) (p : Nat) : Nat := s.rd (lsKey (s.supOf p) mailboxOff) 4
def State.mailTail (s : State) (p : Nat) : Nat := s.rd (lsKey (s.supOf p) (mailboxOff + 8)) 4

/-- PARK (R364): it stalls until HEAD ≠ TAIL, then acquires. -/
def execPark (s : State) : Host.Outcome State Fault Refusal :=
  runSeq .park (fun k s => do
    let at_ (o : Nat) : Nat := lsKey k (mailboxOff + o)
    let word (o : Nat) : Nat := ofBytes ((List.range 4).map fun j => s.loadByte k false (at_ o + j))
    let va (o : Nat) : Word := BitVec.ofNat 64 (lsWin + mailboxOff + o)
    trapIf (s.poisonSeen k (at_ 0)) .memue (va 0)
    trapIf (s.poisonSeen k (at_ 8)) .memue (va 8)
    stallUnless (decide (word 0 ≠ word 8))
    .ok (s.acquireAt k .device)) s

/-- The 64 bytes of a fault message (R360), as words. -/
def FaultMsg.words (m : FaultMsg) (seq : Nat) : List Nat :=
  [seq % 2 ^ 16 * 2 ^ 48 + m.kind * 2 ^ 40 + m.cause * 2 ^ 32 + m.coreid, m.epc.toNat, m.eval.toNat, m.eslot.toNat, m.launch * 2 ^ 32, m.coord.toNat,
   m.time.toNat, m.tl * 2 ^ 62 + m.num % 2 ^ 62]

/-- Every store that the message follows is performed (R379). -/
def State.msgReady (s : State) (m : FaultMsg) : Bool :=
  match coreOfId m.coreid with
  | none => true
  | some i => !((s.core i).sb.any fun e => decide (e.grp < m.upto)) && !((s.cluster (clusterOf i)).sb.any fun e => decide (e.1 = i) && decide (e.2.grp < m.upto))
      && !(s.holds.any fun h => h.q.any fun q => decide (q.core = i) && decide (q.grp < m.upto)) && s.hostSeen .device i (s.visible i)

/-- Message n of partition p's fault path can be posted: it is the first of its source, its stores are performed, and there is room (R361,
R379). -/
def State.canPost (s : State) (p n : Nat) : Option FaultMsg :=
  let box := (s.prt p).outbox
  match box[n]? with
  | none => none
  | some m =>
    let head := lsKey (s.supOf p) mailboxOff
    if (box.take n).any (fun x => x.src = m.src) || !s.msgReady m || s.poisoned head || s.poisoned (head + 8)
        || decide ((s.mailHead p + 2 ^ 32 - s.mailTail p) % 2 ^ 32 ≥ 255) then none
    else some m

/-- The release at device scope of the post, for the core that the message comes from (R361, R379). -/
def State.postRelease (s : State) (m : FaultMsg) : State := if m.src < ncores then s.publish m.src .device else s

/-- FAULT_MESSAGE_POST (R361): message `n` of partition `part`. -/
def execFaultMessagePost (s : State) : Host.Outcome State Fault Refusal :=
  runEvent (fun x s => match s.canPost x.part x.n with
    | none => none
    | some m =>
      let k := s.supOf x.part
      let h := s.mailHead x.part
      let s := s.write (at_ (lsKey k (mailEntryOff h)) 64 (ofLanes 64 (m.words h)))
      let s := (s.postRelease m).wr (lsKey k mailboxOff) 4 ((h + 1) % 2 ^ 32)
      let s := s.modPart x.part fun p => { p with outbox := p.outbox.eraseIdx x.n }
      some (s.wake k)) s

/-! ### GONG (R365, R280) -/

/-- The target a GONG names: a launch of the partition, or (none) the partition. -/
def gongTarget (x : Word) : Option (Option Nat) :=
  if x.toNat ≥ 2 ^ 34 then none
  else match bits x.toNat 33 32 with
  | 0 => some (some (x.toNat % 2 ^ 32))
  | 1 => if x.toNat % 2 ^ 32 = 0 then some none else none
  | _ => none

/-- Whether core i runs the target in partition p. -/
def State.inTarget (s : State) (p : Nat) (t : Option Nat) (i : Nat) : Bool :=
  decide (s.partOf i = p) && !s.isSup i && (match t, (s.core i).run with
    | none, some _ => true
    | some l, some r => decide (l = r)
    | _, none => false)

/-- A command belongs to the target. -/
def Cmd.inTarget (c : Cmd) (p : Nat) (t : Option Nat) : Bool :=
  decide (c.part = p) && !c.sup && (match t with | none => true | some l => decide (c.launch = l))

/-- The cores that anything is known of. -/
def State.knownCores (s : State) : List Nat := s.cores.map (·.1)

/-- A request of the command has left the engine, for a peer or for the queue of a page under migration, and is not answered: what a held engine has issued
(R280). -/
def State.onItsWay (s : State) (c : Cmd) : Bool :=
  c.pend.any fun p => !(s.cells.any fun x => !cellAnswers x && decide (x.cmd = c.id) && decide (x.idx = p.1))

/-- A store that a task of the target issued, whatever became of the task, is still to be performed: in a store buffer, shared with a cluster, or queued at a page under
migration (R280). -/
def State.targetStores (s : State) (p : Nat) (t : Option Nat) : Bool :=
  let mine (i l : Nat) : Bool := decide (s.partOf i = p) && !s.isSup i && (match t with | none => true | some x => decide (l = x))
  (s.cores.any fun c => c.2.sb.any fun e => mine c.1 e.launch) || (s.clusters.any fun c => c.2.sb.any fun e => mine e.1 e.2.launch)
    || s.holds.any fun h => h.q.any fun q => decide (q.core < ncores) && mine q.core q.launch

/-- Every core of the target has stopped at a stop point, its engines are held, and no access of it, or of a held engine, is still to be performed
(R280): its stores are at their homes, the pushed items of its streams among them, and no core keeps a view of HOST that misses what its cores saw. -/
def State.targetStopped (s : State) (p : Nat) (t : Option Nat) : Bool :=
  let holds (i : Nat) : Bool := s.inTarget p t i || (decide (s.partOf i = p) && (s.core i).allocs.any fun a => match t with | none => true | some l => decide (a.launch = l))
  s.knownCores.all (fun i => !(s.inTarget p t i) || (s.core i).atStop)
    && !s.targetStores p t && s.knownCores.all (fun i => !holds i || s.hostSeen .device i (s.visible i))
    && s.cmds.all fun c => !(c.inTarget p t) || (!s.onItsWay c && !((c.kind == .mxq || c.kind == .rstep) && c.phase == .running))

/-- Cores of the target at a stop point give up their tickets (R215, R365). -/
def State.dropTickets (s : State) (p : Nat) (t : Option Nat) : State :=
  { s with tickets := s.tickets.filter fun k => !(s.inTarget p t k.core && (s.core k.core).atStop) }

/-- The count of unreleased GONGs of a target; none for a launch that is not incomplete. -/
def State.gongCount (s : State) (p : Nat) : Option Nat → Option Nat
  | none => some (s.prt p).gong
  | some l => (s.launch p l).map (·.gong)

def State.setGong (s : State) (p n : Nat) : Option Nat → State
  | none => s.modPart p fun x => { x with gong := n }
  | some l => match s.launch p l with | some x => s.setLaunch { x with gong := n } | none => s

/-- The matrix and rule engines of the target park (R154, R170). -/
def State.parkTarget (s : State) (p : Nat) (t : Option Nat) : State :=
  s.cmds.foldl (fun s c => if c.inTarget p t then (s.parkMatrix c).parkRule c else s) s

/-- GONG (R365, R280): the count goes up once; the instruction returns when the target has stopped. -/
def execGong (a : Reg) (s : State) : Host.Outcome State Fault Refusal :=
  runSeq (.gong a) (fun k s => do
    let (x, c) ← (s.core k).readS a
    let p := s.partOf k
    match gongTarget x with
    | none => .error (.trap .illop c.word0)
    | some t =>
      match s.gongCount p t with
      | none => .ok (s.setCore k { c with begun := none })
      | some n =>
        let s := if (s.core k).begun.isSome then s else (s.setGong p (n + 1) t).modCore k fun c => { c with begun := some s.serial }
        let s := (s.dropTickets p t).parkTarget p t
        if s.targetStopped p t then .ok ((s.setCore k { c with begun := none }).acquireAt k .device)
        else .error (.wait s)) s

/-- GONG.release (R365, R280): a release, then the count goes down; where it reaches 0 the cores acquire before they go on. -/
def execGongRelease (a : Reg) (s : State) : Host.Outcome State Fault Refusal :=
  runSeq (.gongRelease a) (fun k s => do
    let (x, c) ← (s.core k).readS a
    let p := s.partOf k
    match gongTarget x with
    | none => .error (.trap .illop c.word0)
    | some t =>
      match s.gongCount p t with
      | none | some 0 => .ok (s.setCore k c)
      | some (n + 1) =>
        let s ← s.release k .device
        let s := (s.setCore k c).setGong p n t
        .ok ((s.knownCores.foldl (fun s i => if s.inTarget p t i then s.acquireAt i .device else s) s).wakeAll)) s

/-! ### TLBI (R348) -/

/-- The cores whose TLBs a TLBI of supervisor core k reaches, and the clusters. -/
def State.tlbiReach (s : State) (k : Nat) (sc : Scope) (i : Nat) : Bool :=
  match sc with
  | .core => decide (i = k)
  | .cluster => decide (clusterOf i = clusterOf k)
  | _ => decide (s.partOf i = s.partOf k)

/-- Remove the translations p selects: from the core's own TLBs, and from the second-level TLB of each cluster reached. At core scope S is the
supervisor core alone. -/
def State.tlbiRemove (s : State) (k : Nat) (sc : Scope) (p : TlbEntry → Bool) : State :=
  let keep (l : List TlbEntry) : List TlbEntry := l.filter fun e => !p e
  let s := s.mapCores fun i c => if s.tlbiReach k sc i then { c with itlb := keep c.itlb, dtlb := keep c.dtlb } else c
  if sc == .core then s
  else { s with clusters := (s.clusters.map fun x => if s.tlbiReach k sc (x.1 * 24) then (x.1, { x.2 with l2tlb := keep x.2.l2tlb }) else x).filter
                  fun x => x.2 ≠ {} }

/-- An access that a core or an engine reached made before identity n, through an address p selects, is still to be performed: a store, a load that has not taken its
value, a request to a peer. An access queued at a page under migration has reached its home, and so has a load that waits there (R350 step 4). -/
def State.tlbiBusy (s : State) (k : Nat) (sc : Scope) (n : Nat) (p : Nat → Bool) : Bool :=
  let store (e : SbEntry) : Bool := decide (e.grp < n) && (windowOf e.va.toNat).isNone && p e.va.toNat
  let load (l : LateLoad) : Bool := decide (l.id < n) && l.parts.any fun q => (windowOf q.va.toNat).isNone && p q.va.toNat && !s.granuleBusy q.key
  (s.knownCores.any fun i => s.tlbiReach k sc i && ((s.core i).sb.any store || (s.core i).late.any load))
    || (s.clusters.any fun c => c.2.sb.any fun e => s.tlbiReach k sc e.1 && store e.2)
    || s.cmds.any fun c =>
      let c := { c with pend := c.pend.filter fun q => q.2.1 ≠ ownHome }
      decide (c.part = s.partOf k) && decide (c.id < n) && (s.onItsWay c || (!c.pend.isEmpty && !s.cmdHeld c)) && s.tlbiReach k sc c.core

/-- Both forms of TLBI. -/
def tlbi (i : Instr) (sc : Scope) (a : Option Reg) (s : State) : Host.Outcome State Fault Refusal :=
  runSeq i (fun k s => do
    let (x, c) ← match a with
      | some a => (do let (x, c) ← (s.core k).readS a; .ok (some x.toNat, c))
      | none => .ok (none, s.core k)
    let part := s.partOf k
    let hit (e : TlbEntry) : Bool := match x with | some va => e.covers part va | none => decide (e.part = part)
    let near (va : Nat) : Bool := match x with | some y => decide (va / 2 ^ 31 = y / 2 ^ 31) | none => true
    let n := c.begun.getD s.serial
    let t := s.setCore k { c with begun := none }
    let t := if c.begun.isSome then t else t.tlbiRemove k sc hit
    if s.tlbiBusy k sc n near then
      let s := if c.begun.isSome then s else s.tlbiRemove k sc hit
      .error (.wait (s.modCore k fun c => { c with begun := some n }))
    else .ok t) s

/-- TLBI.va (R348). -/
def execTlbiVa (scope : Scope) (a : Reg) (s : State) : Host.Outcome State Fault Refusal := tlbi (.tlbiVa scope a) scope (some a) s

/-- TLBI.all (R348). -/
def execTlbiAll (scope : Scope) (s : State) : Host.Outcome State Fault Refusal := tlbi (.tlbiAll scope) scope none s

/-! ### SRESUME (R366) -/

/-- The parked task of the core that a COREID names, in partition p: the core and its allocation. -/
def State.parkedAt (s : State) (p id : Nat) : Option (Nat × Alloc) :=
  match coreOfId id with
  | none => none
  | some i =>
    if s.partOf i ≠ p || s.isSup i then none
    else ((s.core i).allocs.find? fun a => a.st == .parked).map fun a => (i, a)

/-- The RW bits of word k of a save slot (R358); 0 where the word holds only RO and RES fields. -/
def slotMask (k : Nat) : Nat :=
  if k = 1 ∨ (8 ≤ k ∧ k ≤ 18) ∨ (24 ≤ k ∧ k ≤ 84) ∨ (88 ≤ k ∧ k ≤ 423) then 2 ^ 64 - 1
  else if k = 2 then 0x80FFFFFFFFFFFFFC else 0

/-- Whether a word of a slot is poisoned. -/
def State.slotPoison (s : State) (i slot k : Nat) : Bool := s.poisoned (lsKey i (slotOff slot + 8 * k))

/-- The status of a form of SRESUME that names word `idx` (none: the whole slot); `put` for the form that writes (R366). -/
def State.sresumeStatus (s : State) (p id : Nat) (idx : Option Nat) (put : Bool) : Nat :=
  match s.parkedAt p id with
  | none => 1
  | some (i, a) => match idx with
    | some k => if k ≥ 512 then 2 else if put && decide (slotMask k = 0) then 4 else if s.slotPoison i a.slot k then 3 else 0
    | none => if (List.range 512).any (s.slotPoison i a.slot) then 3 else 0

/-- SRESUME, .abandon and .put: the operand s[A], the other operands, and what the form does where its status is OK. -/
def sresumeForm (i : Instr) (d a : Reg) (b c : Option Reg) (f : State → Nat → Alloc → Nat → Word → State) (s : State) :
    Host.Outcome State Fault Refusal :=
  runSeq i (fun k s => do
    let (x, r) ← (s.core k).readS a
    let (y, r) ← match b with | some b => (do let (y, r) ← r.readS b; .ok (some y.toNat, r)) | none => .ok (none, r)
    let (z, r) ← match c with | some c => r.readS c | none => .ok (0, r)
    trapIf (decide (x.toNat ≥ 2 ^ 12)) .illop r.word0
    let p := s.partOf k
    let st := s.sresumeStatus p x.toNat y c.isSome
    let r ← r.putS k d (BitVec.ofNat 64 st)
    let s := s.setCore k r
    match s.parkedAt p x.toNat with
    | some (j, al) => .ok (if st = 0 then f s j al (y.getD 0) z else s)
    | none => .ok s) s

/-- SRESUME (R366): the parked task is ready; it resumes when its core is free for it. -/
def execSresume (d a : Reg) (s : State) : Host.Outcome State Fault Refusal :=
  sresumeForm (.sresume d a) d a none none (fun s j al _ _ =>
    (s.setSlotState j al.slot 1).modCore j fun c => c.setAlloc { al with st := .ready }) s

/-- SRESUME.abandon (R366, R329). -/
def execSresumeAbandon (d a : Reg) (s : State) : Host.Outcome State Fault Refusal :=
  sresumeForm (.sresumeAbandon d a) d a none none (fun s j al _ _ => ((s.setSlotState j al.slot 0).dropTask j al).wakeAll) s

/-- SRESUME.get (R366): the word is an open value where the status is not OK. -/
def execSresumeGet (d a b : Reg) (s : State) : Host.Outcome State Fault Refusal :=
  runSeq (.sresumeGet d a b) (fun k s => do
    let (x, r) ← (s.core k).readS a
    let (y, r) ← r.readS b
    trapIf (decide (x.toNat ≥ 2 ^ 12)) .illop r.word0
    let p := s.partOf k
    let st := s.sresumeStatus p x.toNat (some y.toNat) false
    let (w, s) : Word × State := match s.parkedAt p x.toNat with
      | some (j, al) => if st = 0 then (BitVec.ofNat 64 (s.slotWord j al.slot y.toNat), s) else (Config.openWord s.fresh, s.draw)
      | none => (Config.openWord s.fresh, s.draw)
    .ok (s.setCore k ((r.writeS d.toNat w).writeS (d.toNat + 1) (BitVec.ofNat 64 st)))) s

/-- SRESUME.put (R366): RO and RES bits stay. -/
def execSresumePut (d a b c : Reg) (s : State) : Host.Outcome State Fault Refusal :=
  sresumeForm (.sresumePut d a b c) d a (some b) (some c) (fun s j al k z =>
    let m := BitVec.ofNat 64 (slotMask k)
    let old := BitVec.ofNat 64 (s.slotWord j al.slot k)
    s.wr (lsKey j (slotOff al.slot + 8 * k)) 8 ((old &&& ~~~m) ||| (z &&& m)).toNat) s

/-! ### Saving and restoring (R301, R302, R356, R358, R368) -/

/-- Core i gives up its task at this stop point: it was asked to, or another allocation goes first there, or it waits in TAKE while the other
has work (R301, R307). A stopped core keeps its context (R365). -/
def State.mustSave (s : State) (i : Nat) : Bool :=
  let c := s.core i
  match c.run with
  | none => false
  | some l => match c.alloc l with
    | none => false
    | some a => c.atStop && !s.gonged i && (c.preempt || s.outranked i a || (!c.current && c.stalled && c.allocs.any fun b => decide (b.launch ≠ l) && s.hasWork i b))

/-- CONTEXT_SAVE (R356): core `core` stops; inside a frame EPC names its RPT (R48). -/
def execContextSave (s : State) : Host.Outcome State Fault Refusal :=
  runEvent (fun x s =>
    if !s.mustSave x.core then none
    else
      let c := s.core x.core
      let s := s.setCore x.core (if c.frame.isSome then { c with frame := none, sys := { c.sys with epc := c.pc } } else c)
      some (s.saveContext x.core 1 .away c.unitPc none)) s

/-- A stream as its words in the save slot give it (R358). -/
def strmOfWords (w : Nat → Nat) : Strm :=
  if bit (w 0) 0 then
    { bound := true, output := bit (w 0) 1, base := BitVec.ofNat 64 (w 1), desc := (List.range 5).map fun k => BitVec.ofNat 64 (w (2 + k)), next := w 7, buf := [] }
  else {}

/-- The sparse map that gives n consecutive keys from `from` the values f. -/
def mapOf {α : Type} [DecidableEq α] (d : α) (from_ n : Nat) (f : Nat → α) : SMap α :=
  (List.range n).foldl (fun m k => SMap.set d m (from_ + k) (f k)) []

/-- The core with the state that a save slot's words w give it (R358); reserved bits of a system register read 0 (R3). FPCTL comes back as it was saved, RM = 5 too where
FEATMASK has cleared RAND since, so that a rounding form traps again (R74, R81). The PC is the slot's word: one that is no multiple of 4 traps at the fetch (R378). -/
def Core.ofSlot (c : Core) (i : Nat) (l : Launch) (a : Alloc) (w : Nat → Nat) : Core :=
  let x (k : Nat) : Word := BitVec.ofNat 64 (w k)
  let y : Sys := { fpctl := fpctlOf (x 8), fpstat := x 9 &&& 0x7F, srseed := x 10, ucivec := x 11 &&& 0x00FFFFFFFFFFFFFF, epc := x 12, ecause := x 13 &&& 0xFF
                   eval := x 14, eslot := x 15 &&& 0x80FFFFFFFFFFFFFC, dconf := x 16 &&& 0xE0FFFFFFFFFFFFC0, rptstate := x 17 &&& 0xFFEFFF00FFFFFFFF
                   launchctl := x 18 &&& 0xFFFFFFFF00FF0000, launchid := BitVec.ofNat 64 l.id, taskkind := l.taskKind a, rangeb := a.rb, rangee := a.re }
  let send (k : Nat) : TxPort :=
    let v := w (96 + k) % 2 ^ 15
    { bind := if v = coreId i + k * 2 ^ 12 then none else some (BitVec.ofNat 64 v), drop := a.bank.drops.contains k }
  { c.vacate with
    s := mapOf 0 1 55 (fun k => x (24 + k)), shadow := mapOf 0 48 6 (fun k => x (79 + k)), k := mapOf 0 0 8 (fun k => x (88 + k))
    v := mapOf 0 0 32 (fun r => BitVec.ofNat 512 (ofLanes 64 ((List.range 8).map fun k => w (168 + 8 * r + k))))
    tx := mapOf {} 0 8 send, strm := mapOf {} 0 8 (fun q => strmOfWords fun k => w (104 + 8 * q + k))
    pc := x 1, slot := if bit (w 2) 63 then some (BitVec.ofNat 64 (bits (w 2) 55 2 * 4)) else none
    sys := y, bank := { a.bank with drops := [] }, run := some l.id, current := a.current, coord := a.coord
    phasec := bits (w 4) 63 48, bgen := bits (w 4) 4 1, bwait := bit (w 4) 0, poison := {} }
where
  fpctlOf (v : Word) : Word := if v.toNat % 8 ≥ 6 then v &&& 0x1F00 else v &&& 0x1F07

/-- The words of a save slot that a restore reads. -/
def slotReads : List Nat := (List.range 5) ++ (List.range 11).map (· + 8) ++ (List.range 61).map (· + 24) ++ (List.range 336).map (· + 88)

/-- The context of allocation a comes back to core i, which is free, and acquires at device scope (R356, R366); a poisoned word loses it (R368). A held patch whose step goes on is
held no longer (R329). -/
def State.restoreContext (s : State) (i : Nat) (l : Launch) (a : Alloc) : State :=
  if slotReads.any (s.slotPoison i a.slot) then
    let pc := if s.slotPoison i a.slot 1 then Config.openWord s.fresh else BitVec.ofNat 64 (s.slotWord i a.slot 1)
    s.draw.loseContext i a pc
  else
    let c := ((s.core i).ofSlot i l a (s.slotWord i a.slot)).setAlloc { a with st := .running, rb := 0, re := 0, bank := {} }
    let s := ((s.setCore i c).setSlotState i a.slot 0).acquireAt i .device
    if l.kind = 1 ∧ a.current then
      match l.patches[a.coord.toNat]? with
      | some p => if p.held then s.setPatch l a.coord.toNat { p with held := false } [a.coord.toNat] else s
      | none => s
    else s

/-- CONTEXT_RESTORE (R301, R356, R366): the task of launch `lid` comes back to core `core`, which is free for it. -/
def execContextRestore (s : State) : Host.Outcome State Fault Refusal :=
  runEvent (fun x s =>
    let c := s.core x.core
    match s.launch (s.partOf x.core) x.lid, c.alloc x.lid with
    | some l, some a =>
      if c.run.isSome || s.isSup x.core || !(a.st == .away || a.st == .ready) || !s.hasWork x.core a || s.outranked x.core a then none
      else some (s.restoreContext x.core l a)
    | _, _ => none) s

/-! ### The end of a launch (R292, R306, R372) -/

/-- Commands of the launch that are not complete. -/
def State.launchCmds (s : State) (l : Launch) : List Cmd := s.cmds.filter fun c => decide (c.part = l.part) && decide (c.launch = l.id) && !c.sup

/-- Every task of the launch has ended (R306). -/
def State.tasksOver (s : State) (l : Launch) : Bool := (s.holders l).all fun h => h.2.st == .ended || h.2.st == .idle

/-- The cores of the launch's clusters that anything is known of, whether or not they still hold an allocation of it. -/
def State.launchCores (s : State) (l : Launch) : List Nat := s.knownCores.filter fun i => decide (s.partOf i = l.part) && l.clusterList.contains (clusterOf i)

/-- Stores of the launch's tasks, whatever became of these, or writes of the scheduler, are still to be performed, or to be seen from every core (R306, R311). -/
def State.launchStores (s : State) (l : Launch) : Bool :=
  let here (i : Nat) : Bool := decide (s.partOf i = l.part)
  (s.cores.any fun c => here c.1 && c.2.sb.any fun e => e.launch = l.id)
    || (s.clusters.any fun c => c.2.sb.any fun e => here e.1 && decide (e.2.launch = l.id))
    || (s.holds.any fun h => h.q.any fun q => (decide (q.core < ncores) && here q.core && decide (q.launch = l.id)) || decide (q.core = schedNo))
    || (s.launchCores l).any fun i => !s.hostSeen .system i (s.visible i)

/-- CODE and DETAIL of a launch that can complete now (R292, R306). -/
def State.completion (s : State) (l : Launch) : Option (Nat × Nat) :=
  if s.stoppedL l || s.launchStores l then none
  else if l.abandoned then (if (s.launchCmds l).isEmpty then some (0x86, 0) else none)
  else match l.result with
    | some r => some r
    | none =>
      if l.st == .ready && s.exhausted l && s.tasksOver l && (s.launchCmds l).isEmpty then
        some (if l.lost > 0 then (0x87, min l.lost 255) else (0x80, 0))
      else none

/-- Everything a launch holds goes back: allocations, scratchpads, channels, accumulators, words on their way (R306, R221). -/
def State.releaseLaunch (s : State) (l : Launch) : State :=
  let mine (i : Nat) : Bool := decide (s.partOf i = l.part)
  let freeChan (c : Chan) : Chan := if c.owner = l.id then {} else c
  let tidy (m : SMap Chan) : SMap Chan := (m.map fun c => (c.1, freeChan c.2)).filter fun c => c.2 ≠ {}
  let dead := (s.dchans.filter fun c => decide (c.2.owner = l.id) && s.ownsChan l.part c.1).map (·.1)
  let regs (r : Region) : Region := match r.owner with
    | some (i, lid, _, _) => if mine i && decide (lid = l.id) then {} else r
    | none => r
  let s1 := s.mapCores fun i c => if mine i then
      let c := if c.run = some l.id then c.vacate else c
      { c with allocs := c.allocs.filter fun a => a.launch ≠ l.id }
    else c
  { s1 with
    clusters := (s1.clusters.map fun c => if s.partOfCluster c.1 = l.part then
        (c.1, { c.2 with cs := c.2.cs.filter (fun a => a.launch ≠ l.id), chans := tidy c.2.chans
                         regions := (c.2.regions.map fun r => (r.1, regs r.2)).filter fun r => r.2 ≠ {} })
      else c).filter fun c => c.2 ≠ {}
    dchans := s1.dchans.filter fun c => !dead.contains c.1
    dmask := s1.dmask.filter fun c => !dead.contains (c.1 / 96)
    dclus := s1.dclus.filter fun c => !dead.contains c.1
    handles := s1.handles.filter fun h => !(mine h.core && decide (h.launch = l.id))
    grans := s1.grans.filter fun g => !(mine g.core && decide (g.launch = l.id))
    wires := s1.wires.filter fun w => !(mine w.core && decide (w.launch = l.id))
    launches := s1.launches.filter fun x => !(decide (x.part = l.part) && decide (x.id = l.id)) }

/-- LAUNCH_COMPLETION (R306): launch `lid` of partition `part`; w31 is written last, as one release store of what is visible to any core that its tasks may have run on
(log entry 17). -/
def execLaunchCompletion (s : State) : Host.Outcome State Fault Refusal :=
  runEvent (fun x s => match s.launch x.part x.lid with
    | none => none
    | some l => match s.completion l with
      | none => none
      | some (code, detail) =>
        if s.heldAt (l.recPa + 248) then none
        else
          let s := (s.launchCores l).foldl (fun s i => s.publish i .system) s
          some ((((s.releaseLaunch l).wr (l.recPa + 248) 8 (l.id * 2 ^ 32 + detail * 256 + code)).catchPreds l.part).wakeAll)) s

/-- The ranges of engine addresses that a command may still write to (R372): its destinations, what it counts in, its status words. -/
def State.destsOf (s : State) (c : Cmd) : List (Nat × Nat) :=
  let a := c.a.toNat
  let w := snapWord c.snap
  match c.kind with
  | .cpy | .cred _ =>
    let objs := (if Desc.db c.snap then [(w 17, 16)] else []) ++ (if Desc.sb c.snap then [(w 18, 16)] else []) ++ (if Desc.rg c.snap || c.kind.isRank then [(w 19, 16)] else [])
    let elems (f : Nat → Nat) : List (Nat × Nat) := (List.range (Desc.count c.snap)).map fun e => (f e, Desc.esize c.snap)
    (a + 176, 16) :: (if descOk c.kind c.snap then
      objs ++ elems (Desc.dstAddr c.snap) ++ (if c.kind.isRank then elems (rankAddr c.snap (Desc.rank c.snap)) else []) else [])
  | .cflag _ => [(a, 8)]
  | .chase => if bit (w 0) 31 then [] else [(lsWin + w 0 % 2 ^ 17, 16)]
  | .repart => [(a + 64, 32), (w 5, w 6 % 2 ^ 32 * bits (w 3) 8 0), (w 7, w 3 / 2 ^ 32 * bits (w 3) 8 0)]
  | .mxq => [(a + 80, 48)]
  | .mxrd _ rows cols _ => (moveWords c.a c.v rows cols).map fun q => (q.2.2, 4)
  | .mxz .. | .mxwr .. => []
  | .rcfg => [(a, 32)]
  | .rtab | .rstep =>
    let word (k : Nat) : Nat := match s.engAddr c .load (a + 8 * k) with | .ok (.here q) => s.rd q 8 | _ => 0
    let t := if c.k = 1 then c.tile else tileOf (word 0) (word 1)
    (a, 32) :: (if c.kind == .rtab then [(cspVa t.tbl, t.tableLen)] else [(cspVa t.buf0, t.size), (cspVa t.buf1, t.size)])

/-- A command may still write to a byte that p selects (R372). -/
def State.writesInto (s : State) (c : Cmd) (p : Nat → Bool) : Bool :=
  (s.destsOf c).any fun r => decide (r.2 > 0) && (List.range ((r.1 + r.2 - 1) / 8 + 1 - r.1 / 8)).any fun j =>
    match s.engAddr c .store (max r.1 ((r.1 / 8 + j) * 8)) with
    | .ok (.here k) => p k
    | _ => false

/-- ALLOCATION_RELEASE (R372): the team `team` of launch `lid` of partition `part` has left, and no command writes into its allocations. -/
def execAllocationRelease (s : State) : Host.Outcome State Fault Refusal :=
  runEvent (fun x s => match s.launch x.part x.lid with
    | none => none
    | some l =>
      let cores := l.teamCores x.team
      let cl := (l.teamAt x.team).1
      let as := cores.filterMap fun i => ((s.core i).alloc l.id).map fun a => (i, a)
      let isTeam (a : CsAlloc) : Bool := decide (a.launch = l.id) && decide (a.team = some x.team)
      let inAs (k : Nat) : Bool := (as.any fun h => decide (lsKey h.1 h.2.base ≤ k) && decide (k < lsKey h.1 (h.2.base + h.2.units * 4096)))
        || (typeOfPa k == some .csp && decide (cspCluster k = cl) && (s.cluster cl).cs.any fun a => isTeam a && (a.index ((k - cspBase) % 2 ^ 22)).isSome)
      let gone := as.all fun h => h.2.st == .ended || (h.2.st == .idle && s.exhausted l)
      if decide (x.team ≥ l.nteams) || as.isEmpty || s.stoppedL l || !gone || (s.launchCmds l).any (fun c => s.writesInto c inAs) then none
      else
        let s := cores.foldl (fun s i => s.modCore i fun c => { c with allocs := c.allocs.filter fun a => a.launch ≠ l.id }) s
        let g := s.cluster cl
        some ((s.setCluster cl { g with cs := g.cs.filter fun a => !isTeam a }).wakeAll)) s

end Sys2Proof.Machine
end

