-- ==== Sys2Proof/Machine/Fabric.lean ====
section
/-!
DEFINITION. Fabric.lean: pages under migration (R350, R351), and the fabric: cells that arrive (R254, R258, R352, R353), the frame's slots
(R255 to R257), peers' incarnations (R258) and the links (R254, R374).
-/
namespace Sys2Proof.Machine

open Sys2Proof

/-! ### Migration (R350) -/

/-- Two ranges of bytes have a byte in common. -/
def overlap (a n b m : Nat) : Bool := decide (a < b + m) && decide (b < a + n)

/-- MIGRATION_HOLD (R350 step 1): the homes of the n-byte page at `addr` and of its new place `addr2` put the page under hold. No core keeps a copy of what the new
place held before (R351). -/
def execMigrationHold (s : State) : Host.Outcome State Fault Refusal :=
  runEvent (fun x s =>
    let page (a : Nat) : Bool := decide (a % 2 ^ 16 = 0) && (match typeOfPa a with | some .dev | some .cms => true | _ => false)
      && typeOfPa a == typeOfPa (a + x.n - 1)
    let free (a : Nat) : Bool := s.holds.all fun h => !overlap a x.n h.old h.len && !overlap a x.n h.new h.len
    if x.n = 0 || x.n % 2 ^ 16 ≠ 0 || !page x.addr || !page x.addr2 || overlap x.addr x.n x.addr2 x.n || !free x.addr || !free x.addr2 then none
    else
      let keep (l : L1Line) : Bool := !overlap l.la 64 x.addr2 x.n
      let s := s.mapCores fun _ c => { c with l1d := c.l1d.filter keep, l1i := c.l1i.filter keep }
      some { s with holds := s.holds ++ [⟨x.addr, x.addr2, x.n, []⟩] }) s

/-- Where a queued access to a page under migration is applied: on the new page (R350 step 5). -/
def Hold.dest (h : Hold) (a : Nat) : Nat := if h.old ≤ a ∧ a < h.old + h.len then h.new + (a - h.old) else a

/-- A queued read-modify-write is performed: a core's instruction gets the old value, the host its reply (R350, R400). Poison gives no data and changes nothing (R369): the
host's reply says so, and a core's instruction runs again, to trap. -/
def State.applyRmw (s : State) (h : Hold) (q : HeldStore) (r : Rmw) : State :=
  let k := h.dest ((q.bytes.headD (0, 0)).1)
  if q.core = ncores then
    let reply (s : State) (d : Option (List Byte)) : State := { s with hostReplies := s.hostReplies ++ [({ part := q.launch, data := d } : HostReply)] }
    if s.poisoned k then reply s none
    else reply ((s.wr k r.n (r.op.eval r.n (s.rd k r.n) r.v r.v2)).hostWrote (at_ k r.n 0)) (some (bytesOf r.n (s.rd k r.n)))
  else if (List.range (ceilDiv r.n 8)).any fun j => s.poisoned (k + 8 * j) then
    s.modCore q.core fun c => if c.rmw = some (q.grp, none) then { c with rmw := none, stalled := false } else c
  else
    let (old, s) := s.rmwHome q.core k r
    s.modCore q.core fun c => if c.rmw = some (q.grp, none) then { c with rmw := some (q.grp, some old), stalled := false } else c

/-- A queued operation of an engine is performed for request idx of command id (R350), which has its answer with it: poison makes that MEMUE (R370). A chain ends with
its read-modify-write (R262). -/
def State.applyEng (s : State) (h : Hold) (q : HeldStore) (id idx : Nat) (op : EngOp) : State :=
  match s.cmd id with
  | none => s
  | some c =>
    let k := h.dest ((q.bytes.headD (0, 0)).1)
    let bad (n : Nat) : Bool := (List.range (ceilDiv n 8)).any fun j => s.poisoned (k + 8 * j)
    let answer (s : State) (poisoned : Bool) : State := (s.answer c idx true poisoned []).getD s
    match op with
    | .flag add v =>
      if add && bad 8 then answer s true
      else answer (s.writeCmd c (at_ k 8 ((if add then s.rd k 8 else 0) + v.toNat))) false
    | .cred m n x =>
      if bad n then answer s true
      else answer (s.engWrite c (at_ k n (credOp m (s.rd k n) x)) k q.va.toNat) false
    | .chase =>
      let steps := packetSteps c.snap
      match s.chainStep (steps.getD c.k 0) (BitVec.ofNat 64 (snapWord c.snap 2)) c.addr k with
      | .bad code cause => s.endChain c code cause c.addr
      | .val y t => t.endChain c 0 0 y

/-- A held write is applied to the new page, the copies of the line dropped that do not hold it, its conflict tracked (R350 step 5, R203) where none of its store
has been reported in the granule; `rest` are the writes still held, and the answer says whether it conflicts. -/
def State.applyHeld (s : State) (h : Hold) (q : HeldStore) (rest : List HeldStore) : Bool × State :=
  match q.eng, q.rmw with
  | some (id, idx, op), _ => (false, s.applyEng h q id idx op)
  | none, some r => (false, s.applyRmw h q r)
  | none, none =>
    let more (u : Nat) : Bool := (rest.any fun r => decide (r.core = q.core) && decide (r.grp = q.grp) && r.bytes.any fun b => unitOf b.1 == u)
      || (s.sbOf q.core).any fun r => decide (r.grp = q.grp) && r.bytes.any fun b => unitOf b.1 == u
    let done := (q.clr.filter fun u => !more u).map h.dest
    let bytes := q.bytes.map fun b => (h.dest b.1, b.2)
    let s := s.writeBy q.core q.grp bytes
    let s := { s with mpoison := s.mpoison.filter fun u => !done.contains u }
    let a := (q.bytes.head?.map (·.1)).getD 0
    let drop (c : Core) : Core := (c.dropLine a).dropLine (h.dest a)
    if q.core ≥ ncores then (false, if q.core = ncores then s.hostWrote bytes else s)
    else
      let s := if q.shared then s.mapCores fun j c => if clusterOf j = clusterOf q.core then drop c else c else s.modCore q.core drop
      if q.plain then (!q.quiet && s.conflictAt q.core q.launch q.phasec (h.dest a), s.track q.core q.launch q.phasec true (!q.quiet) (h.dest a) q.va)
      else (false, s)

/-- The held operations of a page, in order: `told` are the stores that R203 has reported, each with its granule. -/
def State.applyHelds (s : State) (h : Hold) (told : List (Nat × Nat × Nat)) : List HeldStore → State
  | [] => s
  | q :: t =>
    let gran := h.dest ((q.bytes.headD (0, 0)).1) / 64
    let r := s.applyHeld h { q with quiet := q.quiet || told.contains (q.core, q.grp, gran) } t
    let s := if r.1 then r.2.modCore q.core fun c =>
        { c with sb := mapIf (fun x => decide (x.grp = q.grp) && (x.bytes.any fun b => h.dest b.1 / 64 == gran)) (fun x => { x with quiet := true }) c.sb } else r.2
    s.applyHelds h (if r.1 then (q.core, q.grp, gran) :: told else told) t

/-- What stands for a byte of the old place of a page stands for its new place from now on: the reduction objects and group headers there, the scheduler's records, tickets,
recorded writers, and the loads that wait behind a queued write (R350, R351). -/
def State.movePage (s : State) (h : Hold) : State :=
  let d := h.dest
  let cmd (c : Cmd) : Cmd := if c.kind.isRank && c.phase == .waiting && decide (c.hops = 0) then { c with addr := BitVec.ofNat 64 (d c.addr.toNat) } else c
  let s := s.mapCores fun _ c => { c with late := c.late.map fun l => { l with parts := l.parts.map fun p => { p with key := d p.key } } }
  { s with
    reds := s.reds.map fun r => (d r.1, r.2)
    rankSlots := s.rankSlots.map fun r => (d r.1, r.2.1, r.2.2.map d)
    owed := s.owed.map fun o => (d o.1, o.2)
    launches := s.launches.map fun l => { l with recPa := d l.recPa }
    grans := s.grans.map fun g => { g with addr := d g.addr }
    tickets := s.tickets.map fun t => { t with home := if d t.addr = t.addr then t.home else s.homeOf t.core (d t.addr), addr := d t.addr }
    cmds := s.cmds.map cmd }

/-- MIGRATION_RELEASE (R350 step 5): the homes apply what is queued for the page at `addr` to its new place, and end the hold. The loads that reached the old
place and wait for no queued write take their values before. -/
def execMigrationRelease (s : State) : Host.Outcome State Fault Refusal :=
  runEvent (fun x s => match s.holds.find? fun h => h.old = x.addr with
    | none => none
    | some h =>
      let s := s.takeAll fun p => decide (h.old ≤ p.key) && decide (p.key < h.old + h.len) && !s.granuleBusy p.key
      let s := { s with holds := s.holds.filter fun k => k.old ≠ h.old }
      some (((s.movePage h).applyHelds h [] h.q).wakeAll)) s

/-! ### Inbound windows (R352) -/

/-- Every byte of a range lies in the partition's own memory: its DRAM sets, CMS banks and scratchpads (R339). -/
def State.ownsRange (s : State) (p a n : Nat) : Bool :=
  let e := a + n
  let pieces (k : Nat) : Bool := (List.range ((e - 1) / 2 ^ k + 1 - a / 2 ^ k)).all fun j => s.owns p ((a / 2 ^ k + j) * 2 ^ k)
  match typeOfPa a with
  | some .dev => decide (e ≤ devSize) && pieces 33
  | some .cms => decide (e ≤ cmsBase + 2 ^ 28) && pieces 25
  | some .csp => decide (e ≤ cspBase + 2 ^ 29) && pieces 22
  | _ => false

/-- The inbound windows in use of a partition: base, length in bytes, list, W, R. A window outside the partition's own memory is none. -/
def State.windowsOf (s : State) (p : Nat) : List (Nat × Nat × Nat × Bool × Bool) :=
  let x := s.prt p
  (List.range x.niw).filterMap fun k =>
    let w0 := s.rd (x.iwbase + 16 * k) 8
    let w1 := s.rd (x.iwbase + 16 * k + 8) 8
    let base := w0 % 2 ^ 52
    let len := bits w1 39 16 * 2 ^ 16
    if len = 0 || base % 2 ^ 16 ≠ 0 || s.poisoned (x.iwbase + 16 * k) || s.poisoned (x.iwbase + 16 * k + 8) || !s.ownsRange p base len then none
    else some (base, len, bits w1 7 4, bit w1 1, bit w1 0)

/-- A window of the partition that owns byte a admits module `chip`, to write or to read (R352). -/
def State.admits (s : State) (chip : Nat) (write : Bool) (a : Nat) : Bool :=
  (List.range s.cfg.nparts).any fun p => s.owns p a && (s.windowsOf p).any fun w =>
    decide (w.1 ≤ a) && decide (a < w.1 + w.2.1) && (if write then w.2.2.2.1 else w.2.2.2.2) && s.listAdmits p w.2.2.1 chip

/-- The same for n bytes from a. -/
def State.admitsAll (s : State) (chip : Nat) (write : Bool) (a n : Nat) : Bool :=
  (List.range n).all fun j => s.admits chip write (a + j)

/-! ### Cells that arrive (R254, R258) -/

/-- A cell passes the incarnation check (R258). -/
def State.cellValid (s : State) (x : Sys2Proof.Cell) : Bool :=
  let p := SMap.get {} s.peers x.srcId.toNat
  x.dstId == s.cfg.chip && x.dstInc == s.incarn && p.active && p.inc == x.srcInc

/-- A poisoned unit in n bytes from a. -/
def State.poisonIn (s : State) (a n : Nat) : Bool := (List.range n).any fun j => s.poisoned (a + j)

/-- A page under migration covers one of n bytes from a. -/
def State.heldIn (s : State) (a n : Nat) : Bool := (List.range n).any fun j => s.heldAt (a + j)

/-- A rank contribution of another module, whole, at its group header here (R252, R352): RANK is checked before the contribution's places. Two answers go back: that the
home has taken it (request 3), and that its generation is complete (request 1). -/
def State.serveRank (s : State) (x : Sys2Proof.Cell) (op hdr rank esize : Nat) (keys dsts : List Nat) (data : List Byte) : Option State :=
  let chip := x.srcId.toNat
  let x := { x with idx := 1 }
  if !s.admitsAll chip true hdr 64 then some (s.emit (s.ackTo x false false []))
  else if s.poisonIn hdr 8 then some (s.emit (s.ackTo x false true []))
  else if rank > bits (s.rd hdr 8) 43 32 then some (s.emit (s.ackTo x false false [1]))
  else if dsts.isEmpty then some (s.emit (s.ackTo x true false []))
  else if !((keys ++ dsts).all fun d => s.admitsAll chip true d esize) then some (s.emit (s.ackTo x false false []))
  else if s.heldIn hdr 64 || (keys ++ dsts).any (fun d => s.heldIn d esize) then none
  else match s.rankContribute hdr op rank esize keys dsts data with
    | .stall => none
    | .badRank => some (s.emit (s.ackTo x false false [1]))
    | .poison .. => some (s.emit (s.ackTo x false true []))
    | .took g t =>
      let ack := s.ackTo x true false []
      let t := t.emit (s.ackTo { x with idx := 3 } true false [])
      -- the last contribution completes the generation at once; every other answer waits for it
      some (if bits (t.rd hdr 8) 15 12 = g then { t with owed := t.owed ++ [(hdr, g, ack)] } else t.emit ack)

/-- A part of a rank contribution arrives; with the last one the contribution is made (R252, R254). -/
def State.servePart (s : State) (x : Sys2Proof.Cell) (op hdr rank esize total : Nat) : Option State :=
  let mate (y : Sys2Proof.Cell) : Bool := y.srcId == x.srcId && y.srcInc == x.srcInc && y.cmd == x.cmd
  let mates := s.parcels.filter mate ++ [x]
  let part (j : Nat) : Option (List Nat × List Nat × List Byte) := firstSome (fun y => match y.kind with
    | .rank _ _ _ _ base _ ks ds d => if base = 4 * j then some (ks, ds, d) else none
    | _ => none) mates
  let all := (List.range (ceilDiv total 4)).map part
  if all.any (·.isNone) then some { s with parcels := s.parcels ++ [x] }
  else
    let ps : List (List Nat × List Nat × List Byte) := all.filterMap id
    let t : State := { s with parcels := s.parcels.filter fun y => !mate y }
    t.serveRank x op hdr rank esize (ps.flatMap (·.1)) (ps.flatMap (·.2.1)) (ps.flatMap (·.2.2))

/-- A cell of the fabric does its work at its home here (R254, R352, R353). None where its home cannot take it now: a page under migration holds
it, or the same rank has contributed already. -/
def State.serve (s : State) (x : Sys2Proof.Cell) : Option State :=
  let chip := x.srcId.toNat
  let refuse : Option State := some (s.emit (s.ackTo x false false []))
  match x.kind with
  | .write pa data =>
    if !s.admitsAll chip true pa data.length then refuse
    else if s.heldIn pa data.length then none
    else some ((s.write (data.mapIdx fun j b => (pa + j, b))).emit (s.ackTo x true false []))
  | .read pa n =>
    if !s.admitsAll chip false pa n then refuse
    else if (List.range n).any fun j => s.granuleBusy (pa + j) then none
    else if s.poisonIn pa n then some (s.emit (s.ackTo x false true []))
    else some (s.emit (s.ackTo x true false ((List.range n).map fun j => s.byte (pa + j))))
  | .cred op pa data =>
    let n := data.length
    if !s.admitsAll chip true pa n then refuse
    else if s.heldIn pa n then none
    else if s.poisonIn pa n then some (s.emit (s.ackTo x false true []))
    else some ((s.wr pa n (credOp op.toNat (s.rd pa n) (ofBytes data))).emit (s.ackTo x true false []))
  | .rank op pa rank esize _ total .. => s.servePart x op.toNat pa rank esize total
  | .flag add pa v =>
    if !s.admitsAll chip true pa 8 then refuse
    else if s.heldIn pa 8 then none
    else if add && s.poisonIn pa 8 then some (s.emit (s.ackTo x false true []))
    else some ((s.wr pa 8 (if add then s.rd pa 8 + v.toNat else v.toNat)).emit (s.ackTo x true false []))
  | .chase id origin inc _ k hops addr .. =>
    -- back on its origin module, the chain goes on with the launch's table (R263), unless an earlier incarnation sent it
    if origin = s.cfg.chip.toNat then if inc ≠ s.incarn then some s else match s.cmd id with
      | some c =>
        if !(c.kind == .chase) || !(c.phase == .waiting) then some s
        else some (s.setCmd (if c.code ≠ 0 then { c with phase := .finished, pend := [] } else { c with phase := .running, k := k, hops := hops, addr := addr, pend := [] }))
      | none => some s
    else some { s with chains := s.chains ++ [x] }
  | .chaseResult id coreid value status =>
    match s.cmd id with
    | some c =>
      if c.kind == .chase && c.phase == .waiting && decide (coreid = coreId c.core) then
        if c.code ≠ 0 then some (s.setCmd { c with phase := .finished, pend := [] }) else
        let st := status.toNat
        let c := { c with k := bits st 18 16, hops := bits st 23 19 }
        some (s.endChain c (bits st 7 0) (bits st 31 24) value)
      else some s
    | none => some s
  | .ack id idx ok poisoned data =>
    match s.cmd id with
    | some c => s.answer c idx ok poisoned data
    | none => some s
  | .item tag rank idx off data => s.takeItem x tag rank idx off data
  -- a count of a command that names an object in a scratchpad here (R249); one that its window does not admit changes nothing
  | .count inb ring pa n slot =>
    let side := if ring then s.sideKey false pa slot else some pa
    if pa % 16 ≠ 0 || typeOfPa pa != some .csp || !s.admitsAll chip true pa 16 || !(match side with | some k => s.admitsAll chip true k 8 | none => false) then some s
    else some (if ring then s.ringAt false pa slot n else s.barAt false pa inb)
  | .announce => some s

/-! ### Incarnations (R258) -/

/-- A module that is a member of the command's repartition (R266). -/
def Cmd.hasMember (c : Cmd) (chip : Nat) : Bool :=
  (List.range (bits (snapWord c.snap 0) 25 16 + 1)).any fun p => snapAt c.snap (128 + 2 * p) 2 = chip

/-- A command as the news that `chip` has a new incarnation leaves it (R258, R263, R269): one with a request to it ends with PEERRESET, and so does
any chain that has left its origin module; the value of the chain's result is `open_`. Requests that have not left are withdrawn, and a command that has others on
their way completes when they are answered (R242). One that was abandoned keeps its code. -/
def State.peerReset (s : State) (chip : Nat) (open_ : Word) (c : Cmd) : State :=
  let stop (code : Nat) : State :=
    let (c, s) := s.withdraw (if c.code = c.kind.abandonCode then c else { c with code := code, cause := 0, faddr := 0 })
    let pend := c.pend.filter fun p => p.2.1 ≠ chip
    s.setCmd { c with pend := pend, due := [], phase := if pend.isEmpty then .finished else .waiting }
  let asks := c.pend.any fun p => p.2.1 = chip
  match c.kind with
  | .chase =>
    if (c.phase == .waiting && (decide (c.hops > 0) || decide (c.code ≠ 0))) || (c.phase == .running && decide (c.hops > 0)) then
      let (c, s) := s.withdraw c
      s.setCmd (if c.code ≠ 0 then { c with phase := .finished, pend := [] }
        else { c with phase := .finished, code := 5, cause := 0, k := 0, hops := 0, v := open_, faddr := 0, pend := [] })
    else s
  | .repart => if (c.mayRun || c.phase == .waiting) && (c.hasMember chip || asks) then stop 6 else s
  | _ => if asks then stop 4 else s

/-- The module learns an incarnation of a peer (R258): a new one makes it STALE and ends what was under way with it; the parts it had sent of a
contribution go. -/
def State.learnPeer (s : State) (chip : Nat) (inc : BitVec 16) : Option State :=
  if chip ≥ 2 ^ 10 || chip = s.cfg.chip.toNat || (SMap.get {} s.peers chip).inc = inc then none
  else
    let s := { s with peers := SMap.set {} s.peers chip { inc := inc, active := false }, parcels := s.parcels.filter fun y => y.srcId.toNat ≠ chip }
    some (s.cmds.foldl (fun s' c => s'.peerReset chip (Config.openWord s.fresh) c) s.draw)

/-- INCARN_ANNOUNCEMENT (R258): the module learns INCARN n for CHIPID `id`. -/
def execIncarnAnnouncement (s : State) : Host.Outcome State Fault Refusal := runEvent (fun x s => s.learnPeer x.id (BitVec.ofNat 16 x.n)) s

/-- A module that has left reset announces its INCARN on every link (R258, R403), once. -/
def State.announce (s : State) : State :=
  if s.announced then s
  else
    let cell : Sys2Proof.Cell := { dstId := 0, dstInc := 0, srcId := s.cfg.chip, srcInc := s.incarn, part := 0, flow := 0, cmd := 0, idx := 0, kind := .announce }
    { s with announced := true, sent := s.sent ++ (List.range 18).map fun p => (p, cell) }

/-- FABRIC_CELL_ARRIVAL (R258, R352): `cell` arrives; one that fails the incarnation check is discarded, but an announcement is heard. -/
def execFabricCellArrival (s : State) : Host.Outcome State Fault Refusal :=
  runEvent (fun x s => match x.cell with
    | none => none
    | some c =>
      if c.kind = .announce then s.learnPeer c.srcId.toNat c.srcInc
      else if s.cellValid c then (s.serve c).map State.wakeAll else none) s

/-! ### Slots (R255 to R257) -/

/-- A GONG holds the cell: it is a request of a held command here (R242). -/
def State.cellHeld (s : State) (x : Sys2Proof.Cell) : Bool :=
  match x.kind with
  | .ack .. | .chaseResult .. | .announce | .count .. => false
  | .chase id origin .. => decide (origin = s.cfg.chip.toNat) && (match s.cmd id with | some c => s.cmdHeld c | none => false)
  | _ => match s.cmd x.cmd with | some c => s.cmdHeld c | none => false

/-- The cell that may leave in a slot of a port whose reservation entry is e: in a reserved slot the oldest of its flow, in another the x-th
waiting cell where it is a best-effort cell of the slot's partition. -/
def State.slotCell (s : State) (e x : Nat) : Option Nat :=
  let part := bits e 14 12
  if bit e 15 then
    (List.range s.cells.length).find? fun k => match s.cells[k]? with
      | some c => decide (c.part = part) && decide (c.flow.toNat = e % 256) && decide (c.flow ≠ 0) && !s.cellHeld c
      | none => false
  else match s.cells[x]? with
    | some c => if c.part = part ∧ c.flow = 0 ∧ !s.cellHeld c then some x else none
    | none => none

/-- The slot that is on now, counted from time 0: a slot lasts 347 counter units, and slot 64·f begins frame f (R255). -/
def State.slotNow (s : State) : Nat := s.time.toNat / 347

/-- FABRIC_SLOT (R255): port n uses the slot that is on, once; it carries one cell of its owner (`id` names a best-effort one). A slot may pass unused, and when the
cell arrives is open (log entry 71). -/
def execFabricSlot (s : State) : Host.Outcome State Fault Refusal :=
  runEvent (fun x s =>
    if x.n ≥ 18 || s.slotNow < SMap.get 0 s.slots x.n then none
    else
      let k := s.slotNow % 64
      let s' := { s with slots := SMap.set 0 s.slots x.n (s.slotNow + 1) }
      match s.slotCell (SMap.get 0 s.resv (x.n * 64 + k)).toNat x.id with
      | some j => match s.cells[j]? with
        | some c => some { s' with cells := s.cells.eraseIdx j, sent := s.sent ++ [(x.n, c)] }
        | none => some s'
      | none => some s') s

/-! ### Links and lifetime counts (R254, R374) -/

/-- Add one to a count, which saturates at its largest value. -/
def State.bump (s : State) (idx field max_ : Nat) : State :=
  let k := idx * 16 + field
  { s with life := SMap.set 0 s.life k (min max_ (SMap.get 0 s.life k + 1)) }

/-- LINK_CRC_RETRY (R254): invisible but in time. -/
def execLinkCrcRetry (s : State) : Host.Outcome State Fault Refusal := runEvent (fun _ s => some s) s

/-- LINK_RETRAIN (R374): link n, fabric ports 0 to 17 and PCIe links 18 and 19. -/
def execLinkRetrain (s : State) : Host.Outcome State Fault Refusal :=
  runEvent (fun x s => if x.n ≥ 20 then none else some (s.bump (0x4200 + x.n) 0 (2 ^ 64 - 1))) s

end Sys2Proof.Machine
end

