-- ==== Sys2Proof/Machine/Mgmt.lean ====
section
/-!
DEFINITION. Mgmt.lean: the time counter (R259, R404), errors and lifetime records (R367, R369, R374), the supervisor's commands to the management
controller (R373, R340, R256), measurement (R355) and management messages (R406).
-/
namespace Sys2Proof.Machine

open Sys2Proof

/-! ### Time (R259, R404) -/

/-- Move the time counter forward; it never goes back (R259). -/
def State.addTime (s : State) (n : Nat) : State := { s with time := BitVec.ofNat 64 (min (2 ^ 64 - 1) (s.time.toNat + n)) }

/-- TIME_COUNTER_TICK (R259): the counter advances by n units of 1/256 ns. -/
def execTimeCounterTick (s : State) : Host.Outcome State Fault Refusal := runEvent (fun x s => some (s.addTime x.n).wakeAll) s

/-- One estimate of the offset, i units of 1/256 ns: 16 in a row within ±5 ns set LOCKED, one outside clears it. Only the first lock may step the
counter, forward by n units (R259, R404). -/
def State.discipline (s : State) (i : Int) (n : Nat) : State :=
  if i.natAbs ≤ 5 * 256 then
    let g := min 16 (s.good + 1)
    let s := { s with good := g }
    if g < 16 then s
    else
      let s := if s.everLocked then s else s.addTime n
      { s with locked := true, everLocked := true }
  else { s with good := 0, locked := false }

/-- PTP_SYNC (R404): a sync message of the domain; the grandmaster uses its own reference. -/
def execPtpSync (s : State) : Host.Outcome State Fault Refusal :=
  runEvent (fun x s => if s.cfg.grandmaster then none else some (s.discipline x.i x.n).wakeAll) s

/-- SYNC_TIMEOUT (R404): no sync for 1 s. -/
def execSyncTimeout (s : State) : Host.Outcome State Fault Refusal := runEvent (fun _ s => some { s with good := 0, locked := false }) s

/-- REFERENCE_PULSE (R404): the grandmaster's reference pair. -/
def execReferencePulse (s : State) : Host.Outcome State Fault Refusal :=
  runEvent (fun x s => if s.cfg.grandmaster then some (s.discipline x.i x.n).wakeAll else none) s

/-! ### Errors (R367, R369, R370) -/

/-- The core's record index of an error in its registers or local store, or the record of a memory's bank (R374). -/
def siteIndex : ErrSite → Option Nat
  | .memory a => match typeOfPa a with
    | some .dev => some (0x3000 + a / 2 ^ 33)
    | some .cms => some (0x2000 + (a - cmsBase) / 2 ^ 18)
    | some .csp => some (0x8000 + cspCluster a * 64 + a / 8 % 64)
    | some .ls => some ((a - lsBase) / 2 ^ 17)
    | _ => none
  | .scalar i _ | .vector i _ _ | .mask i _ | .shadow i _ => if i < ncores then some i else none

/-- CORRECTED_ERROR (R367, R374): counted, and nothing else. -/
def execCorrectedError (s : State) : Host.Outcome State Fault Refusal :=
  runEvent (fun x s => (x.site.bind siteIndex).map fun k => s.bump k 0 (2 ^ 64 - 1)) s

/-- Poison the unit that holds an error (R369). The loads of it that are outstanding take their values first (log entry 16). -/
def State.poison (s : State) (x : ErrSite) : State :=
  let reg (i : Nat) (f : RegPoison → RegPoison) : State := s.modCore i fun c => { c with poison := f c.poison }
  match x with
  | .memory a => match typeOfPa a with
    | some .dev => { s.takeAll (fun q => decide (unitOf a < q.key + q.n) && decide (q.key < unitOf a + unitSize a)) with mpoison := nset_insert s.mpoison (unitOf a) }.bump (0x3000 + a / 2 ^ 33) 1 (2 ^ 64 - 1)
    | some .cms | some .csp | some .ls => { s.takeAll (fun q => decide (unitOf a < q.key + q.n) && decide (q.key < unitOf a + unitSize a)) with mpoison := nset_insert s.mpoison (unitOf a) }
    | _ => s
  | .scalar i r => if i < ncores ∧ 1 ≤ r ∧ r < 56 then reg i fun p => { p with s := nset_insert p.s r } else s
  | .vector i r w => if i < ncores ∧ r < 32 ∧ w < 8 then reg i fun p => if p.v.contains (r, w) then p else { p with v := p.v ++ [(r, w)] } else s
  | .mask i r => if i < ncores ∧ r < 8 then reg i fun p => { p with k := nset_insert p.k r } else s
  | .shadow i r => if i < ncores ∧ 48 ≤ r ∧ r < 54 then reg i fun p => { p with s := nset_insert p.s (swapCode r) } else s

/-- UNCORRECTABLE_ERROR (R369). -/
def execUncorrectableError (s : State) : Host.Outcome State Fault Refusal := runEvent (fun x s => x.site.map s.poison) s

/-! ### Lifetime records (R374) -/

/-- VOLTAGE_DROOP (R374): compute dies 0 to 3, spine dies 4 and 5. -/
def execVoltageDroop (s : State) : Host.Outcome State Fault Refusal :=
  runEvent (fun x s => if x.n ≥ 6 then none else some (s.bump (0x4100 + x.n) 0 (2 ^ 64 - 1))) s

/-- LIFETIME_RECORD_FLUSH (R374): the counts are written to flash. -/
def execLifetimeRecordFlush (s : State) : Host.Outcome State Fault Refusal := runEvent (fun _ s => some { s with lifeFlash := s.life }) s

/-- What the sensors read now, where the event carries it: the temperatures of the four compute dies
and the two spine dies in °C as bytes, power in W, voltage in V. -/
def State.sense (s : State) (x : Args) : State :=
  if x.data.length ≠ 6 then s
  else
    let t := x.data.map (·.toNat)
    { s with sensors := { s.sensors with temps := t, peaks := (t.zip s.sensors.peaks).map (fun p => max p.1 p.2), power := x.n, voltage := x.id } }

/-- The bin of a temperature (R374). -/
def tempBin (t : Nat) : Nat := min 15 ((t - 30) / 5)

/-- THERMAL_INTERVAL (R374): the interval's peak of each compute die is counted, and the next interval begins. -/
def execThermalInterval (s : State) : Host.Outcome State Fault Refusal :=
  runEvent (fun x s =>
    let s := s.sense x
    let s := (List.range 4).foldl (fun s d => s.bump (0x4000 + d) (tempBin (s.sensors.peaks.getD d 0)) (2 ^ 32 - 1)) s
    some { s with sensors := { s.sensors with peaks := s.sensors.temps } }) s

/-- The 64 bytes of record idx; none for an index that R374 does not list. -/
def State.lifeRecord (s : State) (idx : Nat) : Option (List Byte) :=
  let f (k : Nat) : Nat := SMap.get 0 s.life (idx * 16 + k)
  let one := bytesOf 8 (f 0) ++ List.replicate 56 0
  if idx < 0x900 ∨ (0x8000 ≤ idx ∧ idx < 0x9800) ∨ (0x2000 ≤ idx ∧ idx < 0x2400) ∨ (0x4100 ≤ idx ∧ idx < 0x4106) ∨ (0x4200 ≤ idx ∧ idx < 0x4214) then some one
  else if 0x3000 ≤ idx ∧ idx < 0x3040 then some (bytesOf 8 (f 0) ++ bytesOf 8 (f 1) ++ List.replicate 48 0)
  else if 0x4000 ≤ idx ∧ idx < 0x4004 then some ((List.range 16).flatMap fun k => bytesOf 4 (f k))
  else none

/-! ### The command area (R373) -/

/-- Word k of a partition's command area. -/
def State.areaKey (s : State) (p k : Nat) : Nat := lsKey (s.supOf p) (0x1C000 + 8 * k)
def State.areaWord (s : State) (p k : Nat) : Nat := s.rd (s.areaKey p k) 8

/-- The outcome of a command: STATUS, result bytes, and the state. -/
structure MgmtEnd where
  status : Nat
  result : List Byte
  state : State
  deriving DecidableEq, Repr

/-- The controller serves a command of partition `part` (R373): w0 has been written since a command there was served, and `f` takes it, with its first n
arguments. The result is written, then the status, as a release. An argument whose word is poisoned gives the controller no data (R369): BADARG, which
changes nothing (log entry 48). -/
def State.serveMgmt (s : State) (p n : Nat) (f : Nat → Option MgmtEnd) : Option State :=
  let w0 := s.areaWord p 0
  let lost := (List.range n).any fun k => s.poisoned (s.areaKey p (k + 1))
  if p ≥ s.cfg.nparts || !(s.prt p).asked || s.poisoned (s.areaKey p 0) then none
  else (f (w0 / 2 ^ 56)).map fun r =>
    let r : MgmtEnd := if lost then ⟨3, [], s⟩ else r
    let s := r.state.modPart p fun x => { x with asked := false }
    let s := s.write (r.result.mapIdx fun j b => (s.areaKey p 8 + j, b))
    (s.wr (s.areaKey p 7) 8 (r.status * 2 ^ 56 + w0 % 2 ^ 56)).wake (s.supOf p)

/-- A status alone. -/
def mgmtFail (st : Nat) (s : State) : Option MgmtEnd := some ⟨st, [], s⟩

/-- Word k of the control block, its SRW fields only (R340). -/
def Part.word (p : Part) (k : Nat) : Nat :=
  match k with
  | 1 => p.ptbase
  | 2 => p.featmask.toNat * 2 ^ 32 + p.ptlog2
  | 3 => p.hint0
  | 4 => p.hint1
  | 5 => p.albase
  | 6 => p.iwbase
  | _ => p.niw

/-- The SRW bits of word k (R340). -/
def pcbMask (k : Nat) : Nat :=
  match k with
  | 1 => 2 ^ 52 - 1
  | 2 => 0xFFFF * 2 ^ 32 + 31
  | 3 => 2 ^ 60 - 1
  | 4 => 2 ^ 20 - 1
  | 5 | 6 => 2 ^ 64 - 1
  | 7 => 63
  | _ => 0

def Part.setWord (p : Part) (k x : Nat) : Part :=
  match k with
  | 1 => { p with ptbase := x }
  | 2 => { p with featmask := BitVec.ofNat 16 (x / 2 ^ 32), ptlog2 := x % 32 }
  | 3 => { p with hint0 := x }
  | 4 => { p with hint1 := x }
  | 5 => { p with albase := x }
  | 6 => { p with iwbase := x }
  | _ => { p with niw := x }

/-- Word k of a block keeps its range (R373). -/
def Part.inRange (p : Part) (k : Nat) : Bool :=
  match k with
  | 1 => decide (p.ptbase % (128 * 2 ^ p.ptlog2) = 0)
  | 2 => decide (6 ≤ p.ptlog2) && decide (p.ptlog2 ≤ 24) && decide (p.ptbase % (128 * 2 ^ p.ptlog2) = 0)
  | 5 => decide (p.albase % 128 = 0)
  | 6 => decide (p.iwbase % 16 = 0)
  | 7 => decide (p.niw ≤ 32)
  | _ => true

/-- An address in the partition's own DRAM or CMS (R340). -/
def State.ownsBase (s : State) (p a : Nat) : Bool :=
  (match typeOfPa a with | some .dev | some .cms => true | _ => false) && s.owns p a

/-- WRPCB of partition p: word k, value v, bits m (R373); BADARG is checked first. -/
def State.wrpcb (s : State) (p k v m : Nat) : Nat × State :=
  let x := s.prt p
  let y := x.setWord k ((x.word k &&& (2 ^ 64 - 1 - m)) ||| (v &&& m))
  if k < 1 ∨ k > 7 then (3, s)
  else if m &&& (2 ^ 64 - 1 - pcbMask k) ≠ 0 ∨ !y.inRange k then (3, s)
  else
    let away := match k with | 1 => !s.ownsBase p y.ptbase | 5 => !s.ownsBase p y.albase | 6 => !s.ownsBase p y.iwbase | _ => false
    if away || (y.featmask &&& ~~~x.featmask) != 0 then (2, s) else (0, s.setPart p y)

/-- WRPCB (R373, R340). -/
def execWrpcb (s : State) : Host.Outcome State Fault Refusal :=
  runEvent (fun x s => s.serveMgmt x.part 3 fun cmd =>
    if cmd ≠ 1 then none
    else
      let r := s.wrpcb x.part (s.areaWord x.part 1) (s.areaWord x.part 2) (s.areaWord x.part 3)
      some ⟨r.1, [], r.2⟩) s

/-- PEERACT (R373, R258). -/
def execPeeract (s : State) : Host.Outcome State Fault Refusal :=
  runEvent (fun x s => s.serveMgmt x.part 1 fun cmd =>
    let c := s.areaWord x.part 1
    if cmd ≠ 2 then none
    else if c ≥ 2 ^ 10 then mgmtFail 3 s
    else some ⟨0, [], { s with peers := SMap.set {} s.peers c { SMap.get {} s.peers c with active := true } }⟩) s

/-- RDLIFE (R373, R374). -/
def execRdlife (s : State) : Host.Outcome State Fault Refusal :=
  runEvent (fun x s => s.serveMgmt x.part 1 fun cmd =>
    if cmd ≠ 3 then none
    else match s.lifeRecord (s.areaWord x.part 1) with
      | some r => some ⟨0, r, s⟩
      | none => mgmtFail 3 s) s

/-- WRFLOW (R373, R256). -/
def execWrflow (s : State) : Host.Outcome State Fault Refusal :=
  runEvent (fun x s => s.serveMgmt x.part 2 fun cmd =>
    let f := s.areaWord x.part 1
    let v := s.areaWord x.part 2
    if cmd ≠ 4 then none
    else if f < 1 ∨ f > 255 ∨ v ≥ 2 ^ 17 ∨ bits v 15 10 ≠ 0 then mgmtFail 3 s
    else some ⟨0, [], s.modPart x.part fun p => { p with flows := SMap.set 0 p.flows f (BitVec.ofNat 64 v) }⟩) s

/-- MGMT_BADCMD (R373). -/
def execMgmtBadcmd (s : State) : Host.Outcome State Fault Refusal :=
  runEvent (fun x s => s.serveMgmt x.part 0 fun cmd => if 1 ≤ cmd ∧ cmd ≤ 4 then none else mgmtFail 1 s) s

/-! ### Measurement (R355) -/

/-- An answer goes to the requester at a function, or over MCTP. -/
def State.reply (s : State) (p : Nat) (kind : String) (data : List Byte) : State := { s with replies := s.replies ++ [({ part := p, kind := kind, data := data } : Reply)] }

/-- The bytes that block 2 measures: the number of partitions, and GROUPS, DSETS and FEATMASK of each. -/
def State.layoutBytes (s : State) : List Byte :=
  BitVec.ofNat 8 s.cfg.nparts :: (List.range s.cfg.nparts).flatMap fun p =>
    [BitVec.ofNat 8 (s.groupsOf p), BitVec.ofNat 8 (s.groupsOf p)] ++ bytesOf 2 (s.prt p).featmask.toNat

/-- Measurement block k (R355). -/
def State.measurement (s : State) (k : Nat) : Option (List Byte) :=
  match k with
  | 1 => some (Config.sha384 Config.firmware)
  | 2 => some (Config.sha384 s.layoutBytes)
  | 3 => some Config.romVersion
  | _ => none

/-- GET_VERSION (R355): 1.2 and 1.3. -/
def execGetVersion (s : State) : Host.Outcome State Fault Refusal := runEvent (fun x s => some (s.reply x.part "VERSION" [0x12, 0x13])) s

/-- GET_CAPABILITIES (R355): certificates, challenge and signed measurements. -/
def execGetCapabilities (s : State) : Host.Outcome State Fault Refusal := runEvent (fun x s => some (s.reply x.part "CAPABILITIES CERT CHAL MEAS" [])) s

/-- NEGOTIATE_ALGORITHMS (R355): ECDSA over P-384 and SHA-384 only. -/
def execNegotiateAlgorithms (s : State) : Host.Outcome State Fault Refusal := runEvent (fun x s => some (s.reply x.part "ALGORITHMS ECDSA-P384 SHA-384" [])) s

/-- GET_DIGESTS (R355): the digest of slot 0's chain. -/
def execGetDigests (s : State) : Host.Outcome State Fault Refusal := runEvent (fun x s => some (s.reply x.part "DIGESTS" (Config.sha384 Config.certChain))) s

/-- GET_CERTIFICATE (R355): the chain of slot 0. -/
def execGetCertificate (s : State) : Host.Outcome State Fault Refusal := runEvent (fun x s => some (s.reply x.part "CERTIFICATE" Config.certChain)) s

/-- A signed answer: the message, the responder's nonce, and the identity key's signature over the request `req` and both. -/
def State.signed (s : State) (p : Nat) (kind : String) (req msg : List Byte) : State :=
  let n := Config.nonce s.fresh
  (s.reply p kind (msg ++ n ++ Config.sign s.fresh (req ++ msg ++ n))).draw

/-- CHALLENGE (R355): signed over the requester's bytes. -/
def execChallenge (s : State) : Host.Outcome State Fault Refusal :=
  runEvent (fun x s => some (s.signed x.part "CHALLENGE_AUTH" x.data (Config.sha384 Config.certChain))) s

/-- GET_MEASUREMENTS (R355): block n, or all for 0xFF; signed where `q`. An index that names no block gets an error. -/
def execGetMeasurements (s : State) : Host.Outcome State Fault Refusal :=
  runEvent (fun x s =>
    let msg := if x.n = 0xFF then some (([1, 2, 3].filterMap s.measurement).flatten) else s.measurement x.n
    match msg with
    | none => some (s.reply x.part "ERROR" [])
    | some m => some (if x.q then s.signed x.part "MEASUREMENTS" x.data m else s.reply x.part "MEASUREMENTS" m)) s

/-! ### Management messages (R406) -/

/-- The registers 0x048 and 0x050 of R401: lock, clock mode, domain, time. -/
def State.timeWord (s : State) : Word := BitVec.ofNat 64 (b2n s.locked * 2 ^ 63 + b2n s.cfg.fixed * 2 ^ 62 + s.cfg.domain.toNat)

/-- PLDM_MONITORING (R406): temperatures, power, voltage, coolant alarm; the event carries what the sensors read. -/
def execPldmMonitoring (s : State) : Host.Outcome State Fault Refusal :=
  runEvent (fun x s =>
    let s := s.sense x
    let y := s.sensors
    some (s.reply x.part "PLDM" ((y.temps.flatMap (bytesOf 2)) ++ bytesOf 4 y.power ++ bytesOf 4 y.voltage ++ [BitVec.ofNat 8 (b2n y.coolant)]))) s

/-- MCTP_RDLIFE (R406): record n; an index that R374 does not list is refused. -/
def execMctpRdlife (s : State) : Host.Outcome State Fault Refusal :=
  runEvent (fun x s => match s.lifeRecord x.n with
    | some r => some (s.reply x.part "RDLIFE" r)
    | none => some (s.reply x.part "BADARG" [])) s

/-- RDTIME (R406). -/
def execRdtime (s : State) : Host.Outcome State Fault Refusal :=
  runEvent (fun x s => some (s.reply x.part "RDTIME" (bytesOf 8 s.timeWord.toNat ++ bytesOf 8 s.time.toNat))) s

/-- WRCFG (R406): over I3C (`q`) CHIPID `id`, DOMAIN n, grandmaster `addr`, partition count `lid`, fixed clock mode `addr2`, from the next module
reset on; over PCIe refused. -/
def execWrcfg (s : State) : Host.Outcome State Fault Refusal :=
  runEvent (fun x s =>
    if !x.q || !([1, 2, 4, 8].contains x.lid) || x.id ≥ 2 ^ 10 || x.n ≥ 2 ^ 8 then some (s.reply x.part "REFUSED" [])
    else some ({ s with flash := { s.flash with chip := BitVec.ofNat 10 x.id, domain := BitVec.ofNat 8 x.n, grandmaster := decide (x.addr ≠ 0)
                                                nparts := x.lid, fixed := decide (x.addr2 ≠ 0) } }.reply x.part "WRCFG" [])) s

/-- COOLANT_ALARM (R406): the alarm's state becomes `q`. -/
def execCoolantAlarm (s : State) : Host.Outcome State Fault Refusal := runEvent (fun x s => some { s with sensors := { s.sensors with coolant := x.q } }) s

end Sys2Proof.Machine
end

