-- ==== Sys2Proof/Machine/Attach.lean ====
section
/-!
DEFINITION. Attach.lean: the host's accesses (R400 to R402), resets and bring-up (R16, R403, R405), loss of power (R374).
-/
namespace Sys2Proof.Machine

open Sys2Proof

/-! ### BAR0 (R401, R402) -/

/-- The ring of partition p would lie in its DEV memory, aligned (R401). -/
def State.ringOk (s : State) (p base log2 : Nat) : Bool :=
  decide (base % (256 * 2 ^ log2) = 0) && typeOfPa base == some .dev && s.owns p base

/-- A posted write of the host at the function of partition p is queued at a page under migration other than the one of the byte at a: a later write there
waits, since posted writes keep their order (R400, R350). Such an access happens when the agenda names it again. -/
def State.hostWaits (s : State) (p a : Nat) : Bool :=
  s.holds.any fun h => (h.place a).isNone && h.q.any fun q => decide (q.core = ncores) && decide (q.launch = p) && q.rmw.isNone

/-- HOST_QUEUE_TAIL_WRITE (R402): TAIL := n, unless the ring would hold too many; the earlier posted writes of the host are performed. -/
def execHostQueueTailWrite (s : State) : Host.Outcome State Fault Refusal :=
  runEvent (fun x s =>
    let p := s.prt x.part
    let t := x.n % 2 ^ 32
    if x.part ≥ s.cfg.nparts || s.hostWaits x.part hostBase then none
    else if (t + 2 ^ 32 - p.head) % 2 ^ 32 > 2 ^ p.log2 then some (s.setPart x.part { p with ovr := true })
    else some (s.setPart x.part { p with tail := t })) s

/-- A queue register block with EN tested against HQBASE (R401). -/
def State.enable (s : State) (i : Nat) (p : Part) : Part :=
  if p.en && !s.ringOk i p.hqbase p.log2 then { p with en := false, badbase := true } else p

/-- HOST_QUEUE_CONTROL_WRITE (R401): w goes to 0x008; another LOG2 than 4 to 12 leaves LOG2 unchanged. -/
def execHostQueueControlWrite (s : State) : Host.Outcome State Fault Refusal :=
  runEvent (fun x s =>
    let p := s.prt x.part
    let l := x.w.toNat % 16
    if x.part ≥ s.cfg.nparts || s.hostWaits x.part hostBase then none
    else some (s.setPart x.part (s.enable x.part { p with en := bit x.w.toNat 31, log2 := if 4 ≤ l ∧ l ≤ 12 then l else p.log2 }))) s

/-- A BAR0 register of a function as the host reads it (R401). -/
def State.bar0 (s : State) (i off : Nat) : Nat :=
  let p := s.prt i
  match off with
  | 0x000 => p.hqbase
  | 0x008 => b2n p.en * 2 ^ 31 + p.log2
  | 0x010 => p.tail
  | 0x018 => p.head
  | 0x020 => b2n p.ready * 4 + b2n p.badbase * 2 + b2n p.ovr
  | 0x040 => s.incarn.toNat * 2 ^ 48 + s.cfg.chip.toNat * 2 ^ 32 + i * 2 ^ 24 + 0x009A03
  | 0x048 => s.timeWord.toNat
  | 0x050 => s.time.toNat
  | _ => 0

/-- REGISTER_WRITE (R401, R3): w goes to offset `addr`: HQBASE, or the W1C bits of 0x020; read-only and unlisted offsets ignore it. With `q` the
host reads the register. -/
def execRegisterWrite (s : State) : Host.Outcome State Fault Refusal :=
  runEvent (fun x s =>
    let p := s.prt x.part
    if x.part ≥ s.cfg.nparts then none
    else if x.q then some { s with hostReplies := s.hostReplies ++ [({ part := x.part, data := some (bytesOf 8 (s.bar0 x.part x.addr)) } : HostReply)] }
    else if s.hostWaits x.part hostBase then none
    else match x.addr with
      | 0x000 => some (s.setPart x.part (s.enable x.part { p with hqbase := x.w.toNat % 2 ^ 52 }))
      | 0x020 => some (s.setPart x.part { p with badbase := p.badbase && !bit x.w.toNat 1, ovr := p.ovr && !bit x.w.toNat 0 })
      | _ => some s) s

/-! ### BAR2 (R400) -/

/-- The physical address of byte x of a partition's BAR2: its sets in ascending stack order, then set order. -/
def State.bar2 (s : State) (p x : Nat) : Option Nat :=
  let per := 8 / s.cfg.nparts * 2 ^ 33
  if x ≥ 8 * per then none else some (x / per * 2 ^ 36 + p * per + x % per)

/-- What the host asks for: a read, a write of `data`, or an AtomicOp on n bytes (FetchAdd, Swap, CAS). -/
def hostRmw (kind n v cmp : Nat) : Rmw :=
  match kind with
  | 2 => ⟨.add, n, v, 0⟩
  | 3 => ⟨.swap, n, v, 0⟩
  | _ => ⟨.cas, n, cmp, v⟩

/-- A posted write of the host (R400): what lies in a page under migration is queued there, unperformed (R350); none where a queue is full or an earlier write
of the function waits elsewhere. -/
def State.hostWrite (s : State) (p : Nat) (l : List (Nat × Byte)) : Option State :=
  let hs := s.holds.filter fun h => l.any fun b => (h.place b.1).isSome
  if l.any (fun b => s.hostWaits p b.1) || hs.any (fun h => !s.holdRoom h) then none
  else
    let put (s : State) (h : Hold) : State := s.queueAt h
      { core := ncores, grp := s.serial, bytes := l.filter fun b => (h.place b.1).isSome, clr := [], plain := false, va := 0, launch := p, phasec := 0 }
    let now := l.filter fun b => !s.heldAt b.1
    some (((hs.foldl put s).write now).hostWrote now)

/-- An AtomicOp of the host on r.n aligned bytes at k (R400): performed at its home, which replies with the old value, or queued at a page under migration (R350).
Poison gives no data, and changes nothing (R369). -/
def State.hostAtomic (s : State) (p k : Nat) (r : Rmw) : Option State :=
  let reply (s : State) (d : Option (List Byte)) : State := { s with hostReplies := s.hostReplies ++ [({ part := p, data := d } : HostReply)] }
  if s.hostWaits p k then none
  else match s.holdAt false k with
    | some h =>
      if !s.holdRoom h then none
      else some (s.queueAt h { core := ncores, grp := s.serial, bytes := at_ k r.n 0, clr := [], plain := false, va := 0, launch := p, phasec := 0, rmw := some r })
    | none =>
      if s.poisoned k then some (reply s none)
      else some (reply ((s.wr k r.n (r.op.eval r.n (s.rd k r.n) r.v r.v2)).hostWrote (at_ k r.n 0)) (some (bytesOf r.n (s.rd k r.n))))

/-- HOST_BAR2_ACCESS (R400): at BAR2 offset `addr` of partition `part`, or at a HOST address, the host's own memory: kind `id` 0 reads n bytes,
1 writes `data`, 2 to 4 are FetchAdd, Swap and CAS of n = 4 or 8 aligned bytes with w and `addr2`. -/
def execHostBar2Access (s : State) : Host.Outcome State Fault Refusal :=
  runEvent (fun x s =>
    let n := if x.id = 1 then x.data.length else x.n
    let key (o : Nat) : Option Nat := if typeOfPa o == some .host then some o else s.bar2 x.part o
    let ks := (List.range n).filterMap fun j => key (x.addr + j)
    let a := ks.headD 0
    let reply (s : State) (d : Option (List Byte)) : State := { s with hostReplies := s.hostReplies ++ [({ part := x.part, data := d } : HostReply)] }
    let data : Option (List Byte) := if ks.any s.poisoned then none else some (ks.map s.byte)
    if x.part ≥ s.cfg.nparts || n = 0 || ks.length ≠ n then none
    else match x.id with
    | 0 => if ks.any s.granuleBusy then none else some (reply s data)
    | 1 => (s.hostWrite x.part (ks.zip x.data)).map State.wakeAll
    | 2 | 3 | 4 =>
      if !(n = 4 || n = 8) || x.addr % n ≠ 0 then none
      else (s.hostAtomic x.part a (hostRmw x.id n (x.w.toNat % 2 ^ (8 * n)) (x.addr2 % 2 ^ (8 * n)))).map State.wakeAll
    | _ => none) s

/-! ### Resets (R16, R403, R405) -/

/-- The incarnation after n (R16). -/
def nextIncarn (n : BitVec 16) : BitVec 16 := if n + 1 = 0 then 1 else n + 1

/-- The partitions right after a reset with a layout (R338, R340). -/
def partsAt (f : Flash) : SMap Part :=
  (List.range f.nparts).foldl (fun m p => SMap.set {} m p { chain := decide (p = f.chainPart), featmask := f.featmask }) []

/-- A module reset (R403): configuration from flash, the next incarnation, time 0; memory and all that ran is lost. The lifetime counts stay, and so
does what the outside world will do. -/
def State.resetModule (s : State) : State :=
  { State.reset with
    parts := partsAt s.flash, cfg := s.flash, flash := s.flash, incarn := nextIncarn s.stored, stored := nextIncarn s.stored
    life := s.life, lifeFlash := s.lifeFlash, sensors := s.sensors, replies := s.replies, agenda := s.agenda, fresh := s.fresh, serial := s.serial }

/-- MODULE_RESET (R403): power-on, link 0's reset or the management controller's. -/
def execModuleReset (s : State) : Host.Outcome State Fault Refusal := runEvent (fun _ s => some s.resetModule) s

/-- FUNCTION_LEVEL_RESET (R403) of partition `part`: its incomplete launches are abandoned, its queue registers reset. -/
def execFunctionLevelReset (s : State) : Host.Outcome State Fault Refusal :=
  runEvent (fun x s =>
    if x.part ≥ s.cfg.nparts then none
    else
      let ids := (s.launches.filter fun l => l.part = x.part).map (·.id)
      let s := ids.foldl (fun s i => (s.abandonLaunch x.part i).2) s
      some (s.modPart x.part fun p => { p with en := false, tail := 0, head := 0, ready := false })) s

/-- LINK1_RESET (R403): nothing beyond the link. -/
def execLink1Reset (s : State) : Host.Outcome State Fault Refusal := runEvent (fun _ s => some s) s

/-- OVER_TEMPERATURE (R405): die n (compute dies 0 to 3, spine dies 4 and 5) reaches 105 °C; the thermal record of a compute die counts it, and the controller
resets the module. -/
def execOverTemperature (s : State) : Host.Outcome State Fault Refusal :=
  runEvent (fun x s => if x.n ≥ 6 then none else some (if x.n < 4 then s.bump (0x4000 + x.n) 15 (2 ^ 32 - 1) else s).resetModule) s

/-- The entries of the reservation tables from index i on (R255): two bytes each, reserved bits 0. -/
def setResv (m : SMap (BitVec 16)) (i : Nat) : List Byte → SMap (BitVec 16)
  | a :: b :: t => setResv (if i < 18 * 64 then SMap.set 0 m i ((BitVec.ofNat 16 (ofBytes [a, b])) &&& 0xF0FF) else m) (i + 1) t
  | _ => m

/-- PARTITION_READY (R403): the firmware of partition `part` has set up its tables, among them `data` from entry `addr` of the ports' reservation tables on (R255,
log entry 69), announces the new INCARN on the fabric (R258), and sets READY. -/
def execPartitionReady (s : State) : Host.Outcome State Fault Refusal :=
  runEvent (fun x s =>
    if x.part ≥ s.cfg.nparts then none
    else some (({ s with resv := setResv s.resv x.addr x.data }.announce).modPart x.part fun p => { p with ready := true })) s

/-- POWER_LOSS (R374): the module stops; counts that are not in flash are lost. -/
def execPowerLoss (s : State) : Host.Outcome State Fault Refusal := runEvent (fun _ s => some { s with powered := false, life := s.lifeFlash }) s

end Sys2Proof.Machine
end

