-- ==== Sys2Proof/Machine/Control.lean ====
section
/-!
DEFINITION. Control.lean: branches, jumps and their delay slots (R40, R41, R98 to R100), NOP, and the modifier words RND, PRD and XIMM, each
of which is read as a step of its own and kept before the instruction it modifies (R36 to R39).
-/
namespace Sys2Proof.Machine

open Sys2Proof

/-! ### Delay slots (R40, R41) -/

/-- The whole instruction at an address, where all its words can be fetched and name a legal instruction. -/
def State.peekInstr (s : State) (i : Nat) (va : Word) : Option Instr :=
  match s.peek i va with
  | none => none
  | some w0 =>
    let w1 := if isLong w0 then s.peek i (va + 4) else some 0
    match w1 with
    | none => none
    | some w1 => match decodeWords w0 w1 with
      | .ok x => if x.wf then some x else none
      | .error _ => none

/-- The slot at an address holds what R41 forbids: any modifier word, or a legal instruction of its list. -/
def State.badSlot (s : State) (i : Nat) (va : Word) : Bool :=
  (match s.peek i va with | some w => w.toNat % 4 == 2 | none => false)
  || (match s.peekInstr i va with | some x => slotForbidden x | none => false)

/-- The address after the instruction at va (R40): its length is read from its first word, one word where that cannot be fetched. -/
def State.afterSlot (s : State) (i : Nat) (va : Word) : Word :=
  va + (match s.peek i va with | some w => if isLong w then 8 else 4 | none => 4)

/-- A branch of the current core at pc: DSLOT first (R41), but for a modifier word that no branch accepts, which R30 item 5 does not order against it (DESIGN CHOICE,
log entry 61: PREFIX is raised first), then its own reads and writes, which answer the target where it is taken;
its slot comes next (R40). `f` is given the address after the slot. -/
def runBranch (i : Instr) (f : Nat → Word → Core → M (Core × Option Word)) (s : State) : Host.Outcome State Fault Refusal :=
  runCtl i (fun k s => do
    let c := s.core k
    let slot := c.pc + 4
    trapIf (s.badSlot k slot) .dslot slot
    let after := s.afterSlot k slot
    let (c', t) ← f k after c
    let q := c'.txq
    let s' := s.setCore k { c' with txq := [] }
    let s' ← s'.sendWords k q s'
    .ok (s'.modCore k fun c => c.branch 4 (t.getD after))) s

/-- A target n words from the branch (R31, R98). -/
def Core.rel (c : Core) (off : Int) : Word := c.pc + wordOfInt (4 * off)

/-- Compare-branches (R98): s[A] and s[B] are read in that order. -/
def branchIf (a b : Reg) (off : BitVec 12) (p : Word → Word → Bool) : Nat → Word → Core → M (Core × Option Word) := fun _ _ c => do
  let t := c.rel off.toInt
  let (x, c) ← c.readS a
  let (y, c) ← c.readS b
  .ok (c, if p x y then some t else none)

/-! ### Modifier words (R36 to R39) -/

/-- The kind of a modifier word. -/
def pfxKind (w : IWord) : Nat := bits w.toNat 5 2

/-- A modifier word is read: it is forbidden in a slot (R41), orphaned by a second of its kind or a third of a chain (R38), at that word and before
any word after it is fetched (log entry 78), else it joins the chain before the next word. -/
def runPfx (s : State) : Host.Outcome State Fault Refusal :=
  let k := s.cur
  let c := s.core k
  if c.slot.isSome then .next (s.takeTrap k .dslot c.pc (c.pc + 4))
  else if decide (c.pfx.length ≥ 2) || c.pfx.any (fun w => pfxKind w == pfxKind c.ir) then
    .next (s.takeTrap k .orphan (BitVec.ofNat 64 (c.pfx.headD 0).toNat) (c.pc + 4))
  else
    .next (s.setCore k { c with pfx := c.pfx ++ [c.ir], pfxPc := if c.pfx.isEmpty then c.pc else c.pfxPc, pc := c.pc + 4, stalled := false })

/-- RND (R36). -/
def execRnd (_mode : RMode) (_sat : Bool) (s : State) : Host.Outcome State Fault Refusal := runPfx s

/-- PRD (R36). -/
def execPrd (_zero _inv : Bool) (_k : BitVec 3) (s : State) : Host.Outcome State Fault Refusal := runPfx s

/-- XIMM (R36). -/
def execXimm (_imm : BitVec 26) (s : State) : Host.Outcome State Fault Refusal := runPfx s

/-- NOP (R101). -/
def execNop (s : State) : Host.Outcome State Fault Refusal := runSeq .nop (fun _ s => .ok s) s

/-- A word that R53 leaves unassigned, or whose reserved bits or codes are not legal: ILLOP, EVAL word 0 (R53, R59). -/
def execUnassignedEncoding (s : State) : Host.Outcome State Fault Refusal :=
  let k := s.cur
  .next (s.takeTrap k .illop (s.core k).word0 ((s.core k).nextPc .unassignedEncoding))

/-! ### Branches and jumps (R98 to R100) -/

/-- BEQ (R98). -/
def execBeq (a b : Reg) (off : BitVec 12) (s : State) : Host.Outcome State Fault Refusal := runBranch (.beq a b off) (branchIf a b off (fun x y => x == y)) s

/-- BNE (R98). -/
def execBne (a b : Reg) (off : BitVec 12) (s : State) : Host.Outcome State Fault Refusal := runBranch (.bne a b off) (branchIf a b off (fun x y => x != y)) s

/-- BLT (R98). -/
def execBlt (a b : Reg) (off : BitVec 12) (s : State) : Host.Outcome State Fault Refusal := runBranch (.blt a b off) (branchIf a b off (fun x y => decide (x.toInt < y.toInt))) s

/-- BGE (R98). -/
def execBge (a b : Reg) (off : BitVec 12) (s : State) : Host.Outcome State Fault Refusal := runBranch (.bge a b off) (branchIf a b off (fun x y => decide (y.toInt ≤ x.toInt))) s

/-- BLTU (R98). -/
def execBltu (a b : Reg) (off : BitVec 12) (s : State) : Host.Outcome State Fault Refusal := runBranch (.bltu a b off) (branchIf a b off (fun x y => decide (x.toNat < y.toNat))) s

/-- BGEU (R98). -/
def execBgeu (a b : Reg) (off : BitVec 12) (s : State) : Host.Outcome State Fault Refusal := runBranch (.bgeu a b off) (branchIf a b off (fun x y => decide (y.toNat ≤ x.toNat))) s

/-- J (R99). -/
def execJ (off : BitVec 24) (s : State) : Host.Outcome State Fault Refusal :=
  runBranch (.j off) (fun _ _ c => .ok (c, some (c.rel off.toInt))) s

/-- CALL (R99): s55 is the link. -/
def execCall (off : BitVec 24) (s : State) : Host.Outcome State Fault Refusal :=
  runBranch (.call off) (fun _ after c => .ok (c.writeS 55 after, some (c.rel off.toInt))) s

/-- JR (R99): the target is read before any write; ALIGN where it is not a word address. -/
def execJr (d a : Reg) (s : State) : Host.Outcome State Fault Refusal :=
  runBranch (.jr d a) (fun k after c => do
    let (t, c) ← c.readS a
    trapIf (t.toNat % 4 != 0) .align t
    let c ← if d = 0 then .ok c else c.putS k d after
    .ok (c, some t)) s

/-- BK (R100): all 64 bits of the mask register. -/
def execBk (cond : MaskCond) (k : BitVec 3) (off : BitVec 18) (s : State) : Host.Outcome State Fault Refusal :=
  runBranch (.bk cond k off) (fun _ _ c => do
    let m ← c.readK k.toNat
    let taken := match cond with | .any => m != 0 | .all => m == -1 | .none => m == 0
    .ok (c, if taken then some (c.rel off.toInt) else none)) s

end Sys2Proof.Machine
end

