-- ==== Sys2Proof/Machine/ScalarInt.lean ====
section
/-!
DEFINITION. ScalarInt.lean: the integer, address, select and constant instructions (R89 to R94) and the mask group (R102). Each entry has
a body, which a frame may run (R45), and a meaning, which is the body run as one instruction.
-/
namespace Sys2Proof.Machine

open Sys2Proof

/-! ### What the entries compute (R89 to R91) -/

/-- The shift count c of R89. -/
def shamt (b : Word) : Nat := b.toNat % 64

def aluAdd (a b : Word) : Word := a + b
def aluSub (a b : Word) : Word := a - b
def aluAnd (a b : Word) : Word := a &&& b
def aluOr (a b : Word) : Word := a ||| b
def aluXor (a b : Word) : Word := a ^^^ b
def aluAndn (a b : Word) : Word := a &&& ~~~b
def aluShl (a b : Word) : Word := a <<< shamt b
def aluShr (a b : Word) : Word := a >>> shamt b
def aluSra (a b : Word) : Word := a.sshiftRight (shamt b)
def aluRol (a b : Word) : Word := a <<< shamt b ||| a >>> (64 - shamt b)
def aluMin (a b : Word) : Word := if a.toInt ≤ b.toInt then a else b
def aluMax (a b : Word) : Word := if a.toInt ≤ b.toInt then b else a
def aluMinu (a b : Word) : Word := if a.toNat ≤ b.toNat then a else b
def aluMaxu (a b : Word) : Word := if a.toNat ≤ b.toNat then b else a
def aluSlt (a b : Word) : Word := if a.toInt < b.toInt then 1 else 0
def aluSltu (a b : Word) : Word := if a.toNat < b.toNat then 1 else 0
def aluSeq (a b : Word) : Word := if a = b then 1 else 0
def aluMul (a b : Word) : Word := a * b
def aluMulh (a b : Word) : Word := wordOfInt (a.toInt * b.toInt / 2 ^ 64)
def aluMulhu (a b : Word) : Word := BitVec.ofNat 64 (a.toNat * b.toNat / 2 ^ 64)
def aluDiv (a b : Word) : Word := if b.toInt = 0 then -1 else wordOfInt (a.toInt.tdiv b.toInt)
def aluDivu (a b : Word) : Word := if b = 0 then -1 else BitVec.ofNat 64 (a.toNat / b.toNat)
def aluRem (a b : Word) : Word := if b.toInt = 0 then a else wordOfInt (a.toInt - b.toInt * a.toInt.tdiv b.toInt)
def aluRemu (a b : Word) : Word := if b = 0 then a else BitVec.ofNat 64 (a.toNat - b.toNat * (a.toNat / b.toNat))
def aluAdds (a b : Word) : Word := wordOfInt (clampS 64 (a.toInt + b.toInt))
def aluSubs (a b : Word) : Word := wordOfInt (clampS 64 (a.toInt - b.toInt))
def aluClz (a : Word) : Word := BitVec.ofNat 64 (leadZeros 64 a.toNat)
def aluCtz (a : Word) : Word := BitVec.ofNat 64 (lowBit 64 a.toNat)
def aluPopc (a : Word) : Word := BitVec.ofNat 64 (popCount 64 a.toNat)
def aluBswap (a : Word) : Word := BitVec.ofNat 64 (ofBytes (bytesOf 8 a.toNat).reverse)

/-- LEA (R94). -/
def aluLea (a b : Word) (sh : Nat) : Word := a + b <<< sh

/-! ### Forms -/

/-- s[D] := f s[A]. -/
def unS (d a : Reg) (f : Word → Word) : CoreBody := fun k c => do
  let (x, c) ← c.readS a
  .ok (← c.putS k d (f x), 0)

/-- s[D] := f s[A] s[B], read in that order (R35). -/
def binS (d a b : Reg) (f : Word → Word → Word) : CoreBody := fun k c => do
  let (x, c) ← c.readS a
  let (y, c) ← c.readS b
  .ok (← c.putS k d (f x y), 0)

/-- s[D] := f s[A] s[B] s[C]. -/
def triS (d a b e : Reg) (f : Word → Word → Word → Word) : CoreBody := fun k c => do
  let (x, c) ← c.readS a
  let (y, c) ← c.readS b
  let (z, c) ← c.readS e
  .ok (← c.putS k d (f x y z), 0)

/-- s[D] := f s[A] imm, the immediate widened by XIMM (R92, R37). -/
def immS (d a : Reg) (imm : BitVec 12) (f : Word → Word → Word) : CoreBody := fun k c => do
  let m := wordOfInt (c.imm12 imm)
  let (x, c) ← c.readS a
  .ok (← c.putS k d (f x m), 0)

/-- s[D] := f of the core, reading no register. -/
def constS (d : Reg) (f : Core → Word) : CoreBody := fun k c => do
  .ok (← c.putS k d (f c), 0)

/-- k[D] := f k[A] k[B] (R102). -/
def binK (d a b : Reg) (f : Word → Word → Word) : CoreBody := fun _ c => do
  let x ← c.readK a.toNat
  let y ← c.readK b.toNat
  .ok (c.putK d.toNat (f x y), 0)

/-- s[D] := f k[A] (R102). -/
def maskS (d a : Reg) (f : Word → Word) : CoreBody := fun k c => do
  let x ← c.readK a.toNat
  .ok (← c.putS k d (f x), 0)

/-! ### Page A OP 0x01 (R89, R90) -/

/-- ADD (R89). -/
def bodyAdd (d a b : Reg) : CoreBody := binS d a b aluAdd
def execAdd (d a b : Reg) (s : State) : Host.Outcome State Fault Refusal := runLocal (.add d a b) (bodyAdd d a b) s

/-- SUB (R89). -/
def bodySub (d a b : Reg) : CoreBody := binS d a b aluSub
def execSub (d a b : Reg) (s : State) : Host.Outcome State Fault Refusal := runLocal (.sub d a b) (bodySub d a b) s

/-- AND (R89). -/
def bodyAnd (d a b : Reg) : CoreBody := binS d a b aluAnd
def execAnd (d a b : Reg) (s : State) : Host.Outcome State Fault Refusal := runLocal (.and d a b) (bodyAnd d a b) s

/-- OR (R89). -/
def bodyOr (d a b : Reg) : CoreBody := binS d a b aluOr
def execOr (d a b : Reg) (s : State) : Host.Outcome State Fault Refusal := runLocal (.or d a b) (bodyOr d a b) s

/-- XOR (R89). -/
def bodyXor (d a b : Reg) : CoreBody := binS d a b aluXor
def execXor (d a b : Reg) (s : State) : Host.Outcome State Fault Refusal := runLocal (.xor d a b) (bodyXor d a b) s

/-- ANDN (R89). -/
def bodyAndn (d a b : Reg) : CoreBody := binS d a b aluAndn
def execAndn (d a b : Reg) (s : State) : Host.Outcome State Fault Refusal := runLocal (.andn d a b) (bodyAndn d a b) s

/-- SHL (R89). -/
def bodyShl (d a b : Reg) : CoreBody := binS d a b aluShl
def execShl (d a b : Reg) (s : State) : Host.Outcome State Fault Refusal := runLocal (.shl d a b) (bodyShl d a b) s

/-- SHR (R89). -/
def bodyShr (d a b : Reg) : CoreBody := binS d a b aluShr
def execShr (d a b : Reg) (s : State) : Host.Outcome State Fault Refusal := runLocal (.shr d a b) (bodyShr d a b) s

/-- SRA (R89). -/
def bodySra (d a b : Reg) : CoreBody := binS d a b aluSra
def execSra (d a b : Reg) (s : State) : Host.Outcome State Fault Refusal := runLocal (.sra d a b) (bodySra d a b) s

/-- ROL (R89). -/
def bodyRol (d a b : Reg) : CoreBody := binS d a b aluRol
def execRol (d a b : Reg) (s : State) : Host.Outcome State Fault Refusal := runLocal (.rol d a b) (bodyRol d a b) s

/-- MIN (R89). -/
def bodyMin (d a b : Reg) : CoreBody := binS d a b aluMin
def execMin (d a b : Reg) (s : State) : Host.Outcome State Fault Refusal := runLocal (.min d a b) (bodyMin d a b) s

/-- MAX (R89). -/
def bodyMax (d a b : Reg) : CoreBody := binS d a b aluMax
def execMax (d a b : Reg) (s : State) : Host.Outcome State Fault Refusal := runLocal (.max d a b) (bodyMax d a b) s

/-- MINU (R89). -/
def bodyMinu (d a b : Reg) : CoreBody := binS d a b aluMinu
def execMinu (d a b : Reg) (s : State) : Host.Outcome State Fault Refusal := runLocal (.minu d a b) (bodyMinu d a b) s

/-- MAXU (R89). -/
def bodyMaxu (d a b : Reg) : CoreBody := binS d a b aluMaxu
def execMaxu (d a b : Reg) (s : State) : Host.Outcome State Fault Refusal := runLocal (.maxu d a b) (bodyMaxu d a b) s

/-- SLT (R89). -/
def bodySlt (d a b : Reg) : CoreBody := binS d a b aluSlt
def execSlt (d a b : Reg) (s : State) : Host.Outcome State Fault Refusal := runLocal (.slt d a b) (bodySlt d a b) s

/-- SLTU (R89). -/
def bodySltu (d a b : Reg) : CoreBody := binS d a b aluSltu
def execSltu (d a b : Reg) (s : State) : Host.Outcome State Fault Refusal := runLocal (.sltu d a b) (bodySltu d a b) s

/-- SEQ (R89). -/
def bodySeq (d a b : Reg) : CoreBody := binS d a b aluSeq
def execSeq (d a b : Reg) (s : State) : Host.Outcome State Fault Refusal := runLocal (.seq d a b) (bodySeq d a b) s

/-- MUL (R89). -/
def bodyMul (d a b : Reg) : CoreBody := binS d a b aluMul
def execMul (d a b : Reg) (s : State) : Host.Outcome State Fault Refusal := runLocal (.mul d a b) (bodyMul d a b) s

/-- MULH (R89). -/
def bodyMulh (d a b : Reg) : CoreBody := binS d a b aluMulh
def execMulh (d a b : Reg) (s : State) : Host.Outcome State Fault Refusal := runLocal (.mulh d a b) (bodyMulh d a b) s

/-- MULHU (R89). -/
def bodyMulhu (d a b : Reg) : CoreBody := binS d a b aluMulhu
def execMulhu (d a b : Reg) (s : State) : Host.Outcome State Fault Refusal := runLocal (.mulhu d a b) (bodyMulhu d a b) s

/-- DIV (R90). -/
def bodyDiv (d a b : Reg) : CoreBody := binS d a b aluDiv
def execDiv (d a b : Reg) (s : State) : Host.Outcome State Fault Refusal := runLocal (.div d a b) (bodyDiv d a b) s

/-- DIVU (R90). -/
def bodyDivu (d a b : Reg) : CoreBody := binS d a b aluDivu
def execDivu (d a b : Reg) (s : State) : Host.Outcome State Fault Refusal := runLocal (.divu d a b) (bodyDivu d a b) s

/-- REM (R90). -/
def bodyRem (d a b : Reg) : CoreBody := binS d a b aluRem
def execRem (d a b : Reg) (s : State) : Host.Outcome State Fault Refusal := runLocal (.rem d a b) (bodyRem d a b) s

/-- REMU (R90). -/
def bodyRemu (d a b : Reg) : CoreBody := binS d a b aluRemu
def execRemu (d a b : Reg) (s : State) : Host.Outcome State Fault Refusal := runLocal (.remu d a b) (bodyRemu d a b) s

/-- ADDS (R89). -/
def bodyAdds (d a b : Reg) : CoreBody := binS d a b aluAdds
def execAdds (d a b : Reg) (s : State) : Host.Outcome State Fault Refusal := runLocal (.adds d a b) (bodyAdds d a b) s

/-- SUBS (R89). -/
def bodySubs (d a b : Reg) : CoreBody := binS d a b aluSubs
def execSubs (d a b : Reg) (s : State) : Host.Outcome State Fault Refusal := runLocal (.subs d a b) (bodySubs d a b) s

/-! ### Page A OP 0x02 (R91) -/

/-- CLZ (R91). -/
def bodyClz (d a : Reg) : CoreBody := unS d a aluClz
def execClz (d a : Reg) (s : State) : Host.Outcome State Fault Refusal := runLocal (.clz d a) (bodyClz d a) s

/-- CTZ (R91). -/
def bodyCtz (d a : Reg) : CoreBody := unS d a aluCtz
def execCtz (d a : Reg) (s : State) : Host.Outcome State Fault Refusal := runLocal (.ctz d a) (bodyCtz d a) s

/-- POPC (R91). -/
def bodyPopc (d a : Reg) : CoreBody := unS d a aluPopc
def execPopc (d a : Reg) (s : State) : Host.Outcome State Fault Refusal := runLocal (.popc d a) (bodyPopc d a) s

/-- BSWAP (R91). -/
def bodyBswap (d a : Reg) : CoreBody := unS d a aluBswap
def execBswap (d a : Reg) (s : State) : Host.Outcome State Fault Refusal := runLocal (.bswap d a) (bodyBswap d a) s

/-! ### Page A OP 0x03 to 0x0B (R92) -/

/-- ADDI (R92). -/
def bodyAddi (d a : Reg) (imm : BitVec 12) : CoreBody := immS d a imm aluAdd
def execAddi (d a : Reg) (imm : BitVec 12) (s : State) : Host.Outcome State Fault Refusal := runLocal (.addi d a imm) (bodyAddi d a imm) s

/-- ANDI (R92). -/
def bodyAndi (d a : Reg) (imm : BitVec 12) : CoreBody := immS d a imm aluAnd
def execAndi (d a : Reg) (imm : BitVec 12) (s : State) : Host.Outcome State Fault Refusal := runLocal (.andi d a imm) (bodyAndi d a imm) s

/-- ORI (R92). -/
def bodyOri (d a : Reg) (imm : BitVec 12) : CoreBody := immS d a imm aluOr
def execOri (d a : Reg) (imm : BitVec 12) (s : State) : Host.Outcome State Fault Refusal := runLocal (.ori d a imm) (bodyOri d a imm) s

/-- XORI (R92). -/
def bodyXori (d a : Reg) (imm : BitVec 12) : CoreBody := immS d a imm aluXor
def execXori (d a : Reg) (imm : BitVec 12) (s : State) : Host.Outcome State Fault Refusal := runLocal (.xori d a imm) (bodyXori d a imm) s

/-- SLTI (R92). -/
def bodySlti (d a : Reg) (imm : BitVec 12) : CoreBody := immS d a imm aluSlt
def execSlti (d a : Reg) (imm : BitVec 12) (s : State) : Host.Outcome State Fault Refusal := runLocal (.slti d a imm) (bodySlti d a imm) s

/-- SLTIU (R92). -/
def bodySltiu (d a : Reg) (imm : BitVec 12) : CoreBody := immS d a imm aluSltu
def execSltiu (d a : Reg) (imm : BitVec 12) (s : State) : Host.Outcome State Fault Refusal := runLocal (.sltiu d a imm) (bodySltiu d a imm) s

/-- SHLI (R92). -/
def bodyShli (d a : Reg) (imm : BitVec 12) : CoreBody := immS d a imm aluShl
def execShli (d a : Reg) (imm : BitVec 12) (s : State) : Host.Outcome State Fault Refusal := runLocal (.shli d a imm) (bodyShli d a imm) s

/-- SHRI (R92). -/
def bodyShri (d a : Reg) (imm : BitVec 12) : CoreBody := immS d a imm aluShr
def execShri (d a : Reg) (imm : BitVec 12) (s : State) : Host.Outcome State Fault Refusal := runLocal (.shri d a imm) (bodyShri d a imm) s

/-- SRAI (R92). -/
def bodySrai (d a : Reg) (imm : BitVec 12) : CoreBody := immS d a imm aluSra
def execSrai (d a : Reg) (imm : BitVec 12) (s : State) : Host.Outcome State Fault Refusal := runLocal (.srai d a imm) (bodySrai d a imm) s

/-! ### Constants, LEA, SEL, MADD (R93, R94) -/

/-- LI (R93). -/
def bodyLi (d : Reg) (imm : BitVec 18) : CoreBody := constS d fun c => wordOfInt (c.imm18 imm)
def execLi (d : Reg) (imm : BitVec 18) (s : State) : Host.Outcome State Fault Refusal := runLocal (.li d imm) (bodyLi d imm) s

/-- LUI (R93). -/
def bodyLui (d : Reg) (imm : BitVec 18) : CoreBody := constS d fun c => wordOfInt (c.imm18 imm * 2 ^ 18)
def execLui (d : Reg) (imm : BitVec 18) (s : State) : Host.Outcome State Fault Refusal := runLocal (.lui d imm) (bodyLui d imm) s

/-- LIW (R93). -/
def bodyLiw (d : Reg) (imm : IWord) : CoreBody := constS d fun _ => wordOfInt imm.toInt
def execLiw (d : Reg) (imm : IWord) (s : State) : Host.Outcome State Fault Refusal := runLocal (.liw d imm) (bodyLiw d imm) s

/-- LIHI (R93). -/
def bodyLihi (d : Reg) (imm : IWord) : CoreBody := constS d fun _ => BitVec.ofNat 64 (imm.toNat * 2 ^ 32)
def execLihi (d : Reg) (imm : IWord) (s : State) : Host.Outcome State Fault Refusal := runLocal (.lihi d imm) (bodyLihi d imm) s

/-- LEA (R94). -/
def bodyLea (d a b : Reg) (sh : BitVec 3) : CoreBody := binS d a b fun x y => aluLea x y sh.toNat
def execLea (d a b : Reg) (sh : BitVec 3) (s : State) : Host.Outcome State Fault Refusal := runLocal (.lea d a b sh) (bodyLea d a b sh) s

/-- SEL (R94). -/
def bodySel (d a b c : Reg) : CoreBody := triS d a b c fun x y z => if z ≠ 0 then x else y
def execSel (d a b c : Reg) (s : State) : Host.Outcome State Fault Refusal := runLocal (.sel d a b c) (bodySel d a b c) s

/-- MADD (R94). -/
def bodyMadd (d a b c : Reg) : CoreBody := triS d a b c fun x y z => x * y + z
def execMadd (d a b c : Reg) (s : State) : Host.Outcome State Fault Refusal := runLocal (.madd d a b c) (bodyMadd d a b c) s

/-! ### Masks (R102) -/

/-- KAND (R102). -/
def bodyKand (d a b : Reg) : CoreBody := binK d a b fun x y => x &&& y
def execKand (d a b : Reg) (s : State) : Host.Outcome State Fault Refusal := runLocal (.kand d a b) (bodyKand d a b) s

/-- KOR (R102). -/
def bodyKor (d a b : Reg) : CoreBody := binK d a b fun x y => x ||| y
def execKor (d a b : Reg) (s : State) : Host.Outcome State Fault Refusal := runLocal (.kor d a b) (bodyKor d a b) s

/-- KXOR (R102). -/
def bodyKxor (d a b : Reg) : CoreBody := binK d a b fun x y => x ^^^ y
def execKxor (d a b : Reg) (s : State) : Host.Outcome State Fault Refusal := runLocal (.kxor d a b) (bodyKxor d a b) s

/-- KNOT (R102). -/
def bodyKnot (d a : Reg) : CoreBody := fun _ c => do .ok (c.putK d.toNat (~~~(← c.readK a.toNat)), 0)
def execKnot (d a : Reg) (s : State) : Host.Outcome State Fault Refusal := runLocal (.knot d a) (bodyKnot d a) s

/-- KPOP (R102). -/
def bodyKpop (d a : Reg) : CoreBody := maskS d a aluPopc
def execKpop (d a : Reg) (s : State) : Host.Outcome State Fault Refusal := runLocal (.kpop d a) (bodyKpop d a) s

/-- KFIRST (R102). -/
def bodyKfirst (d a : Reg) : CoreBody := maskS d a aluCtz
def execKfirst (d a : Reg) (s : State) : Host.Outcome State Fault Refusal := runLocal (.kfirst d a) (bodyKfirst d a) s

/-- KMOVS (R102). -/
def bodyKmovs (d a : Reg) : CoreBody := maskS d a id
def execKmovs (d a : Reg) (s : State) : Host.Outcome State Fault Refusal := runLocal (.kmovs d a) (bodyKmovs d a) s

/-- KMOVK (R102). -/
def bodyKmovk (d a : Reg) : CoreBody := fun _ c => do
  let (x, c) ← c.readS a
  .ok (c.putK d.toNat x, 0)
def execKmovk (d a : Reg) (s : State) : Host.Outcome State Fault Refusal := runLocal (.kmovk d a) (bodyKmovk d a) s

end Sys2Proof.Machine
end

