-- ==== Sys2Proof/Machine/Frame.lean ====
section
/-!
DEFINITION. Frame.lean: repeat frames (R44 to R49): RPT captures and checks the words that follow it; each RPT_ITERATION runs the captured
instructions once on the core, register fields staggered, and commits as a unit.
-/
namespace Sys2Proof.Machine

open Sys2Proof

/-! ### What a frame may hold (R45) -/

/-- An instruction of a frame: its modifier words, word 0, word 1 (0 for a short one). -/
structure FrameIns where
  pre : List IWord
  w0 : IWord
  w1 : IWord
  deriving DecidableEq, Repr

/-- Cut the words of a frame into instructions, `pre` being the modifier words read so far. -/
def splitFrame (pre : List IWord) : List IWord → List FrameIns
  | [] => []
  | w :: t =>
    if w.toNat % 4 = 2 then splitFrame (pre ++ [w]) t
    else if isLong w then
      match t with
      | w1 :: t' => ⟨pre, w, w1⟩ :: splitFrame [] t'
      | [] => [⟨pre, w, 0⟩]
    else ⟨pre, w, 0⟩ :: splitFrame [] t

/-- Page and OP of a word that a frame may hold (R45). -/
def frameOp (w : IWord) : Bool :=
  let op := bits w.toNat 7 2
  match w.toNat % 4 with
  | 0 => op == 0x01 || op == 0x02 || (decide (0x03 ≤ op) && decide (op ≤ 0x0B)) || op == 0x25
  | 1 => true
  | 3 => decide (bits w.toNat 9 2 ≤ 0x0F)
  | _ => false

/-- A modifier word of this kind is accepted before an instruction of this page and OP (R37). -/
def frameAccepts (kind : Nat) (w : IWord) : Bool :=
  let op := bits w.toNat 7 2
  let op8 := bits w.toNat 9 2
  match w.toNat % 4, kind with
  | 0, 0 => op == 0x26 || op == 0x27
  | 0, 2 => decide (0x03 ≤ op) && decide (op ≤ 0x0D)
  | 1, 0 | 1, 1 => true
  | 3, 0 => decide (op8 ≤ 0x0F)
  | 3, 1 => decide (op8 ≤ 0x15) || op8 == 0x19
  | _, _ => false

/-- Offset of the first offending word of an instruction that begins o words from the RPT. -/
def FrameIns.bad (x : FrameIns) (o : Nat) : Option Nat :=
  let kinds := x.pre.map pfxKind
  match (List.range kinds.length).find? fun j =>
    let k := kinds.getD j 0
    decide (j ≥ 2) || (kinds.take j).contains k || !frameAccepts k x.w0 with
  | some j => some (o + j)
  | none => if frameOp x.w0 then none else some (o + kinds.length)

/-- Words an instruction of the frame takes. -/
def FrameIns.size (x : FrameIns) : Nat := x.pre.length + (if isLong x.w0 then 2 else 1)

/-- Offset of the first offending word of a frame (R45). -/
def frameBad (o : Nat) : List FrameIns → Option Nat
  | [] => none
  | x :: t => match x.bad o with | some k => some k | none => frameBad (o + x.size) t

/-- Fetch the words of n instructions from va on, in ascending order (R45): the words in order, or the first fault. -/
def State.capture (s : State) (k : Nat) : Nat → Nat → Word → List IWord → Except (Cause × Word) (List IWord × State)
  | 0, _, _, ws => .ok (ws, s)
  | _ + 1, 0, _, ws => .ok (ws, s)
  | f + 1, n + 1, va, ws =>
    match s.fetchWord k va with
    | .error e => .error e
    | .ok (w, s) =>
      if w.toNat % 4 = 2 then s.capture k f (n + 1) (va + 4) (ws ++ [w])
      else if isLong w then
        match s.fetchWord k (va + 4) with
        | .error e => .error e
        | .ok (w1, s) => s.capture k f n (va + 8) (ws ++ [w, w1])
      else s.capture k f n (va + 4) (ws ++ [w])

/-! ### RPT -/

/-- Words that a capture fetches at most: past the last address a fetch faults. -/
def captureFuel : Nat := 2 ^ 54

/-- The stride that a stride code means (R44). -/
def strideOf (x : Nat) : Nat := ([0, 1, 2, 4] : List Nat).getD x 0

/-- Control passes on after a frame of the given words (R49), and RPTSTATE reads 0 again, as R381's final state has it. -/
def Core.leaveFrame (c : Core) (ws : List IWord) : Core :=
  { c with frame := none, pfx := [], stalled := false, pc := c.pc + BitVec.ofNat 64 (8 + 4 * ws.length)
           sys := { c.sys with rptstate := 0 } }

/-- RPT (R44, R45, R48, R49): the capture and its check come before the count is read (R30), and an orphan chain's PREFIX before them
(log entry 81). At EPC with ACTIVE = 1 the frame that RPTSTATE describes goes on. -/
def execRpt (csrc : Bool) (a : Reg) (count : BitVec 16) (bstr astr dstr : BitVec 2) (n1 : BitVec 4) (s : State) : Host.Outcome State Fault Refusal :=
  runCtl (.rpt csrc a count bstr astr dstr n1) (fun k s => do
    let c := s.core k
    let r := c.sys.rptstate.toNat
    let again := bit r 63 && c.sys.epc == c.pc
    let n := if again then bits r 62 59 else n1.toNat
    match s.capture k captureFuel (n + 1) (c.pc + 8) [] with
    | .error (q, v) => .error (.trap q v)
    | .ok (ws, s) =>
      let fs := splitFrame [] ws
      match frameBad 2 (if fs.length = n + 1 then fs else splitFrame [] (ws ++ [0])) with
      | some o => .error (.trap .rptbad (BitVec.ofNat 64 o))
      | none =>
        let (cnt, c) ← if again then .ok (bits r 31 0, c)
          else if csrc then (do let (x, c) ← c.readS a; .ok (x.toNat % 2 ^ 32, c))
          else .ok (count.toNat, c)
        let s := s.setCore k { c with itlb := (s.core k).itlb }
        if cnt = 0 then .ok (s.modCore k fun c =>
          let c' := c.leaveFrame ws
          if again then c' else { c' with sys := c.sys })
        else
          let st := if again then r
            else 2 ^ 63 + n * 2 ^ 59 + dstr.toNat * 2 ^ 57 + astr.toNat * 2 ^ 55 + bstr.toNat * 2 ^ 53 + cnt
          .ok (s.modCore k fun c => { c with frame := some ws, pfx := [], stalled := false, sys := { c.sys with rptstate := BitVec.ofNat 64 st } })) s

/-! ### Iterations (R46, R47) -/

/-- A scalar field staggered by t; port codes stay. -/
def stagS (r : Reg) (t : Nat) : Reg := if r.toNat < 56 then BitVec.ofNat 6 ((r.toNat + t) % 56) else r

/-- A vector field staggered by t; stream codes stay. -/
def stagV (r : Reg) (t : Nat) : Reg := if r.toNat < 32 then BitVec.ofNat 6 ((r.toNat + t) % 32) else r

/-- A B field that may be a broadcast scalar. -/
def stagB (bc : Bool) (r : Reg) (t : Nat) : Reg := if bc then stagS r t else stagV r t

/-- An instruction of a frame with D, A and B moved by t (R46); none for one that no frame holds. -/
def staggerInstr (t : Nat × Nat × Nat) : Instr → Option Instr
  | .add d a b => some (.add (stagS d t.1) (stagS a t.2.1) (stagS b t.2.2))
  | .sub d a b => some (.sub (stagS d t.1) (stagS a t.2.1) (stagS b t.2.2))
  | .and d a b => some (.and (stagS d t.1) (stagS a t.2.1) (stagS b t.2.2))
  | .or d a b => some (.or (stagS d t.1) (stagS a t.2.1) (stagS b t.2.2))
  | .xor d a b => some (.xor (stagS d t.1) (stagS a t.2.1) (stagS b t.2.2))
  | .andn d a b => some (.andn (stagS d t.1) (stagS a t.2.1) (stagS b t.2.2))
  | .shl d a b => some (.shl (stagS d t.1) (stagS a t.2.1) (stagS b t.2.2))
  | .shr d a b => some (.shr (stagS d t.1) (stagS a t.2.1) (stagS b t.2.2))
  | .sra d a b => some (.sra (stagS d t.1) (stagS a t.2.1) (stagS b t.2.2))
  | .rol d a b => some (.rol (stagS d t.1) (stagS a t.2.1) (stagS b t.2.2))
  | .min d a b => some (.min (stagS d t.1) (stagS a t.2.1) (stagS b t.2.2))
  | .max d a b => some (.max (stagS d t.1) (stagS a t.2.1) (stagS b t.2.2))
  | .minu d a b => some (.minu (stagS d t.1) (stagS a t.2.1) (stagS b t.2.2))
  | .maxu d a b => some (.maxu (stagS d t.1) (stagS a t.2.1) (stagS b t.2.2))
  | .slt d a b => some (.slt (stagS d t.1) (stagS a t.2.1) (stagS b t.2.2))
  | .sltu d a b => some (.sltu (stagS d t.1) (stagS a t.2.1) (stagS b t.2.2))
  | .seq d a b => some (.seq (stagS d t.1) (stagS a t.2.1) (stagS b t.2.2))
  | .mul d a b => some (.mul (stagS d t.1) (stagS a t.2.1) (stagS b t.2.2))
  | .mulh d a b => some (.mulh (stagS d t.1) (stagS a t.2.1) (stagS b t.2.2))
  | .mulhu d a b => some (.mulhu (stagS d t.1) (stagS a t.2.1) (stagS b t.2.2))
  | .div d a b => some (.div (stagS d t.1) (stagS a t.2.1) (stagS b t.2.2))
  | .divu d a b => some (.divu (stagS d t.1) (stagS a t.2.1) (stagS b t.2.2))
  | .rem d a b => some (.rem (stagS d t.1) (stagS a t.2.1) (stagS b t.2.2))
  | .remu d a b => some (.remu (stagS d t.1) (stagS a t.2.1) (stagS b t.2.2))
  | .adds d a b => some (.adds (stagS d t.1) (stagS a t.2.1) (stagS b t.2.2))
  | .subs d a b => some (.subs (stagS d t.1) (stagS a t.2.1) (stagS b t.2.2))
  | .clz d a => some (.clz (stagS d t.1) (stagS a t.2.1))
  | .ctz d a => some (.ctz (stagS d t.1) (stagS a t.2.1))
  | .popc d a => some (.popc (stagS d t.1) (stagS a t.2.1))
  | .bswap d a => some (.bswap (stagS d t.1) (stagS a t.2.1))
  | .addi d a imm => some (.addi (stagS d t.1) (stagS a t.2.1) imm)
  | .andi d a imm => some (.andi (stagS d t.1) (stagS a t.2.1) imm)
  | .ori d a imm => some (.ori (stagS d t.1) (stagS a t.2.1) imm)
  | .xori d a imm => some (.xori (stagS d t.1) (stagS a t.2.1) imm)
  | .slti d a imm => some (.slti (stagS d t.1) (stagS a t.2.1) imm)
  | .sltiu d a imm => some (.sltiu (stagS d t.1) (stagS a t.2.1) imm)
  | .shli d a imm => some (.shli (stagS d t.1) (stagS a t.2.1) imm)
  | .shri d a imm => some (.shri (stagS d t.1) (stagS a t.2.1) imm)
  | .srai d a imm => some (.srai (stagS d t.1) (stagS a t.2.1) imm)
  | .lea d a b sh => some (.lea (stagS d t.1) (stagS a t.2.1) (stagS b t.2.2) sh)
  | .vadd f bc d a b => some (.vadd f bc (stagV d t.1) (stagV a t.2.1) (stagB bc b t.2.2))
  | .vsub f bc d a b => some (.vsub f bc (stagV d t.1) (stagV a t.2.1) (stagB bc b t.2.2))
  | .vmul f bc d a b => some (.vmul f bc (stagV d t.1) (stagV a t.2.1) (stagB bc b t.2.2))
  | .vdiv f bc d a b => some (.vdiv f bc (stagV d t.1) (stagV a t.2.1) (stagB bc b t.2.2))
  | .vmin f bc d a b => some (.vmin f bc (stagV d t.1) (stagV a t.2.1) (stagB bc b t.2.2))
  | .vmax f bc d a b => some (.vmax f bc (stagV d t.1) (stagV a t.2.1) (stagB bc b t.2.2))
  | .vabs f d a => some (.vabs f (stagV d t.1) (stagV a t.2.1))
  | .vneg f d a => some (.vneg f (stagV d t.1) (stagV a t.2.1))
  | .vsqrt f d a => some (.vsqrt f (stagV d t.1) (stagV a t.2.1))
  | .vexp2 f d a => some (.vexp2 f (stagV d t.1) (stagV a t.2.1))
  | .vlog2 f d a => some (.vlog2 f (stagV d t.1) (stagV a t.2.1))
  | .vrcp f d a => some (.vrcp f (stagV d t.1) (stagV a t.2.1))
  | .vrsq f d a => some (.vrsq f (stagV d t.1) (stagV a t.2.1))
  | .vand f bc d a b => some (.vand f bc (stagV d t.1) (stagV a t.2.1) (stagB bc b t.2.2))
  | .vor f bc d a b => some (.vor f bc (stagV d t.1) (stagV a t.2.1) (stagB bc b t.2.2))
  | .vxor f bc d a b => some (.vxor f bc (stagV d t.1) (stagV a t.2.1) (stagB bc b t.2.2))
  | .vshl f bc d a b => some (.vshl f bc (stagV d t.1) (stagV a t.2.1) (stagB bc b t.2.2))
  | .vshr f bc d a b => some (.vshr f bc (stagV d t.1) (stagV a t.2.1) (stagB bc b t.2.2))
  | .vsra f bc d a b => some (.vsra f bc (stagV d t.1) (stagV a t.2.1) (stagB bc b t.2.2))
  | .vceq f bc d a b => some (.vceq f bc d (stagV a t.2.1) (stagB bc b t.2.2))
  | .vclt f bc d a b => some (.vclt f bc d (stagV a t.2.1) (stagB bc b t.2.2))
  | .vcle f bc d a b => some (.vcle f bc d (stagV a t.2.1) (stagB bc b t.2.2))
  | .vcun f bc d a b => some (.vcun f bc d (stagV a t.2.1) (stagB bc b t.2.2))
  | .vreds f d a => some (.vreds f (stagS d t.1) (stagV a t.2.1))
  | .vredx f d a => some (.vredx f (stagS d t.1) (stagV a t.2.1))
  | .vredn f d a => some (.vredn f (stagS d t.1) (stagV a t.2.1))
  | .vscan f d a => some (.vscan f (stagV d t.1) (stagV a t.2.1))
  | .vsort f dn d => some (.vsort f dn (stagV d t.1))
  | .vmrg f dn d a => some (.vmrg f dn (stagV d t.1) (stagV a t.2.1))
  | .vperm f d a b => some (.vperm f (stagV d t.1) (stagV a t.2.1) (stagV b t.2.2))
  | .vbcast f d a => some (.vbcast f (stagV d t.1) (stagS a t.2.1))
  | .vext f d a b => some (.vext f (stagS d t.1) (stagV a t.2.1) (stagS b t.2.2))
  | .vins f d a b => some (.vins f (stagV d t.1) (stagS a t.2.1) (stagS b t.2.2))
  | .viota f d a => some (.viota f (stagV d t.1) (stagS a t.2.1))
  | .vrnd f d a b => some (.vrnd f (stagV d t.1) (stagS a t.2.1) (stagS b t.2.2))
  | .vmov f d a => some (.vmov f (stagV d t.1) (stagV a t.2.1))
  | .vclass f d a => some (.vclass f (stagV d t.1) (stagV a t.2.1))
  | .vdot f bc d a b => some (.vdot f bc (stagV d t.1) (stagV a t.2.1) (stagB bc b t.2.2))
  | .vfma f bcB bcC d a b c => some (.vfma f bcB bcC (stagV d t.1) (stagV a t.2.1) (stagB bcB b t.2.2) c)
  | .vfms f bcB bcC d a b c => some (.vfms f bcB bcC (stagV d t.1) (stagV a t.2.1) (stagB bcB b t.2.2) c)
  | .vfnma f bcB bcC d a b c => some (.vfnma f bcB bcC (stagV d t.1) (stagV a t.2.1) (stagB bcB b t.2.2) c)
  | .vfnms f bcB bcC d a b c => some (.vfnms f bcB bcC (stagV d t.1) (stagV a t.2.1) (stagB bcB b t.2.2) c)
  | .vsel f bcB k d a b => some (.vsel f bcB k (stagV d t.1) (stagV a t.2.1) (stagB bcB b t.2.2))
  | .vcvt src dst part d a => some (.vcvt src dst part (stagV d t.1) (stagV a t.2.1))
  | .vqnt f d a => some (.vqnt f (stagV d t.1) (stagV a t.2.1))
  | .vdq f d a => some (.vdq f (stagV d t.1) (stagV a t.2.1))
  | .vwscTo f d a c => some (.vwscTo f (stagV d t.1) (stagV a t.2.1) c)
  | .vwscFrom f d a => some (.vwscFrom f (stagV d t.1) (stagV a t.2.1))
  | .vshuf f d a b c => some (.vshuf f (stagV d t.1) (stagV a t.2.1) (stagV b t.2.2) c)
  | _ => none

/-- The body of an instruction that a frame may hold. -/
def coreBody : Instr → Option CoreBody
  | .add d a b => some (bodyAdd d a b)
  | .sub d a b => some (bodySub d a b)
  | .and d a b => some (bodyAnd d a b)
  | .or d a b => some (bodyOr d a b)
  | .xor d a b => some (bodyXor d a b)
  | .andn d a b => some (bodyAndn d a b)
  | .shl d a b => some (bodyShl d a b)
  | .shr d a b => some (bodyShr d a b)
  | .sra d a b => some (bodySra d a b)
  | .rol d a b => some (bodyRol d a b)
  | .min d a b => some (bodyMin d a b)
  | .max d a b => some (bodyMax d a b)
  | .minu d a b => some (bodyMinu d a b)
  | .maxu d a b => some (bodyMaxu d a b)
  | .slt d a b => some (bodySlt d a b)
  | .sltu d a b => some (bodySltu d a b)
  | .seq d a b => some (bodySeq d a b)
  | .mul d a b => some (bodyMul d a b)
  | .mulh d a b => some (bodyMulh d a b)
  | .mulhu d a b => some (bodyMulhu d a b)
  | .div d a b => some (bodyDiv d a b)
  | .divu d a b => some (bodyDivu d a b)
  | .rem d a b => some (bodyRem d a b)
  | .remu d a b => some (bodyRemu d a b)
  | .adds d a b => some (bodyAdds d a b)
  | .subs d a b => some (bodySubs d a b)
  | .clz d a => some (bodyClz d a)
  | .ctz d a => some (bodyCtz d a)
  | .popc d a => some (bodyPopc d a)
  | .bswap d a => some (bodyBswap d a)
  | .addi d a imm => some (bodyAddi d a imm)
  | .andi d a imm => some (bodyAndi d a imm)
  | .ori d a imm => some (bodyOri d a imm)
  | .xori d a imm => some (bodyXori d a imm)
  | .slti d a imm => some (bodySlti d a imm)
  | .sltiu d a imm => some (bodySltiu d a imm)
  | .shli d a imm => some (bodyShli d a imm)
  | .shri d a imm => some (bodyShri d a imm)
  | .srai d a imm => some (bodySrai d a imm)
  | .lea d a b sh => some (bodyLea d a b sh)
  | .vadd f bc d a b => some (bodyVadd f bc d a b)
  | .vsub f bc d a b => some (bodyVsub f bc d a b)
  | .vmul f bc d a b => some (bodyVmul f bc d a b)
  | .vdiv f bc d a b => some (bodyVdiv f bc d a b)
  | .vmin f bc d a b => some (bodyVmin f bc d a b)
  | .vmax f bc d a b => some (bodyVmax f bc d a b)
  | .vabs f d a => some (bodyVabs f d a)
  | .vneg f d a => some (bodyVneg f d a)
  | .vsqrt f d a => some (bodyVsqrt f d a)
  | .vexp2 f d a => some (bodyVexp2 f d a)
  | .vlog2 f d a => some (bodyVlog2 f d a)
  | .vrcp f d a => some (bodyVrcp f d a)
  | .vrsq f d a => some (bodyVrsq f d a)
  | .vand f bc d a b => some (bodyVand f bc d a b)
  | .vor f bc d a b => some (bodyVor f bc d a b)
  | .vxor f bc d a b => some (bodyVxor f bc d a b)
  | .vshl f bc d a b => some (bodyVshl f bc d a b)
  | .vshr f bc d a b => some (bodyVshr f bc d a b)
  | .vsra f bc d a b => some (bodyVsra f bc d a b)
  | .vceq f bc d a b => some (bodyVceq f bc d a b)
  | .vclt f bc d a b => some (bodyVclt f bc d a b)
  | .vcle f bc d a b => some (bodyVcle f bc d a b)
  | .vcun f bc d a b => some (bodyVcun f bc d a b)
  | .vreds f d a => some (bodyVreds f d a)
  | .vredx f d a => some (bodyVredx f d a)
  | .vredn f d a => some (bodyVredn f d a)
  | .vscan f d a => some (bodyVscan f d a)
  | .vsort f dn d => some (bodyVsort f dn d)
  | .vmrg f dn d a => some (bodyVmrg f dn d a)
  | .vperm f d a b => some (bodyVperm f d a b)
  | .vbcast f d a => some (bodyVbcast f d a)
  | .vext f d a b => some (bodyVext f d a b)
  | .vins f d a b => some (bodyVins f d a b)
  | .viota f d a => some (bodyViota f d a)
  | .vrnd f d a b => some (bodyVrnd f d a b)
  | .vmov f d a => some (bodyVmov f d a)
  | .vclass f d a => some (bodyVclass f d a)
  | .vdot f bc d a b => some (bodyVdot f bc d a b)
  | .vfma f bcB bcC d a b c => some (bodyVfma f bcB bcC d a b c)
  | .vfms f bcB bcC d a b c => some (bodyVfms f bcB bcC d a b c)
  | .vfnma f bcB bcC d a b c => some (bodyVfnma f bcB bcC d a b c)
  | .vfnms f bcB bcC d a b c => some (bodyVfnms f bcB bcC d a b c)
  | .vsel f bcB k d a b => some (bodyVsel f bcB k d a b)
  | .vcvt src dst part d a => some (bodyVcvt src dst part d a)
  | .vqnt f d a => some (bodyVqnt f d a)
  | .vdq f d a => some (bodyVdq f d a)
  | .vwscTo f d a c => some (bodyVwscTo f d a c)
  | .vwscFrom f d a => some (bodyVwscFrom f d a)
  | .vshuf f d a b c => some (bodyVshuf f d a b c)
  | _ => none

/-- Run one captured instruction on core k's state within an iteration. -/
def Core.runCaptured (c : Core) (k feat : Nat) (sup : Bool) (t : Nat × Nat × Nat) (x : FrameIns) : M Core := do
  let c := { c with pfx := x.pre, ir := x.w0 }
  match x.pre.find? fun w => (decodeP w).isNone with
  | some w => .error (.trap .illop (BitVec.ofNat 64 w.toNat))
  | none =>
    match decodeWords x.w0 x.w1 with
    | .error _ => .error (.trap .illop c.word0)
    | .ok i => match staggerInstr t i with
      | none => .error (.trap .illop c.word0)
      | some i => match coreBody i with
        | none => .error (.trap .illop c.word0)
        | some b => match c.preTrap feat sup i with
          | some (q, v) => .error (.trap q v)
          | none => do
            let c ← c.run1 i k b
            .ok { c with pfx := [] }

/-- Run the captured instructions from position j on; a stop comes with its position. -/
def Core.runFrame (c : Core) (k feat : Nat) (sup : Bool) (t : Nat × Nat × Nat) (j : Nat) : List FrameIns → Except (Nat × Stop) Core
  | [] => .ok c
  | x :: xs => match c.runCaptured k feat sup t x with
    | .error e => .error (j, e)
    | .ok c => c.runFrame k feat sup t (j + 1) xs

/-- The core after a committed iteration: its sends queued apart, RPTSTATE advanced, the frame left after its last iteration (R48, R49). -/
def Core.endIteration (c : Core) (ws : List IWord) : Core :=
  let r := c.sys.rptstate.toNat
  let left := bits r 31 0 - 1
  let r := setBits (setBits r 47 40 ((bits r 47 40 + 1) % 224)) 31 0 left
  let c := { c with stalled := false, sys := { c.sys with rptstate := BitVec.ofNat 64 r } }
  if left = 0 then c.leaveFrame ws else c

/-- RPT_ITERATION (R46 to R49): the next iteration of the current core's frame. -/
def execRptIteration (s : State) : Host.Outcome State Fault Refusal :=
  let k := s.cur
  let c := s.core k
  match c.frame with
  | none => .next s
  | some ws =>
    let r := c.sys.rptstate.toNat
    let m := bits r 47 40
    let t := (m * strideOf (bits r 58 57), m * strideOf (bits r 56 55), m * strideOf (bits r 54 53))
    let trap (j : Nat) (q : Cause) (v : Word) : Host.Outcome State Fault Refusal :=
      .next ((s.setCore k { c with frame := none, sys := { c.sys with rptstate := BitVec.ofNat 64 (setBits r 51 48 j) } }).takeTrap k q v (c.pc + 8))
    let wait : Host.Outcome State Fault Refusal := .next (s.setCore k { c with stalled := true })
    match (s.hand k).runFrame k (s.feat k) (s.isSup k) t 0 (splitFrame [] ws) with
    | .error (j, .trap q v) => trap j q v
    | .error (_, .stall) | .error (_, .wait _) => wait
    | .ok c' =>
      let s' := (s.setCore k { c'.endIteration ws with txq := [] }).pushOut k
      match s'.sendWords k c'.txq s' with
      | .ok s'' => .next s''
      | .error _ => wait

end Sys2Proof.Machine
end

