-- ==== Sys2Proof/Machine/SysReg.lean ====
section
/-!
DEFINITION. SysReg.lean: the system registers of R55 and their instructions SGET and SSET (R97), with the Access codes of R3.
-/
namespace Sys2Proof.Machine

open Sys2Proof

/-- The register of core i that SGET reads (R55); 0 for a number the table does not list. -/
def State.sysReg (s : State) (i num : Nat) : Word :=
  let y := (s.core i).sys
  match num with
  | 0x000 => BitVec.ofNat 64 (coreId i)
  | 0x001 => BitVec.ofNat 64 s.cfg.chip.toNat
  | 0x002 => BitVec.ofNat 64 s.incarn.toNat
  | 0x003 => BitVec.ofNat 64 (s.feat i)
  | 0x004 => 0x0300
  | 0x010 => y.fpctl
  | 0x011 => y.fpstat
  | 0x012 => y.srseed
  | 0x020 => y.ucivec
  | 0x030 => y.epc
  | 0x031 => y.ecause
  | 0x032 => y.eval
  | 0x033 => y.eslot
  | 0x040 => y.launchid
  | 0x041 => y.taskkind
  | 0x042 => y.rangeb
  | 0x043 => y.rangee
  | 0x050 => y.dconf
  | 0x051 => s.readLaunchctl i
  | 0x060 => y.rptstate
  | _ => 0

/-- The bits of x that the mask selects, the others as in old. -/
def merge (old x mask : Word) : Word := (old &&& ~~~mask) ||| (x &&& mask)

/-- FPCTL after a write of x (R73): RM keeps its value where x names 6 or 7, or 5 without FEAT.RAND. -/
def fpctlWrite (feat : Nat) (old x : Word) : Word :=
  let rm := x.toNat % 8
  if decide (rm ≥ 6) || (rm == 5 && !bit feat 9) then merge old x 0x1F00 else merge old x 0x1F07

/-- SSET's write of x to register num of core i, but for LAUNCHCTL (R55, R73, R79, R81, R237, R59, R42, R204, R48). -/
def Sys.set (y : Sys) (feat num : Nat) (x : Word) : Sys :=
  match num with
  | 0x010 => { y with fpctl := fpctlWrite feat y.fpctl x }
  | 0x011 => { y with fpstat := x &&& 0x7F }
  | 0x012 => { y with srseed := x }
  | 0x020 => { y with ucivec := merge y.ucivec x 0x00FFFFFFFFFFFFFD }
  | 0x030 => { y with epc := x }
  | 0x031 => { y with ecause := x &&& 0xFF }
  | 0x032 => { y with eval := x }
  | 0x033 => { y with eslot := x &&& 0x80FFFFFFFFFFFFFC }
  | 0x050 => { y with dconf := x &&& 0xE0FFFFFFFFFFFFC0 }
  | 0x060 => { y with rptstate := x &&& 0xFFEFFF00FFFFFFFF }
  | _ => y

/-- SGET (R97). -/
def execSget (d : Reg) (num : BitVec 12) (s : State) : Host.Outcome State Fault Refusal :=
  runSeq (.sget d num) (fun k s => do
    let c ← (s.core k).putS k d (s.sysReg k num.toNat)
    .ok (s.setCore k c)) s

/-- SSET (R97). A write to LAUNCHCTL carries out its CMD; LRESUME performs a release first (R330). -/
def execSset (a : Reg) (num : BitVec 12) (s : State) : Host.Outcome State Fault Refusal :=
  runSeq (.sset a num) (fun k s => do
    let (x, c) ← (s.core k).readS a
    if num.toNat = 0x051 then
      let s ← if x.toNat % 16 = 1 then s.release k .device else .ok s
      .ok ((s.setCore k c).launchctl k x)
    else .ok (s.setCore k { c with sys := c.sys.set (s.feat k) num.toNat x })) s

end Sys2Proof.Machine
end

