-- ==== Sys2Proof/Machine/Dispatch.lean ====
section
/-!
DEFINITION. Dispatch.lean: one arm for each row of the opcode table.
-/
namespace Sys2Proof.Machine

open Sys2Proof

/-- The meaning of every instruction and event. -/
def exec (i : Instr) (s : State) : Host.Outcome State Fault Refusal :=
  match i with
  | .trap code => Sys2Proof.Machine.execTrap code s
  | .gong a => Sys2Proof.Machine.execGong a s
  | .gongRelease a => Sys2Proof.Machine.execGongRelease a s
  | .add d a b => Sys2Proof.Machine.execAdd d a b s
  | .sub d a b => Sys2Proof.Machine.execSub d a b s
  | .and d a b => Sys2Proof.Machine.execAnd d a b s
  | .or d a b => Sys2Proof.Machine.execOr d a b s
  | .xor d a b => Sys2Proof.Machine.execXor d a b s
  | .andn d a b => Sys2Proof.Machine.execAndn d a b s
  | .shl d a b => Sys2Proof.Machine.execShl d a b s
  | .shr d a b => Sys2Proof.Machine.execShr d a b s
  | .sra d a b => Sys2Proof.Machine.execSra d a b s
  | .rol d a b => Sys2Proof.Machine.execRol d a b s
  | .min d a b => Sys2Proof.Machine.execMin d a b s
  | .max d a b => Sys2Proof.Machine.execMax d a b s
  | .minu d a b => Sys2Proof.Machine.execMinu d a b s
  | .maxu d a b => Sys2Proof.Machine.execMaxu d a b s
  | .slt d a b => Sys2Proof.Machine.execSlt d a b s
  | .sltu d a b => Sys2Proof.Machine.execSltu d a b s
  | .seq d a b => Sys2Proof.Machine.execSeq d a b s
  | .mul d a b => Sys2Proof.Machine.execMul d a b s
  | .mulh d a b => Sys2Proof.Machine.execMulh d a b s
  | .mulhu d a b => Sys2Proof.Machine.execMulhu d a b s
  | .div d a b => Sys2Proof.Machine.execDiv d a b s
  | .divu d a b => Sys2Proof.Machine.execDivu d a b s
  | .rem d a b => Sys2Proof.Machine.execRem d a b s
  | .remu d a b => Sys2Proof.Machine.execRemu d a b s
  | .adds d a b => Sys2Proof.Machine.execAdds d a b s
  | .subs d a b => Sys2Proof.Machine.execSubs d a b s
  | .clz d a => Sys2Proof.Machine.execClz d a s
  | .ctz d a => Sys2Proof.Machine.execCtz d a s
  | .popc d a => Sys2Proof.Machine.execPopc d a s
  | .bswap d a => Sys2Proof.Machine.execBswap d a s
  | .addi d a imm => Sys2Proof.Machine.execAddi d a imm s
  | .andi d a imm => Sys2Proof.Machine.execAndi d a imm s
  | .ori d a imm => Sys2Proof.Machine.execOri d a imm s
  | .xori d a imm => Sys2Proof.Machine.execXori d a imm s
  | .slti d a imm => Sys2Proof.Machine.execSlti d a imm s
  | .sltiu d a imm => Sys2Proof.Machine.execSltiu d a imm s
  | .shli d a imm => Sys2Proof.Machine.execShli d a imm s
  | .shri d a imm => Sys2Proof.Machine.execShri d a imm s
  | .srai d a imm => Sys2Proof.Machine.execSrai d a imm s
  | .li d imm => Sys2Proof.Machine.execLi d imm s
  | .lui d imm => Sys2Proof.Machine.execLui d imm s
  | .ldb d a imm => Sys2Proof.Machine.execLdb d a imm s
  | .ldbu d a imm => Sys2Proof.Machine.execLdbu d a imm s
  | .ldh d a imm => Sys2Proof.Machine.execLdh d a imm s
  | .ldhu d a imm => Sys2Proof.Machine.execLdhu d a imm s
  | .ldw d a imm => Sys2Proof.Machine.execLdw d a imm s
  | .ldwu d a imm => Sys2Proof.Machine.execLdwu d a imm s
  | .ldd d a imm => Sys2Proof.Machine.execLdd d a imm s
  | .stb b a imm => Sys2Proof.Machine.execStb b a imm s
  | .sth b a imm => Sys2Proof.Machine.execSth b a imm s
  | .stw b a imm => Sys2Proof.Machine.execStw b a imm s
  | .std b a imm => Sys2Proof.Machine.execStd b a imm s
  | .beq a b off => Sys2Proof.Machine.execBeq a b off s
  | .bne a b off => Sys2Proof.Machine.execBne a b off s
  | .blt a b off => Sys2Proof.Machine.execBlt a b off s
  | .bge a b off => Sys2Proof.Machine.execBge a b off s
  | .bltu a b off => Sys2Proof.Machine.execBltu a b off s
  | .bgeu a b off => Sys2Proof.Machine.execBgeu a b off s
  | .j off => Sys2Proof.Machine.execJ off s
  | .call off => Sys2Proof.Machine.execCall off s
  | .jr d a => Sys2Proof.Machine.execJr d a s
  | .bk cond k off => Sys2Proof.Machine.execBk cond k off s
  | .lea d a b sh => Sys2Proof.Machine.execLea d a b sh s
  | .fadd dbl d a b => Sys2Proof.Machine.execFadd dbl d a b s
  | .fsub dbl d a b => Sys2Proof.Machine.execFsub dbl d a b s
  | .fmul dbl d a b => Sys2Proof.Machine.execFmul dbl d a b s
  | .fdiv dbl d a b => Sys2Proof.Machine.execFdiv dbl d a b s
  | .fsqrt dbl d a => Sys2Proof.Machine.execFsqrt dbl d a s
  | .fmin dbl d a b => Sys2Proof.Machine.execFmin dbl d a b s
  | .fmax dbl d a b => Sys2Proof.Machine.execFmax dbl d a b s
  | .feq dbl d a b => Sys2Proof.Machine.execFeq dbl d a b s
  | .flt dbl d a b => Sys2Proof.Machine.execFlt dbl d a b s
  | .fle dbl d a b => Sys2Proof.Machine.execFle dbl d a b s
  | .fcvt dst src d a => Sys2Proof.Machine.execFcvt dst src d a s
  | .sget d num => Sys2Proof.Machine.execSget d num s
  | .sset a num => Sys2Proof.Machine.execSset a num s
  | .time d => Sys2Proof.Machine.execTime d s
  | .waitt a => Sys2Proof.Machine.execWaitt a s
  | .carr dev ch => Sys2Proof.Machine.execCarr dev ch s
  | .cwait dev ch => Sys2Proof.Machine.execCwait dev ch s
  | .take nb d => Sys2Proof.Machine.execTake nb d s
  | .nexti d => Sys2Proof.Machine.execNexti d s
  | .waitc loads stores copies tiles => Sys2Proof.Machine.execWaitc loads stores copies tiles s
  | .pend d a => Sys2Proof.Machine.execPend d a s
  | .ppoll d a => Sys2Proof.Machine.execPpoll d a s
  | .kand d a b => Sys2Proof.Machine.execKand d a b s
  | .kor d a b => Sys2Proof.Machine.execKor d a b s
  | .kxor d a b => Sys2Proof.Machine.execKxor d a b s
  | .knot d a => Sys2Proof.Machine.execKnot d a s
  | .kpop d a => Sys2Proof.Machine.execKpop d a s
  | .kfirst d a => Sys2Proof.Machine.execKfirst d a s
  | .kmovs d a => Sys2Proof.Machine.execKmovs d a s
  | .kmovk d a => Sys2Proof.Machine.execKmovk d a s
  | .vadd f bc d a b => Sys2Proof.Machine.execVadd f bc d a b s
  | .vsub f bc d a b => Sys2Proof.Machine.execVsub f bc d a b s
  | .vmul f bc d a b => Sys2Proof.Machine.execVmul f bc d a b s
  | .vdiv f bc d a b => Sys2Proof.Machine.execVdiv f bc d a b s
  | .vmin f bc d a b => Sys2Proof.Machine.execVmin f bc d a b s
  | .vmax f bc d a b => Sys2Proof.Machine.execVmax f bc d a b s
  | .vabs f d a => Sys2Proof.Machine.execVabs f d a s
  | .vneg f d a => Sys2Proof.Machine.execVneg f d a s
  | .vsqrt f d a => Sys2Proof.Machine.execVsqrt f d a s
  | .vexp2 f d a => Sys2Proof.Machine.execVexp2 f d a s
  | .vlog2 f d a => Sys2Proof.Machine.execVlog2 f d a s
  | .vrcp f d a => Sys2Proof.Machine.execVrcp f d a s
  | .vrsq f d a => Sys2Proof.Machine.execVrsq f d a s
  | .vand f bc d a b => Sys2Proof.Machine.execVand f bc d a b s
  | .vor f bc d a b => Sys2Proof.Machine.execVor f bc d a b s
  | .vxor f bc d a b => Sys2Proof.Machine.execVxor f bc d a b s
  | .vshl f bc d a b => Sys2Proof.Machine.execVshl f bc d a b s
  | .vshr f bc d a b => Sys2Proof.Machine.execVshr f bc d a b s
  | .vsra f bc d a b => Sys2Proof.Machine.execVsra f bc d a b s
  | .vceq f bc d a b => Sys2Proof.Machine.execVceq f bc d a b s
  | .vclt f bc d a b => Sys2Proof.Machine.execVclt f bc d a b s
  | .vcle f bc d a b => Sys2Proof.Machine.execVcle f bc d a b s
  | .vcun f bc d a b => Sys2Proof.Machine.execVcun f bc d a b s
  | .vreds f d a => Sys2Proof.Machine.execVreds f d a s
  | .vredx f d a => Sys2Proof.Machine.execVredx f d a s
  | .vredn f d a => Sys2Proof.Machine.execVredn f d a s
  | .vscan f d a => Sys2Proof.Machine.execVscan f d a s
  | .vsort f dn d => Sys2Proof.Machine.execVsort f dn d s
  | .vmrg f dn d a => Sys2Proof.Machine.execVmrg f dn d a s
  | .vperm f d a b => Sys2Proof.Machine.execVperm f d a b s
  | .vbcast f d a => Sys2Proof.Machine.execVbcast f d a s
  | .vext f d a b => Sys2Proof.Machine.execVext f d a b s
  | .vins f d a b => Sys2Proof.Machine.execVins f d a b s
  | .viota f d a => Sys2Proof.Machine.execViota f d a s
  | .vrnd f d a b => Sys2Proof.Machine.execVrnd f d a b s
  | .vmov f d a => Sys2Proof.Machine.execVmov f d a s
  | .vclass f d a => Sys2Proof.Machine.execVclass f d a s
  | .vdot f bc d a b => Sys2Proof.Machine.execVdot f bc d a b s
  | .rnd mode sat => Sys2Proof.Machine.execRnd mode sat s
  | .prd zero inv k => Sys2Proof.Machine.execPrd zero inv k s
  | .ximm imm => Sys2Proof.Machine.execXimm imm s
  | .vfma f bcB bcC d a b c => Sys2Proof.Machine.execVfma f bcB bcC d a b c s
  | .vfms f bcB bcC d a b c => Sys2Proof.Machine.execVfms f bcB bcC d a b c s
  | .vfnma f bcB bcC d a b c => Sys2Proof.Machine.execVfnma f bcB bcC d a b c s
  | .vfnms f bcB bcC d a b c => Sys2Proof.Machine.execVfnms f bcB bcC d a b c s
  | .vsel f bcB k d a b => Sys2Proof.Machine.execVsel f bcB k d a b s
  | .vcvt src dst part d a => Sys2Proof.Machine.execVcvt src dst part d a s
  | .vqnt f d a => Sys2Proof.Machine.execVqnt f d a s
  | .vdq f d a => Sys2Proof.Machine.execVdq f d a s
  | .vwscTo f d a c => Sys2Proof.Machine.execVwscTo f d a c s
  | .vwscFrom f d a => Sys2Proof.Machine.execVwscFrom f d a s
  | .vshuf f d a b c => Sys2Proof.Machine.execVshuf f d a b c s
  | .vld f d m => Sys2Proof.Machine.execVld f d m s
  | .vst f d m => Sys2Proof.Machine.execVst f d m s
  | .vlds f d m => Sys2Proof.Machine.execVlds f d m s
  | .vsts f d m => Sys2Proof.Machine.execVsts f d m s
  | .vgath f d m => Sys2Proof.Machine.execVgath f d m s
  | .vscat f d m => Sys2Proof.Machine.execVscat f d m s
  | .ldx size d m => Sys2Proof.Machine.execLdx size d m s
  | .stx size d m => Sys2Proof.Machine.execStx size d m s
  | .ldi size d m => Sys2Proof.Machine.execLdi size d m s
  | .vldi f d m => Sys2Proof.Machine.execVldi f d m s
  | .lds size acq scope d m => Sys2Proof.Machine.execLds size acq scope d m s
  | .sts size rel scope d m => Sys2Proof.Machine.execSts size rel scope d m s
  | .phase acq rel scope => Sys2Proof.Machine.execPhase acq rel scope s
  | .fence acq rel scope => Sys2Proof.Machine.execFence acq rel scope s
  | .atomSwap size ord scope d m => Sys2Proof.Machine.execAtomSwap size ord scope d m s
  | .atomCas size ord scope d m => Sys2Proof.Machine.execAtomCas size ord scope d m s
  | .atomAdd size ord scope d m => Sys2Proof.Machine.execAtomAdd size ord scope d m s
  | .atomAnd size ord scope d m => Sys2Proof.Machine.execAtomAnd size ord scope d m s
  | .atomOr size ord scope d m => Sys2Proof.Machine.execAtomOr size ord scope d m s
  | .atomXor size ord scope d m => Sys2Proof.Machine.execAtomXor size ord scope d m s
  | .atomMin size ord scope d m => Sys2Proof.Machine.execAtomMin size ord scope d m s
  | .atomMax size ord scope d m => Sys2Proof.Machine.execAtomMax size ord scope d m s
  | .atomMinu size ord scope d m => Sys2Proof.Machine.execAtomMinu size ord scope d m s
  | .atomMaxu size ord scope d m => Sys2Proof.Machine.execAtomMaxu size ord scope d m s
  | .atomFadd dbl ord scope d m => Sys2Proof.Machine.execAtomFadd dbl ord scope d m s
  | .atomFmin dbl ord scope d m => Sys2Proof.Machine.execAtomFmin dbl ord scope d m s
  | .atomFmax dbl ord scope d m => Sys2Proof.Machine.execAtomFmax dbl ord scope d m s
  | .atomWs ord scope d m => Sys2Proof.Machine.execAtomWs ord scope d m s
  | .bankopAddF32 d a b c => Sys2Proof.Machine.execBankopAddF32 d a b c s
  | .bankopAddF64 d a b c => Sys2Proof.Machine.execBankopAddF64 d a b c s
  | .bankopAddI64 d a b c => Sys2Proof.Machine.execBankopAddI64 d a b c s
  | .bankopMinF32 d a b c => Sys2Proof.Machine.execBankopMinF32 d a b c s
  | .bankopMaxF32 d a b c => Sys2Proof.Machine.execBankopMaxF32 d a b c s
  | .bankopMinI64 d a b c => Sys2Proof.Machine.execBankopMinI64 d a b c s
  | .bankopMaxI64 d a b c => Sys2Proof.Machine.execBankopMaxI64 d a b c s
  | .bankopWs d a b c => Sys2Proof.Machine.execBankopWs d a b c s
  | .bari d m => Sys2Proof.Machine.execBari d m s
  | .bara d m => Sys2Proof.Machine.execBara d m s
  | .barw d m => Sys2Proof.Machine.execBarw d m s
  | .barx d m => Sys2Proof.Machine.execBarx d m s
  | .slotacq d m => Sys2Proof.Machine.execSlotacq d m s
  | .slotwait d m => Sys2Proof.Machine.execSlotwait d m s
  | .slotrel d m => Sys2Proof.Machine.execSlotrel d m s
  | .slotrelFull d m => Sys2Proof.Machine.execSlotrelFull d m s
  | .sbind out d a b => Sys2Proof.Machine.execSbind out d a b s
  | .sdrain d => Sys2Proof.Machine.execSdrain d s
  | .pbind d a => Sys2Proof.Machine.execPbind d a s
  | .tlwait tl a imm => Sys2Proof.Machine.execTlwait tl a imm s
  | .tlget tl a imm => Sys2Proof.Machine.execTlget tl a imm s
  | .tlset tl a imm => Sys2Proof.Machine.execTlset tl a imm s
  | .cmaskC a ch => Sys2Proof.Machine.execCmaskC a ch s
  | .cmaskD a ch => Sys2Proof.Machine.execCmaskD a ch s
  | .cmaskDc a b ch => Sys2Proof.Machine.execCmaskDc a b ch s
  | .cpy p => Sys2Proof.Machine.execCpy p s
  | .credAddF32 p => Sys2Proof.Machine.execCredAddF32 p s
  | .credAddF64 p => Sys2Proof.Machine.execCredAddF64 p s
  | .credAddI32 p => Sys2Proof.Machine.execCredAddI32 p s
  | .credMinF32 p => Sys2Proof.Machine.execCredMinF32 p s
  | .credMaxF32 p => Sys2Proof.Machine.execCredMaxF32 p s
  | .credMinI32 p => Sys2Proof.Machine.execCredMinI32 p s
  | .credMaxI32 p => Sys2Proof.Machine.execCredMaxI32 p s
  | .credWs p => Sys2Proof.Machine.execCredWs p s
  | .cflag p b => Sys2Proof.Machine.execCflag p b s
  | .cflagAdd p b => Sys2Proof.Machine.execCflagAdd p b s
  | .chase p => Sys2Proof.Machine.execChase p s
  | .repart p => Sys2Proof.Machine.execRepart p s
  | .mxq d a => Sys2Proof.Machine.execMxq d a s
  | .mxz d a imm => Sys2Proof.Machine.execMxz d a imm s
  | .mxzFree d => Sys2Proof.Machine.execMxzFree d s
  | .mxrd free d a b => Sys2Proof.Machine.execMxrd free d a b s
  | .mxwr d a b => Sys2Proof.Machine.execMxwr d a b s
  | .rcfg d a b c => Sys2Proof.Machine.execRcfg d a b c s
  | .rtab d a b c => Sys2Proof.Machine.execRtab d a b c s
  | .rstep creg n d a b => Sys2Proof.Machine.execRstep creg n d a b s
  | .rgen d a => Sys2Proof.Machine.execRgen d a s
  | .launch d a => Sys2Proof.Machine.execLaunch d a s
  | .qpush d a b => Sys2Proof.Machine.execQpush d a b s
  | .lvget tsrc slot d b => Sys2Proof.Machine.execLvget tsrc slot d b s
  | .lvset d a b c => Sys2Proof.Machine.execLvset d a b c s
  | .lvsetReseat d a b c => Sys2Proof.Machine.execLvsetReseat d a b c s
  | .rpt csrc a count bstr astr dstr n1 => Sys2Proof.Machine.execRpt csrc a count bstr astr dstr n1 s
  | .liw d imm => Sys2Proof.Machine.execLiw d imm s
  | .lihi d imm => Sys2Proof.Machine.execLihi d imm s
  | .sel d a b c => Sys2Proof.Machine.execSel d a b c s
  | .madd d a b c => Sys2Proof.Machine.execMadd d a b c s
  | .tlbiVa scope a => Sys2Proof.Machine.execTlbiVa scope a s
  | .tlbiAll scope => Sys2Proof.Machine.execTlbiAll scope s
  | .sresume d a => Sys2Proof.Machine.execSresume d a s
  | .sresumeAbandon d a => Sys2Proof.Machine.execSresumeAbandon d a s
  | .sresumeGet d a b => Sys2Proof.Machine.execSresumeGet d a b s
  | .sresumePut d a b c => Sys2Proof.Machine.execSresumePut d a b c s
  | .nop => Sys2Proof.Machine.execNop s
  | .endTask => Sys2Proof.Machine.execEndTask s
  | .yield => Sys2Proof.Machine.execYield s
  | .uiret => Sys2Proof.Machine.execUiret s
  | .eret => Sys2Proof.Machine.execEret s
  | .park => Sys2Proof.Machine.execPark s
  | .homeRetryGrant => Sys2Proof.Machine.execHomeRetryGrant s
  | .streamPrefetch => Sys2Proof.Machine.execStreamPrefetch s
  | .streamWriteOut => Sys2Proof.Machine.execStreamWriteOut s
  | .portWordDelivery => Sys2Proof.Machine.execPortWordDelivery s
  | .commandReleaseStart => Sys2Proof.Machine.execCommandReleaseStart s
  | .copyNotbeforeStart => Sys2Proof.Machine.execCopyNotbeforeStart s
  | .credRankContribution => Sys2Proof.Machine.execCredRankContribution s
  | .copyCommandComplete => Sys2Proof.Machine.execCopyCommandComplete s
  | .chaseStep => Sys2Proof.Machine.execChaseStep s
  | .chaseResult => Sys2Proof.Machine.execChaseResult s
  | .repartCollective => Sys2Proof.Machine.execRepartCollective s
  | .repartComplete => Sys2Proof.Machine.execRepartComplete s
  | .matrixBindGrant => Sys2Proof.Machine.execMatrixBindGrant s
  | .matrixOperationStart => Sys2Proof.Machine.execMatrixOperationStart s
  | .matrixRowGroup => Sys2Proof.Machine.execMatrixRowGroup s
  | .matrixResume => Sys2Proof.Machine.execMatrixResume s
  | .matrixComplete => Sys2Proof.Machine.execMatrixComplete s
  | .ruleHalfStep => Sys2Proof.Machine.execRuleHalfStep s
  | .ruleResume => Sys2Proof.Machine.execRuleResume s
  | .ruleAbandon => Sys2Proof.Machine.execRuleAbandon s
  | .ruleCommandComplete => Sys2Proof.Machine.execRuleCommandComplete s
  | .rptIteration => Sys2Proof.Machine.execRptIteration s
  | .lresume => Sys2Proof.Machine.execLresume s
  | .launchAbandon => Sys2Proof.Machine.execLaunchAbandon s
  | .launchctlBadcmd => Sys2Proof.Machine.execLaunchctlBadcmd s
  | .loadReturn => Sys2Proof.Machine.execLoadReturn s
  | .storePerformed => Sys2Proof.Machine.execStorePerformed s
  | .pageTableWalk => Sys2Proof.Machine.execPageTableWalk s
  | .dconfReport => Sys2Proof.Machine.execDconfReport s
  | .userInterruptEntry => Sys2Proof.Machine.execUserInterruptEntry s
  | .faultMessagePost => Sys2Proof.Machine.execFaultMessagePost s
  | .contextSave => Sys2Proof.Machine.execContextSave s
  | .contextRestore => Sys2Proof.Machine.execContextRestore s
  | .launchArrival => Sys2Proof.Machine.execLaunchArrival s
  | .predicateRead => Sys2Proof.Machine.execPredicateRead s
  | .causalValidation => Sys2Proof.Machine.execCausalValidation s
  | .teamAdmission => Sys2Proof.Machine.execTeamAdmission s
  | .taskStart => Sys2Proof.Machine.execTaskStart s
  | .stealRequest => Sys2Proof.Machine.execStealRequest s
  | .causalDispatch => Sys2Proof.Machine.execCausalDispatch s
  | .homeEligibilityTimeout => Sys2Proof.Machine.execHomeEligibilityTimeout s
  | .launchCompletion => Sys2Proof.Machine.execLaunchCompletion s
  | .allocationRelease => Sys2Proof.Machine.execAllocationRelease s
  | .migrationHold => Sys2Proof.Machine.execMigrationHold s
  | .migrationRelease => Sys2Proof.Machine.execMigrationRelease s
  | .fabricCellArrival => Sys2Proof.Machine.execFabricCellArrival s
  | .fabricSlot => Sys2Proof.Machine.execFabricSlot s
  | .incarnAnnouncement => Sys2Proof.Machine.execIncarnAnnouncement s
  | .linkCrcRetry => Sys2Proof.Machine.execLinkCrcRetry s
  | .linkRetrain => Sys2Proof.Machine.execLinkRetrain s
  | .timeCounterTick => Sys2Proof.Machine.execTimeCounterTick s
  | .ptpSync => Sys2Proof.Machine.execPtpSync s
  | .syncTimeout => Sys2Proof.Machine.execSyncTimeout s
  | .referencePulse => Sys2Proof.Machine.execReferencePulse s
  | .correctedError => Sys2Proof.Machine.execCorrectedError s
  | .uncorrectableError => Sys2Proof.Machine.execUncorrectableError s
  | .voltageDroop => Sys2Proof.Machine.execVoltageDroop s
  | .lifetimeRecordFlush => Sys2Proof.Machine.execLifetimeRecordFlush s
  | .thermalInterval => Sys2Proof.Machine.execThermalInterval s
  | .moduleReset => Sys2Proof.Machine.execModuleReset s
  | .functionLevelReset => Sys2Proof.Machine.execFunctionLevelReset s
  | .link1Reset => Sys2Proof.Machine.execLink1Reset s
  | .overTemperature => Sys2Proof.Machine.execOverTemperature s
  | .hostQueueTailWrite => Sys2Proof.Machine.execHostQueueTailWrite s
  | .hostQueueControlWrite => Sys2Proof.Machine.execHostQueueControlWrite s
  | .registerWrite => Sys2Proof.Machine.execRegisterWrite s
  | .hostBar2Access => Sys2Proof.Machine.execHostBar2Access s
  | .wrpcb => Sys2Proof.Machine.execWrpcb s
  | .peeract => Sys2Proof.Machine.execPeeract s
  | .rdlife => Sys2Proof.Machine.execRdlife s
  | .wrflow => Sys2Proof.Machine.execWrflow s
  | .mgmtBadcmd => Sys2Proof.Machine.execMgmtBadcmd s
  | .getVersion => Sys2Proof.Machine.execGetVersion s
  | .getCapabilities => Sys2Proof.Machine.execGetCapabilities s
  | .negotiateAlgorithms => Sys2Proof.Machine.execNegotiateAlgorithms s
  | .getDigests => Sys2Proof.Machine.execGetDigests s
  | .getCertificate => Sys2Proof.Machine.execGetCertificate s
  | .challenge => Sys2Proof.Machine.execChallenge s
  | .getMeasurements => Sys2Proof.Machine.execGetMeasurements s
  | .pldmMonitoring => Sys2Proof.Machine.execPldmMonitoring s
  | .mctpRdlife => Sys2Proof.Machine.execMctpRdlife s
  | .rdtime => Sys2Proof.Machine.execRdtime s
  | .wrcfg => Sys2Proof.Machine.execWrcfg s
  | .unassignedEncoding => Sys2Proof.Machine.execUnassignedEncoding s
  | .partitionReady => Sys2Proof.Machine.execPartitionReady s
  | .powerLoss => Sys2Proof.Machine.execPowerLoss s
  | .coolantAlarm => Sys2Proof.Machine.execCoolantAlarm s

end Sys2Proof.Machine
end

