-- ==== Sys2Proof/Machine/Auto.lean ====
section
/-!
DEFINITION. Auto.lean: the internal event that happens at a background step (log entry 1).
-/
namespace Sys2Proof.Machine

open Sys2Proof

/-- The events of the memory system, ports and streams that stand for what core i has outstanding. -/
def State.coreEvents (s : State) (i : Nat) : List (Instr × Args) :=
  let c := s.core i
  (if (s.sbOf i).isEmpty then [] else [(.storePerformed, { core := i, n := 0 })])
    ++ (if c.loads = 0 then [] else [(.loadReturn, { core := i })])
    ++ (c.hview.map fun l => (.loadReturn, { core := i, q := true, addr := l.la, n := 5 }))
    ++ c.strm.flatMap (fun q => if q.2.output then [(.streamWriteOut, { core := i, n := q.1 })] else [(.streamPrefetch, { core := i, n := q.1 })])

/-- The steps that a posted command may take next. -/
def Cmd.events (c : Cmd) : List (Instr × Args) :=
  let e (i : Instr) : Instr × Args := (i, { id := c.id })
  (if c.release && c.phase == .posted then [e .commandReleaseStart] else []) ++ match c.kind with
  | .cpy | .cred _ | .cflag _ => [e .copyNotbeforeStart, e .credRankContribution, e .copyCommandComplete]
  | .chase => [e .chaseStep, e .chaseResult]
  | .repart => [e .repartCollective, e .repartComplete]
  | .mxq => [e .matrixOperationStart, e .matrixComplete, e .matrixResume] ++ (List.range c.members.length).map fun k => (.matrixRowGroup, { id := c.id, n := k })
  | .mxz .. => [e .matrixBindGrant, e .matrixOperationStart, e .matrixComplete]
  | .mxrd .. | .mxwr .. => [e .matrixOperationStart, e .matrixComplete]
  | .rcfg | .rtab | .rstep => [e .ruleCommandComplete, e .ruleHalfStep, e .ruleResume, e .ruleAbandon]

/-- The scheduler's steps for a launch. -/
def State.launchEvents (s : State) (l : Launch) : List (Instr × Args) :=
  let e (i : Instr) : Instr × Args := (i, { part := l.part, lid := l.id })
  let teams := List.range l.nteams
  let here := (s.holders l).map (·.1)
  (match l.st with
    | .arrived => [(.launchArrival, { part := l.part, lid := l.id, q := true })]
    | .waiting => [e .predicateRead]
    | .validating => [e .causalValidation]
    | .ready => [])
    ++ [e .launchCompletion]
    ++ teams.map (fun t => (.teamAdmission, { part := l.part, lid := l.id, team := t }))
    ++ here.flatMap (fun i => [(.contextSave, { core := i }), (.contextRestore, { core := i, lid := l.id }), (.taskStart, { core := i, lid := l.id }),
        (.causalDispatch, { core := i, lid := l.id }), (.stealRequest, { core := i, lid := l.id })])
    ++ teams.map (fun t => (.allocationRelease, { part := l.part, lid := l.id, team := t }))
    ++ (List.range l.patches.length).map (fun k => (.homeEligibilityTimeout, { part := l.part, lid := l.id, n := k }))

/-- A partition's fault path, host ring and command area. -/
def State.partEvents (s : State) (p : Nat) : List (Instr × Args) :=
  (List.range (s.prt p).outbox.length).map (fun k => (.faultMessagePost, { part := p, n := k }))
    ++ ([.launchArrival, .wrpcb, .peeract, .rdlife, .wrflow, .mgmtBadcmd].map fun (i : Instr) => (i, ({ part := p } : Args)))

/-- Every internal event that may be enabled. -/
def State.candidates (s : State) : List (Instr × Args) :=
  (if s.conflicts.isEmpty then [] else [(.dconfReport, ({} : Args))])
    ++ s.knownCores.flatMap s.coreEvents
    ++ s.tickets.map (fun t => (.homeRetryGrant, { core := t.core }))
    ++ (List.range s.wires.length).map (fun k => (.portWordDelivery, { n := k }))
    ++ s.cmds.flatMap Cmd.events
    ++ (List.range s.chains.length).map (fun k => (.chaseStep, { q := true, n := k }))
    ++ (List.range s.cfg.nparts).flatMap s.partEvents
    ++ s.launches.flatMap s.launchEvents
    ++ (if s.cells.isEmpty then [] else (List.range 18).map fun p => (.fabricSlot, { n := p }))

/-- An event changes the state. -/
def State.enabled (s : State) (e : Instr × Args) : Bool :=
  match exec e.1 { s with arg := e.2 } with
  | .next t => t != { s with arg := e.2 }
  | _ => false

/-- The first internal event that is enabled, from a place in their order that moves on with time. -/
def State.autoEvent (s : State) : Option (Instr × Args) :=
  let l := s.candidates
  let k := s.time.toNat % (l.length + 1)
  (l.drop k ++ l.take k).find? s.enabled

end Sys2Proof.Machine
end

