-- ==== Sys2Proof/Machine/Turn.lean ====
section
/-!
DEFINITION. Turn.lean: what a step runs: a core's turn, an act of the agenda, a background step (log entry 1); and where an instruction is put so
that the next step fetches it.
-/
namespace Sys2Proof.Machine

open Sys2Proof

/-- Core k runs: it enters a user interrupt that is ready (R238), or one iteration of its frame (R46), or the instruction at its program counter. -/
def State.runCore (s : State) (k : Nat) : Host.Outcome State Fault Refusal :=
  let s := { s with cur := k }
  if s.uciReady k then exec .userInterruptEntry { s with arg := { core := k } }
  else if (s.core k).frame.isSome then exec .rptIteration s
  else match s.fetch k (s.core k).pc with
    | .error (c, v) => .next (s.takeTrap k c v ((s.core k).pc + 4))
    | .ok (w0, i, t) => exec i (t.modCore k fun c => { c with ir := w0 })

/-- One act of the agenda: an instruction of a runnable core, or an event row. Anything else changes nothing. -/
def State.act (s : State) (a : Act) : Host.Outcome State Fault Refusal :=
  match a with
  | .run k => if s.runnable k then s.runCore k else .next s
  | .event i x => if i.coded || i == .unassignedEncoding || i == .rptIteration then .next s else exec i { s with arg := x }

/-- A background step: time passes, the turn goes on, and the first internal event that is enabled happens. -/
def State.background (s : State) : Host.Outcome State Fault Refusal :=
  let s := s.rotate
  match s.autoEvent with
  | some (i, x) => exec i { s with arg := x }
  | none => .next s

/-- The physical page that withFetchWord maps for a partition's code: in the partition's own first DRAM set. -/
def codePage (s : State) (p : Nat) : Nat := p * 8 / s.cfg.nparts * 2 ^ 33 + 2 ^ 20

/-- Map the page of va for instruction fetch on core k, when it is not mapped: an entry of the page table, the region's size hint, and no
stale translation. -/
def State.mapFetch (s : State) (k : Nat) (va : Nat) : State :=
  match s.fetchPa k va with
  | .ok _ => s
  | .error _ =>
    let p := s.partOf k
    let x := s.prt p
    let vpn := bits va 55 16
    let r := bits va 55 52
    let h0 := if r < 12 then setBit x.hint0 (5 * r) true else x.hint0
    let h1 := if r < 12 then x.hint1 else setBit x.hint1 (5 * (r - 12)) true
    let nb := 2 ^ x.ptlog2
    let h := bucketHash nb 64 (vpn * 8) 0
    -- the first free entry of the four buckets (R345), else the first
    let slots := (List.range 4).flatMap fun q => (List.range 8).map fun e => x.ptbase + (h + q) % nb * 128 + 16 * e
    let pt := (slots.find? fun a => !bit (s.rd a 8) 0).getD (x.ptbase + h * 128)
    let pfn := codePage s p / 2 ^ 16 + vpn % 16
    let s := s.setPart p { x with hint0 := h0, hint1 := h1 }
    let s := (s.wr pt 8 (pfn * 2 ^ 24 + p * 2 ^ 15 + 0x1F)).wr (pt + 8) 8 (vpn * 2 ^ 24)
    let s := { s with mpoison := s.mpoison.filter fun u => decide (u ≠ unitOf (codePage s p + vpn % 16 * 2 ^ 16 + va % 2 ^ 16)) }
    (s.modCore k fun c => { c with itlb := [] }).setCluster (clusterOf k) { s.cluster (clusterOf k) with l2tlb := [] }

/-- The core that withFetchWord makes fetch: the current one where it runs and its program counter can be fetched from, else the supervisor
core of its partition. -/
def State.fetchCore (s : State) : Nat :=
  if s.runnable s.cur && (match s.fetchPa s.cur (s.core s.cur).pc.toNat with | .ok _ => true | .error _ => false) then s.cur else s.supOf (s.partOf s.cur)

end Sys2Proof.Machine
end

