-- ==== Sys2Proof/Machine/Step.lean ====
section
/-!
DEFINITION. Step.lean: one step of the module: the next act of the agenda; with an empty agenda, an instruction of the core whose
turn it is, or a background step (log entry 1). And how an instruction is put where the next step fetches it.
-/
namespace Sys2Proof.Machine

open Sys2Proof

/-- One step. Without power only a module reset on the agenda happens (R374, R403). -/
def step (s : State) : Host.Outcome State Fault Refusal :=
  match s.agenda with
  | a :: t =>
    if s.powered || (match a with | .event .moduleReset _ => true | _ => false) then { s with agenda := t }.act a else .fault .powerOff
  | [] =>
    if !s.powered then .fault .powerOff
    else if s.runnable s.cur && !(s.core s.cur).stalled && decide (s.budget > 0) then { s with budget := s.budget - 1 }.runCore s.cur
    else s.background

/-- s with the instruction placed where the next step fetches: its bytes stand at the program counter of the core whose turn it is (its page
mapped first where it is not), nothing stands before it on the agenda, and no unit, slot, frame, interrupt, access or wait is unfinished there. -/
def State.withFetchWord (s : State) (nbits w : Nat) : State :=
  let s := { s with agenda := [], budget := quantum0, powered := true }
  let clear (c : Core) : Core := { c with pfx := [], slot := none, frame := none, stalled := false, preempt := false, late := [], defer := false, rmw := none }
  let s := s.modCore s.cur clear
  let k := s.fetchCore
  let s := { s with cur := k }
  let s := s.modCore k fun c =>
    let pc := c.pc.toNat / 4 * 4
    let c := clear c
    { c with bank := { c.bank with uci := [] }, begun := none, pc := if pc + 8 > 2 ^ 56 || (windowOf pc).isSome || (windowOf (pc + 4)).isSome then 0 else BitVec.ofNat 64 pc }
  let va := (s.core k).pc.toNat
  let x := w % 2 ^ nbits
  let s := (s.mapFetch k va).mapFetch k (va + 4)
  let put (s : State) (va x : Nat) : State :=
    match s.fetchPa k va with
    | .ok (a, _) => { s with mem := putBytes s.mem (at_ a 4 x) }
    | .error _ => s
  put (put s va (x % 2 ^ 32)) (va + 4) (x / 2 ^ 32 % 2 ^ 32)

end Sys2Proof.Machine
end

