-- ==== Sys2Proof/Safety.lean ====
section
/-!
DEFINITION. Safety.lean: the terms that claims use: the canonical form of memory, what an instruction of the current core needs before its body
runs, and the state an instruction leaves when it has changed its own core alone.
-/
namespace Sys2Proof.Machine

open Sys2Proof

/-- The canonical form of memory: addresses strictly rising, no byte listed that an unlisted address reads as. -/
def Memory.wf (m : SMap Byte) : Bool := SMap.wf memDefault m

/-- The memory of a state has its canonical form. -/
def State.MemOk (s : State) : Prop := Memory.wf s.mem = true

/-- The core whose turn it is, as its instruction begins. -/
def State.me (s : State) : Core := s.hand s.cur

/-- The state as the body of the current core's instruction finds it. -/
def State.start (s : State) : State := s.setCore s.cur s.me

/-- Nothing of R30 items 2 to 5 stops the current core's instruction: it is a legal form, FEAT has what it needs, the core may run it, it
is no forbidden slot instruction, and it accepts the modifier words before it. -/
def State.Legal (s : State) (i : Instr) : Prop := (s.core s.cur).preTrap (s.feat s.cur) (s.isSup s.cur) i = none

/-- The current core's instruction i is over and leaves that core as c, but for the program counter: nothing else in the module changes. -/
def State.done (s : State) (i : Instr) (c : Core) : State := s.setCore s.cur (({ c with txq := [] } : Core).advance i.len)

/-- The same after an instruction that has changed the state to t. -/
def State.doneIn (s t : State) (i : Instr) : State := t.modCore s.cur fun c => ({ c with txq := [] } : Core).advance i.len

/-- The current core's instruction i is over and leaves that core as c; what it pushed to output streams has joined the core's stores (R231). -/
def State.doneOut (s : State) (i : Instr) (c : Core) : State := s.doneIn ((s.setCore s.cur c).pushOut s.cur) i

/-- The current core waits: the rest of the state is as it was (R8). -/
def State.waits (s : State) : State := s.modCore s.cur fun c => { c with stalled := true }

/-- The current core's instruction i traps (R7). -/
def State.traps (s : State) (i : Instr) (c : Cause) (v : Word) : State := s.takeTrap s.cur c v ((s.core s.cur).nextPc i)

/-- No flag of fl is enabled to trap (R80). -/
def Core.Quiet (c : Core) (fl : FFlags) : Prop := (fl.toNat % 32) &&& bits c.sys.fpctl.toNat 12 8 = 0

/-- The core with the flags raised in FPSTAT, and SRSEED's counter advanced where the instruction draws (R75, R79). -/
def Core.flagged (c : Core) (i : Instr) (fl : FFlags) : Core :=
  { c with sys := { c.sys with
      fpstat := c.sys.fpstat ||| BitVec.ofNat 64 fl.toNat
      srseed := if readsMode i && c.env.rm == .sr then BitVec.ofNat 64 (setBits c.sys.srseed.toNat 31 0 (bits c.sys.srseed.toNat 31 0 + 1)) else c.sys.srseed } }

/-- Cores other than the current one, and everything of the module that is not a core, are the same in both states. -/
def State.SameElse (s t : State) : Prop := (∀ j, j ≠ s.cur → t.core j = s.core j) ∧ t = { s with cores := t.cores }

end Sys2Proof.Machine
end

