-- ==== Sys2Proof/Certificates/Slice0/Obligations.lean ====
section
/-!
DEFINITION. Certificates/Slice0/Obligations.lean: the statements. Tables in Sys2Proof.Claims give, beside each constructor, what the spec's entry
computes, written from the entry and not from the meaning.
-/
namespace Sys2Proof.Claims

open Sys2Proof Sys2Proof.Machine

/-! ### Tables of the scalar entries -/

/-- R89: s[D] from a = s[A] and b = s[B], the bitwise and shifting entries. -/
def arithmeticTable : List ((Reg → Reg → Reg → Instr) × (Word → Word → Word)) :=
  [(.add, fun a b => BitVec.ofNat 64 (a.toNat + b.toNat)),
   (.sub, fun a b => BitVec.ofInt 64 (a.toNat - b.toNat)),
   (.and, fun a b => a &&& b),
   (.or, fun a b => a ||| b),
   (.xor, fun a b => a ^^^ b),
   (.andn, fun a b => a &&& ~~~b),
   (.shl, fun a b => BitVec.ofNat 64 (a.toNat * 2 ^ (b.toNat % 64))),
   (.shr, fun a b => BitVec.ofNat 64 (a.toNat / 2 ^ (b.toNat % 64))),
   (.sra, fun a b => BitVec.ofInt 64 (a.toInt / 2 ^ (b.toNat % 64))),
   (.rol, fun a b => a.rotateLeft (b.toNat % 64))]

/-- R89: the orders. -/
def orderTable : List ((Reg → Reg → Reg → Instr) × (Word → Word → Word)) :=
  [(.min, fun a b => BitVec.ofInt 64 (Min.min a.toInt b.toInt)),
   (.max, fun a b => BitVec.ofInt 64 (Max.max a.toInt b.toInt)),
   (.minu, fun a b => BitVec.ofNat 64 (Min.min a.toNat b.toNat)),
   (.maxu, fun a b => BitVec.ofNat 64 (Max.max a.toNat b.toNat)),
   (.slt, fun a b => if a.toInt < b.toInt then 1 else 0),
   (.sltu, fun a b => if a.toNat < b.toNat then 1 else 0),
   (.seq, fun a b => if a = b then 1 else 0)]

/-- R90, and the saturating sums. -/
def productTable : List ((Reg → Reg → Reg → Instr) × (Word → Word → Word)) :=
  [(.mul, fun a b => BitVec.ofNat 64 (a.toNat * b.toNat)),
   (.mulh, fun a b => BitVec.ofInt 64 (a.toInt * b.toInt / 2 ^ 64)),
   (.mulhu, fun a b => BitVec.ofNat 64 (a.toNat * b.toNat / 2 ^ 64)),
   (.div, fun a b => if b = 0 then BitVec.ofInt 64 (-1) else BitVec.ofInt 64 (a.toInt.tdiv b.toInt)),
   (.divu, fun a b => if b = 0 then BitVec.ofNat 64 (2 ^ 64 - 1) else BitVec.ofNat 64 (a.toNat / b.toNat)),
   (.rem, fun a b => if b = 0 then a else BitVec.ofInt 64 (a.toInt.tmod b.toInt)),
   (.remu, fun a b => if b = 0 then a else BitVec.ofNat 64 (a.toNat % b.toNat)),
   (.adds, fun a b => BitVec.ofInt 64 (Max.max (-(2 ^ 63)) (Min.min (2 ^ 63 - 1) (a.toInt + b.toInt)))),
   (.subs, fun a b => BitVec.ofInt 64 (Max.max (-(2 ^ 63)) (Min.min (2 ^ 63 - 1) (a.toInt - b.toInt))))]

/-- R89 and R90: s[D] from a = s[A] and b = s[B]. -/
def binaryTable : List ((Reg → Reg → Reg → Instr) × (Word → Word → Word)) := arithmeticTable ++ orderTable ++ productTable

/-- The leading zero bits of x counted from bit n - 1 down. -/
def leading (x : Nat) : Nat → Nat
  | 0 => 0
  | n + 1 => if x.testBit n then 0 else 1 + leading x n

/-- The trailing zero bits of x counted from bit i up, at most n of them. -/
def trailing (x : Nat) : Nat → Nat → Nat
  | _, 0 => 0
  | i, n + 1 => if x.testBit i then 0 else 1 + trailing x (i + 1) n

/-- R91. -/
def unaryTable : List ((Reg → Reg → Instr) × (Word → Word)) :=
  [(.clz, fun a => BitVec.ofNat 64 (leading a.toNat 64)),
   (.ctz, fun a => BitVec.ofNat 64 (trailing a.toNat 0 64)),
   (.popc, fun a => BitVec.ofNat 64 ((List.range 64).countP fun i => a.toNat.testBit i)),
   (.bswap, fun a => a.extractLsb' 0 8 ++ a.extractLsb' 8 8 ++ a.extractLsb' 16 8 ++ a.extractLsb' 24 8 ++ a.extractLsb' 32 8 ++ a.extractLsb' 40 8
      ++ a.extractLsb' 48 8 ++ a.extractLsb' 56 8)]

/-- R92: s[D] from a = s[A] and the immediate m. -/
def immTable : List ((Reg → Reg → BitVec 12 → Instr) × (Word → Int → Word)) :=
  [(.addi, fun a m => BitVec.ofInt 64 (a.toInt + m)),
   (.andi, fun a m => a &&& BitVec.ofInt 64 m),
   (.ori, fun a m => a ||| BitVec.ofInt 64 m),
   (.xori, fun a m => a ^^^ BitVec.ofInt 64 m),
   (.slti, fun a m => if a.toInt < m then 1 else 0),
   (.sltiu, fun a m => if a.toNat < (BitVec.ofInt 64 m).toNat then 1 else 0),
   (.shli, fun a m => BitVec.ofNat 64 (a.toNat * 2 ^ m.toNat)),
   (.shri, fun a m => BitVec.ofNat 64 (a.toNat / 2 ^ m.toNat)),
   (.srai, fun a m => BitVec.ofInt 64 (a.toInt / 2 ^ m.toNat))]

/-- The immediate of an SI form (R37, R92): with an XIMM word before it, 38 bits. -/
def imm12 (c : Core) (imm : BitVec 12) : Int := match c.mods.ximm with | some x => (x ++ imm : BitVec 38).toInt | none => imm.toInt

/-- The immediate of an SL form (R37, R93). -/
def imm18 (c : Core) (imm : BitVec 18) : Int := match c.mods.ximm with | some x => (x ++ imm : BitVec 44).toInt | none => imm.toInt

/-- R95: a result and the flags it raises, from two encodings. -/
def fpsTable : List ((Bool → Reg → Reg → Reg → Instr) × (FInfo → Env → Nat → Nat → Nat × FFlags)) :=
  [(.fadd, fun i e x y => i.add e.rm e.sat (e.g 0) (i.decode x) (i.decode y)),
   (.fsub, fun i e x y => i.add e.rm e.sat (e.g 0) (i.decode x) (i.decode y).neg),
   (.fmul, fun i e x y => i.mul e.rm e.sat (e.g 0) (i.decode x) (i.decode y)),
   (.fdiv, fun i e x y => i.div e.rm e.sat (e.g 0) (i.decode x) (i.decode y)),
   (.fmin, fun i _ x y => (i.minmax false x y, 0)),
   (.fmax, fun i _ x y => (i.minmax true x y, 0)),
   (.feq, fun i _ x y => (if FVal.eqNum (i.decode x) (i.decode y) then 1 else 0, 0)),
   (.flt, fun i _ x y => (if FVal.ltNum (i.decode x) (i.decode y) then 1 else 0, 0)),
   (.fle, fun i _ x y => (if FVal.ltNum (i.decode x) (i.decode y) || FVal.eqNum (i.decode x) (i.decode y) then 1 else 0, 0))]

/-- FP64 where F[5] is set, else FP32 (R95). -/
def fps (dbl : Bool) : FInfo := if dbl then fi64 else fi32

/-- R102: k[D] from k[A] and k[B]. -/
def maskTable : List ((Reg → Reg → Reg → Instr) × (Word → Word → Word)) :=
  [(.kand, fun x y => x &&& y), (.kor, fun x y => x ||| y), (.kxor, fun x y => x ^^^ y)]

/-- R102: s[D] from k[A]. -/
def maskReadTable : List ((Reg → Reg → Instr) × (Word → Word)) :=
  [(.kpop, fun x => BitVec.ofNat 64 ((List.range 64).countP fun i => x.toNat.testBit i)),
   (.kfirst, fun x => BitVec.ofNat 64 (trailing x.toNat 0 64)),
   (.kmovs, fun x => x)]

end Sys2Proof.Claims

open Sys2Proof Sys2Proof.Machine

/-! ### Scalar instructions -/

/-- R89, R90: every instruction of page A OP 0x01 writes s[D] and changes nothing else, whatever its sources are (registers or ports);
s0 as D discards the result (Core.writeS, R35). R90's example word is DIV. -/
def Obligations.ScalarBinaryResult : Prop :=
  (∀ p ∈ Claims.binaryTable, ∀ (s : State) (d a b : Reg) (x y : Word) (c1 c2 : Core),
    s.Legal (p.1 d a b) → s.me.readS a = .ok (x, c1) → c1.readS b = .ok (y, c2) → d.toNat < 56 →
    exec (p.1 d a b) s = .next (s.done (p.1 d a b) (c2.writeS d.toNat (p.2 x y)))) ∧
  (∀ w1 : IWord, decodeWords 0x50510304#32 w1 = .ok (.div 3 4 5))

/-- R91, whole: the four unary instructions and their encodings, and F from 4 to 63 is no instruction. -/
def Obligations.ScalarUnaryResult : Prop :=
  (∀ p ∈ Claims.unaryTable, ∀ (s : State) (d a : Reg) (x : Word) (c1 : Core),
    s.Legal (p.1 d a) → s.me.readS a = .ok (x, c1) → d.toNat < 56 →
    exec (p.1 d a) s = .next (s.done (p.1 d a) (c1.writeS d.toNat (p.2 x)))) ∧
  (∀ (a d : Reg) (w1 : IWord),
    let word (f : Reg) : IWord := f ++ (0 : Reg) ++ a ++ d ++ (2 : Reg) ++ (0 : BitVec 2)
    decodeWords (word 0) w1 = .ok (.clz d a) ∧ decodeWords (word 1) w1 = .ok (.ctz d a) ∧
    decodeWords (word 2) w1 = .ok (.popc d a) ∧ decodeWords (word 3) w1 = .ok (.bswap d a)) ∧
  (∀ (f b a d : Reg) (w1 : IWord), 4 ≤ f.toNat → ∃ r, decodeWords (f ++ b ++ a ++ d ++ (2 : Reg) ++ (0 : BitVec 2)) w1 = .error r) ∧
  (∀ s : State, exec .unassignedEncoding s = .next (s.traps .unassignedEncoding .illop (s.core s.cur).word0))

/-- R92: the immediate forms, with the immediate that an XIMM word widens (R37). -/
def Obligations.ScalarImmediateResult : Prop :=
  ∀ p ∈ Claims.immTable, ∀ (s : State) (d a : Reg) (imm : BitVec 12) (x : Word) (c1 : Core),
    s.Legal (p.1 d a imm) → s.me.readS a = .ok (x, c1) → d.toNat < 56 →
    exec (p.1 d a imm) s = .next (s.done (p.1 d a imm) (c1.writeS d.toNat (p.2 x (Claims.imm12 s.me imm))))

/-- R93, R94: constants, LEA, SEL and MADD. -/
def Obligations.ConstantAndAddressResult : Prop :=
  (∀ (s : State) (d : Reg) (imm : BitVec 18), s.Legal (.li d imm) → d.toNat < 56 →
    exec (.li d imm) s = .next (s.done (.li d imm) (s.me.writeS d.toNat (BitVec.ofInt 64 (Claims.imm18 s.me imm))))) ∧
  (∀ (s : State) (d : Reg) (imm : BitVec 18), s.Legal (.lui d imm) → d.toNat < 56 →
    exec (.lui d imm) s = .next (s.done (.lui d imm) (s.me.writeS d.toNat (BitVec.ofInt 64 (Claims.imm18 s.me imm * 2 ^ 18))))) ∧
  (∀ (s : State) (d : Reg) (imm : IWord), s.Legal (.liw d imm) → d.toNat < 56 →
    exec (.liw d imm) s = .next (s.done (.liw d imm) (s.me.writeS d.toNat (imm.signExtend 64)))) ∧
  (∀ (s : State) (d : Reg) (imm : IWord), s.Legal (.lihi d imm) → d.toNat < 56 →
    exec (.lihi d imm) s = .next (s.done (.lihi d imm) (s.me.writeS d.toNat (imm ++ (0 : BitVec 32))))) ∧
  (∀ (s : State) (d a b : Reg) (sh : BitVec 3) (x y : Word) (c1 c2 : Core), s.Legal (.lea d a b sh) →
    s.me.readS a = .ok (x, c1) → c1.readS b = .ok (y, c2) → d.toNat < 56 →
    exec (.lea d a b sh) s = .next (s.done (.lea d a b sh) (c2.writeS d.toNat (BitVec.ofNat 64 (x.toNat + y.toNat * 2 ^ sh.toNat))))) ∧
  (∀ (s : State) (d a b e : Reg) (x y z : Word) (c1 c2 c3 : Core), s.Legal (.sel d a b e) →
    s.me.readS a = .ok (x, c1) → c1.readS b = .ok (y, c2) → c2.readS e = .ok (z, c3) → d.toNat < 56 →
    exec (.sel d a b e) s = .next (s.done (.sel d a b e) (c3.writeS d.toNat (if z = 0 then y else x)))) ∧
  (∀ (s : State) (d a b e : Reg) (x y z : Word) (c1 c2 c3 : Core), s.Legal (.madd d a b e) →
    s.me.readS a = .ok (x, c1) → c1.readS b = .ok (y, c2) → c2.readS e = .ok (z, c3) → d.toNat < 56 →
    exec (.madd d a b e) s = .next (s.done (.madd d a b e) (c3.writeS d.toNat (BitVec.ofNat 64 (x.toNat * y.toNat + z.toNat)))))

/-- R95, R96, R79, R75: scalar floating point writes its result and raises its flags, where none is enabled to trap.
R80, for the FPS group, FSQRT and FCVT: where a flag that would be raised is enabled, the instruction traps with FPTRAP, EVAL all the flags, and nothing is
written. -/
def Obligations.ScalarFloatResult : Prop :=
  ((∀ p ∈ Claims.fpsTable, ∀ (s : State) (dbl : Bool) (d a b : Reg) (x y : Word) (c1 c2 : Core),
     s.Legal (p.1 dbl d a b) → s.me.readS a = .ok (x, c1) → c1.readS b = .ok (y, c2) → d.toNat < 56 →
     let i := Claims.fps dbl
     let r := p.2 i s.me.env (x.toNat % 2 ^ i.w) (y.toNat % 2 ^ i.w)
     s.me.Quiet r.2 →
     exec (p.1 dbl d a b) s = .next (s.done (p.1 dbl d a b) ((c2.writeS d.toNat (BitVec.ofNat 64 r.1)).flagged (p.1 dbl d a b) r.2))) ∧
   (∀ (s : State) (dbl : Bool) (d a : Reg) (x : Word) (c1 : Core),
     s.Legal (.fsqrt dbl d a) → s.me.readS a = .ok (x, c1) → d.toNat < 56 →
     let i := Claims.fps dbl
     let e := s.me.env
     let r := i.sqrt e.rm e.sat (e.g 0) (i.decode (x.toNat % 2 ^ i.w))
     s.me.Quiet r.2 →
     exec (.fsqrt dbl d a) s = .next (s.done (.fsqrt dbl d a) ((c1.writeS d.toNat (BitVec.ofNat 64 r.1)).flagged (.fsqrt dbl d a) r.2))) ∧
   (∀ (s : State) (dst src : CvtKind) (d a : Reg) (x : Word) (c1 : Core),
     s.Legal (.fcvt dst src d a) → s.me.readS a = .ok (x, c1) → d.toNat < 56 →
     let r := fcvtOf dst src s.me.env x
     s.me.Quiet r.2 →
     exec (.fcvt dst src d a) s = .next (s.done (.fcvt dst src d a) ((c1.writeS d.toNat r.1).flagged (.fcvt dst src d a) r.2)))) ∧
  (∀ p ∈ Claims.fpsTable, ∀ (s : State) (dbl : Bool) (d a b : Reg) (x y : Word) (c1 c2 : Core),
     s.Legal (p.1 dbl d a b) → s.me.readS a = .ok (x, c1) → c1.readS b = .ok (y, c2) →
     let i := Claims.fps dbl
     let r := p.2 i s.me.env (x.toNat % 2 ^ i.w) (y.toNat % 2 ^ i.w)
     ¬ s.me.Quiet r.2 →
     exec (p.1 dbl d a b) s = .next (s.traps (p.1 dbl d a b) .fptrap (BitVec.ofNat 64 r.2.toNat))) ∧
  (∀ (s : State) (dbl : Bool) (d a : Reg) (x : Word) (c1 : Core), s.Legal (.fsqrt dbl d a) → s.me.readS a = .ok (x, c1) →
     let i := Claims.fps dbl
     let r := i.sqrt s.me.env.rm s.me.env.sat (s.me.env.g 0) (i.decode (x.toNat % 2 ^ i.w))
     ¬ s.me.Quiet r.2 →
     exec (.fsqrt dbl d a) s = .next (s.traps (.fsqrt dbl d a) .fptrap (BitVec.ofNat 64 r.2.toNat))) ∧
  (∀ (s : State) (dst src : CvtKind) (d a : Reg) (x : Word) (c1 : Core), s.Legal (.fcvt dst src d a) → s.me.readS a = .ok (x, c1) →
     let r := fcvtOf dst src s.me.env x
     ¬ s.me.Quiet r.2 →
     exec (.fcvt dst src d a) s = .next (s.traps (.fcvt dst src d a) .fptrap (BitVec.ofNat 64 r.2.toNat)))

/-- R102: the mask instructions. -/
def Obligations.MaskResult : Prop :=
  (∀ p ∈ Claims.maskTable, ∀ (s : State) (d a b : Reg) (x y : Word), s.Legal (p.1 d a b) → s.me.readK a.toNat = .ok x → s.me.readK b.toNat = .ok y →
    exec (p.1 d a b) s = .next (s.done (p.1 d a b) (s.me.putK d.toNat (p.2 x y)))) ∧
  (∀ (s : State) (d a : Reg) (x : Word), s.Legal (.knot d a) → s.me.readK a.toNat = .ok x →
    exec (.knot d a) s = .next (s.done (.knot d a) (s.me.putK d.toNat (~~~x)))) ∧
  (∀ p ∈ Claims.maskReadTable, ∀ (s : State) (d a : Reg) (x : Word), s.Legal (p.1 d a) → s.me.readK a.toNat = .ok x → d.toNat < 56 →
    exec (p.1 d a) s = .next (s.done (p.1 d a) (s.me.writeS d.toNat (p.2 x)))) ∧
  (∀ (s : State) (d a : Reg) (x : Word) (c1 : Core), s.Legal (.kmovk d a) → s.me.readS a = .ok (x, c1) →
    exec (.kmovk d a) s = .next (s.done (.kmovk d a) (c1.putK d.toNat x)))

/-! ### Operand forms (R34, R35) -/

/-- What a scalar operand field reads (R34): s0 is 0, a register, or the oldest word of a receive queue, which it removes; a poisoned register traps with
MEMUE (R369), EVAL its class and code (R370); an empty queue waits, and so does a register that an outstanding load is still to write (R130).
What a scalar destination receives (R35): a write of s0 is discarded, another register holds the word and is poisoned no longer, every other register
keeps its value. -/
def Obligations.ScalarOperandForms : Prop :=
  (∀ (c : Core) (r : Reg),
     (r = 0 → c.poison.s.contains 0 = false → c.readS r = .ok (0, c)) ∧
     (r.toNat < 56 → r ≠ 0 → (∃ l ∈ c.late, ∃ n sg, l.dst = .s r.toNat n sg) → c.readS r = .error .stall) ∧
     (r.toNat < 56 → (∀ l ∈ c.late, ∀ n sg, l.dst ≠ .s r.toNat n sg) → c.poison.s.contains r.toNat = false → c.readS r = .ok (c.sreg r.toNat, c)) ∧
     (r.toNat < 56 → (∀ l ∈ c.late, ∀ n sg, l.dst ≠ .s r.toNat n sg) → c.poison.s.contains r.toNat = true → c.readS r = .error (.trap .memue (BitVec.ofNat 64 (0xFF00000000000000 + r.toNat)))) ∧
     (56 ≤ r.toNat → (c.rxp (r.toNat - 56)).q = [] → c.readS r = .error .stall) ∧
     (∀ w t, 56 ≤ r.toNat → (c.rxp (r.toNat - 56)).q = w :: t →
       c.readS r = .ok (w.w, c.setRxp (r.toNat - 56) { c.rxp (r.toNat - 56) with q := t }))) ∧
  (∀ (c : Core) (n : Nat) (x : Word),
     (c.writeS 0 x).sreg 0 = 0 ∧ (n ≠ 0 → (c.writeS n x).sreg n = x) ∧ (∀ m, m ≠ n → (c.writeS n x).sreg m = c.sreg m) ∧
     (c.writeS n x).poison.s.contains n = false ∧ (c.writeS n x).pendingS n = false ∧ (∀ m, m ≠ n → (c.writeS n x).pendingS m = c.pendingS m) ∧
     c.writeS n x = { c with s := (c.writeS n x).s, poison := { c.poison with s := (c.writeS n x).poison.s }, late := (c.writeS n x).late })

/-- R8, R35, R234, R235: an empty port as a source leaves the state as it is. With a port as destination the word goes under way to the port's bound place, the
destination queue then belonging to this packet; it waits while that queue is full or owned by another packet.
When a word finds room is log entry 29. -/
def Obligations.PortOperands : Prop :=
  (∀ p ∈ Claims.binaryTable, ∀ (s : State) (d a b : Reg) (x y : Word) (c1 c2 : Core),
     s.Legal (p.1 d a b) → s.me.readS a = .ok (x, c1) → c1.readS b = .ok (y, c2) → 56 ≤ d.toNat →
     let q := d.toNat - 56
     let n := ((c2.txp q).pkt.getD (0, sendWord s.cur q (c2.txp q))).1
     let dst := ((c2.txp q).pkt.getD (0, sendWord s.cur q (c2.txp q))).2
     let c3 : Core := c2.setTxp q { c2.txp q with pkt := some (n + 1, dst) }
     (16 ≤ n → exec (p.1 d a b) s = .next (s.traps (p.1 d a b) .portlen (BitVec.ofNat 64 q))) ∧
     (∀ t, n < 16 → (s.setCore s.cur c3).sendWords s.cur [⟨q, dst, p.2 x y, false⟩] (s.setCore s.cur c3) = .ok t →
       exec (p.1 d a b) s = .next (t.modCore s.cur fun c => c.advance 4)) ∧
     (n < 16 → (s.setCore s.cur c3).sendWords s.cur [⟨q, dst, p.2 x y, false⟩] (s.setCore s.cur c3) = .error .stall → exec (p.1 d a b) s = .next s.waits)) ∧
  (∀ p ∈ Claims.binaryTable, ∀ (s : State) (d a b : Reg), s.Legal (p.1 d a b) → 56 ≤ a.toNat → ((s.core s.cur).rxp (a.toNat - 56)).q = [] →
     exec (p.1 d a b) s = .next s.waits)

/-! ### Control flow -/

namespace Sys2Proof.Claims

/-- R98: OP, constructor, when the branch is taken. -/
def branchTable : List (Nat × (Reg → Reg → BitVec 12 → Instr) × (Word → Word → Prop)) :=
  [(0x1B, .beq, fun a b => a = b), (0x1C, .bne, fun a b => a ≠ b), (0x1D, .blt, fun a b => a.toInt < b.toInt), (0x1E, .bge, fun a b => a.toInt ≥ b.toInt),
   (0x1F, .bltu, fun a b => a.toNat < b.toNat), (0x20, .bgeu, fun a b => a.toNat ≥ b.toNat)]

/-- The current core's branch is over, its core left as c: its slot comes next, then `target` (R40). -/
def branched (s : State) (c : Core) (target : Word) : State := s.setCore s.cur (({ c with txq := [] } : Core).branch 4 target)

/-- The slot of the current core's branch holds nothing that R41 forbids. -/
def SlotFree (s : State) : Prop := s.start.badSlot s.cur ((s.core s.cur).pc + 4) = false

/-- The address after the slot (R40). -/
def after (s : State) : Word := s.start.afterSlot s.cur ((s.core s.cur).pc + 4)

/-- The target n words from the current core's branch. -/
def target (s : State) (n : Int) : Word := (s.core s.cur).pc + BitVec.ofInt 64 (4 * n)

/-- Every branch (R98 to R100). -/
def isBranch : Instr → Bool
  | .beq .. | .bne .. | .blt .. | .bge .. | .bltu .. | .bgeu .. | .j _ | .call _ | .jr .. | .bk .. => true
  | _ => false

end Sys2Proof.Claims

/-- R98, whole: the encoding, when each compare-branch is taken, its target, its delay slot (R40): the instruction at pc + 4 comes next, then the target,
or the address after the slot. -/
def Obligations.CompareBranchResult : Prop :=
  ∀ p ∈ Claims.branchTable,
    (∀ (a b : Reg) (off : BitVec 12) (w1 : IWord),
      decodeWords (off.extractLsb' 6 6 ++ b ++ a ++ off.extractLsb' 0 6 ++ BitVec.ofNat 6 p.1 ++ (0 : BitVec 2)) w1 = .ok (p.2.1 a b off)) ∧
    (∀ (s : State) (a b : Reg) (off : BitVec 12) (x y : Word) (c1 c2 : Core), s.Legal (p.2.1 a b off) → Claims.SlotFree s →
      s.me.readS a = .ok (x, c1) → c1.readS b = .ok (y, c2) →
      (p.2.2 x y → exec (p.2.1 a b off) s = .next (Claims.branched s c2 (Claims.target s off.toInt))) ∧
      (¬ p.2.2 x y → exec (p.2.1 a b off) s = .next (Claims.branched s c2 (Claims.after s))))

/-- R99, R100: J, CALL with its link in s55, JR, whose target is read before s[D] is written and traps with ALIGN where it is no word address, and BK on all
64 bits of a mask.
R41: a branch whose slot holds a modifier word or an instruction of R41's list traps with DSLOT before either has an effect, EVAL the slot's address;
TRAP is allowed there.
That the branch judges its slot's word in this way is log entry 23. -/
def Obligations.JumpResult : Prop :=
  ((∀ (s : State) (off : BitVec 24), s.Legal (.j off) → Claims.SlotFree s → exec (.j off) s = .next (Claims.branched s s.me (Claims.target s off.toInt))) ∧
   (∀ (s : State) (off : BitVec 24), s.Legal (.call off) → Claims.SlotFree s →
     exec (.call off) s = .next (Claims.branched s (s.me.writeS 55 (Claims.after s)) (Claims.target s off.toInt))) ∧
   (∀ (s : State) (d a : Reg) (x : Word) (c1 : Core), s.Legal (.jr d a) → Claims.SlotFree s → s.me.readS a = .ok (x, c1) → d.toNat < 56 →
     (x.toNat % 4 = 0 → exec (.jr d a) s = .next (Claims.branched s (if d = 0 then c1 else c1.writeS d.toNat (Claims.after s)) x)) ∧
     (x.toNat % 4 ≠ 0 → exec (.jr d a) s = .next (s.traps (.jr d a) .align x))) ∧
   (∀ (s : State) (cond : MaskCond) (k : BitVec 3) (off : BitVec 18) (m : Word), s.Legal (.bk cond k off) → Claims.SlotFree s → s.me.readK k.toNat = .ok m →
     exec (.bk cond k off) s = .next (Claims.branched s s.me
       (if (match cond with | .any => m != 0 | .all => m == BitVec.ofInt 64 (-1) | .none => m == 0) then Claims.target s off.toInt else Claims.after s)))) ∧
  ((∀ (s : State) (i : Instr), Claims.isBranch i = true → s.Legal i → s.start.badSlot s.cur ((s.core s.cur).pc + 4) = true →
     exec i s = .next (s.traps i .dslot ((s.core s.cur).pc + 4))) ∧
   (∀ (s : State) (k : Nat) (va : Word) (w : IWord), s.peek k va = some w → w.toNat % 4 = 2 → s.badSlot k va = true) ∧
   (∀ (s : State) (k : Nat) (va : Word) (x : Instr), s.peekInstr k va = some x → slotForbidden x = true → s.badSlot k va = true) ∧
   (∀ i, Claims.isBranch i = true → slotForbidden i = true) ∧
   (∀ a b c d e f g, slotForbidden (.rpt a b c d e f g) = true) ∧ (∀ n d, slotForbidden (.take n d) = true) ∧ (∀ d, slotForbidden (.nexti d) = true) ∧
   (∀ a b c d, slotForbidden (.lvget a b c d) = true) ∧ slotForbidden .endTask = true ∧ slotForbidden .yield = true ∧ slotForbidden .uiret = true ∧
   slotForbidden .eret = true ∧ slotForbidden .park = true ∧ (∀ c, slotForbidden (.trap c) = false))

/-- R28, R40, R101: NOP only passes control on: to the next word, or from a delay slot to where its branch goes.
R36, R38, R39, R41: a modifier word joins the chain before the next word; a second of its kind or a third word orphans the chain (EVAL its first word);
in a slot it traps with DSLOT.
Which word an orphaned chain reports is log entry 24. -/
def Obligations.NopAndModifierWords : Prop :=
  (∀ s : State, s.Legal .nop →
     exec .nop s = .next (s.done .nop s.me) ∧
     ((s.core s.cur).slot = none → ((s.done .nop s.me).core s.cur).pc = (s.core s.cur).pc + 4) ∧
     (∀ t, (s.core s.cur).slot = some t → ((s.done .nop s.me).core s.cur).pc = t ∧ ((s.done .nop s.me).core s.cur).slot = none) ∧
     ∀ a, (s.done .nop s.me).byte a = s.byte a) ∧
  (∀ (s : State) (i : Instr), (match i with | .rnd .. | .prd .. | .ximm _ => true | _ => false) = true →
     let c := s.core s.cur
     (c.slot = none → c.pfx.length < 2 → (∀ w ∈ c.pfx, bits w.toNat 5 2 ≠ bits c.ir.toNat 5 2) →
       exec i s = .next (s.setCore s.cur { c with pfx := c.pfx ++ [c.ir], pfxPc := if c.pfx = [] then c.pc else c.pfxPc, pc := c.pc + 4, stalled := false })) ∧
     (∀ w t, c.slot = none → c.pfx = w :: t → (c.pfx.length = 2 ∨ ∃ v ∈ c.pfx, bits v.toNat 5 2 = bits c.ir.toNat 5 2) →
       exec i s = .next (s.takeTrap s.cur .orphan (BitVec.ofNat 64 w.toNat) (c.pc + 4))) ∧
     (c.slot ≠ none → exec i s = .next (s.takeTrap s.cur .dslot c.pc (c.pc + 4))))

/-! ### Traps (R7, R30, R359, R362, R363) -/

/-- R30 items 2 to 5, with R39 and R59: every instruction but a modifier word traps, before its body has any effect, with the first of these that holds:
ILLOP for a form that is not legal, FEATURE for the lowest feature bit missing, PRIV, DSLOT for what R41 forbids in a slot, PREFIX for a modifier word it does not accept.
LVSET's PRIV depends on its operands (R331): where nothing but a modifier word stops it and its target is none of the task's, it traps with PRIV.
The slot and chain readings are log entries 23 and 24, the order within item 5 log entry 61. -/
def Obligations.ChecksBeforeBody : Prop :=
  (∀ (s : State) (i : Instr) (c : Cause) (v : Word), i.coded = true → (match i with | .rnd .. | .prd .. | .ximm _ => false | _ => true) = true →
    (match i with | .lvset .. | .lvsetReseat .. => false | _ => true) = true ∨ c = .illop ∨ c = .feature →
    (s.core s.cur).preTrap (s.feat s.cur) (s.isSup s.cur) i = some (c, v) → exec i s = .next (s.traps i c v)) ∧
  (∀ (s : State) (reseat : Bool) (d a b e : Reg) (x y : Word) (c1 c2 : Core),
    let i : Instr := if reseat then .lvsetReseat d a b e else .lvset d a b e
    i.wf = true → missingFeat (s.feat s.cur) ((s.core s.cur).feats i) = none → s.me.readS a = .ok (x, c1) → c1.readS b = .ok (y, c2) → s.isSup s.cur = false →
    let id := if y.toNat % 2 ^ 32 = 0 then (s.core s.cur).run.getD 0 else y.toNat % 2 ^ 32
    id ≠ (s.core s.cur).run.getD 0 → (∀ l, s.running s.cur = some l → id ∉ l.kids) → exec i s = .next (s.traps i .priv (BitVec.ofNat 64 (s.core s.cur).ir.toNat))) ∧
  ∀ (c : Core) (feat : Nat) (sup : Bool) (i : Instr),
    let w := BitVec.ofNat 64 c.ir.toNat
    (i.wf = false ∨ c.badShift i = true → c.preTrap feat sup i = some (.illop, w)) ∧
    (∀ b, i.wf = true → c.badShift i = false → missingFeat feat (c.feats i) = some b → c.preTrap feat sup i = some (.feature, BitVec.ofNat 64 b)) ∧
    (i.wf = true → c.badShift i = false → missingFeat feat (c.feats i) = none → privileged i = true → sup = false → c.preTrap feat sup i = some (.priv, w)) ∧
    (i.wf = true → c.badShift i = false → missingFeat feat (c.feats i) = none → (privileged i = true → sup = true) → c.slot ≠ none → slotForbidden i = true →
      c.preTrap feat sup i = some (.dslot, c.pc)) ∧
    (∀ p t, i.wf = true → c.badShift i = false → missingFeat feat (c.feats i) = none → (privileged i = true → sup = true) →
      (c.slot = none ∨ slotForbidden i = false) → c.pfx = p :: t → acceptsMods i c.mods = false → c.preTrap feat sup i = some (.orphan, BitVec.ofNat 64 p.toNat))

/-- R7, R42, R362: a trap on a supervisor core writes EPC, ECAUSE, EVAL and ESLOT and goes on at UCIVEC.VEC · 4; its outstanding loads have taken their values
by then (R130), its open packets are closed (R235), and where none is open nothing else of the module changes.
R358, R359, R360: a trap on a core that runs a task parks it: its allocation is marked parked, the core is free, and the partition's fault path
holds a message of kind 1 with the cause, the core, EPC, EVAL and the launch. -/
def Obligations.TrapTaken : Prop :=
  (∀ (s : State) (k : Nat) (q : Cause) (v n : Word), s.isSup k = true →
     let s1 := s.takeLates k
     let c := s1.core k
     let t := s.takeTrap k q v n
     let d := t.core k
     ((s.core k).late = [] → s1 = s) ∧ d.sys.epc = (if c.pfx = [] then c.pc else c.pfxPc) ∧ d.sys.ecause = BitVec.ofNat 64 q.code ∧ d.sys.eval = v ∧
     d.sys.eslot = (match c.slot with | some x => BitVec.ofNat 64 (2 ^ 63 + x.toNat % 2 ^ 56 / 4 * 4) | none => 0) ∧
     d.pc = BitVec.ofNat 64 (bits c.sys.ucivec.toNat 55 2 * 4) ∧ d.slot = none ∧ d.pfx = [] ∧
     (∀ r, d.sreg r = c.sreg r) ∧ (∀ r, d.vreg r = c.vreg r) ∧ (∀ r, d.kreg r = c.kreg r) ∧ d.sys.fpctl = c.sys.fpctl ∧ d.sys.fpstat = c.sys.fpstat ∧
     t.mem = s.mem ∧ (∀ p, p < 8 → (d.txp p).pkt = none) ∧
     ((∀ p, p < 8 → (c.txp p).pkt = none) → (∀ j, j ≠ k → t.core j = s.core j) ∧ t = { s1 with cores := t.cores })) ∧
  (∀ (s : State) (k l : Nat) (a : Alloc) (q : Cause) (v n : Word), s.isSup k = false → (s.core k).run = some l → (s.core k).alloc l = some a →
     (s.core k).anyPoison = false →
     let t := s.takeTrap k q v n
     (t.core k).run = none ∧ (∃ b, (t.core k).alloc l = some b ∧ b.st = .parked ∧ b.slot = a.slot) ∧
     ∃ m ∈ (t.prt (s.partOf k)).outbox, m.kind = 1 ∧ m.cause = q.code ∧ m.coreid = coreId k ∧ m.epc = (s.core k).unitPc ∧ m.eval = v ∧ m.launch = l)

/-- R363, R362: TRAP takes the BREAK trap with its code in EVAL; ERET on a supervisor core goes to EPC, or to the slot instruction there.
R54: at user privilege the supervisor's instructions trap with PRIV, EVAL word 0, and change nothing of the task.
That ERET drops bits [1:0] of EPC is log entry 27, the model's reading. -/
def Obligations.TrapReturnPrivilege : Prop :=
  ((∀ (s : State) (code : BitVec 6), s.Legal (.trap code) → exec (.trap code) s = .next (s.traps (.trap code) .brk (BitVec.ofNat 64 code.toNat))) ∧
   (∀ s : State, s.Legal .eret →
     exec .eret s = .next (s.setCore s.cur { s.me with
       pc := s.me.sys.epc &&& 0xFFFFFFFFFFFFFFFC#64
       slot := if s.me.sys.eslot.toNat.testBit 63 then some (BitVec.ofNat 64 (bits s.me.sys.eslot.toNat 55 2 * 4)) else none
       pfx := [], stalled := false }))) ∧
  (∀ (s : State) (i : Instr), i.wf = true → (s.core s.cur).badShift i = false → missingFeat (s.feat s.cur) ((s.core s.cur).feats i) = none → s.isSup s.cur = false →
     (match i with
       | .eret | .gong _ | .gongRelease _ | .park | .cmaskC .. | .cmaskD .. | .cmaskDc .. | .tlbiVa .. | .tlbiAll .. => true
       | .sresume .. | .sresumeAbandon .. | .sresumeGet .. | .sresumePut .. => true
       | .sset _ n => [0x030, 0x031, 0x032, 0x033, 0x051, 0x060].contains n.toNat
       | _ => false) = true →
     exec i s = .next (s.traps i .priv (BitVec.ofNat 64 (s.core s.cur).ir.toNat)))

/-! ### Vectors (R85 to R87, R111 to R129) -/

namespace Sys2Proof.Claims

/-- The integer of w bits (R7). -/
def ival (w x : Nat) : Int := (BitVec.ofNat w x).toInt

/-- An integer lane result: modulo 2^w, or clamped with SAT (R111). -/
def irep (e : Env) (w : Nat) (r : Int) : Nat :=
  (BitVec.ofInt w (if e.sat then Max.max (-(2 ^ (w - 1))) (Min.min r (2 ^ (w - 1) - 1)) else r)).toNat

/-- A lane of two operands: `fp` on the values of a floating-point format, `int` on integers (R111). -/
def elem2 (fp : FInfo → Env → Nat → Nat → Nat → Nat × FFlags) (int : Int → Int → Int) (f : Fmt) (e : Env) (i x y : Nat) : Nat × FFlags :=
  match fmtInfo f with
  | some o => fp o e i x y
  | none => (irep e f.width (int (ival f.width x) (ival f.width y)), 0)

/-- A lane of one operand. -/
def elem1 (fp : FInfo → Env → Nat → Nat → Nat × FFlags) (int : Int → Int) (f : Fmt) (e : Env) (i x : Nat) : Nat × FFlags :=
  match fmtInfo f with
  | some o => fp o e i x
  | none => (irep e f.width (int (ival f.width x)), 0)

/-- R111, R113: lane i of v[D] and its flags from lanes x and y. -/
def vecTable : List ((Fmt → Bool → Reg → Reg → Reg → Instr) × (Fmt → Env → Nat → Nat → Nat → Nat × FFlags)) :=
  [(.vadd, elem2 (fun o e i x y => o.add e.rm e.sat (e.g i) (o.decode x) (o.decode y)) (fun x y => x + y)),
   (.vsub, elem2 (fun o e i x y => o.add e.rm e.sat (e.g i) (o.decode x) (o.decode y).neg) (fun x y => x - y)),
   (.vmul, elem2 (fun o e i x y => o.mul e.rm e.sat (e.g i) (o.decode x) (o.decode y)) (fun x y => x * y)),
   (.vmin, elem2 (fun o _ _ x y => (o.minmax false x y, 0)) Min.min),
   (.vmax, elem2 (fun o _ _ x y => (o.minmax true x y, 0)) Max.max),
   (.vand, fun _ _ _ x y => (x &&& y, 0)),
   (.vor, fun _ _ _ x y => (x ||| y, 0)),
   (.vxor, fun _ _ _ x y => (x ^^^ y, 0)),
   (.vshl, fun f _ _ x c => ((BitVec.ofNat f.width x <<< c).toNat, 0)),
   (.vshr, fun f _ _ x c => ((BitVec.ofNat f.width x >>> c).toNat, 0)),
   (.vsra, fun f _ _ x c => (((BitVec.ofNat f.width x).sshiftRight c).toNat, 0))]

/-- R111, R126, R127: the same from one lane. -/
def vecUnTable : List ((Fmt → Reg → Reg → Instr) × (Fmt → Env → Nat → Nat → Nat × FFlags)) :=
  [(.vabs, elem1 (fun o _ _ x => (if (o.decode x).isNan then o.nanBits else x % 2 ^ (o.w - 1), 0)) (fun x => if x < 0 then -x else x)),
   (.vneg, elem1 (fun o _ _ x => (if (o.decode x).isNan then o.nanBits else (x + 2 ^ (o.w - 1)) % 2 ^ o.w, 0)) (fun x => -x)),
   (.vmov, fun _ _ _ x => (x, 0))]

/-- R111, R112: floating point only. -/
def vecFpTable : List ((Fmt → Reg → Reg → Instr) × (FInfo → Env → Nat → FVal → Nat × FFlags)) :=
  [(.vsqrt, fun o e i x => o.sqrt e.rm e.sat (e.g i) x),
   (.vexp2, fun o e i x => o.exp2 e.rm e.sat (e.g i) x),
   (.vlog2, fun o e i x => o.log2 e.rm e.sat (e.g i) x),
   (.vrcp, fun o e i x => o.rcp e.rm e.sat (e.g i) x),
   (.vrsq, fun o e i x => o.rsq e.rm e.sat (e.g i) x)]

/-- The class codes of R127. -/
def classCode (o : FInfo) (x : Nat) : Nat :=
  let sub : Bool := x / 2 ^ o.f % 2 ^ (o.w - 1 - o.f) == 0
  match o.decode x with
  | .inf true => 0
  | .inf false => 7
  | .nan => 8
  | .fin neg m _ => match neg, m == 0, sub with
    | true, true, _ => 3
    | false, true, _ => 4
    | true, false, true => 2
    | true, false, false => 1
    | false, false, true => 5
    | false, false, false => 6

/-- R114: when bit i of the mask is set. -/
def cmpTable : List ((Fmt → Bool → Reg → Reg → Reg → Instr) × (FVal → FVal → Bool) × (Int → Int → Bool)) :=
  [(.vceq, FVal.eqNum, fun x y => x == y),
   (.vclt, FVal.ltNum, fun x y => x < y),
   (.vcle, fun x y => FVal.ltNum x y || FVal.eqNum x y, fun x y => x ≤ y),
   (.vcun, fun x y => x.isNan || y.isNan, fun _ _ => false)]

/-- R115: the signs of the product and of z. -/
def fmaTable : List ((Fmt → Bool → Bool → Reg → Reg → Reg → Reg → Instr) × Bool × Bool) :=
  [(.vfma, false, false), (.vfms, false, true), (.vfnma, true, false), (.vfnms, true, true)]

/-- The sign of a value inverted where n. -/
def flip (n : Bool) (x : FVal) : FVal := if n then x.neg else x

/-- Where a flag of fl is enabled to trap, the current core's instruction i traps with FPTRAP, EVAL all the flags, and writes nothing (R80). -/
def TrapsOn (s : State) (i : Instr) (fl : FFlags) : Prop := ¬ s.me.Quiet fl → exec i s = .next (s.traps i .fptrap (BitVec.ofNat 64 fl.toNat))

/-- The current core's instruction i writes the bytes `bytes` of v to v[D] (R35, R86) over the core c, and raises fl (R79), or traps on it (R80); what it pushes to
an output stream joins the core's stores (R231). -/
def Gives (s : State) (i : Instr) (c : Core) (d : Reg) (v : Vec) (bytes : Nat) (zero : Bool) (fl : FFlags) : Prop :=
  (∀ c', c.putV d v bytes zero = .ok c' → s.me.Quiet fl →
    exec i s = .next (s.doneOut i (c'.flagged i fl)) ∧ (d.toNat < 32 → s.doneOut i (c'.flagged i fl) = s.done i (c'.flagged i fl))) ∧
  TrapsOn s i fl

/-- The same for a scalar result in a register. -/
def GivesS (s : State) (i : Instr) (c : Core) (d : Reg) (x : Word) (fl : FFlags) : Prop :=
  (d.toNat < 56 → s.me.Quiet fl → exec i s = .next (s.done i ((c.writeS d.toNat x).flagged i fl))) ∧ TrapsOn s i fl

/-- x and y take the same place in the order of keys (R124). -/
def sameKey (f : Fmt) (dn : Bool) (x y : Nat) : Bool := !keyBefore f dn x y && !keyBefore f dn y x

/-- l is the stable sort of e by key (R124). -/
def SortOf (f : Fmt) (dn : Bool) (e l : List (Nat × Nat)) : Prop :=
  l.Perm e ∧ l.Pairwise (fun p q => keyBefore f dn q.1 p.1 = false) ∧
  ∀ k, (l.filter fun p => sameKey f dn k p.1) = e.filter fun p => sameKey f dn k p.1

/-- The 16 keys of x with the 16 payload words of y. -/
def entries (x y : Vec) : List (Nat × Nat) := (List.range 16).map fun i => (lane x 32 i, lane y 32 i)

/-- 16 entries as the two registers of a pair. -/
def keysOf (l : List (Nat × Nat)) : Vec := BitVec.ofNat 512 (ofLanes 32 (l.map fun p => p.1))
def payloadOf (l : List (Nat × Nat)) : Vec := BitVec.ofNat 512 (ofLanes 32 (l.map fun p => p.2))

end Sys2Proof.Claims

/-- R111 to R113, R126, R127, with R79 and R80: the element-wise operations, a vector or a broadcast scalar as B (R87), registers or streams as operands. -/
def Obligations.VectorElementResult : Prop :=
  (∀ p ∈ Claims.vecTable, ∀ (s : State) (f : Fmt) (bc : Bool) (d a b : Reg) (m : Nat) (z : Bool) (x y : Vec) (c1 c2 : Core),
    s.Legal (p.1 f bc d a b) → s.me.pred = .ok (m, z) → s.me.readV a = .ok (x, c1) → c1.readVB bc f.width b = .ok (y, c2) →
    let r := lanesOut f.width m fun i => p.2 f s.me.env i (lane x f.width i) (lane y f.width i)
    Claims.Gives s (p.1 f bc d a b) c2 d r.1 (laneBytes m f.width) z r.2) ∧
  (∀ p ∈ Claims.vecUnTable, ∀ (s : State) (f : Fmt) (d a : Reg) (m : Nat) (z : Bool) (x : Vec) (c1 : Core),
    s.Legal (p.1 f d a) → s.me.pred = .ok (m, z) → s.me.readV a = .ok (x, c1) →
    let r := lanesOut f.width m fun i => p.2 f s.me.env i (lane x f.width i)
    Claims.Gives s (p.1 f d a) c1 d r.1 (laneBytes m f.width) z r.2) ∧
  (∀ p ∈ Claims.vecFpTable, ∀ (s : State) (f : Fmt) (o : FInfo) (d a : Reg) (m : Nat) (z : Bool) (x : Vec) (c1 : Core),
    s.Legal (p.1 f d a) → fmtInfo f = some o → s.me.pred = .ok (m, z) → s.me.readV a = .ok (x, c1) →
    let r := lanesOut f.width m fun i => p.2 o s.me.env i (o.decode (lane x f.width i))
    Claims.Gives s (p.1 f d a) c1 d r.1 (laneBytes m f.width) z r.2) ∧
  (∀ (s : State) (f : Fmt) (o : FInfo) (bc : Bool) (d a b : Reg) (m : Nat) (z : Bool) (x y : Vec) (c1 c2 : Core),
    s.Legal (.vdiv f bc d a b) → fmtInfo f = some o → s.me.pred = .ok (m, z) → s.me.readV a = .ok (x, c1) → c1.readVB bc f.width b = .ok (y, c2) →
    let e := s.me.env
    let r := lanesOut f.width m fun i => o.div e.rm e.sat (e.g i) (o.decode (lane x f.width i)) (o.decode (lane y f.width i))
    Claims.Gives s (.vdiv f bc d a b) c2 d r.1 (laneBytes m f.width) z r.2) ∧
  (∀ (s : State) (f : Fmt) (o : FInfo) (d a : Reg) (m : Nat) (z : Bool) (x : Vec) (c1 : Core),
    s.Legal (.vclass f d a) → fmtInfo f = some o → s.me.pred = .ok (m, z) → s.me.readV a = .ok (x, c1) →
    let r := lanesOut f.width m fun i => (Claims.classCode o (lane x f.width i), 0)
    Claims.Gives s (.vclass f d a) c1 d r.1 (laneBytes m f.width) z 0)

/-- R114: a compare sets the mask bits of each active lane to its test and merges or zeroes the others; no flag is raised. -/
def Obligations.VectorCompareResult : Prop :=
  ∀ p ∈ Claims.cmpTable, ∀ (s : State) (f : Fmt) (bc : Bool) (d a b : Reg) (m : Nat) (z : Bool) (x y : Vec) (c1 c2 : Core),
    s.Legal (p.1 f bc d a b) → s.me.pred = .ok (m, z) → s.me.readV a = .ok (x, c1) → c1.readVB bc f.width b = .ok (y, c2) →
    ∃ c', exec (p.1 f bc d a b) s = .next (s.done (p.1 f bc d a b) c') ∧
      (∀ j, j < 64 → (c'.kreg d.toNat).getLsbD j =
        (let i := j * 8 / f.width
         if active m f.width i then (match fmtInfo f with
            | some o => p.2.1 (o.decode (lane x f.width i)) (o.decode (lane y f.width i))
            | none => p.2.2 (Claims.ival f.width (lane x f.width i)) (Claims.ival f.width (lane y f.width i)))
         else if z then false else (c2.kreg d.toNat).getLsbD j)) ∧
      (∀ n, n ≠ d.toNat → c'.kreg n = c2.kreg n) ∧ c' = { c2 with k := c'.k, poison := c'.poison }

/-- R115, R116, with R79 and R80: the fused multiply-adds round the exact sum once; VSEL copies. -/
def Obligations.FusedAndSelectResult : Prop :=
  (∀ p ∈ Claims.fmaTable, ∀ (s : State) (f : Fmt) (o : FInfo) (bb bc : Bool) (d a b e : Reg) (m : Nat) (z : Bool) (x y w : Vec) (c1 c2 c3 : Core),
    s.Legal (p.1 f bb bc d a b e) → fmtInfo f = some o → s.me.pred = .ok (m, z) → s.me.readV a = .ok (x, c1) →
    c1.readVB bb f.width b = .ok (y, c2) → c2.readVB bc f.width e = .ok (w, c3) →
    let v := s.me.env
    let r := lanesOut f.width m fun i => o.fma v.rm v.sat (v.g i) (Claims.flip p.2.1 (o.decode (lane x f.width i))) (o.decode (lane y f.width i))
      (Claims.flip p.2.2 (o.decode (lane w f.width i)))
    Claims.Gives s (p.1 f bb bc d a b e) c3 d r.1 (laneBytes m f.width) z r.2) ∧
  (∀ (s : State) (f : Fmt) (bb : Bool) (k : BitVec 3) (d a b : Reg) (m : Nat) (z : Bool) (x y : Vec) (q : Word) (c1 c2 : Core),
    s.Legal (.vsel f bb k d a b) → s.me.pred = .ok (m, z) → s.me.readV a = .ok (x, c1) → c1.readVB bb f.width b = .ok (y, c2) → c2.readK k.toNat = .ok q →
    let r := lanesOut f.width m fun i => (if q.getLsbD (i * f.width / 8) then lane x f.width i else lane y f.width i, 0)
    Claims.Gives s (.vsel f bb k d a b) c2 d r.1 (laneBytes m f.width) z 0)

/-- R120, whole but for its encoding (DecodeEncode): lane i of VSHUF is lane j of v[A] or lane j - n of v[B]; destination bytes follow R86. R126: the lane moves. -/
def Obligations.LaneMoveResult : Prop :=
  (∀ (s : State) (f : Fmt) (d a b e : Reg) (m : Nat) (z : Bool) (x y t : Vec) (c1 c2 c3 : Core),
    s.Legal (.vshuf f d a b e) → s.me.pred = .ok (m, z) → s.me.readV a = .ok (x, c1) → c1.readV b = .ok (y, c2) → c2.readV e = .ok (t, c3) →
    let n := 512 / f.width
    let v := ofLanes f.width ((List.range n).map fun i =>
      let j := lane t f.width i % (2 * n)
      if j < n then lane x f.width j else lane y f.width (j - n))
    Claims.Gives s (.vshuf f d a b e) c3 d (BitVec.ofNat 512 v) m z 0) ∧
  (∀ (s : State) (f : Fmt) (d a b : Reg) (m : Nat) (z : Bool) (x y : Vec) (c1 c2 : Core),
    s.Legal (.vperm f d a b) → s.me.pred = .ok (m, z) → s.me.readV a = .ok (x, c1) → c1.readV b = .ok (y, c2) →
    let r := lanesOut f.width m fun i => (lane x f.width (lane y f.width i % (512 / f.width)), 0)
    Claims.Gives s (.vperm f d a b) c2 d r.1 (laneBytes m f.width) z 0) ∧
  (∀ (s : State) (f : Fmt) (d a : Reg) (m : Nat) (z : Bool) (x : Word) (c1 : Core),
    s.Legal (.vbcast f d a) → s.me.pred = .ok (m, z) → s.me.readS a = .ok (x, c1) →
    Claims.Gives s (.vbcast f d a) c1 d (BitVec.ofNat 512 (ofLanes f.width (List.replicate (512 / f.width) x.toNat))) (laneBytes m f.width) z 0) ∧
  (∀ (s : State) (f : Fmt) (d a : Reg) (m : Nat) (z : Bool) (x : Word) (c1 : Core),
    s.Legal (.viota f d a) → s.me.pred = .ok (m, z) → s.me.readS a = .ok (x, c1) →
    let r := lanesOut f.width m fun i => ((x.toNat + i) % 2 ^ f.width, 0)
    Claims.Gives s (.viota f d a) c1 d r.1 (laneBytes m f.width) z 0) ∧
  (∀ (s : State) (f : Fmt) (d a b : Reg) (m : Nat) (z : Bool) (x y : Word) (old : Vec) (c1 c2 c3 : Core),
    s.Legal (.vins f d a b) → s.me.pred = .ok (m, z) → s.me.readS a = .ok (x, c1) → c1.readS b = .ok (y, c2) → d.toNat < 32 → c2.readV d = .ok (old, c3) →
    let r := lanesOut f.width m fun i => (if i = y.toNat % (512 / f.width) then x.toNat % 2 ^ f.width else lane old f.width i, 0)
    Claims.Gives s (.vins f d a b) c3 d r.1 (laneBytes m f.width) z 0) ∧
  (∀ (s : State) (f : Fmt) (d a b : Reg) (m : Nat) (z : Bool) (x : Vec) (y : Word) (c1 c2 : Core),
    s.Legal (.vext f d a b) → s.me.pred = .ok (m, z) → s.me.readV a = .ok (x, c1) → c1.readS b = .ok (y, c2) → d.toNat < 56 →
    let j := y.toNat % (512 / f.width)
    exec (.vext f d a b) s = .next (s.done (.vext f d a b)
      (if active m f.width j then c2.writeS d.toNat (if (fmtInfo f).isSome then BitVec.ofNat 64 (lane x f.width j) else BitVec.ofInt 64 (Claims.ival f.width (lane x f.width j)))
       else if z then c2.writeS d.toNat 0 else c2)))

namespace Sys2Proof.Claims

/-- R60, R61: a format, its largest finite encoding, its smallest normal one, what it has for +infinity and for the canonical NaN. -/
def formatTable : List (FInfo × Nat × Nat × Option Nat × Option Nat) :=
  [(fi64, 0x7FEFFFFFFFFFFFFF, 0x0010000000000000, some 0x7FF0000000000000, some 0x7FF8000000000000),
   (fi32, 0x7F7FFFFF, 0x00800000, some 0x7F800000, some 0x7FC00000), (fiBf, 0x7F7F, 0x0080, some 0x7F80, some 0x7FC0),
   (fi16, 0x7BFF, 0x0400, some 0x7C00, some 0x7E00), (fiE4, 0x7E, 0x08, none, some 0x7F), (fiE5, 0x7B, 0x04, some 0x7C, some 0x7E), (fiF4, 0x7, 0x2, none, none)]

/-- The number that a value is; none for a NaN and an infinity. -/
def num : FVal → Option ℚ
  | .fin neg m e => some ((if neg then -1 else 1) * (m : ℚ) * (2 : ℚ) ^ e)
  | _ => none

/-- The number that an exact real stands for. -/
def exactly (x : Real') : ℚ := (if x.neg then -1 else 1) * (x.n : ℚ) * (2 : ℚ) ^ x.e

/-- A number with the precision of a format and its exponent range unbounded above (R72), or, where not `low`, in both directions (R78). -/
def Precise (i : FInfo) (low : Bool) (y : ℚ) : Prop :=
  ∃ m q : ℤ, |m| < 2 ^ (i.f + 1) ∧ (low = true → 1 - (i.bias : ℤ) - i.f ≤ q) ∧ y = (m : ℚ) * (2 : ℚ) ^ q

/-- The two neighbours of X. -/
def Neighbours (i : FInfo) (low : Bool) (lo X hi : ℚ) : Prop :=
  Precise i low lo ∧ Precise i low hi ∧ lo < X ∧ X < hi ∧ ∀ y, Precise i low y → y ≤ lo ∨ hi ≤ y

/-- The neighbour that a mode chooses (R72, R75); y has an even last fraction bit where it is an even number of steps hi - lo. -/
def chosen (rm : RMode) (g : Nat) (lo X hi : ℚ) : ℚ :=
  let even (y : ℚ) : Bool := (y / (hi - lo)).num % 2 == 0
  match rm with
  | .rne => if X - lo < hi - X then lo else if hi - X < X - lo then hi else if even lo then lo else hi
  | .rtz => if 0 < X then lo else hi
  | .rdn => lo
  | .rup => hi
  | .rna => if X - lo < hi - X then lo else if hi - X < X - lo then hi else if 0 < X then hi else lo
  | .sr => if (g : ℚ) * (hi - lo) < (X - lo) * 2 ^ 32 then hi else lo

/-- What an overflow delivers (R76, R77), as an encoding of the format `p` of the table. -/
def overflowed (p : FInfo × Nat × Nat × Option Nat × Option Nat) (rm : RMode) (sat neg : Bool) : Nat :=
  let sign := if neg then 2 ^ (p.1.w - 1) else 0
  let infinite := !sat && (match rm, neg with | .rne, _ => true | .rna, _ => true | .sr, _ => true | .rdn, true => true | .rup, false => true | _, _ => false)
  if !infinite then sign + p.2.1
  else match p.2.2.2.1, p.2.2.2.2 with
    | some inf, _ => sign + inf
    | none, some nan => nan
    | none, none => sign + p.2.1

/-- R60, R72, R75 to R78: the one rounding, at every format of the table. An encoding is its value; an exact number delivers the neighbour of the mode, or itself where the
format has it; it overflows where that lies beyond the largest finite number, and is tiny where its rounding with the exponent unbounded both ways lies below
the smallest normal one. -/
def Rounding : Prop :=
  ∀ p ∈ formatTable,
    let i := p.1
    let max : ℚ := (num (i.decode p.2.1)).getD 0
    let normal : ℚ := (num (i.decode p.2.2.1)).getD 0
    (∀ x, x < 2 ^ i.w →
      let E : ℕ := x / 2 ^ i.f % 2 ^ i.eb
      let m : ℚ := ((x % 2 ^ i.f : ℕ) : ℚ)
      let sg : ℚ := if x.testBit (i.w - 1) then -1 else 1
      num (i.decode x) ≠ none → num (i.decode x) =
        some (sg * (if E = 0 then m / 2 ^ i.f * (2 : ℚ) ^ (1 - (i.bias : ℤ)) else (1 + m / 2 ^ i.f) * (2 : ℚ) ^ ((E : ℤ) - i.bias)))) ∧
    (∀ (rm : RMode) (sat : Bool) (g : Nat) (x : Real'), x.sticky = false → g < 2 ^ 32 →
      let X := exactly x
      let r := i.round rm sat g x
      let sign := if x.neg then 2 ^ (i.w - 1) else 0
      (x.n = 0 → r = (sign, 0)) ∧
      (x.n ≠ 0 → Precise i true X → |X| ≤ max → r.1 < 2 ^ i.w ∧ num (i.decode r.1) = some X ∧ r.2 = 0) ∧
      (x.n ≠ 0 → Precise i true X → max < |X| → r = (overflowed p rm sat x.neg, flOF ||| flNX)) ∧
      (∀ lo hi, Neighbours i true lo X hi →
        let R := chosen rm g lo X hi
        (max < |R| → r = (overflowed p rm sat x.neg, flOF ||| flNX)) ∧
        (|R| ≤ max → r.1 < 2 ^ i.w ∧ num (i.decode r.1) = some R ∧ r.1.testBit (i.w - 1) = x.neg ∧
          (∀ lo' hi', Neighbours i false lo' X hi' → r.2 = if |chosen rm g lo' X hi'| < normal then flUF ||| flNX else flNX) ∧
          (Precise i false X → r.2 = if |X| < normal then flUF ||| flNX else flNX)))) ∧
    -- sums and products of numbers are exact before they are rounded; the sign of an exact zero (R95, R115)
    (∀ (rm : RMode) (sat : Bool) (g : Nat) (s t : Bool) (m n : Nat) (e f : Int),
      (∃ x : Real', x.sticky = false ∧ exactly x = (num (.fin s m e)).getD 0 + (num (.fin t n f)).getD 0 ∧
        (exactly x = 0 → x.neg = if s = t then s else rm == .rdn) ∧ i.add rm sat g (.fin s m e) (.fin t n f) = i.round rm sat g x) ∧
      (∃ x : Real', x.sticky = false ∧ exactly x = (num (.fin s m e)).getD 0 * (num (.fin t n f)).getD 0 ∧ x.neg = (s != t) ∧
        i.mul rm sat g (.fin s m e) (.fin t n f) = i.round rm sat g x) ∧
      (∀ (u : Bool) (k : Nat) (q : Int), ∃ x : Real', x.sticky = false ∧
        exactly x = (num (.fin s m e)).getD 0 * (num (.fin t n f)).getD 0 + (num (.fin u k q)).getD 0 ∧
        (exactly x = 0 → x.neg = if (s != t) = u then u else rm == .rdn) ∧
        i.fma rm sat g (.fin s m e) (.fin t n f) (.fin u k q) = i.round rm sat g x)) ∧
    -- NaN and infinite operands (R62, R76, R77)
    (∀ (rm : RMode) (sat : Bool) (g : Nat) (v : FVal) (s : Bool) (nan : Nat), p.2.2.2.2 = some nan →
      i.add rm sat g .nan v = (nan, 0) ∧ i.add rm sat g v .nan = (nan, 0) ∧ i.mul rm sat g .nan v = (nan, 0) ∧ i.mul rm sat g v .nan = (nan, 0) ∧
      i.add rm sat g (.inf s) (.inf !s) = (nan, flNV) ∧ (∀ t e, i.mul rm sat g (.inf s) (.fin t 0 e) = (nan, flNV) ∧ i.mul rm sat g (.fin t 0 e) (.inf s) = (nan, flNV)) ∧
      (∀ inf, p.2.2.2.1 = some inf → i.add rm sat g (.inf s) (.inf s) = ((if s then 2 ^ (i.w - 1) else 0) + inf, 0)))

/-- R65, R66: a block of 32 values quantised. A NaN among them gives the NaN scale; else the scale byte comes from the largest finite magnitude, an infinity is clipped, and
a finite number is rounded without overflow and clamped. The INT8 element's flags are log entry 63. -/
def Quantising : Prop :=
  ∀ (f : Fmt) (v : Env) (vs : List FVal), f = .bx8e4 ∨ f = .bx8e5 ∨ f = .bx4 ∨ f = .bxi8 → vs.length = 32 →
    let w := if f = .bx4 then 4 else 8
    let emax : Int := match f with | .bx8e4 => 8 | .bx8e5 => 15 | .bx4 => 2 | _ => 6
    let r := quantBlock f v vs
    let elem (j : Nat) : Nat := r.1 / 2 ^ (w * j) % 2 ^ w
    let e : Nat := r.1 / 2 ^ (w * 32)
    ((∃ x ∈ vs, x = .nan) → e = 255 ∧ (∀ j, j < 32 → elem j = 0) ∧ r.2 = flNANSC) ∧
    ((∀ x ∈ vs, x ≠ .nan) →
      let fin (a : ℚ) : Prop := ∃ x ∈ vs, ∃ y, num x = some y ∧ |y| = a
      (∀ a, fin a → (∀ b, fin b → b ≤ a) → (a = 0 → e = 127) ∧
        (∀ k : ℤ, (2 : ℚ) ^ k ≤ a → a < (2 : ℚ) ^ (k + 1) → (e : Int) = Min.min (Max.max (k - emax + 127) 0) 254)) ∧
      ((∀ x ∈ vs, num x = none) → e = 127) ∧
      (∀ j neg, vs[j]? = some (.inf neg) → elem j = (match f with
        | .bx8e4 => if neg then 0xFE else 0x7E | .bx8e5 => if neg then 0xFB else 0x7B | .bx4 => if neg then 0xF else 0x7 | _ => if neg then 0x81 else 0x7F)) ∧
      (∀ (o : FInfo) (j : Nat) (neg : Bool) (m : Nat) (x : Int), (f = .bx8e4 ∧ o = fiE4) ∨ (f = .bx8e5 ∧ o = fiE5) ∨ (f = .bx4 ∧ o = fiF4) →
        vs[j]? = some (.fin neg m x) → elem j = (o.round v.rm true (v.g j) ⟨neg, m, x - ((e : Int) - 127), false⟩).1) ∧
      (f = .bxi8 → ∀ j X, (vs[j]?.bind num) = some X →
        let y := X * (2 : ℚ) ^ (127 - (e : ℤ))
        let n := y.floor
        let R : ℤ := if y = n then n else if chosen v.rm (v.g j) n y (n + 1) = n then n else n + 1
        ((BitVec.ofNat 8 (elem j)).toInt = Max.max (-127) (Min.min R 127))) ∧
      (r.2 &&& flINFCLIP ≠ 0 ↔ ∃ x ∈ vs, ∃ neg, x = .inf neg) ∧ r.2 &&& flOF = 0 ∧ r.2 &&& flNV = 0 ∧ r.2 &&& flNANSC = 0)

end Sys2Proof.Claims

/-- R128 and R129: the counter generator, and VRND on it, which reads nothing but its operands.
R60, R61, R72, R75 to R78: the rounding on which every floating-point result rests, the draw among it; R65, R66: block quantisation. -/
def Obligations.GeneratorAndRounding : Prop :=
  Claims.Rounding ∧ Claims.Quantising ∧
  (∀ key ctr : BitVec 32,
    let x0 := ctr + key
    let x1 := x0 ^^^ (x0 >>> 16)
    let x2 := x1 * 0x6C8E9CF5#32
    let x3 := x2 ^^^ (x2 >>> 15)
    let x4 := x3 * 0x9E4D2B57#32
    BitVec.ofNat 32 (genG key.toNat ctr.toNat) = x4 ^^^ (x4 >>> 16) ∧ genG key.toNat ctr.toNat < 2 ^ 32) ∧
  (∀ (s : State) (f : Fmt) (d a b : Reg) (m : Nat) (z : Bool) (x y : Word) (c1 c2 : Core),
    s.Legal (.vrnd f d a b) → s.me.pred = .ok (m, z) → s.me.readS a = .ok (x, c1) → c1.readS b = .ok (y, c2) →
    let g := fun i => genG (x.toNat % 2 ^ 32) ((y.toNat % 2 ^ 32 + i) % 2 ^ 32)
    let r := lanesOut 32 m fun i => (if f = .f32 then (fi32.round .rne false 0 ⟨false, g i / 2 ^ 8, -24, false⟩).1 else g i, 0)
    Claims.Gives s (.vrnd f d a b) c2 d r.1 (laneBytes m 32) z 0)

/-- R121 to R123, R82, with R79 and R80: reductions, the scan and the dot product over the active lanes.
The sign of a zero dot product (log entry 20) and VREDS of a single NaN lane, delivered canonical (log entry 19), are the model's readings. -/
def Obligations.ReductionResult : Prop :=
  (∀ (s : State) (f : Fmt) (d a : Reg) (m : Nat) (z : Bool) (x : Vec) (c1 : Core),
    s.Legal (.vreds f d a) → s.me.pred = .ok (m, z) → s.me.readV a = .ok (x, c1) →
    let l := activeLanes f.width m x
    (fmtInfo f = none → Claims.GivesS s (.vreds f d a) c1 d (BitVec.ofInt 64 ((l.filterMap id).map (Claims.ival f.width)).sum) 0) ∧
    (∀ o, fmtInfo f = some o →
      let r := redTree (fun p x y => o.add s.me.env.rm s.me.env.sat (s.me.env.g p) (o.decode x) (o.decode y)) 7 0 l
      Claims.GivesS s (.vreds f d a) c1 d (BitVec.ofNat 64 (if (o.decode (r.1.getD 0)).isNan then o.nanBits else r.1.getD 0)) r.2)) ∧
  (∀ (s : State) (f : Fmt) (mx : Bool) (d a : Reg) (m : Nat) (z : Bool) (x : Vec) (c1 : Core),
    let i : Instr := if mx then .vredx f d a else .vredn f d a
    s.Legal i → s.me.pred = .ok (m, z) → s.me.readV a = .ok (x, c1) →
    let l := (activeLanes f.width m x).filterMap id
    (∀ o, fmtInfo f = some o → Claims.GivesS s i c1 d (BitVec.ofNat 64 (l.foldl (o.minmax mx) o.nanBits)) 0) ∧
    (fmtInfo f = none → l = [] → Claims.GivesS s i c1 d (BitVec.ofInt 64 (if mx then -(2 ^ (f.width - 1)) else 2 ^ (f.width - 1) - 1)) 0) ∧
    (fmtInfo f = none → ∀ v ∈ l, (∀ u ∈ l, if mx then Claims.ival f.width u ≤ Claims.ival f.width v else Claims.ival f.width v ≤ Claims.ival f.width u) →
      Claims.GivesS s i c1 d (BitVec.ofInt 64 (Claims.ival f.width v)) 0)) ∧
  (∀ (s : State) (f : Fmt) (d a : Reg) (m : Nat) (z : Bool) (x : Vec) (c1 : Core),
    s.Legal (.vscan f d a) → s.me.pred = .ok (m, z) → s.me.readV a = .ok (x, c1) →
    let first := fun v => match fmtInfo f with | some o => if (o.decode v).isNan then o.nanBits else v | none => v
    let op := Claims.elem2 (fun o e i x y => o.add e.rm e.sat (e.g i) (o.decode x) (o.decode y)) (fun x y => x + y) f s.me.env
    let r := scanGo first op 0 none (activeLanes f.width m x)
    Claims.Gives s (.vscan f d a) c1 d (BitVec.ofNat 512 (ofLanes f.width r.1)) (laneBytes m f.width) z r.2) ∧
  (∀ (s : State) (f : Fmt) (bc : Bool) (d a b : Reg) (m : Nat) (z : Bool) (x y acc : Vec) (c1 c2 c3 : Core),
    s.Legal (.vdot f bc d a b) → s.me.pred = .ok (m, z) → s.me.readV a = .ok (x, c1) → c1.readVB bc 32 b = .ok (y, c2) → d.toNat < 32 → c2.readV d = .ok (acc, c3) →
    let w := f.width
    let e := s.me.env
    let pairs := fun j => (List.range (32 / w)).map fun t => (lane x w (32 / w * j + t), lane y w (32 / w * j + t))
    (fmtInfo f = none →
      let r := lanesOut 32 m fun j => (Claims.irep e 32 (Claims.ival 32 (lane acc 32 j) + ((pairs j).map fun p => Claims.ival w p.1 * Claims.ival w p.2).sum), 0)
      Claims.Gives s (.vdot f bc d a b) c3 d r.1 (laneBytes m 32) z r.2) ∧
    (∀ o, fmtInfo f = some o →
      let r := lanesOut 32 m fun j =>
        let q := dotGroup o (e.rm == .rdn) (pairs j)
        let v := FVal.addX (e.rm == .rdn) (fi32.decode (lane acc 32 j)) q.1
        let u := fi32.deliver e.rm e.sat (e.g j) v.1
        (u.1, u.2 ||| if q.2 || v.2 then flNV else 0)
      Claims.Gives s (.vdot f bc d a b) c3 d r.1 (laneBytes m 32) z r.2))

/-- R124, R125: the order of keys: numbers by value, -0 before +0, NaN keys after every number, reversed among numbers where descending, INT32 signed.
VSORT writes the stable sort of its 16 entries; VMRG the first 16 entries of the stable sort of both pairs, where each is sorted. -/
def Obligations.SortingResult : Prop :=
  (∀ (dn : Bool) (x y : Nat), x < 2 ^ 32 → y < 2 ^ 32 →
    let a := fi32.decode x
    let b := fi32.decode y
    (a = .nan → keyBefore .f32 dn x y = false) ∧ (a ≠ .nan → b = .nan → keyBefore .f32 dn x y = true) ∧
    (a ≠ .nan → b ≠ .nan → keyBefore .f32 true x y = keyBefore .f32 false y x) ∧
    (∀ p q, Claims.num a = some p → Claims.num b = some q → (keyBefore .f32 false x y = true ↔ p < q ∨ (p = q ∧ x.testBit 31 = true ∧ y.testBit 31 = false))) ∧
    (∀ q, Claims.num b = some q → (a = .inf true → keyBefore .f32 false x y = true) ∧ (a = .inf false → keyBefore .f32 false x y = false)) ∧
    (∀ p, Claims.num a = some p → (b = .inf true → keyBefore .f32 false x y = false) ∧ (b = .inf false → keyBefore .f32 false x y = true)) ∧
    (∀ s t, a = .inf s → b = .inf t → keyBefore .f32 false x y = (s && !t)) ∧
    (keyBefore .i32 dn x y = true ↔ if dn then (BitVec.ofNat 32 y).toInt < (BitVec.ofNat 32 x).toInt else (BitVec.ofNat 32 x).toInt < (BitVec.ofNat 32 y).toInt)) ∧
  (∀ (s : State) (f : Fmt) (dn : Bool) (d : Reg) (m : Nat) (z : Bool) (x y : Vec) (c1 c2 : Core),
    s.Legal (.vsort f dn d) → s.me.pred = .ok (m, z) → s.me.readV d = .ok (x, c1) → c1.readV (d + 1) = .ok (y, c2) →
    ∃ l, Claims.SortOf f dn (Claims.entries x y) l ∧ ∀ c3 c4, c2.putV d (Claims.keysOf l) m z = .ok c3 → c3.putV (d + 1) (Claims.payloadOf l) m z = .ok c4 →
      exec (.vsort f dn d) s = .next (s.doneOut (.vsort f dn d) c4)) ∧
  (∀ (s : State) (f : Fmt) (dn : Bool) (d a : Reg) (m : Nat) (z : Bool) (x y u v : Vec) (c1 c2 c3 c4 : Core),
    s.Legal (.vmrg f dn d a) → s.me.pred = .ok (m, z) → s.me.readV d = .ok (x, c1) → c1.readV (d + 1) = .ok (y, c2) →
    c2.readV a = .ok (u, c3) → c3.readV (a + 1) = .ok (v, c4) →
    ∃ l, (∀ c5 c6, c4.putV d (Claims.keysOf l) m z = .ok c5 → c5.putV (d + 1) (Claims.payloadOf l) m z = .ok c6 →
        exec (.vmrg f dn d a) s = .next (s.doneOut (.vmrg f dn d a) c6)) ∧
      ((Claims.entries x y).Pairwise (fun p q => keyBefore f dn q.1 p.1 = false) → (Claims.entries u v).Pairwise (fun p q => keyBefore f dn q.1 p.1 = false) →
        ∃ k, Claims.SortOf f dn (Claims.entries x y ++ Claims.entries u v) k ∧ l = k.take 16))

/-- R117 to R119, with R79 and R80: conversions between formats, block quantisation and its inverse, and the WS352 cell.
The lanes that VWSC.to adds one by one (log entry 64) and the flags of a BXI8 element (log entry 63) are the model's choice. -/
def Obligations.ConversionResult : Prop :=
  (∀ (s : State) (src dst : Fmt) (part : BitVec 4) (d a : Reg) (m : Nat) (z : Bool) (x : Vec) (c1 c' : Core),
    s.Legal (.vcvt src dst part d a) → s.me.pred = .ok (m, z) → s.me.readV a = .ok (x, c1) →
    let n := 512 / Max.max src.width dst.width
    let si := fun j => if src.width < dst.width then part.toNat * n + j else j
    let di := fun j => if dst.width < src.width then part.toNat * n + j else j
    let r := fun j => convert src dst s.me.env (di j) (lane x src.width (si j))
    let v := ofLanes dst.width ((List.replicate (di 0) 0) ++ (List.range n).map fun j => (r j).1)
    let bytes := (2 ^ (n * dst.width / 8) - 1) * 2 ^ (di 0 * dst.width / 8)
    let fl := (List.range n).foldl (fun t j => t ||| (r j).2) 0
    let i : Instr := .vcvt src dst part d a
    (c1.putPart d (BitVec.ofNat 512 v) bytes m z = .ok c' → s.me.Quiet fl → exec i s = .next (s.doneOut i (c'.flagged i fl))) ∧ Claims.TrapsOn s i fl) ∧
  (∀ (s : State) (f : Fmt) (d a : Reg) (m : Nat) (z : Bool) (x y : Vec) (c1 c2 : Core),
    s.Legal (.vqnt f d a) → s.me.pred = .ok (m, z) → s.me.readV a = .ok (x, c1) → c1.readV (a + 1) = .ok (y, c2) →
    let r := quantBlock f s.me.env ((lanes x 32 16 ++ lanes y 32 16).map fi32.decode)
    Claims.Gives s (.vqnt f d a) c2 d (BitVec.ofNat 512 r.1) m z r.2) ∧
  (∀ (s : State) (f : Fmt) (d a : Reg) (m : Nat) (z : Bool) (x : Vec) (c1 c2 c3 : Core),
    s.Legal (.vdq f d a) → s.me.pred = .ok (m, z) → s.me.readV a = .ok (x, c1) →
    let e := s.me.env
    let r := (blockValues f x.toNat).mapIdx fun j v => fi32.deliver e.rm e.sat (e.g j) v
    let fl := r.foldl (fun t q => t ||| q.2) 0
    (c1.putV d (BitVec.ofNat 512 (ofLanes 32 ((r.map (·.1)).take 16))) m z = .ok c2 →
      c2.putV (d + 1) (BitVec.ofNat 512 (ofLanes 32 ((r.map (·.1)).drop 16))) m z = .ok c3 → s.me.Quiet fl →
      exec (.vdq f d a) s = .next (s.doneOut (.vdq f d a) (c3.flagged (.vdq f d a) fl))) ∧ Claims.TrapsOn s (.vdq f d a) fl) ∧
  (∀ (s : State) (f : Fmt) (d a e : Reg) (m : Nat) (z : Bool) (x y : Vec) (c1 c2 : Core),
    s.Legal (.vwscTo f d a e) → s.me.pred = .ok (m, z) → s.me.readV a = .ok (x, c1) → c1.readV e = .ok (y, c2) →
    let vs := match fmtInfo f with | some o => (lanes x f.width (512 / f.width)).map o.decode | none => blockValues f x.toNat
    let r := vs.foldl (fun t v => t.add (WCell.ofVal v)) (WCell.ofNat (y.toNat % 2 ^ 384))
    Claims.Gives s (.vwscTo f d a e) c2 d (BitVec.ofNat 512 r.toNat) m z 0) ∧
  (∀ (s : State) (f : Fmt) (o : FInfo) (d a : Reg) (m : Nat) (z : Bool) (x : Vec) (c1 : Core),
    s.Legal (.vwscFrom f d a) → fmtInfo f = some o → s.me.pred = .ok (m, z) → s.me.readV a = .ok (x, c1) →
    let r := (WCell.ofNat (x.toNat % 2 ^ 384)).deliver o s.me.env 0
    Claims.Gives s (.vwscFrom f d a) c1 d (BitVec.ofNat 512 r.1) m z r.2)

/-- R86: an active lane of a vector result stands in v[D], an inactive one keeps its value or is 0; a lane computes where its bit floor(i w / 8) is set.
R34, R35, R231: a vector operand is a register or the next item of a bound input stream; a stream in the wrong direction, unbound or at its end
traps with STREAM; an empty buffer waits; an output stream takes a whole vector, unselected bytes 0, while fewer than 4 items pushed to it await writing.
A register that an outstanding load is still to write is neither read nor written before (R130). The corners of merging stream operands are log entry 21. -/
def Obligations.VectorOperandForms : Prop :=
  (∀ w ∈ [4, 8, 16, 32, 64], ∀ (c c' : Core) (d : Reg) (m : Nat) (z : Bool) (f : Nat → Nat × FFlags),
     d.toNat < 32 → (∀ i, (f i).1 < 2 ^ w) → c.putV d (lanesOut w m f).1 (laneBytes m w) z = .ok c' →
     (∀ i, i < 512 / w → lane (c'.vreg d.toNat) w i = if m.testBit (i * w / 8) then (f i).1 else if z then 0 else lane (c.vreg d.toNat) w i) ∧
     (∀ j : Fin 7, (lanesOut w m f).2.getLsbD j = (List.range (512 / w)).any fun i => m.testBit (i * w / 8) && (f i).2.getLsbD j) ∧
     (∀ n, n ≠ d.toNat → c'.vreg n = c.vreg n) ∧ c' = { c with v := c'.v, poison := c'.poison }) ∧
  (∀ (c : Core) (r : Reg),
     (r.toNat < 32 → (∃ l ∈ c.late, ∃ bm z, l.dst = .v r.toNat bm z) → c.readV r = .error .stall ∧ ∀ x m z, c.putV r x m z = .error .stall) ∧
     (r.toNat < 32 → (∀ l ∈ c.late, ∀ bm z, l.dst ≠ .v r.toNat bm z) → (∀ p ∈ c.poison.v, p.1 ≠ r.toNat) → c.readV r = .ok (c.vreg r.toNat, c)) ∧
     (∀ p ∈ c.poison.v, p.1 = r.toNat → r.toNat < 32 → (∀ l ∈ c.late, ∀ bm z, l.dst ≠ .v r.toNat bm z) → c.readV r = .error (.trap .memue (BitVec.ofNat 64 (0xFF00000000000100 + r.toNat)))) ∧
     (32 ≤ r.toNat →
       let q := c.strmAt (r.toNat - 32)
       let bad : Cause × Word := (.stream, BitVec.ofNat 64 (r.toNat - 32))
       (q.bound = false ∨ q.output = true ∨ strmItems q.desc ≤ q.next → c.readV r = .error (.trap bad.1 bad.2)) ∧
       (q.bound = true → q.output = false → q.next < strmItems q.desc →
         (q.buf = [] → c.readV r = .error .stall) ∧
         (∀ a t, q.buf = .bad a :: t → c.readV r = .error (.trap .memue a)) ∧
         (∀ v t, q.buf = .ok v :: t → c.readV r = .ok (v, c.setStrm (r.toNat - 32) { q with buf := t, next := q.next + 1 }))) ∧
       ∀ x m z,
         (q.bound = false ∨ q.output = false ∨ strmItems q.desc ≤ q.next → c.putV r x m z = .error (.trap bad.1 bad.2)) ∧
         (q.bound = true → q.output = true → q.next < strmItems q.desc →
           let n := r.toNat - 32
           let pushed := c.pushedTo n + (c.outq.filter fun p => p.1 = n).length
           (4 ≤ pushed → c.putV r x m z = .error .stall) ∧
           (pushed < 4 → c.putV r x m z = .ok { c.setStrm n { q with next := q.next + 1 } with outq := c.outq ++ [(n, q.next, x &&& byteMask m)] }))))

/-! ### Memory accesses (R33, R103 to R110, R182 to R191) -/

namespace Sys2Proof.Claims

/-- s[A] plus a 12-bit displacement (R104). -/
def eaShort (c : Core) (a : Reg) (imm : BitVec 12) : M (Word × Core) :=
  match c.readS a with
  | .ok (x, c) => .ok (BitVec.ofInt 64 (x.toNat + imm.toInt), c)
  | .error e => .error e

/-- s[A] + s[B] · 2^scale + disp (R33), A read before B. -/
def eaLong (c : Core) (m : MemOp) : M (Word × Core) :=
  match c.readS m.a with
  | .ok (x, c) => match c.readS m.b with
    | .ok (y, c) => .ok (BitVec.ofInt 64 (x.toNat + y.toNat * 2 ^ m.scale.toNat + m.disp.toInt), c)
    | .error e => .error e
  | .error e => .error e

/-- The plain scalar loads (R104, R105, R109): size, destination, address. -/
def loadOf (c : Core) : Instr → Option (LdSize × Reg × M (Word × Core))
  | .ldb d a imm => some (.b, d, eaShort c a imm)
  | .ldbu d a imm => some (.bu, d, eaShort c a imm)
  | .ldh d a imm => some (.h, d, eaShort c a imm)
  | .ldhu d a imm => some (.hu, d, eaShort c a imm)
  | .ldw d a imm => some (.w, d, eaShort c a imm)
  | .ldwu d a imm => some (.wu, d, eaShort c a imm)
  | .ldd d a imm => some (.d, d, eaShort c a imm)
  | .ldx z d m => some (z, d, eaLong c m)
  | .ldi z d m => some (z, d, eaLong c m)
  | _ => none

/-- The plain scalar stores (R104, R105): bytes, source, address. -/
def storeOf (c : Core) : Instr → Option (Nat × Reg × M (Word × Core))
  | .stb b a imm => some (1, b, eaShort c a imm)
  | .sth b a imm => some (2, b, eaShort c a imm)
  | .stw b a imm => some (4, b, eaShort c a imm)
  | .std b a imm => some (8, b, eaShort c a imm)
  | .stx z d m => some ((match z with | .b => 1 | .h => 2 | .w => 4 | .d => 8), d, eaLong c m)
  | _ => none

/-- Bytes of a load, and the value it writes from them: sign- or zero-extended (R104, R105). -/
def sizeOf : LdSize → Nat
  | .b => 1 | .bu => 1 | .h => 2 | .hu => 2 | .w => 4 | .wu => 4 | .d => 8
def extended : LdSize → Nat → Word
  | .b, x => (BitVec.ofNat 8 x).signExtend 64
  | .h, x => (BitVec.ofNat 16 x).signExtend 64
  | .w, x => (BitVec.ofNat 32 x).signExtend 64
  | _, x => BitVec.ofNat 64 x

/-- The little-endian number of n bytes that f gives. -/
def little (f : Nat → Byte) : Nat → Nat
  | 0 => 0
  | n + 1 => little f n + (f n).toNat * 2 ^ (8 * n)

/-- R103 lets core i access the n aligned bytes at va, which stand at key k, under the translation e. -/
def Allowed (s : State) (i : Nat) (acc : Access) (va : Word) (n k : Nat) (e : Option TlbEntry) : Prop :=
  s.chkItem1 i va n = none ∧ s.chk34 i acc va.toNat = .ok (k, e) ∧ s.meetsPoison i acc k = false

/-- A load that no acquire orders (R109, R197). -/
def invariant : Instr → Bool
  | .ldi .. | .vldi .. => true
  | _ => false

/-- A load of these bytes sign-extends (R104, R105). -/
def signedOf : LdSize → Bool
  | .b | .h | .w => true
  | _ => false

/-- The bytes of v that the checked lanes store, in the order of the lanes: key and byte. -/
def laneBytesOf (v : Vec) (ps : List (LaneAt × List (Word × Nat × Nat))) : List (Nat × Byte) :=
  ps.flatMap fun l => l.2.zipIdx.flatMap fun w => (List.range w.1.2.2).map fun j =>
    (w.1.2.1 + j, BitVec.ofNat 8 (v.toNat / 2 ^ (8 * (l.1.i * l.1.n + 4 * w.2 + j))))

/-- Cores other than k, the memory at the homes, launches, commands and partitions are the same. -/
def Elsewhere (s t : State) (k : Nat) : Prop :=
  (∀ j, j ≠ k → t.core j = s.core j) ∧ t.mem = s.mem ∧ t.mpoison = s.mpoison ∧ t.launches = s.launches ∧ t.cmds = s.cmds ∧ t.parts = s.parts

/-- The registers of the core, but for s[d], and its system registers are the same. -/
def RegsBut (c c' : Core) (d : Nat) : Prop :=
  (∀ r, r ≠ d → c'.sreg r = c.sreg r) ∧ c'.v = c.v ∧ c'.k = c.k ∧ c'.sys = c.sys ∧ c'.shadow = c.shadow

/-- Control has passed on after an instruction of n bytes (R28, R40). -/
def Passed (c c' : Core) (n : Nat) : Prop := c'.pc = (match c.slot with | some t => t | none => c.pc + BitVec.ofNat 64 n) ∧ c'.slot = none ∧ c'.pfx = []

end Sys2Proof.Claims

/-- R104, R105, R109, R184: a plain scalar load that R103 allows writes s[D] from the bytes the core sees: its own latest stores first, then its line
copy, then the home. Memory and the store buffer stay as they are.
R130: a load that is left outstanding leaves every register as it was, and its destination waits for it.
R104, R105, R130, R182: a plain scalar store that R103 allows puts its bytes into the store buffer: its own core sees them, the homes do not yet. A byte has one
place (State.alias) also while its page is under migration (R350).
The line copies are log entry 12, own stores over poison log entry 15, which loads are left outstanding log entry 16. -/
def Obligations.ScalarAccessResult : Prop :=
  (∀ (s : State) (i : Instr) (z : LdSize) (d : Reg) (ea : Word) (c : Core) (k : Nat) (e : Option TlbEntry),
     s.Legal i → Claims.loadOf s.me i = some (z, d, .ok (ea, c)) → d.toNat < 56 → ea.toNat % Claims.sizeOf z = 0 →
     let s0 := s.setCore s.cur c
     Claims.Allowed s0 s.cur .load ea (Claims.sizeOf z) k e → c.loads < 32 → s.granuleBusy k = false → s0.awaits s.cur k (Claims.sizeOf z) = false →
     ∃ t, exec i s = .next t ∧
       (c.defer = false ∨ Claims.invariant i = true ∨ s.poisoned k = true →
         (d ≠ 0 → (t.core s.cur).sreg d.toNat = Claims.extended z (Claims.little (fun j => s0.loadByte s.cur (Claims.invariant i) (k + j)) (Claims.sizeOf z))) ∧
         Claims.RegsBut c (t.core s.cur) d.toNat) ∧
       (c.defer = true → Claims.invariant i = false → s.poisoned k = false →
         (∃ q ∈ (t.core s.cur).late, q.dst = .s d.toNat (Claims.sizeOf z) (Claims.signedOf z) ∧ q.parts = [⟨ea, k, Claims.sizeOf z, 0⟩] ∧ q.strong = false) ∧
         Claims.RegsBut c (t.core s.cur) 0 ∧ (d ≠ 0 → (t.core s.cur).readS d = .error .stall) ∧ (t.core s.cur).defer = false) ∧
       (t.core s.cur).loads = c.loads + 1 ∧ (t.core s.cur).sb = c.sb ∧
       Claims.Passed (s.core s.cur) (t.core s.cur) i.len ∧ Claims.Elsewhere s t s.cur) ∧
  (∀ (s : State) (i : Instr) (n : Nat) (src : Reg) (ea x : Word) (c0 c : Core) (k : Nat) (e : Option TlbEntry),
     s.Legal i → Claims.storeOf s.me i = some (n, src, .ok (ea, c0)) → c0.readS src = .ok (x, c) → ea.toNat % n = 0 →
     let s0 := s.setCore s.cur c
     Claims.Allowed s0 s.cur .store ea n k e → c.stores < 64 → (∀ j, j < n → s0.awaits s.cur (k + j) 1 = false) →
     ∃ t q, exec i s = .next t ∧ (t.core s.cur).sb = c.sb ++ [q] ∧ q.bytes = at_ k n x.toNat ∧ q.strong = false ∧
       (∀ inv j, j < n → (∀ h, j < h → h < n → s.alias (k + h) ≠ s.alias (k + j)) → t.loadByte s.cur inv (k + j) = BitVec.ofNat 8 (x.toNat / 2 ^ (8 * j))) ∧
       (∀ inv a, (∀ j, j < n → s.alias a ≠ s.alias (k + j)) → t.loadByte s.cur inv a = s0.loadByte s.cur inv a) ∧ (∀ a, t.byte a = s.byte a) ∧
       Claims.RegsBut c (t.core s.cur) 0 ∧ Claims.Passed (s.core s.cur) (t.core s.cur) i.len ∧ Claims.Elsewhere s t s.cur)

/-- R103, its order: a scalar access traps with PROT for the first of its bytes that fails item 1, else with ALIGN where it is misaligned, else with LEASE or what item 4 gives, else a
load that meets poison with MEMUE, EVAL its address; nothing else happens.
R103 items 1, 3 and 4: bits [63:56], the context save area, a lease, a translation, PEER pages, permissions, the backing. Item 5, R369: a load meets the poison of
its home, or of its own core's copy of the line, unless a store that it sees (its own, or one its cluster shares) will cover the unit; a store meets none.
How the items of R103 range over several bytes is log entry 28, the marks of a copy log entry 12, a covering store over poison log entry 15. -/
def Obligations.AccessChecks : Prop :=
  (∀ (s : State) (i : Instr) (n : Nat) (acc : Access) (ea : Word) (c : Core), s.Legal i →
     ((∃ z d, Claims.loadOf s.me i = some (z, d, .ok (ea, c)) ∧ n = Claims.sizeOf z ∧ acc = .load) ∨
       (∃ src x c0, Claims.storeOf s.me i = some (n, src, .ok (ea, c0)) ∧ c0.readS src = .ok (x, c) ∧ acc = .store)) →
     let s0 := s.setCore s.cur c
     (∀ q v, s0.chkItem1 s.cur ea n = some (q, v) → exec i s = .next (s.traps i q v)) ∧
     (s0.chkItem1 s.cur ea n = none → ea.toNat % n ≠ 0 → exec i s = .next (s.traps i .align ea)) ∧
     (s0.chkItem1 s.cur ea n = none → ea.toNat % n = 0 →
       (∀ q, s0.chk34 s.cur acc ea.toNat = .error q → exec i s = .next (s.traps i q ea)) ∧
       (∀ k e, s0.chk34 s.cur acc ea.toNat = .ok (k, e) → acc = .load → s0.meetsPoison s.cur acc k = true → exec i s = .next (s.traps i .memue ea)))) ∧
  (∀ (s : State) (i : Nat),
     (∀ (va : Word) n q v, s.chkItem1 i va n = some (q, v) ↔
       ∃ j, j < n ∧ v = va + BitVec.ofNat 64 j ∧ s.chk1 i v.toNat = some q ∧ ∀ h, h < j → s.chk1 i (va + BitVec.ofNat 64 h).toNat = none) ∧
     (∀ k, s.meetsPoison i .store k = false ∧
       (∀ acc, (∃ e ∈ s.sbOf i, unitOf k ∈ e.clr) → s.meetsPoison i acc k = false) ∧
       ((∀ e ∈ s.sbOf i, unitOf k ∉ e.clr) →
         s.meetsPoison i .strongLoad k = s.poisoned k ∧ s.meetsPoison i .rmw k = s.poisoned k ∧
         ((∀ l ∈ (s.core i).l1d, l.la ≠ k / 64 * 64) → s.meetsPoison i .load k = s.poisoned k) ∧
         ∀ l t, (s.core i).l1d = l :: t → l.la = k / 64 * 64 → s.meetsPoison i .load k = l.bad.contains (unitOf k))) ∧
     (∀ va, 2 ^ 56 ≤ va → s.chk1 i va = some .prot) ∧
     (∀ x, x < 2 ^ 40 → s.chk1 i (0x00FFFF0000000000 + x) = if 2 ^ 17 ≤ x ∨ (s.isSup i = false ∧ 0x1E000 ≤ x) then some .prot else none) ∧
     (∀ x, x < 2 ^ 40 → s.chk1 i (0x00FFFE0000000000 + x) = if 2 ^ 22 ≤ x then some .prot else none) ∧
     (∀ va, va < 0x00FFFE0000000000 → s.chk1 i va = none) ∧
     (∀ acc x, x < 2 ^ 40 → s.chk34 i acc (0x00FFFF0000000000 + x) = match s.windowKey i true x with | some k => .ok (k, none) | none => .error .lease) ∧
     (∀ acc x, x < 2 ^ 40 → s.chk34 i acc (0x00FFFE0000000000 + x) = match s.windowKey i false x with | some k => .ok (k, none) | none => .error .lease) ∧
     (∀ acc va, va < 0x00FFFE0000000000 → s.isSup i = false → s.leased (s.partOf i) ((s.core i).run.getD 0) va = false → s.chk34 i acc va = .error .lease) ∧
     (∀ acc va, va < 0x00FFFE0000000000 → (s.isSup i = true ∨ s.leased (s.partOf i) ((s.core i).run.getD 0) va = true) →
       (s.lookup i false va = none → s.chk34 i acc va = .error .prot) ∧
       (∀ e, s.lookup i false va = some e →
         (e.type = 4 → s.chk34 i acc va = .error .peercore) ∧
         (e.type ≠ 4 → (acc.allowed e = false ∨ (s.isSup i = false ∧ e.u = false) ∨ s.backed (s.partOf i) e.type (e.pa va) = false ∨ e.type = 2) →
           s.chk34 i acc va = .error .prot) ∧
         (e.type ≠ 4 → e.type ≠ 2 → acc.allowed e = true → (s.isSup i = true ∨ e.u = true) → s.backed (s.partOf i) e.type (e.pa va) = true →
           s.chk34 i acc va = .ok (e.pa va, some e)))))

/-- R106 to R109: a vector load whose lanes pass R103 writes the lanes the predicate selects, from the addresses of its form; a vector store buffers
the lanes of v[D].
R106 to R108: the addresses: lane i stands at ea + i w / 8, at the stride, or at its index; a lane takes part where its predicate bit is set.
R184: a loaded byte is that of the latest store the core sees and that is still to be performed, else of its copy of the line, else of the home.
R130: a load that is left outstanding writes v[D] when its values come. The pieces of a store are log entry 14, the order of lanes log entry 28, which loads are left
outstanding log entry 16, the copies log entry 12. -/
def Obligations.VectorMemoryResult : Prop :=
  ((∀ (s : State) (i : Instr) (f : Fmt) (d : Reg) (p : MemOp) (m : Nat) (z : Bool) (x y : Word) (ix : Vec) (c1 c2 : Core) (ls : List LaneAt),
     s.Legal i → s.me.pred = .ok (m, z) → s.me.readS p.a = .ok (x, c1) →
     ((i = .vld f d p ∨ i = .vldi f d p) ∧ c1.readS p.b = .ok (y, c2) ∧
         ls = lanesDense f.width m (BitVec.ofInt 64 (x.toNat + y.toNat * 2 ^ p.scale.toNat + p.disp.toInt)) ∨
       i = .vlds f d p ∧ c1.readS p.b = .ok (y, c2) ∧
         ls = lanesStrided f.width m (BitVec.ofInt 64 (x.toNat + p.disp.toInt)) (BitVec.ofInt 64 (y.toInt * 2 ^ p.scale.toNat)) ∨
       i = .vgath f d p ∧ c1.readV p.b = .ok (ix, c2) ∧
         ls = lanesIndexed f.width m (BitVec.ofInt 64 (x.toNat + p.disp.toInt)) ix p.scale.toNat) →
     ∀ ps s1 s2, (s.setCore s.cur c2).checkLanes s.cur .load ls = .ok (ps, s1) → (if ls = [] then s2 = s1 else s1.issueLoad s.cur = .ok s2) →
       let parts := ps.flatMap fun p => latePartsOf (p.1.i * p.1.n) p.2
       let left : Prop := (s2.core s.cur).defer = true ∧ Claims.invariant i = false ∧ ls ≠ [] ∧ d.toNat < 32 ∧ (s2.core s.cur).pendingV d.toNat = false ∧
         s2.mayLeave s.cur parts = true
       (¬ left → ∀ xs s3 c3, s2.loadLanes s.cur (Claims.invariant i) ps = .ok (xs, s3) →
         (s3.core s.cur).putV d (BitVec.ofNat 512 (xs.map fun l => l.2.2 * 2 ^ (8 * l.1 * l.2.1)).sum)
           (xs.map fun l => (2 ^ l.2.1 - 1) * 2 ^ (l.1 * l.2.1)).sum z = .ok c3 →
         exec i s = .next (s.doneIn (((s3.watch s.cur (ps.flatMap fun p => placesOf p.2)).setCore s.cur c3).pushOut s.cur) i) ∧ s3.mem = s.mem) ∧
       (left → exec i s = .next (s.doneIn (s2.leave s.cur (.v d.toNat (ls.map fun l => (2 ^ l.n - 1) * 2 ^ (l.i * l.n)).sum z) false parts) i))) ∧
   (∀ (s : State) (i : Instr) (f : Fmt) (d : Reg) (p : MemOp) (m : Nat) (z : Bool) (x y : Word) (ix v : Vec) (c1 c2 c3 : Core) (ls : List LaneAt),
     s.Legal i → s.me.pred = .ok (m, z) → s.me.readS p.a = .ok (x, c1) →
     (i = .vst f d p ∧ c1.readS p.b = .ok (y, c2) ∧
         ls = lanesDense f.width m (BitVec.ofInt 64 (x.toNat + y.toNat * 2 ^ p.scale.toNat + p.disp.toInt)) ∨
       i = .vsts f d p ∧ c1.readS p.b = .ok (y, c2) ∧
         ls = lanesStrided f.width m (BitVec.ofInt 64 (x.toNat + p.disp.toInt)) (BitVec.ofInt 64 (y.toInt * 2 ^ p.scale.toNat)) ∨
       i = .vscat f d p ∧ c1.readV p.b = .ok (ix, c2) ∧
         ls = lanesIndexed f.width m (BitVec.ofInt 64 (x.toNat + p.disp.toInt)) ix p.scale.toNat) →
     c2.readV d = .ok (v, c3) →
     ∀ ps s1, (s.setCore s.cur c3).checkLanes s.cur .store ls = .ok (ps, s1) → (s1.core s.cur).stores < 64 →
       (∀ p ∈ Claims.laneBytesOf v ps, s1.awaits s.cur p.1 1 = false) →
       ∃ t, exec i s = .next t ∧ t.mem = s.mem ∧
         (∃ q, (t.core s.cur).sb = (s1.core s.cur).sb ++ q ∧
           ∀ a b, (∃ e ∈ q, (a, b) ∈ e.bytes) ↔ (Claims.laneBytesOf v ps).reverse.find? (fun p => p.1 = a) = some (a, b)) ∧
         Claims.RegsBut (s1.core s.cur) (t.core s.cur) 0 ∧ Claims.Elsewhere s t s.cur)) ∧
  ((∀ w ∈ [8, 16, 32, 64], ∀ (m : Nat) (ea : Word) (l : LaneAt), l ∈ lanesDense w m ea ↔
     l.i < 512 / w ∧ m.testBit (l.i * w / 8) = true ∧ l.va = ea + BitVec.ofNat 64 (l.i * w / 8) ∧ l.n = w / 8 ∧ l.mis = decide (ea.toNat % 4 ≠ 0)) ∧
   (∀ (m : Nat) (ea : Word) (l : LaneAt), l ∈ lanesDense 4 m ea ↔
     l.i < 64 ∧ m.testBit l.i = true ∧ l.va = ea + BitVec.ofNat 64 l.i ∧ l.n = 1 ∧ l.mis = decide (ea.toNat % 4 ≠ 0)) ∧
   (∀ w ∈ [8, 16, 32, 64], ∀ (m : Nat) (base stride : Word) (l : LaneAt), l ∈ lanesStrided w m base stride ↔
     l.i < 512 / w ∧ m.testBit (l.i * w / 8) = true ∧ l.va = BitVec.ofInt 64 (base.toNat + l.i * stride.toInt) ∧ l.n = w / 8 ∧
     l.mis = decide (l.va.toNat % Min.min (w / 8) 4 ≠ 0)) ∧
   (∀ w ∈ [32, 64], ∀ (m : Nat) (base : Word) (v : Vec) (sc : Nat) (l : LaneAt), l ∈ lanesIndexed w m base v sc ↔
     l.i < 512 / w ∧ m.testBit (l.i * w / 8) = true ∧ l.va = BitVec.ofInt 64 (base.toNat + Claims.ival 32 (lane v 32 l.i) * 2 ^ sc) ∧ l.n = w / 8 ∧
     l.mis = decide (l.va.toNat % 4 ≠ 0))) ∧
  ((∀ (s s' : State) (i : Nat) (inv : Bool) (l : LaneAt) (ps : List (Word × Nat × Nat)) (t : List (LaneAt × List (Word × Nat × Nat))) (xs : List (Nat × Nat × Nat)),
     s.loadLanes i inv ((l, ps) :: t) = .ok (xs, s') →
     ∃ (x : Nat) (r : List (Nat × Nat × Nat)) (s1 : State), xs = (l.i, l.n, x) :: r ∧ s1.loadLanes i inv t = .ok (r, s') ∧ s1.mem = s.mem ∧ s1.sbOf i = s.sbOf i ∧
       (∀ va k n, ps = [(va, k, n)] → x = Claims.little (fun j => s.loadByte i inv (k + j)) n) ∧
       (∀ va k va' k', ps = [(va, k, 4), (va', k', 4)] →
         let s0 := (s.fillLine i inv k).fillLine i inv (k + 3)
         x = Claims.little (fun j => s.loadByte i inv (k + j)) 4 + Claims.little (fun j => s0.loadByte i inv (k' + j)) 4 * 2 ^ 32)) ∧
   (∀ (s : State) (i a : Nat) (inv : Bool),
     ((∀ e ∈ s.sbOf i, e.strm = none → ∀ p ∈ e.bytes, s.alias p.1 ≠ s.alias a) →
       ((∀ l ∈ (s.core i).l1d, l.la ≠ a / 64 * 64) → (inv = true → ∀ l ∈ (s.core i).l1i, l.la ≠ a / 64 * 64) → s.loadByte i inv a = s.byte a) ∧
       (∀ l, (s.core i).copyOf inv a = some l → s.loadByte i inv a = l.data.getD (a % 64) 0)) ∧
     ∀ pre e post u p v, s.sbOf i = pre ++ e :: post → e.bytes = u ++ p :: v → e.strm = none → s.alias p.1 = s.alias a →
       (∀ q ∈ v, s.alias q.1 ≠ s.alias a) → (∀ x ∈ post, x.strm = none → ∀ q ∈ x.bytes, s.alias q.1 ≠ s.alias a) → s.loadByte i inv a = p.2))

/-- R206, R190, R187: a strong load reads its home, once what R184 and R191 put before it is done; it drops the core's copy of the line, and .acq acquires at
its scope; one of local store concerns no other core (R207). One from HOST may see the line as it stood a while ago (R192), and a relaxed one may be left
outstanding (R191).
R206, R207, R190, R191: a strong store, with .rel once every earlier access of the core is performed and published at its scope, waits its turn in the store
buffer: an earlier access that a FENCE.rel put before it comes first. Without that release it waits and changes nothing. One to local store publishes nothing (R207).
When a strong access is performed is log entry 17, the view of HOST lines and which loads are left outstanding log entry 16. -/
def Obligations.StrongAccessResult : Prop :=
  (∀ (s : State) (z : LdSize) (acq : Bool) (scope : Scope) (d : Reg) (m : MemOp) (ea : Word) (c : Core) (ps : List (Word × Nat × Nat)) (k : Nat) (va : Word)
     (s1 s2 s3 : State),
     let i : Instr := .lds z acq scope d m
     let n := Claims.sizeOf z
     s.Legal i → Claims.eaLong s.me m = .ok (ea, c) → ea.toNat % n = 0 →
     (s.setCore s.cur c).checkBytes s.cur .strongLoad ea n false = .ok (ps, s1) → ps = [(va, k, n)] →
     s1.settleStrong s.cur true false k n = .ok s2 → s2.granuleBusy k = false → s2.issueLoad s.cur = .ok s3 → d.toNat < 56 →
     ((s3.core s.cur).defer = false ∨ acq = true ∨ s3.mayLeave s.cur [⟨va, k, n, 0⟩] = false →
       let t := s3.modCore s.cur fun q => { q with l1d := q.l1d.filter fun l => l.la != k / 64 * 64 }
       let u := if acq = true ∧ typeOfPa k ≠ some .ls then t.acquireAt s.cur scope else t
       exec i s = .next (s.doneIn (u.setCore s.cur ((u.core s.cur).writeS d.toNat (Claims.extended z (Claims.little (fun j => s3.strongByte s.cur (k + j)) n)))) i)) ∧
     ((s3.core s.cur).defer = true → acq = false → s3.mayLeave s.cur [⟨va, k, n, 0⟩] = true →
       exec i s = .next (s.doneIn (s3.leave s.cur (.s d.toNat n (Claims.signedOf z)) true [⟨va, k, n, 0⟩]) i))) ∧
  (∀ (s : State) (z : StSize) (rel : Bool) (scope : Scope) (d : Reg) (m : MemOp) (ea x : Word) (c c2 : Core) (ps : List (Word × Nat × Nat)) (k : Nat) (va : Word)
     (s1 : State),
     let i : Instr := .sts z rel scope d m
     let n := match z with | .b => 1 | .h => 2 | .w => 4 | .d => 8
     s.Legal i → Claims.eaLong s.me m = .ok (ea, c) → c.readS d = .ok (x, c2) → ea.toNat % n = 0 →
     (s.setCore s.cur c2).checkBytes s.cur .store ea n false = .ok (ps, s1) → ps = [(va, k, n)] →
     let s2 := if rel = true ∧ typeOfPa k ≠ some .ls then s1.publish s.cur scope else s1
     (rel = true → s1.released s.cur scope = false → exec i s = .next s.waits) ∧
     ((rel = true → s1.released s.cur scope = true) →
       (∀ l ∈ (s1.core s.cur).late, l.strong = true → (∃ p ∈ l.parts, typeOfPa p.key = some .host) ∧ Max.max c2.acqEp c2.relEp ≤ l.id) →
       (s2.core s.cur).stores < 64 → (∀ j, j < n → s2.awaits s.cur (k + j) 1 = false) →
       ∃ t q, exec i s = .next t ∧ (t.core s.cur).sb = (s2.core s.cur).sb ++ [q] ∧ q.bytes = at_ k n x.toNat ∧ q.strong = true ∧ q.after = c2.relEp ∧
         (∀ a, t.byte a = s.byte a) ∧ t.pub = s2.pub ∧ t.clusters = s2.clusters ∧
         Claims.RegsBut c2 (t.core s.cur) 0 ∧ Claims.Passed (s.core s.cur) (t.core s.cur) i.len ∧ Claims.Elsewhere s t s.cur)) ∧
  (∀ (s : State) (i a : Nat), (∀ l ∈ (s.core i).hview, l.la ≠ a / 64 * 64) → s.strongByte i a = s.byte a) ∧
  (∀ (s : State) (i k n : Nat) (loads stores : Bool), s.sbOf i = [] → (s.core i).late = [] → s.holds = [] →
     s.hostMissed i (s.core i).fullEp = false → s.hostMissed i (s.core i).relEp = false → s.settleStrong i loads stores k n = .ok s)

/-- R187, R203, R208: PHASE: a release completes where every earlier access is performed, else it waits; then it is published at the scope; then an acquire
takes effect at the scope; PHASE counts.
R191, R208: FENCE waits for nothing: it marks what the core's later strong accesses come behind.
R185, R186: a release at core scope is published to no other core, one at cluster scope to its own cluster alone, whose cores see its stores from then on; an
acquire at core scope drops nothing.
R186 to R189: once core j acquires what core i released before, both at device or system scope, or both at cluster scope or wider in one cluster, no copy and no
view that j keeps of a line misses a write that was visible to i at its release: one that no copy or view of i missed.
What a FENCE does is log entry 17. -/
def Obligations.PhaseAndFence : Prop :=
  (∀ (s : State) (acq rel : Bool) (scope : Scope),
    (s.Legal (.phase acq rel scope) → (rel = true → s.start.released s.cur scope = true) →
      let s1 := if rel then s.start.publish s.cur scope else s.start
      let s2 := if acq then s1.acquireAt s.cur scope else s1
      exec (.phase acq rel scope) s = .next (s.doneIn (s2.modCore s.cur fun c => { c with phasec := (c.phasec + 1) % 2 ^ 16 }) (.phase acq rel scope))) ∧
    (s.Legal (.phase acq true scope) → s.start.released s.cur scope = false → exec (.phase acq true scope) s = .next s.waits) ∧
    (s.Legal (.fence acq rel scope) →
      exec (.fence acq rel scope) s = .next (s.done (.fence acq rel scope) { s.me with
        relEp := if rel then s.serial else s.me.relEp
        acqEp := if acq then s.serial else s.me.acqEp
        fullEp := if acq && rel then s.serial else s.me.fullEp }))) ∧
  (∀ (s : State) (i : Nat),
    s.publish i .core = s ∧ s.acquireAt i .core = s ∧
    (s.publish i .cluster).pub = s.pub ∧ (∀ cl, cl ≠ clusterOf i → (s.publish i .cluster).cluster cl = s.cluster cl) ∧
    (∀ j, clusterOf j = clusterOf i → ∀ e ∈ (s.core i).sb, e ∈ (s.publish i .cluster).sbOf j) ∧
    (∀ sc, (s.publish i sc).mem = s.mem ∧ (s.publish i sc).sbOf i = s.sbOf i ∧ (∀ j, j ≠ i → (s.publish i sc).core j = s.core j) ∧
      (∀ r, ((s.publish i sc).core i).sreg r = (s.core i).sreg r) ∧ (s.acquireAt i sc).mem = s.mem ∧
      ∀ r, ((s.acquireAt i sc).core i).sreg r = (s.core i).sreg r) ∧
    (∀ sc, s.released i sc = true → (s.core i).late = [] ∧ (∀ e ∈ (s.core i).sb, e.strm = none) ∧
      (sc ≠ .core → s.heldStores i = false ∧ ∀ x ∈ s.conflicts, x.core = i → x.store = false) ∧
      (sc = .device ∨ sc = .system → (s.core i).sb = [] ∧ (s.isSup i = false → (s.cluster (clusterOf i)).sb = []))) ∧
    (∀ la, (∀ l, l ∈ (s.core i).l1d ∨ l ∈ (s.core i).hview → l.la = la → s.seen i la ≤ l.seen) ∧
      ((∀ l, l ∈ (s.core i).l1d ∨ l ∈ (s.core i).hview → l.la ≠ la) → s.seen i la = (s.writesOf la).length))) ∧
  (∀ (s : State) (i j : Nat) (sc sc' : Scope),
    ((sc = .device ∨ sc = .system) ∧ (sc' = .device ∨ sc' = .system)) ∨ (sc ≠ .core ∧ sc' ≠ .core ∧ clusterOf i = clusterOf j) →
    let t := (s.publish i sc).acquireAt j sc'
    ∀ l, l ∈ (t.core j).l1d ∨ l ∈ (t.core j).hview → s.seen i l.la ≤ l.seen)

/-! ### Atomics, reductions, barriers, rings (R210 to R228) -/

namespace Sys2Proof.Claims

/-- Bytes of a store or atomic size. -/
def bytesOfSize : StSize → Nat
  | .b => 1 | .h => 2 | .w => 4 | .d => 8

/-- R210: the integer operations: what n bytes become, from the old value and the operand, and whether HOST takes them (R211). -/
def atomTable : List ((StSize → Order → Scope → Reg → MemOp → Instr) × (Nat → Nat → Nat → Nat) × Bool) :=
  [(.atomSwap, fun _ _ v => v, true),
   (.atomAdd, fun n x v => (x + v) % 2 ^ (8 * n), true),
   (.atomAnd, fun _ x v => x &&& v, false),
   (.atomOr, fun _ x v => x ||| v, false),
   (.atomXor, fun _ x v => x ^^^ v, false),
   (.atomMin, fun n x v => if ival (8 * n) v < ival (8 * n) x then v else x, false),
   (.atomMax, fun n x v => if ival (8 * n) x < ival (8 * n) v then v else x, false),
   (.atomMinu, fun _ x v => Min.min x v, false),
   (.atomMaxu, fun _ x v => Max.max x v, false)]

/-- R210, R211: the floating-point operations, nearest even. -/
def atomFpTable : List ((Bool → Order → Scope → Reg → MemOp → Instr) × (FInfo → Nat → Nat → Nat)) :=
  [(.atomFadd, fun o x v => (o.add .rne false 0 (o.decode x) (o.decode v)).1), (.atomFmin, fun o => o.minmax false), (.atomFmax, fun o => o.minmax true)]

def acquires : Order → Bool
  | .acquire => true | .acqrel => true | _ => false
def releases : Order → Bool
  | .release => true | .acqrel => true | _ => false

/-- The current core's atomic of n bytes at ea has passed its checks, its release is complete and published, and its home takes it at the physical key k
(R211, R187): the state just before the read-modify-write; `held` where k lies in a page under migration (R350). -/
def AtHome (s : State) (ea : Word) (n al : Nat) (host : Bool) (ord : Order) (scope : Scope) (held : Bool) (k : Nat) (t : State) : Prop :=
  s.me.rmw = none ∧ (t.holdAt (t.isSup s.cur) k).isSome = held ∧
  ∃ s1 s2, s.start.checkAtom s.cur ea n al host = .ok (k, s1) ∧ (releases ord = true → s1.released s.cur scope = true) ∧
    (if releases ord = true ∧ typeOfPa k ≠ some .ls then s1.publish s.cur scope else s1).enterHome s.cur k = .ok s2 ∧ s2.settleStrong s.cur true true k n = .ok t

/-- The n bytes of an object at k as core i has it (R296, R342), and that object replaced by x. -/
def obj (t : State) (i k n : Nat) : Nat := t.rdObj (t.isSup i) k n
def putObj (t : State) (i k n x : Nat) : State := t.write (t.objBytes (t.isSup i) k n x)

/-- The state after the home has replaced the object of n bytes at k by x, as core i's next write, and the core has taken the acquire (R187, R190), which for an object in local
store is none (R207). -/
def replaced (t : State) (i k n x : Nat) (ord : Order) (scope : Scope) : State :=
  let u := (t.writeBy i t.serial (t.objBytes (t.isSup i) k n x)).tick.modCore i fun c => c.dropLine k
  if acquires ord = true ∧ typeOfPa k ≠ some .ls then u.acquireAt i scope else u

/-- A scalar atomic (R210): bytes, whether HOST takes it (R211), order, scope, operands. -/
def atomOf : Instr → Option (Nat × Bool × Order × Scope × Reg × MemOp)
  | .atomSwap z o c d m | .atomCas z o c d m | .atomAdd z o c d m => some (bytesOfSize z, bytesOfSize z == 4 || bytesOfSize z == 8, o, c, d, m)
  | .atomAnd z o c d m | .atomOr z o c d m | .atomXor z o c d m => some (bytesOfSize z, false, o, c, d, m)
  | .atomMin z o c d m | .atomMax z o c d m | .atomMinu z o c d m | .atomMaxu z o c d m => some (bytesOfSize z, false, o, c, d, m)
  | .atomFadd w o c d m | .atomFmin w o c d m | .atomFmax w o c d m => some (if w then 8 else 4, false, o, c, d, m)
  | _ => none

/-- The current core's barrier or ring instruction on the object of 16 bytes at ea has passed its checks and its home takes it (R224, R227). -/
def AtBank (s : State) (ea : Word) (rel : Bool) (k : Nat) (t : State) : Prop :=
  s.start.checkBar s.cur ea 16 16 = .ok k ∧ (rel = true → s.start.released s.cur .cluster = true) ∧
  ∃ s1, (if rel then s.start.publish s.cur .cluster else s.start).enterHome s.cur k = .ok s1 ∧ s1.settle s.cur k 16 = .ok t

/-- The core c after it has read the address and s[D] again, its own instruction over. -/
def Reread (c : Core) (m : MemOp) (d : Reg) (c' : Core) : Prop := ∃ y z c1, c.ea m = .ok (y, c1) ∧ c1.readS d = .ok (z, c')

/-- The first `len` bytes of the object at k lie where offsets in it say: its first word in one piece, no two bytes in one place (R296). It is so wherever the object lies
in one piece, and in a confined allocation whose banks differ. -/
def Lays (s : State) (sup : Bool) (k len : Nat) : Prop :=
  (∀ j, j < 8 → s.place sup k j = k + j) ∧ (∀ a j, a + j < len → s.place sup (s.place sup k a) j = s.place sup k (a + j)) ∧
  ∀ a b, a < len → b < len → s.place sup k a = s.place sup k b → a = b

/-- R214: the scalar BANKOP forms: M and the width of a contribution. -/
def bankTable : List ((Reg → Reg → Reg → Reg → Instr) × Nat × Nat) :=
  [(.bankopAddF32, 0, 32), (.bankopAddF64, 1, 64), (.bankopAddI64, 2, 64), (.bankopMinF32, 3, 32), (.bankopMaxF32, 4, 32), (.bankopMinI64, 5, 64), (.bankopMaxI64, 6, 64)]

end Sys2Proof.Claims

/-- R210, R211, R187, R190: an atomic replaces the bytes at its home by its operation's result in one step, and s[D] receives the old value, which .acq makes
an acquire at its scope and .rel a release.
R350: a scalar atomic at a page under migration is queued there and the core waits, its memory and registers as they were; once it is performed, the core
takes the old value.
That an atomic is one step is log entry 17, tickets log entry 9, held pages log entry 18. -/
def Obligations.AtomicResult : Prop :=
  (∀ p ∈ Claims.atomTable, ∀ (s : State) (z : StSize) (ord : Order) (scope : Scope) (d : Reg) (m : MemOp) (ea v : Word) (c c1 c2 : Core) (k : Nat) (t : State),
    let i := p.1 z ord scope d m
    let n := Claims.bytesOfSize z
    s.Legal i → Claims.eaLong s.me m = .ok (ea, c) → c.readS d = .ok (v, c1) → d.toNat < 56 →
    Claims.AtHome s ea n n (p.2.2 && (n == 4 || n == 8)) ord scope false k t →
    let t' := Claims.replaced t s.cur k n (p.2.1 n (Claims.obj t s.cur k n) (v.toNat % 2 ^ (8 * n))) ord scope
    Claims.Reread (t'.core s.cur) m d c2 →
    exec i s = .next (s.doneIn (t'.setCore s.cur (c2.writeS d.toNat (BitVec.ofNat 64 (Claims.obj t s.cur k n)))) i)) ∧
  (∀ (s : State) (z : StSize) (ord : Order) (scope : Scope) (d : Reg) (m : MemOp) (ea v v2 : Word) (c c1 c2 c3 : Core) (k : Nat) (t : State),
    let i : Instr := .atomCas z ord scope d m
    let n := Claims.bytesOfSize z
    s.Legal i → Claims.eaLong s.me m = .ok (ea, c) → c.readS d = .ok (v, c1) → c1.readS (d + 1) = .ok (v2, c3) → d.toNat < 56 →
    Claims.AtHome s ea n n (n == 4 || n == 8) ord scope false k t →
    let t' := Claims.replaced t s.cur k n (if Claims.obj t s.cur k n = v.toNat % 2 ^ (8 * n) then v2.toNat % 2 ^ (8 * n) else Claims.obj t s.cur k n) ord scope
    Claims.Reread (t'.core s.cur) m d c2 →
    exec i s = .next (s.doneIn (t'.setCore s.cur (c2.writeS d.toNat (BitVec.ofNat 64 (Claims.obj t s.cur k n)))) i)) ∧
  (∀ p ∈ Claims.atomFpTable, ∀ (s : State) (dbl : Bool) (ord : Order) (scope : Scope) (d : Reg) (m : MemOp) (ea v : Word) (c c1 c2 : Core) (k : Nat) (t : State),
    let i := p.1 dbl ord scope d m
    let n := if dbl then 8 else 4
    s.Legal i → Claims.eaLong s.me m = .ok (ea, c) → c.readS d = .ok (v, c1) → d.toNat < 56 → Claims.AtHome s ea n n false ord scope false k t →
    let t' := Claims.replaced t s.cur k n (p.2 (Claims.fps dbl) (Claims.obj t s.cur k n) (v.toNat % 2 ^ (8 * n))) ord scope
    Claims.Reread (t'.core s.cur) m d c2 →
    exec i s = .next (s.doneIn (t'.setCore s.cur (c2.writeS d.toNat (BitVec.ofNat 64 (Claims.obj t s.cur k n)))) i)) ∧
  (∀ (s : State) (ord : Order) (scope : Scope) (d : Reg) (m : MemOp) (ea y : Word) (v : Vec) (c c1 c2 c3 : Core) (k : Nat) (t : State),
    let i : Instr := .atomWs ord scope d m
    s.Legal i → Claims.eaLong s.me m = .ok (ea, c) → c.readV d = .ok (v, c1) → d.toNat < 32 → Claims.AtHome s ea 48 64 false ord scope false k t →
    let t' := Claims.replaced t s.cur k 48 ((WCell.ofNat (Claims.obj t s.cur k 48)).add (WCell.ofNat (v.toNat % 2 ^ 384))).toNat ord scope
    (t'.core s.cur).ea m = .ok (y, c2) → c2.putV d (BitVec.ofNat 512 (Claims.obj t s.cur k 48)) (2 ^ 64 - 1) false = .ok c3 →
    exec i s = .next (s.doneIn (t'.setCore s.cur c3) i)) ∧
  (∀ (s : State) (i : Instr) (n : Nat) (host : Bool) (ord : Order) (scope : Scope) (d : Reg) (m : MemOp) (ea v : Word) (c c1 : Core),
    Claims.atomOf i = some (n, host, ord, scope, d, m) → s.Legal i → Claims.eaLong s.me m = .ok (ea, c) → c.readS d = .ok (v, c1) → d.toNat < 56 →
    ((∃ z, i = .atomCas z ord scope d m) → ∃ y c3, c1.readS (d + 1) = .ok (y, c3)) →
    (∀ k t, Claims.AtHome s ea n n host ord scope true k t → ∃ u, exec i s = .next u ∧ u.mem = t.mem ∧ (u.core s.cur).rmw = some (t.serial, none) ∧
      (u.core s.cur).stalled = true ∧ (u.core s.cur).pc = (s.core s.cur).pc ∧ ∀ r, (u.core s.cur).sreg r = (s.core s.cur).sreg r) ∧
    (∀ g, s.me.rmw = some (g, none) → exec i s = .next s.waits) ∧
    (∀ g old c2, s.me.rmw = some (g, some old) →
      let u := s.start.modCore s.cur fun c => { c with rmw := none }
      let u := if Claims.acquires ord then u.acquireAt s.cur scope else u
      Claims.Reread (u.core s.cur) m d c2 → exec i s = .next (s.doneIn (u.setCore s.cur (c2.writeS d.toNat (BitVec.ofNat 64 old))) i)))

/-- R214: a reduction at its object: a rank beyond P - 1 sets BADRANK; a rank that has contributed waits; the first contribution of a generation fixes OP, another
operation sets OPMIX; the last combines all ranks, writes RESULT, clears ARR and advances GEN; R370: not where a contribution is poisoned.
R214: what each BANKOP form does with its contribution: BADRANK answers all ones at once (the cell's not-a-number flag for BANKOP.ws); the last contribution, or a
core whose generation is over, collects RESULT under an acquire at the object's scope; else the core waits and its contribution stands. A resumed BANKOP neither
checks, releases nor contributes again. R370: a poisoned RESULT traps with MEMUE. At a page under migration (R350) it waits before it contributes (log entry 18).
Who has contributed is kept as log entry 10 says; objects in no home are log entry 26. -/
def Obligations.BankopResult : Prop :=
  (∀ (s : State) (sup : Bool) (obj m r v : Nat), m < 8 →
     let w := s.rd obj 8
     let p := bits w 43 32 + 1
     let arr := bits w 31 16
     let ranks := if arr = 0 then [] else ((s.reds.find? fun q => q.1 = obj).map (·.2)).getD []
     let op := if arr = 0 then m else bits w 11 8
     let at_ (o : Nat) : Nat := s.place sup obj o
     let s' := s.write (s.objBytes sup (at_ (bankSlot op r)) (bankBytes op) v)
     (p ≤ r → s.contribute sup obj m r v = .badRank (s.wr obj 8 (w ||| 2))) ∧
     (r < p → r ∈ ranks → s.contribute sup obj m r v = .again) ∧
     (Claims.Lays s sup obj (64 + 64 * p) → r < p → r ∉ ranks → arr + 1 < p → ∃ t, s.contribute sup obj m r v = .wait t (bits w 15 12) ∧
       bits (t.rd obj 8) 31 16 = arr + 1 ∧ bits (t.rd obj 8) 11 8 = op ∧ bits (t.rd obj 8) 15 12 = bits w 15 12 ∧
       (t.rd obj 8).testBit 2 = (w.testBit 2 || op != m) ∧
       t.rdObj sup (at_ (bankSlot op r)) (bankBytes op) = v % 2 ^ (8 * bankBytes op) ∧ (∃ q, (obj, q) ∈ t.reds ∧ r ∈ q)) ∧
     (Claims.Lays s sup obj (64 + 64 * p) → r < p → r ∉ ranks → arr + 1 = p → (∀ j b, j < p → b < bankBytes op / 8 → s'.poisoned (at_ (bankSlot op j + 8 * b)) = false) →
       ∃ t, s.contribute sup obj m r v = .done t ∧
       bits (t.rd obj 8) 31 16 = 0 ∧ bits (t.rd obj 8) 15 12 = (bits w 15 12 + 1) % 16 ∧
       t.rdObj sup (at_ 8) (bankBytes op) = bankCombine op ((List.range p).map fun j => s'.rdObj sup (at_ (bankSlot op j)) (bankBytes op)) % 2 ^ (8 * bankBytes op)) ∧
     (∀ j b, r < p → r ∉ ranks → arr + 1 = p → j < p → b < bankBytes op / 8 → s'.poisoned (at_ (bankSlot op j + 8 * b)) = true →
       ∃ o, s.contribute sup obj m r v = .poison o)) ∧
  ((∀ p ∈ Claims.bankTable, ∀ (s : State) (d a b e : Reg) (ea r v : Word) (c1 c2 c3 c4 : Core),
     let i := p.1 d a b e
     s.Legal i → s.me.readS a = .ok (ea, c1) → c1.readS b = .ok (r, c2) → c2.readS e = .ok (v, c3) → d.toNat < 56 →
     let result := fun x => if p.2.2 = 32 then x % 2 ^ 32 else x
     (∀ obj s1 s2 s3, s.me.bwait = false → s.start.checkBank s.cur ea = .ok (obj, s1) →
       (s1.released s.cur (bankScope obj) = false ∨ s1.heldAt obj = true → exec i s = .next s.waits) ∧
       (s1.released s.cur (bankScope obj) = true → s1.heldAt obj = false → (s1.publish s.cur (bankScope obj)).enterHome s.cur obj = .ok s2 →
         s2.settle s.cur obj 64 = .ok s3 →
         let step := s3.contribute (s3.isSup s.cur) obj p.2.1 r.toNat (v.toNat % 2 ^ p.2.2)
         let out (t : State) : Nat := t.place (t.isSup s.cur) obj 8
         (∀ t y1 y2 y3 e1 e2, step = .badRank t → (t.core s.cur).readS a = .ok (y1, e1) → e1.readS b = .ok (y2, e2) →
           e2.readS e = .ok (y3, c4) → exec i s = .next (s.doneIn (t.setCore s.cur (c4.writeS d.toNat (BitVec.ofNat 64 (2 ^ 64 - 1)))) i)) ∧
         (∀ t y1 y2 y3 e1 e2, step = .done t → t.wakeBanks.poisonSeen s.cur (out t) = false →
           let u := (t.wakeBanks.acquireAt s.cur (bankScope obj)).modCore s.cur fun c => { c with bwait := false, bgen := 0 }
           (u.core s.cur).readS a = .ok (y1, e1) → e1.readS b = .ok (y2, e2) → e2.readS e = .ok (y3, c4) →
           exec i s = .next (s.doneIn (u.setCore s.cur (c4.writeS d.toNat (BitVec.ofNat 64 (result (Claims.obj t s.cur (out t) 8))))) i)) ∧
         (∀ o, step = .poison o → exec i s = .next (s.traps i .memue (ea + BitVec.ofNat 64 o))) ∧
         (step = .again → exec i s = .next s.waits) ∧
         (∀ t g, step = .wait t g → exec i s = .next (t.modCore s.cur fun c => { c with bwait := true, bgen := g, stalled := true })))) ∧
     (∀ obj y1 y2 y3 e1 e2, s.me.bwait = true → s.start.reach s.cur ea.toNat = some obj →
       let out := s.start.place (s.start.isSup s.cur) obj 8
       (bits (s.rd obj 8) 15 12 = s.me.bgen → exec i s = .next s.waits) ∧
       (bits (s.rd obj 8) 15 12 ≠ s.me.bgen → s.start.poisonSeen s.cur out = true → exec i s = .next (s.traps i .memue (ea + 8))) ∧
       (bits (s.rd obj 8) 15 12 ≠ s.me.bgen → s.start.poisonSeen s.cur out = false →
         let u := (s.start.acquireAt s.cur (bankScope obj)).modCore s.cur fun c => { c with bwait := false, bgen := 0 }
         (u.core s.cur).readS a = .ok (y1, e1) → e1.readS b = .ok (y2, e2) → e2.readS e = .ok (y3, c4) →
         exec i s = .next (s.doneIn (u.setCore s.cur (c4.writeS d.toNat (BitVec.ofNat 64 (result (Claims.obj s.start s.cur out 8))))) i)))) ∧
   (∀ (s : State) (d a b e : Reg) (ea r : Word) (v : Vec) (c1 c2 c3 c4 c5 : Core),
     let i : Instr := .bankopWs d a b e
     s.Legal i → s.me.readS a = .ok (ea, c1) → c1.readS b = .ok (r, c2) → c2.readV e = .ok (v, c3) →
     -- the result of an object collected in the state t: its words, the first poisoned one of them, and the instruction's end with x in v[D]
     let out (obj j : Nat) (t : State) : Nat := t.place (t.isSup s.cur) obj (8 + 8 * j)
     let clean (obj n : Nat) (t : State) : Prop := ∀ j, j < n → t.poisonSeen s.cur (out obj j t) = false
     let ends (u : State) (x : Nat) : Prop := ∀ y1 y2 y3 e1 e2, (u.core s.cur).readS a = .ok (y1, e1) → e1.readS b = .ok (y2, e2) → e2.readV e = .ok (y3, c4) →
       c4.putV d (BitVec.ofNat 512 x) (2 ^ 64 - 1) false = .ok c5 → exec i s = .next (s.doneIn ((u.setCore s.cur c5).pushOut s.cur) i)
     let collects (obj : Nat) (t : State) : Prop :=
       (clean obj 6 t → ends ((t.acquireAt s.cur (bankScope obj)).modCore s.cur fun c => { c with bwait := false, bgen := 0 })
         (Claims.obj t s.cur (t.place (t.isSup s.cur) obj 8) 48)) ∧
       (∀ n, n < 6 → clean obj n t → t.poisonSeen s.cur (out obj n t) = true → exec i s = .next (s.traps i .memue (ea + BitVec.ofNat 64 (8 + 8 * n))))
     (∀ obj s1 s2 s3, s.me.bwait = false → s.start.checkBank s.cur ea = .ok (obj, s1) →
       (s1.released s.cur (bankScope obj) = false ∨ s1.heldAt obj = true → exec i s = .next s.waits) ∧
       (s1.released s.cur (bankScope obj) = true → s1.heldAt obj = false → (s1.publish s.cur (bankScope obj)).enterHome s.cur obj = .ok s2 →
         s2.settle s.cur obj 64 = .ok s3 →
         let step := s3.contribute (s3.isSup s.cur) obj 7 r.toNat (v.toNat % 2 ^ 384)
         (∀ t, step = .badRank t → ends t (2 ^ 352)) ∧ (∀ t, step = .done t → collects obj t.wakeBanks) ∧
         (∀ o, step = .poison o → exec i s = .next (s.traps i .memue (ea + BitVec.ofNat 64 o))) ∧
         (step = .again → exec i s = .next s.waits) ∧
         (∀ t g, step = .wait t g → exec i s = .next (t.modCore s.cur fun c => { c with bwait := true, bgen := g, stalled := true })))) ∧
     (∀ obj, s.me.bwait = true → s.start.reach s.cur ea.toNat = some obj →
       (bits (s.rd obj 8) 15 12 = s.me.bgen → exec i s = .next s.waits) ∧
       (bits (s.rd obj 8) 15 12 ≠ s.me.bgen → collects obj s.start))))

/-- R296: where the bytes of an object lie: in one piece for a supervisor (R342), outside scratchpads and in an unconfined allocation; in a confined allocation of a launch
word by word, over the allocation's banks, bank b holding the words at 8·b modulo 512 (R14).
R222 to R224: BARI sets PEND and EXP; BARA counts PEND down, or waits at 0, and answers the generation it found; BARW passes once that generation is over;
BARX adds transfers; a generation with nothing owed completes: GEN advances and PEND is EXP again.
Poisoned objects are log entry 26. -/
def Obligations.BarrierResult : Prop :=
  (∀ (s : State) (sup : Bool) (k j : Nat), (sup = true ∨ typeOfPa k ≠ some .csp ∨ ∀ a ∈ (s.cluster (cspCluster k)).cs, a.banks = []) → s.place sup k j = k + j) ∧
  (∀ (s : State) (cl x j : Nat) (a : CsAlloc), cl < 96 → (s.cluster cl).cs = [a] → a.banks ≠ [] → a.banks.Nodup → (∀ b ∈ a.banks, b < 64) → x + j < a.size →
    (∀ y, y < a.size → csOff a.base a.banks y < 2 ^ 22) →
    s.place false (cspKey cl (csOff a.base a.banks x)) j = cspKey cl (csOff a.base a.banks (x + j)) ∧
    csOff a.base a.banks x / 512 = x / 8 / a.banks.length ∧ a.banks[x / 8 % a.banks.length]? = some (csOff a.base a.banks x / 8 % 64) ∧ csOff a.base a.banks x % 8 = x % 8) ∧
  ∀ (s : State) (d : Reg) (m : MemOp) (ea v : Word) (c c1 c2 : Core) (k : Nat) (t : State),
    let b := BarObj.ofNat (Claims.obj t s.cur k 16)
    let turn := fun (b : BarObj) => if b.pend = 0 ∧ b.inn = 0 ∧ b.out = 0 then { b with gen := (b.gen + 1) % 16, pend := b.exp } else b
    let put := fun (b' : BarObj) => Claims.putObj t s.cur k 16 (b'.into (Claims.obj t s.cur k 16))
    (s.Legal (.bari d m) → Claims.eaLong s.me m = .ok (ea, c) → c.readS d = .ok (v, c1) → Claims.AtBank s ea false k t →
      let u := Claims.putObj t s.cur k 16 (v.toNat % 2 ^ 20 * 2 ^ 24 + v.toNat % 2 ^ 20 * 2 ^ 4)
      Claims.Reread (u.core s.cur) m d c2 → exec (.bari d m) s = .next (s.doneIn (u.setCore s.cur c2) (.bari d m))) ∧
    (s.Legal (.bara d m) → Claims.eaLong s.me m = .ok (ea, c) → d.toNat < 56 → Claims.AtBank s ea true k t →
      (b.pend = 0 → exec (.bara d m) s = .next s.waits) ∧
      (b.pend ≠ 0 →
        let u := (put (turn { b with pend := b.pend - 1 })).wakeCluster (cspCluster k)
        ∀ y, (u.core s.cur).ea m = .ok (y, c2) →
        exec (.bara d m) s = .next (s.doneIn (u.setCore s.cur (c2.writeS d.toNat (BitVec.ofNat 64 b.gen))) (.bara d m)))) ∧
    (s.Legal (.barw d m) → Claims.eaLong s.me m = .ok (ea, c) → c.readS d = .ok (v, c1) → Claims.AtBank s ea false k t →
      (b.gen = v.toNat % 16 → exec (.barw d m) s = .next s.waits) ∧
      (b.gen ≠ v.toNat % 16 →
        let u := t.acquire s.cur
        Claims.Reread (u.core s.cur) m d c2 → exec (.barw d m) s = .next (s.doneIn (u.setCore s.cur c2) (.barw d m)))) ∧
    (s.Legal (.barx d m) → Claims.eaLong s.me m = .ok (ea, c) → c.readS d = .ok (v, c1) → Claims.AtBank s ea false k t →
      let u := (put (turn { b with inn := (b.inn + v.toNat % 2 ^ 20) % 2 ^ 20, out := (b.out + v.toNat / 2 ^ 20 % 2 ^ 20) % 2 ^ 20 })).wakeCluster (cspCluster k)
      Claims.Reread (u.core s.cur) m d c2 → exec (.barx d m) s = .next (s.doneIn (u.setCore s.cur c2) (.barx d m)))

/-- R226, R227: the tag of a ring slot: SLOTACQ takes an empty slot (0 to 1, COUNT 0), SLOTWAIT a full one (2 to 3), SLOTREL empties a slot and SLOTREL.full
fills it, COUNT kept; SLOTACQ and SLOTWAIT wait for their tag and acquire, the others release first.
Poisoned objects and SIDE are log entry 26. -/
def Obligations.RingResult : Prop :=
  ∀ (s : State) (d : Reg) (m : MemOp) (ea v : Word) (c c1 c2 : Core) (k k2 : Nat) (t t2 : State),
    let side := cspWin + bits (t.rd (t.place (t.isSup s.cur) k 8) 8) 63 32 + 4 * (v.toNat % (bits (t.rd k 8) 43 32 + 1))
    let x := t2.rd k2 4
    let u := fun y (acq : Bool) =>
      let r := (t2.wr k2 4 y).wakeCluster (clusterOf s.cur)
      if acq then r.acquire s.cur else r
    Claims.eaLong s.me m = .ok (ea, c) → c.readS d = .ok (v, c1) → t.checkBar s.cur (BitVec.ofNat 64 side) 4 4 = .ok k2 → t.settle s.cur k2 4 = .ok t2 →
    (s.Legal (.slotacq d m) → Claims.AtBank s ea false k t →
      (x % 4 ≠ 0 → exec (.slotacq d m) s = .next s.waits) ∧
      (x % 4 = 0 → Claims.Reread ((u 1 true).core s.cur) m d c2 → exec (.slotacq d m) s = .next (s.doneIn ((u 1 true).setCore s.cur c2) (.slotacq d m)))) ∧
    (s.Legal (.slotwait d m) → Claims.AtBank s ea false k t →
      (x % 4 ≠ 2 → exec (.slotwait d m) s = .next s.waits) ∧
      (x % 4 = 2 → Claims.Reread ((u (x + 1) true).core s.cur) m d c2 →
        exec (.slotwait d m) s = .next (s.doneIn ((u (x + 1) true).setCore s.cur c2) (.slotwait d m)))) ∧
    (s.Legal (.slotrel d m) → Claims.AtBank s ea true k t → Claims.Reread ((u (x - x % 4) false).core s.cur) m d c2 →
      exec (.slotrel d m) s = .next (s.doneIn ((u (x - x % 4) false).setCore s.cur c2) (.slotrel d m))) ∧
    (s.Legal (.slotrelFull d m) → Claims.AtBank s ea true k t → Claims.Reread ((u (x - x % 4 + 2) false).core s.cur) m d c2 →
      exec (.slotrelFull d m) s = .next (s.doneIn ((u (x - x % 4 + 2) false).setCore s.cur c2) (.slotrelFull d m)))

/-! ### Streams, ports, timelines, waits, the carillon (R198 to R202, R216 to R221, R229 to R239, R260) -/

namespace Sys2Proof.Claims

/-- The descriptor rule of R229 on the eight words of a stream descriptor. -/
def StreamDesc (w : List Word) : Prop :=
  let g := fun k => (w.getD k 0).toNat
  let ext := fun d => g (1 + d / 2) / 2 ^ (32 * (d % 2)) % 2 ^ 32
  let str := fun d => ival 32 (g (3 + d / 2) / 2 ^ (32 * (d % 2)) % 2 ^ 32)
  g 0 / 2 ^ 32 = 64 ∧ 1 ≤ g 0 % 2 ^ 32 ∧ g 0 % 2 ^ 32 ≤ 4 ∧
  (∀ d, d < 4 → if d < g 0 % 2 ^ 32 then 1 ≤ ext d ∧ str d % 4 = 0 else ext d = 0 ∧ str d = 0) ∧ g 5 = 0 ∧ g 6 = 0 ∧ g 7 = 0

/-- The largest number of a timeline (R200). -/
def topNumber : Nat := 2 ^ 64 - 1

end Sys2Proof.Claims

/-- R229, R230: SBIND reads the descriptor as plain loads, which R202 does not count, checks it (STREAM, EVAL the stream) and binds the stream at its first item, once an output stream
has written its pushed items, and for an input stream once all that the core pushed is written (R25); SDRAIN unbinds.
Reserved fields of a descriptor are log entry 22. -/
def Obligations.StreamBinding : Prop :=
  (∀ (s : State) (out : Bool) (d a b : Reg) (base ptr : Word) (c1 c2 : Core) (ps : List (LaneAt × List (Word × Nat × Nat))) (s1 s2 : State)
      (xs : List (Nat × Nat × Nat)),
    let i : Instr := .sbind out d a b
    let q := d.toNat - 32
    s.Legal i → s.me.readS a = .ok (base, c1) → c1.readS b = .ok (ptr, c2) →
    (s.setCore s.cur c2).checkLanes s.cur .load ((List.range 8).map fun j => ⟨j, ptr + BitVec.ofNat 64 (8 * j), 8, decide (ptr.toNat % 8 ≠ 0)⟩) = .ok (ps, s1) →
    s1.loadLanes s.cur false ps = .ok (xs, s2) →
    let s3 := s2.watch s.cur (ps.flatMap fun p => placesOf p.2)
    let w := xs.map fun x => BitVec.ofNat 64 x.2.2
    (¬ Claims.StreamDesc w → exec i s = .next (s.traps i .stream (BitVec.ofNat 64 q))) ∧
    (Claims.StreamDesc w → ∀ e v, s3.checkPattern s.cur base w = .error (.trap e v) → exec i s = .next (s.traps i e v)) ∧
    (Claims.StreamDesc w → s3.checkPattern s.cur base w = .ok () →
      ((out = false ∧ ∃ e ∈ (s3.core s.cur).sb, e.strm ≠ none) ∨ (((s3.core s.cur).strmAt q).output = true ∧ (s3.core s.cur).pushedTo q ≠ 0)) → exec i s = .next s.waits) ∧
    (Claims.StreamDesc w → s3.checkPattern s.cur base w = .ok () → (out = true ∨ ∀ e ∈ (s3.core s.cur).sb, e.strm = none) →
      ((s3.core s.cur).strmAt q).output = false ∨ (s3.core s.cur).pushedTo q = 0 →
      ∃ t, exec i s = .next t ∧ (t.core s.cur).strmAt q = { bound := true, output := out, base := base, desc := w.take 5, next := 0, buf := [] } ∧
        (∀ j, j ≠ q → (t.core s.cur).strmAt j = (s3.core s.cur).strmAt j) ∧ Claims.RegsBut c2 (t.core s.cur) 0 ∧ (t.core s.cur).loads = c2.loads ∧ t.mem = s.mem)) ∧
  (∀ (s : State) (d : Reg), s.Legal (.sdrain d) →
    let q := s.me.strmAt (d.toNat - 32)
    (q.output = false ∨ s.me.pushedTo (d.toNat - 32) = 0 → exec (.sdrain d) s = .next (s.done (.sdrain d) (s.me.setStrm (d.toNat - 32) {}))) ∧
    (q.output = true → s.me.pushedTo (d.toNat - 32) ≠ 0 → exec (.sdrain d) s = .next s.waits)) ∧
  -- what an instruction pushes joins the core's stores, item by item, each word at its place (R231)
  (∀ (s : State) (i q k : Nat) (v : Vec), (s.core i).outq = [(q, k, v)] →
    let keys := s.strmKeys i ((s.core i).strmAt q) k
    ∃ es, s.pushOut i = s.tick.setCore i { s.core i with outq := [], sb := (s.core i).sb ++ es } ∧
      es.map (·.bytes) = keys.mapIdx (fun j a => at_ a 4 (v.toNat / 2 ^ (32 * j) % 2 ^ 32)) ∧ ∀ e ∈ es, e.strm = some q ∧ e.grp = s.serial ∧ e.strong = false ∧ e.out = false)

/-- R234, R235: PBIND names the place a port sends to, PEND sends the last word of a packet, PPOLL reads a port's status and clears DROP.
PBIND on a supervisor core is log entry 27. -/
def Obligations.PortInstructions : Prop :=
  (∀ (s : State) (d a : Reg) (x : Word) (c : Core), s.Legal (.pbind d a) → s.me.readS a = .ok (x, c) →
    let p := d.toNat - 56
    (∀ k l, x.toNat < 2 ^ 15 → coreOfId (x.toNat % 2 ^ 12) = some k → s.isSup s.cur = false → s.launch (s.partOf s.cur) (c.run.getD 0) = some l →
      l.clusters.testBit (clusterOf k) = true → exec (.pbind d a) s = .next (s.done (.pbind d a) (c.setTxp p { c.txp p with bind := some x }))) ∧
    (2 ^ 15 ≤ x.toNat ∨ coreOfId (x.toNat % 2 ^ 12) = none ∨ s.isSup s.cur = true ∨ s.launch (s.partOf s.cur) (c.run.getD 0) = none ∨
      (∃ k l, coreOfId (x.toNat % 2 ^ 12) = some k ∧ s.launch (s.partOf s.cur) (c.run.getD 0) = some l ∧ l.clusters.testBit (clusterOf k) = false) → exec (.pbind d a) s = .next (s.traps (.pbind d a) .prot x))) ∧
  (∀ (s : State) (d a : Reg) (x : Word) (c : Core), s.Legal (.pend d a) → s.me.readS a = .ok (x, c) →
    let q := d.toNat - 56
    let n := ((c.txp q).pkt.getD (0, sendWord s.cur q (c.txp q))).1
    let dst := ((c.txp q).pkt.getD (0, sendWord s.cur q (c.txp q))).2
    let s1 := s.setCore s.cur (c.setTxp q { c.txp q with pkt := none })
    (16 ≤ n → exec (.pend d a) s = .next (s.traps (.pend d a) .portlen (BitVec.ofNat 64 q))) ∧
    (∀ t, n < 16 → s1.sendWords s.cur [⟨q, dst, x, true⟩] s1 = .ok t → exec (.pend d a) s = .next (t.modCore s.cur fun c => c.advance (Instr.pend d a).len))) ∧
  (∀ (s : State) (d a : Reg), s.Legal (.ppoll d a) → d.toNat < 56 →
    let p := a.toNat - 56
    let q := (s.me.rxp p).q
    let flag := fun (b : Bool) (n : Nat) => if b then 2 ^ n else 0
    let head := match q with | [] => 0 | w :: _ => w.src * 2 ^ 20 + flag w.trunc 11 + flag w.last 10
    exec (.ppoll d a) s = .next (s.done (.ppoll d a) ((s.me.setTxp p { s.me.txp p with drop := false }).writeS d.toNat
      (BitVec.ofNat 64 (flag (s.me.txp p).drop 63 + head + flag (s.me.txp p).pkt.isSome 9 + q.length)))))

/-- R199 to R201, R217: TLWAIT passes once VALUE has reached its threshold and acquires unless that is 0; TLGET reads a context; TLSET waits until nothing is
outstanding and sets VALUE and ISSUED. After the wait no copy misses anything that is at its home (R282), nor a view of HOST what the context's completed operations wrote
(R199). How much of it TLWAIT acquires beyond that is log entry 17, the copies it drops log entry 12.
R198 to R200: an operation takes the next number, which stays at the top one with OVF, VALUE below it while one of them is outstanding; when one completes, VALUE is the largest n such that
operations 1 to n are complete.
R202, R216, R260: WAITC, with 63 for any number; TIME; WAITT, which passes once the time has come.
The list of outstanding numbers is log entry 30. -/
def Obligations.TimelineAndWaits : Prop :=
  ((∀ (s : State) (tl a : Reg) (imm : IWord) (x : Word) (c : Core),
      (s.Legal (.tlwait tl a imm) → s.me.readS a = .ok (x, c) →
        let n := if a = 0 then imm.toNat else x.toNat
        (n ≤ (s.me.tl tl.toNat).value.toNat →
          exec (.tlwait tl a imm) s = .next (s.done (.tlwait tl a imm) (if n = 0 then c else { c with
            l1d := [], hview := c.hview.filter fun l => decide (SMap.get 0 (c.tl tl.toNat).host l.la ≤ l.seen) }))) ∧
        ((s.me.tl tl.toNat).value.toNat < n → exec (.tlwait tl a imm) s = .next s.waits)) ∧
      (s.Legal (.tlget tl a imm) → a.toNat < 56 →
        let t := s.me.tl tl.toNat
        exec (.tlget tl a imm) s = .next (s.done (.tlget tl a imm) (s.me.writeS a.toNat
          (if imm = 0 then t.value else if imm = 1 then t.issued else BitVec.ofNat 64 ((if t.err then 1 else 0) + (if t.ovf then 2 else 0)))))) ∧
      (s.Legal (.tlset tl a imm) → s.me.readS a = .ok (x, c) →
        let t := s.me.tl tl.toNat
        (t.out = [] → exec (.tlset tl a imm) s = .next (s.done (.tlset tl a imm) (c.setTl tl.toNat
          { t with value := x, issued := x, host := [], err := t.err && !imm.getLsbD 0, ovf := t.ovf && !imm.getLsbD 1 }))) ∧
        (t.out ≠ [] → exec (.tlset tl a imm) s = .next s.waits))) ∧
   ((∀ t : Timeline, t.issued.toNat < Claims.topNumber → (t.issue).1 = t.issued.toNat + 1 ∧ (t.issue).2.issued = t.issued + 1 ∧
      (t.issue).2.out = t.out ++ [t.issued.toNat + 1] ∧ (t.issue).2.value = t.value ∧ (t.issue).2.ovf = (t.ovf || decide (t.issued.toNat + 1 = Claims.topNumber))) ∧
    (∀ t : Timeline, t.issued.toNat = Claims.topNumber → (t.issue).1 = Claims.topNumber ∧ (t.issue).2.ovf = true ∧ (t.issue).2.issued = t.issued ∧
      (t.issue).2.out = t.out ++ [Claims.topNumber] ∧ (t.issue).2.value.toNat < Claims.topNumber) ∧
    (∀ (t : Timeline) (n : Nat) (fail : Bool), 2 ≤ t.out.count n → n ∈ (t.finish n fail).out) ∧
    (∀ (t : Timeline) (n : Nat) (fail : Bool), t.out.Nodup → (∀ m ∈ t.out, 1 ≤ m ∧ m ≤ t.issued.toNat) →
      let u := t.finish n fail
      u.err = (t.err || fail) ∧ u.issued = t.issued ∧ (∀ m, m ∈ u.out ↔ m ∈ t.out ∧ m ≠ n) ∧
      ∀ v, (v ≤ u.value.toNat ↔ v ≤ t.issued.toNat ∧ ∀ m ∈ u.out, v < m)))) ∧
  ((∀ (s : State) (l st cp ti : BitVec 6), s.Legal (.waitc l st cp ti) →
     let c := s.me
     let within := fun (n : Nat) (m : BitVec 6) => n ≤ m.toNat ∨ m.toNat = 63
     let ok := within c.loads l ∧ within c.stores st ∧ within ((c.tl 0).out.length + (c.tl 3).out.length) cp ∧
       within ((c.tl 1).out.length + (c.tl 2).out.length) ti
     (ok → exec (.waitc l st cp ti) s = .next (s.done (.waitc l st cp ti) c)) ∧ (¬ ok → exec (.waitc l st cp ti) s = .next s.waits)) ∧
   (∀ (s : State) (d : Reg), s.Legal (.time d) → d.toNat < 56 → exec (.time d) s = .next (s.done (.time d) (s.me.writeS d.toNat s.time))) ∧
   (∀ (s : State) (a : Reg) (x : Word) (c : Core), s.Legal (.waitt a) → s.me.readS a = .ok (x, c) →
     (x.toNat ≤ s.time.toNat → exec (.waitt a) s = .next (s.done (.waitt a) c)) ∧ (s.time.toNat < x.toNat → exec (.waitt a) s = .next s.waits)))

/-- R219: an arrival: no member passes at once; a member whose arrival still counts waits; the last member turns the generation bit and empties the set; CWAIT
waits for the turn and takes the arrival back.
R221: CMASK names the members of a channel, empties its set, clears its generation bit and every arrival; a device channel of another partition it leaves alone (log entry 84, a
DESIGN CHOICE). -/
def Obligations.CarillonResult : Prop :=
  (∀ (s : State) (dev : Bool) (ch : BitVec 4),
     let k := s.cur
     let n := ch.toNat
     let mem := s.start.members k dev n
     let x := s.start.chan k dev n
     let key := if dev then 16 + n else n
     let mine := SMap.get 0 s.me.arr key
     let now := if x.gen then 2 else 1
     let arrive := s.start.setCore k { s.me with arr := SMap.set 0 s.me.arr key now }
     (s.Legal (.carr dev ch) →
       (k ∉ mem → exec (.carr dev ch) s = .next (s.done (.carr dev ch) s.me)) ∧
       (k ∈ mem → mine = now → exec (.carr dev ch) s = .next s.waits) ∧
       (k ∈ mem → mine ≠ now → (∀ j ∈ mem, j = k ∨ j ∈ x.arrived) →
         exec (.carr dev ch) s = .next (s.doneIn (arrive.setChan k dev n { x with gen := !x.gen, arrived := [] }).wakeAll (.carr dev ch))) ∧
       (k ∈ mem → mine ≠ now → (∃ j ∈ mem, j ≠ k ∧ j ∉ x.arrived) →
         exec (.carr dev ch) s = .next (s.doneIn (arrive.setChan k dev n { x with arrived := nset_insert x.arrived k }) (.carr dev ch)))) ∧
     (s.Legal (.cwait dev ch) →
       (k ∉ mem ∨ mine = 0 → exec (.cwait dev ch) s = .next (s.done (.cwait dev ch) s.me)) ∧
       (k ∈ mem → mine ≠ 0 → mine = now → exec (.cwait dev ch) s = .next s.waits) ∧
       (k ∈ mem → mine ≠ 0 → mine ≠ now → exec (.cwait dev ch) s = .next (s.done (.cwait dev ch) { s.me with arr := SMap.set 0 s.me.arr key 0 })))) ∧
  (∀ (s : State) (a b : Reg) (ch : BitVec 4) (x y : Word) (c c2 : Core), s.me.readS a = .ok (x, c) →
     let k := s.cur
     let n := ch.toNat
     let s0 := s.setCore k c
     (s.Legal (.cmaskC a ch) → ∃ t, exec (.cmaskC a ch) s = .next (s.doneIn t (.cmaskC a ch)) ∧
       (∀ j, j ∈ (t.chan k false n).members ↔ ∃ r, r < 24 ∧ x.getLsbD r = true ∧ j = clusterOf k * 24 + r) ∧
       (t.chan k false n).arrived = [] ∧ (t.chan k false n).gen = false ∧ t.mem = s.mem ∧
       t.cores = (s0.mapCores fun j c => if clusterOf j = clusterOf k then { c with arr := SMap.set 0 c.arr n 0, stalled := false } else c).cores) ∧
     let own : Prop := s.partOf k * (16 / s.cfg.nparts) ≤ n ∧ n < (s.partOf k + 1) * (16 / s.cfg.nparts)
     (own → s.Legal (.cmaskD a ch) → ∃ t, exec (.cmaskD a ch) s = .next (s.doneIn t (.cmaskD a ch)) ∧
       SMap.get 0 t.dmask (n * 96 + clusterOf k) = x.toNat % 2 ^ 24 ∧ (t.chan k true n).arrived = [] ∧ (t.chan k true n).gen = false ∧ t.mem = s.mem ∧
       t.cores = (s0.mapCores fun j c => if s.partOf j = s.partOf k then { c with arr := SMap.set 0 c.arr (16 + n) 0, stalled := false } else c).cores) ∧
     (own → s.Legal (.cmaskDc a b ch) → c.readS b = .ok (y, c2) → ∃ t, exec (.cmaskDc a b ch) s = .next (s.doneIn t (.cmaskDc a b ch)) ∧
       SMap.get 0 t.dclus n = x.toNat + y.toNat % 2 ^ 32 * 2 ^ 64 ∧ (t.chan k true n).arrived = [] ∧ (t.chan k true n).gen = false ∧ t.mem = s.mem ∧
       ∀ j, s.partOf j ≠ s.partOf k → t.core j = s0.core j) ∧
     (¬ own → s.Legal (.cmaskD a ch) → exec (.cmaskD a ch) s = .next (s.done (.cmaskD a ch) c)) ∧
     (¬ own → s.Legal (.cmaskDc a b ch) → c.readS b = .ok (y, c2) → exec (.cmaskDc a b ch) s = .next (s.done (.cmaskDc a b ch) c2)))

/-- R238, R239: taking a user completion event exchanges the banks of s48 to s53, leaves the pc (of the first word of a unit that has begun, R39), the number and the
status in the new s53, s52 and s51, sets INH and goes to VEC; it gives up the core's tickets (R215), and a frame leaves its RPT in EPC (R48); UIRET undoes the exchange.
Which step takes the event is log entry 1; that UIRET drops bits [1:0] of s53 is log entry 27, the model's reading. -/
def Obligations.UserInterrupt : Prop :=
  (∀ (s : State) (e : UciEvent) (r : List UciEvent), s.uciReady s.arg.core = true → (s.core s.arg.core).bank.uci = e :: r →
    let k := s.arg.core
    let c := s.core k
    ∃ t, exec .userInterruptEntry s = .next t ∧ (t.core k).pc = BitVec.ofNat 64 (bits c.sys.ucivec.toNat 55 2 * 4) ∧
      (t.core k).sreg 53 = (if c.pfx = [] then c.pc else c.pfxPc) ∧ (t.core k).pfx = [] ∧ (∀ q ∈ t.tickets, q.core ≠ k) ∧
      (c.frame ≠ none → (t.core k).frame = none ∧ (t.core k).sys.epc = c.pc) ∧ (c.frame = none → (t.core k).sys.epc = c.sys.epc) ∧ (t.core k).sreg 52 = e.num ∧ (t.core k).sreg 51 = BitVec.ofNat 64 (e.tl * 256 + e.status % 256) ∧
      (∀ j, 48 ≤ j → j < 54 → SMap.get 0 (t.core k).shadow j = c.sreg j) ∧ (∀ j, 48 ≤ j → j < 51 → (t.core k).sreg j = SMap.get 0 c.shadow j) ∧
      (∀ j, j < 48 ∨ j = 54 ∨ j = 55 → (t.core k).sreg j = c.sreg j) ∧
      (t.core k).sys.ucivec = c.sys.ucivec ||| 2 ∧ (t.core k).bank.uci = r ∧ (t.core k).v = c.v ∧ (t.core k).k = c.k ∧
      (∀ j, j ≠ k → t.core j = s.core j) ∧ t.mem = s.mem) ∧
  (∀ (s : State), s.Legal .uiret →
    let c := s.me
    (c.sys.ucivec.getLsbD 1 = false → exec .uiret s = .next (s.traps .uiret .illop c.word0)) ∧
    (c.sys.ucivec.getLsbD 1 = true → (∃ l ∈ c.late, ∃ d n sg, l.dst = .s d n sg ∧ 48 ≤ d ∧ d < 54) → exec .uiret s = .next s.waits) ∧
    (c.sys.ucivec.getLsbD 1 = true → 53 ∉ c.poison.s → (∀ l ∈ c.late, ∀ d n sg, l.dst = .s d n sg → d < 48 ∨ 54 ≤ d) →
      ∃ t, exec .uiret s = .next t ∧ (t.core s.cur).pc = c.sreg 53 &&& 0xFFFFFFFFFFFFFFFC#64 ∧ (t.core s.cur).slot = none ∧ (t.core s.cur).pfx = [] ∧
        (t.core s.cur).sys.ucivec = c.sys.ucivec - 2 ∧ (∀ j, 48 ≤ j → j < 54 → (t.core s.cur).sreg j = SMap.get 0 c.shadow j ∧ SMap.get 0 (t.core s.cur).shadow j = c.sreg j) ∧
        (∀ j, j < 48 ∨ j = 54 ∨ j = 55 → (t.core s.cur).sreg j = c.sreg j) ∧ (∀ j, j ≠ s.cur → t.core j = s.core j) ∧ t.mem = s.mem))

/-! ### System registers (R55, R56, R73, R97, R330) -/

namespace Sys2Proof.Claims

/-- R15, R55, R56: what SGET reads by number on core i, but for LAUNCHCTL. -/
def sgetTable (s : State) (i : Nat) : List (Nat × Word) :=
  let y := (s.core i).sys
  [(0x000, BitVec.ofNat 64 (i / 576 * 2 ^ 10 + i / 24 % 24 * 2 ^ 5 + i % 24)), (0x001, s.cfg.chip.zeroExtend 64), (0x002, s.incarn.zeroExtend 64),
   (0x003, (s.prt (s.partOf i)).featmask.zeroExtend 64), (0x004, 0x0300), (0x010, y.fpctl), (0x011, y.fpstat), (0x012, y.srseed), (0x020, y.ucivec),
   (0x030, y.epc), (0x031, y.ecause), (0x032, y.eval), (0x033, y.eslot), (0x040, y.launchid), (0x041, y.taskkind), (0x042, y.rangeb), (0x043, y.rangee),
   (0x050, y.dconf), (0x060, y.rptstate)]

/-- R55: number, bits that SSET writes, bits that it keeps (the rest become 0), the register. -/
def ssetTable : List (Nat × Word × Word × (Sys → Word) × (Sys → Word → Sys)) :=
  [(0x011, 0x7F, 0, fun y => y.fpstat, fun y x => { y with fpstat := x }),
   (0x012, 0xFFFFFFFFFFFFFFFF, 0, fun y => y.srseed, fun y x => { y with srseed := x }),
   (0x020, 0x00FFFFFFFFFFFFFD, 0xFF00000000000002, fun y => y.ucivec, fun y x => { y with ucivec := x }),
   (0x030, 0xFFFFFFFFFFFFFFFF, 0, fun y => y.epc, fun y x => { y with epc := x }),
   (0x031, 0xFF, 0, fun y => y.ecause, fun y x => { y with ecause := x }),
   (0x032, 0xFFFFFFFFFFFFFFFF, 0, fun y => y.eval, fun y x => { y with eval := x }),
   (0x033, 0x80FFFFFFFFFFFFFC, 0, fun y => y.eslot, fun y x => { y with eslot := x }),
   (0x050, 0xE0FFFFFFFFFFFFC0, 0, fun y => y.dconf, fun y x => { y with dconf := x }),
   (0x060, 0xFFEFFF00FFFFFFFF, 0, fun y => y.rptstate, fun y x => { y with rptstate := x })]

/-- The numbers whose SSET has no effect (R55). -/
def readOnlyNumbers : List Nat := [0x000, 0x001, 0x002, 0x003, 0x004, 0x040, 0x041, 0x042, 0x043]

end Sys2Proof.Claims

/-- R55, R56, R97: SGET of every listed number (ISAVER reads 0x0300), LAUNCHCTL with FROZEN and RUNNING live; SSET writes the register's own bits, an illegal RM leaves RM as it was,
a read-only number has no effect, and a CMD to LAUNCHCTL of 0 or of 3 to 15 does nothing but set LID and STATUS.
What a CMD of 0 leaves is log entry 25. -/
def Obligations.SystemRegisterResult : Prop :=
  (∀ (s : State) (d : Reg), d.toNat < 56 →
    (∀ p ∈ Claims.sgetTable s s.cur, s.Legal (.sget d (BitVec.ofNat 12 p.1)) →
      exec (.sget d (BitVec.ofNat 12 p.1)) s = .next (s.done (.sget d (BitVec.ofNat 12 p.1)) (s.me.writeS d.toNat p.2))) ∧
    (s.Legal (.sget d 0x051) →
      let x := s.me.sys.launchctl
      (s.launch (s.partOf s.cur) (x.toNat / 2 ^ 32) = none → exec (.sget d 0x051) s = .next (s.done (.sget d 0x051) (s.me.writeS d.toNat x))) ∧
      (∀ l, s.launch (s.partOf s.cur) (x.toNat / 2 ^ 32) = some l →
        exec (.sget d 0x051) s = .next (s.done (.sget d 0x051) (s.me.writeS d.toNat
          (x + (if l.frozen then 0x100 else 0) + (if ∃ p ∈ l.patches, p.claim = true ∧ p.held = false then 0x200 else 0))))))) ∧
  (∀ (s : State) (a : Reg) (x : Word) (c : Core), s.me.readS a = .ok (x, c) →
    (∀ p ∈ Claims.ssetTable, s.Legal (.sset a (BitVec.ofNat 12 p.1)) →
      exec (.sset a (BitVec.ofNat 12 p.1)) s = .next (s.done (.sset a (BitVec.ofNat 12 p.1))
        { c with sys := p.2.2.2.2 c.sys ((p.2.2.2.1 c.sys &&& p.2.2.1) ||| (x &&& p.2.1)) })) ∧
    (s.Legal (.sset a 0x010) →
      let legal := x.toNat % 8 < 5 ∨ (x.toNat % 8 = 5 ∧ (s.feat s.cur).testBit 9 = true)
      let m : Word := if legal then 0x1F07 else 0x1F00
      exec (.sset a 0x010) s = .next (s.done (.sset a 0x010) { c with sys := { c.sys with fpctl := (c.sys.fpctl &&& ~~~m) ||| (x &&& m) } })) ∧
    (∀ n ∈ Claims.readOnlyNumbers, s.Legal (.sset a (BitVec.ofNat 12 n)) →
      exec (.sset a (BitVec.ofNat 12 n)) s = .next (s.done (.sset a (BitVec.ofNat 12 n)) c)) ∧
    (s.Legal (.sset a 0x051) → (x.toNat % 16 = 0 ∨ 3 ≤ x.toNat % 16) →
      exec (.sset a 0x051) s = .next (s.done (.sset a 0x051)
        { c with sys := { c.sys with launchctl := BitVec.ofNat 64 (x.toNat / 2 ^ 32 * 2 ^ 32 + (if x.toNat % 16 = 0 then 0 else 3 * 2 ^ 16)) } })))

/-! ### Posting commands (R158 to R160, R173 to R177, R240, R251, R253, R261, R266) -/

namespace Sys2Proof.Claims

/-- The current core's instruction i posts a command on timeline tl, the core being c when it has read its operands: the command takes the next number, s[d] receives it,
and nothing else of the registers, of memory or of the other commands changes; the rest of the state meets p. -/
def Posts (s : State) (i : Instr) (c : Core) (d : Reg) (tl : Nat) (kind : CmdKind) (a v z : Word) (snap : List Byte) (rel uci : Bool) (p : State → Prop) : Prop :=
  ∃ t cmd, exec i s = .next t ∧ t.cmds = s.cmds ++ [cmd] ∧ cmd.kind = kind ∧ cmd.core = s.cur ∧ cmd.tl = tl ∧ cmd.num = ((c.tl tl).issue).1 ∧
    cmd.ecl = clusterOf s.cur ∧ cmd.coord = c.coord ∧ cmd.a = a ∧ cmd.v = v ∧ cmd.c = z ∧ cmd.snap = snap ∧ cmd.release = rel ∧ cmd.uci = uci ∧ cmd.phase = .posted ∧
    (t.core s.cur).tl tl = ((c.tl tl).issue).2 ∧ (d ≠ 0 → (t.core s.cur).sreg d.toNat = BitVec.ofNat 64 cmd.num) ∧
    RegsBut c (t.core s.cur) d.toNat ∧ Passed (s.core s.cur) (t.core s.cur) i.len ∧ t.mem = s.mem ∧ p t

/-- R240, R251: the commands whose 192-byte descriptor is read at issue. -/
def copyTable : List ((PostOp → Instr) × CmdKind) :=
  [(.cpy, .cpy), (.credAddF32, .cred 0), (.credAddF64, .cred 1), (.credAddI32, .cred 2), (.credMinF32, .cred 3), (.credMaxF32, .cred 4), (.credMinI32, .cred 5),
   (.credMaxI32, .cred 6), (.credWs, .cred 7)]

/-- Fewer than 32 copy-class commands are outstanding, and there is room for a completion interrupt where one is asked for (R202, R237). -/
def CopyRoom (c : Core) (op : PostOp) : Prop :=
  (c.tl 0).out.length + (c.tl 3).out.length < 32 ∧ (op.uci = true → c.bank.uciOut + c.bank.uci.length < 32)

/-- Fewer than 16 tile commands are outstanding (R202). -/
def TileRoom (c : Core) : Prop := (c.tl 1).out.length + (c.tl 2).out.length < 16

/-- x is a descriptor address that R173 admits; `key` is where it stands. -/
def DescAt (s : State) (x : Word) (key : Nat) : Prop := ∃ o, windowOf x.toNat = some (false, o) ∧ o < 2 ^ 22 ∧ x.toNat % 64 = 0 ∧ s.windowKey s.cur false o = some key

end Sys2Proof.Claims

/-- R240, R251, R253, R261, R266: CPY, CRED, CFLAG, CHASE and REPART post their commands with what they read at issue, on tl0 and tl3; each of them waits where 32 copy-class
commands are outstanding, or where it asks for a completion interrupt and 32 of these are (R202, R237), before it reads anything at issue; a packet outside the local store window traps with PROT. -/
def Obligations.CopyPosting : Prop :=
  ∀ (s : State) (op : PostOp) (x : Word) (c : Core), s.me.readS op.a = .ok (x, c) → op.d.toNat < 56 →
    (∀ p ∈ Claims.copyTable, s.Legal (p.1 op) →
      (Claims.CopyRoom c op → ∀ b t, (s.setCore s.cur c).snapshot s.cur x 192 64 = .ok (b, t) →
        Claims.Posts s (p.1 op) c op.d 0 p.2 x 0 0 b op.release op.uci fun _ => True) ∧
      (Claims.CopyRoom c op → ∀ q v, (s.setCore s.cur c).snapshot s.cur x 192 64 = .error (.trap q v) → exec (p.1 op) s = .next (s.traps (p.1 op) q v)) ∧
      (¬ Claims.CopyRoom c op → exec (p.1 op) s = .next s.waits)) ∧
    (∀ (add : Bool) (b : Reg) (y : Word) (c2 : Core), c.readS b = .ok (y, c2) →
      let i : Instr := if add then .cflagAdd op b else .cflag op b
      s.Legal i → (Claims.CopyRoom c2 op → Claims.Posts s i c2 op.d 0 (.cflag add) x y 0 [] op.release op.uci fun _ => True) ∧
        (¬ Claims.CopyRoom c2 op → exec i s = .next s.waits)) ∧
    (¬ Claims.CopyRoom c op → (s.Legal (.chase op) → exec (.chase op) s = .next s.waits) ∧ (s.Legal (.repart op) → exec (.repart op) s = .next s.waits)) ∧
    (s.Legal (.chase op) → Claims.CopyRoom c op →
      (∀ o h t b u, windowOf x.toNat = some (true, o) → (s.setCore s.cur c).snapshot s.cur x 32 16 = .ok (h, t) →
        t.snapshot s.cur (x + 32) (16 * (bits (ofBytes (h.take 8)) 34 32 + 1)) 16 = .ok (b, u) →
        Claims.Posts s (.chase op) c op.d 3 .chase x 0 0 (h ++ b) op.release op.uci fun _ => True) ∧
      ((∀ o, windowOf x.toNat ≠ some (true, o)) → exec (.chase op) s = .next (s.traps (.chase op) .prot x))) ∧
    (s.Legal (.repart op) → Claims.CopyRoom c op → ∀ b t, readBlock s.cur (s.setCore s.cur c) x = .ok (b, t) →
      Claims.Posts s (.repart op) c op.d 3 .repart x 0 0 b op.release op.uci fun _ => True)

/-- R158 to R160, R173 to R177: MXQ, MXZ, MXRD and MXWR post on tl1, with the shape that a handle's latest MXZ named; RCFG, RTAB and RSTEP post on tl2; they wait where 16 tile commands
are outstanding; RGEN reads w2 of a descriptor. That an MXZ with reserved bits set names no shape is log entry 34, and which w2 RGEN returns log entry 80: the model's choices. -/
def Obligations.TilePosting : Prop :=
  (∀ (s : State) (d a : Reg) (x : Word) (c : Core) (k : Nat) (e : Option TlbEntry), s.Legal (.mxq d a) → s.me.readS a = .ok (x, c) → d.toNat < 56 →
    (∀ j, j < 128 → s.chk1 s.cur (x.toNat + j) = none) → x.toNat % 128 = 0 → s.chk34 s.cur .load x.toNat = .ok (k, e) → typeOfPa k ≠ some .ls → typeOfPa k ≠ some .host →
    (Claims.TileRoom c → Claims.Posts s (.mxq d a) c d 1 .mxq x 0 0 [] false false fun _ => True) ∧ (¬ Claims.TileRoom c → exec (.mxq d a) s = .next s.waits)) ∧
  (∀ (s : State) (h a : Reg) (imm : BitVec 17) (x : Word) (c : Core), s.Legal (.mxz h a imm) → (a = 0 → x = imm.zeroExtend 64 ∧ c = s.me) →
    (a ≠ 0 → s.me.readS a = .ok (x, c)) → Claims.TileRoom c →
    let rows := x.toNat % 512 + 1
    let cols := x.toNat / 512 % 256 + 1
    Claims.Posts s (.mxz h a imm) c 0 1 (.mxz h.toNat rows cols false (decide (2 ^ 17 ≤ x.toNat))) 0 0 0 [] false false fun t =>
      (t.handle s.cur (c.run.getD 0) h.toNat).named = if x.toNat < 2 ^ 17 then some (rows, cols) else none) ∧
  (∀ (s : State) (h : Reg), s.Legal (.mxzFree h) → Claims.TileRoom s.me →
    Claims.Posts s (.mxzFree h) s.me 0 1 (.mxz h.toNat 0 0 true false) 0 0 0 [] false false fun t => (t.handle s.cur (s.me.run.getD 0) h.toNat).named = none) ∧
  (∀ (s : State) (free : Bool) (h a b : Reg) (x y : Word) (c1 c : Core), s.me.readS a = .ok (x, c1) → c1.readS b = .ok (y, c) → Claims.TileRoom c →
    let n := (s.handle s.cur (c.run.getD 0) h.toNat).named
    let r := n.getD (0, 0)
    let passes := fun (acc : Access) => r.1 = 0 ∨ (s.chk1 s.cur x.toNat = none ∧ x.toNat % 4 = 0 ∧ y.toNat % 4 = 0 ∧
      ∃ t, (s.setCore s.cur c).checkTile s.cur acc (moveWords x y r.1 r.2) = .ok t)
    (s.Legal (.mxrd free h a b) → passes .store →
      Claims.Posts s (.mxrd free h a b) c 0 1 (.mxrd h.toNat r.1 r.2 free) x y 0 [] false false fun t =>
        (t.handle s.cur (c.run.getD 0) h.toNat).named = if free then none else n) ∧
    (s.Legal (.mxwr h a b) → passes .load → Claims.Posts s (.mxwr h a b) c 0 1 (.mxwr h.toNat r.1 r.2) x y 0 [] false false fun _ => True)) ∧
  (∀ (s : State) (d a b e : Reg) (x y z : Word) (c1 c2 c3 : Core) (key : Nat), s.me.readS a = .ok (x, c1) → c1.readS b = .ok (y, c2) → c2.readS e = .ok (z, c3) →
    Claims.DescAt s x key → d.toNat < 56 → Claims.TileRoom c3 →
    (s.Legal (.rcfg d a b e) → Claims.Posts s (.rcfg d a b e) c3 d 2 .rcfg x y z [] false false fun _ => True) ∧
    (s.Legal (.rtab d a b e) → Claims.Posts s (.rtab d a b e) c3 d 2 .rtab x y z [] false false fun _ => True)) ∧
  (∀ (s : State) (n : BitVec 4) (d a b : Reg) (x y : Word) (c1 c2 : Core) (key : Nat), s.me.readS a = .ok (x, c1) → Claims.DescAt s x key → d.toNat < 56 → Claims.TileRoom c1 →
    (s.Legal (.rstep false n d a b) → Claims.Posts s (.rstep false n d a b) c1 d 2 .rstep x (n.zeroExtend 64) 0 [] false false fun _ => True) ∧
    (s.Legal (.rstep true n d a b) → c1.readS b = .ok (y, c2) →
      Claims.Posts s (.rstep true n d a b) c2 d 2 .rstep x (BitVec.ofNat 64 (y.toNat % 2 ^ 32)) 0 [] false false fun _ => True)) ∧
  (∀ (s : State) (d a : Reg) (x : Word) (c : Core) (key : Nat), s.Legal (.rgen d a) → s.me.readS a = .ok (x, c) → Claims.DescAt s x key → d.toNat < 56 →
    s.poisonSeen s.cur (key + 16) = false → exec (.rgen d a) s = .next (s.done (.rgen d a) (c.writeS d.toNat (BitVec.ofNat 64 (s.rd (key + 16) 8)))))

/-! ### Tasks and launches (R101, R302 to R308, R322, R323, R331) -/

/-- R308: LAUNCH, its release complete, snapshots the record by plain loads as an arrived launch under the next LAUNCHID, which s[D] and w31 receive; QPUSH, in
progress until its release is complete (R304), appends its item and writes it into the ring at QBASE, or answers 1 where the launch is no incomplete
QUEUE launch and 2 where its queue is full.
R101, R302, R303, R307, R322, R329: END finishes the task, commits a causal step (LN and HEAD advance, the claim goes) and leaves the core; YIELD admits a waiting team of
its priority or does nothing; TAKE answers 0 with the next work, having acquired what was released before its launch became runnable (R298), 2 where there is none left,
1 where it does not wait; NEXTI takes the next index of a RANGE, or answers all ones.
An unreadable record is log entry 40, the corners of END, TAKE and NEXTI log entry 39. Which words of the ring hold which items, and that QINIT's items count as queued
while the launch has only arrived, is log entry 38, a DESIGN CHOICE of the model. -/
def Obligations.LaunchAndTaskInstructions : Prop :=
  ((∀ (s s1 : State) (d a : Reg) (x : Word) (c : Core) (k : Nat) (e : Option TlbEntry) (xs : List (Nat × Nat × Nat)),
     s.Legal (.launch d a) → s.me.readS a = .ok (x, c) → d.toNat < 56 →
     s.chkItem1 s.cur x 256 = none → x.toNat % 256 = 0 → s.chk34 s.cur .load x.toNat = .ok (k, e) → windowOf x.toNat = none → typeOfPa k ≠ some .host →
     (∀ j, j < 32 → s.poisonPlain s.cur (k + 8 * j) = false) →
     let p := s.partOf s.cur
     let va := fun j => x + BitVec.ofNat 64 (8 * j)
     let rec_ := xs.map fun w => BitVec.ofNat 64 w.2.2
     (s.start.released s.cur .system = false → exec (.launch d a) s = .next s.waits) ∧
     (s.start.released s.cur .system = true →
     (s.start.publish s.cur .system).loadLanes s.cur false ((List.range 32).map fun j => (⟨j, va j, 8, false⟩, [(va j, k + 8 * j, 8)])) = .ok (xs, s1) →
     (s.launches.filter fun l => decide (l.part = p) && decide (l.prio = bits (rec_.getD 0 0).toNat 31 30)).length < 64 → s.heldAt (k + 248) = false →
     ∃ t l, exec (.launch d a) s = .next t ∧ l ∈ t.launches ∧ l.id = (s.prt p).nextLid ∧ l.part = p ∧ l.record = rec_ ∧ l.recPa = k ∧ l.st = .arrived ∧
       (s.me.l1d = [] → s.sbOf s.cur = [] → rec_ = (List.range 32).map fun j => BitVec.ofNat 64 (s.rd (k + 8 * j) 8)) ∧
       t.pub = (s.start.publish s.cur .system).pub ∧
       (d ≠ 0 → (t.core s.cur).sreg d.toNat = BitVec.ofNat 64 l.id) ∧ Claims.RegsBut c (t.core s.cur) d.toNat ∧ Claims.Passed (s.core s.cur) (t.core s.cur) (Instr.launch d a).len ∧
       (t.prt p).nextLid = (if (l.id + 1) % 2 ^ 32 = 0 then 1 else (l.id + 1) % 2 ^ 32) ∧ t.rd (k + 248) 8 = l.id * 2 ^ 32 % 2 ^ 64 ∧
       ∀ b, b < k + 248 ∨ k + 256 ≤ b → t.byte b = s.byte b)) ∧
   (∀ (s : State) (d a b : Reg) (x item : Word) (c1 c : Core), s.Legal (.qpush d a b) → s.me.readS a = .ok (x, c1) → c1.readS b = .ok (item, c) → d.toNat < 56 →
     let p := s.partOf s.cur
     let id := if a = 0 then c.run.getD 0 else x.toNat % 2 ^ 32
     let answers := fun (n : Word) => exec (.qpush d a b) s =
       .next (s.doneIn ((s.start.publish s.cur .device).setCore s.cur (({ c with pushing := none } : Core).writeS d.toNat n)) (.qpush d a b))
     (s.start.released s.cur .device = false → exec (.qpush d a b) s = .next (s.start.modCore s.cur fun c => { c with pushing := some id, stalled := true })) ∧
     (s.start.released s.cur .device = true →
     ((s.launch p id = none ∨ ∃ l, s.launch p id = some l ∧ l.kind ≠ 2) → answers 1) ∧
     (∀ l, s.launch p id = some l → l.kind = 2 → l.word 7 % 2 ^ 32 ≤ l.queue.length + (if l.st = .arrived then l.word 7 / 2 ^ 32 else 0) → answers 2) ∧
     (∀ l, s.launch p id = some l → l.kind = 2 → l.queue.length + (if l.st = .arrived then l.word 7 / 2 ^ 32 else 0) < l.word 7 % 2 ^ 32 →
       let place := s.schedPa p .store (l.word 6 + 8 * ((l.qseq + l.queue.length + (if l.st = .arrived then l.word 7 / 2 ^ 32 else 0)) % (l.word 7 % 2 ^ 32)))
       ∃ t, exec (.qpush d a b) s = .next t ∧ t.launch p id = some { l with queue := l.queue ++ [item] } ∧ (d ≠ 0 → (t.core s.cur).sreg d.toNat = 0) ∧
         Claims.RegsBut c (t.core s.cur) d.toNat ∧ (t.core s.cur).pushing = none ∧ Claims.Passed (s.core s.cur) (t.core s.cur) (Instr.qpush d a b).len ∧
         (place = none → t.mem = s.mem) ∧
         (∀ k, place = some k → (s.heldAt k = true → t.mem = s.mem) ∧
           (s.heldAt k = false → t.rd k 8 = item.toNat ∧ ∀ j, j < k ∨ k + 8 ≤ j → t.byte j = s.byte j)))))) ∧
  ((∀ (s : State) (l : Launch) (a : Alloc), s.Legal .endTask → s.isSup s.cur = false → s.start.running s.cur = some l → (s.core s.cur).alloc l.id = some a →
     (s.core s.cur).loads = 0 → s.start.released s.cur .device = true →
     (l.kind ≠ 1 ∨ (s.core s.cur).current = false →
       ∃ t b, exec .endTask s = .next t ∧ (t.core s.cur).run = none ∧ (t.core s.cur).alloc l.id = some b ∧
         b.st = (if (s.core s.cur).current then .idle else .ended) ∧ b.current = false ∧ t.mem = s.mem) ∧
     (∀ p, l.kind = 1 → (s.core s.cur).current = true → l.patches[(s.core s.cur).coord.toNat]? = some p → l.levelBreach (s.core s.cur).coord.toNat = false → s.stoppedL l = false →
       ∃ t b l' p', exec .endTask s = .next t ∧ (t.core s.cur).run = none ∧ (t.core s.cur).alloc l.id = some b ∧ b.st = .idle ∧ t.launch l.part l.id = some l' ∧
         l'.patches[(s.core s.cur).coord.toNat]? = some p' ∧ p'.ln = (p.ln + p.step) % 2 ^ 32 ∧ p'.head = (p.head + 1) % l.nver ∧ p'.claim = false ∧ p'.held = false ∧
         p'.lo = if p.count = l.nver then (p.lo + p.step) % 2 ^ 32 else p.lo) ∧
     (l.kind = 1 → (s.core s.cur).current = true → l.levelBreach (s.core s.cur).coord.toNat = true → exec .endTask s = .next (s.traps .endTask .level (s.core s.cur).coord))) ∧
   (∀ s : State, s.Legal .yield →
     ((s.start.running s.cur = none ∨ ∃ l, s.start.running s.cur = some l ∧ s.start.yieldTo s.cur l = none) → exec .yield s = .next (s.done .yield s.me)) ∧
     (∀ l m u, s.start.running s.cur = some l → s.start.yieldTo s.cur l = some (m, u) →
       ∃ t, exec .yield s = .next t ∧ (∀ i ∈ m.teamCores u, ((t.core i).alloc m.id).isSome = true ∧ ((t.core i).run.isSome = true → (t.core i).preempt = true)) ∧
         ((∀ i ∈ m.teamCores u, ∀ n, n < 2 → bits (s.slotWord i n 0) 19 16 ≠ 3) → t.mem = s.mem))) ∧
   (∀ (s : State) (nb : Bool) (d : Reg) (l l' : Launch) (a : Alloc), s.Legal (.take nb d) → s.isSup s.cur = false → s.start.running s.cur = some l →
     (s.core s.cur).current = true → l.kind ≠ 1 → (s.core s.cur).loads = 0 → s.start.released s.cur .device = true → d.toNat < 56 →
     let u := (s.start.publish s.cur .device).finishTask s.cur l
     u.launch l.part l.id = some l' → (u.core s.cur).alloc l.id = some a →
     (∀ v s1 s2, u.grab l' s.cur a = some (v, s1, s2) →
       ∃ t, exec (.take nb d) s = .next t ∧ (t.core s.cur).sreg d.toNat = 0 ∧ (d ≠ 1 → (t.core s.cur).sreg 1 = s1) ∧ (d ≠ 2 → (t.core s.cur).sreg 2 = s2) ∧
         (d ≠ 3 → (t.core s.cur).sreg 3 = BitVec.ofNat 64 (l'.word 3)) ∧ (∀ r, 4 ≤ r → r ≠ d.toNat → (t.core s.cur).sreg r = (s.core s.cur).sreg r) ∧
         (t.core s.cur).current = true ∧ (t.core s.cur).coord = s1 ∧ (t.core s.cur).phasec = 0 ∧
         (∀ q ∈ (t.core s.cur).l1d ++ (t.core s.cur).hview, (l'.know.here (clusterOf s.cur)).meets q = true) ∧
         (t.core s.cur).range = (if l'.kind = 0 then (s1, s2) else (0, 0)) ∧ Claims.Passed (s.core s.cur) (t.core s.cur) (Instr.take nb d).len) ∧
     (u.grab l' s.cur a = none → u.exhausted l' = false → nb = false → exec (.take nb d) s = .next (u.modCore s.cur fun c => { c with stalled := true })) ∧
     (u.grab l' s.cur a = none → u.exhausted l' = true ∨ nb = true →
       ∃ t, exec (.take nb d) s = .next t ∧ (d ≠ 0 → (t.core s.cur).sreg d.toNat = if u.exhausted l' then 2 else 1) ∧ (t.core s.cur).current = false ∧
         (t.core s.cur).range = (0, 0) ∧ (∀ r, r ≠ d.toNat → (t.core s.cur).sreg r = (s.core s.cur).sreg r) ∧
         Claims.Passed (s.core s.cur) (t.core s.cur) (Instr.take nb d).len)) ∧
   (∀ (s : State) (d : Reg), s.Legal (.nexti d) → d.toNat < 56 →
     let y := s.me.sys
     (∀ l, s.start.running s.cur = some l → l.kind = 0 → y.rangeb.toNat < y.rangee.toNat →
       exec (.nexti d) s = .next (s.done (.nexti d) (({ s.me with sys := { y with rangeb := y.rangeb + 1 } } : Core).writeS d.toNat y.rangeb))) ∧
     ((s.start.running s.cur = none ∨ (∃ l, s.start.running s.cur = some l ∧ l.kind ≠ 0) ∨ y.rangee.toNat ≤ y.rangeb.toNat) →
       exec (.nexti d) s = .next (s.done (.nexti d) (s.me.writeS d.toNat (BitVec.ofInt 64 (-1)))))))

/-- R323, R331: LVGET returns the four words of a slot, for its own patch those of slot 8, and acquires at device scope; 0s without a current causal step. LVSET
answers the status of its checks, and with status 0 moves the level of the patch it names; it waits while its target is stopped (R365).
That LVSET waits until its target has been validated is log entry 72. -/
def Obligations.LevelInstructions : Prop :=
  (∀ (s : State) (slot : BitVec 4) (d b : Reg) (l : Launch) (p : Patch), s.Legal (.lvget false slot d b) → s.start.running s.cur = some l →
    let k := s.me.coord.toNat
    l.kind = 1 → s.me.current = true → s.stoppedL l = false → l.patches[k]? = some p →
    (∀ ws, l.lvget k slot.toNat none = some ws →
      ∃ t, exec (.lvget false slot d b) s = .next t ∧ (∀ j, j < 4 → d.toNat + j ≠ 0 → (t.core s.cur).sreg (d.toNat + j) = ws.getD j 0) ∧
        (t.core s.cur).l1d = [] ∧ (∀ q ∈ (t.core s.cur).hview, s.pub.meets q = true ∧ q ∈ s.me.hview) ∧
        (∀ r, r < d.toNat ∨ d.toNat + 4 ≤ r → (t.core s.cur).sreg r = s.me.sreg r) ∧ Claims.Passed (s.core s.cur) (t.core s.cur) (Instr.lvget false slot d b).len ∧ t.mem = s.mem) ∧
    l.lvget k 8 none = some [p.vp.getD ((p.head + 1) % l.nver) 0, p.vp.getD (p.head % l.nver) 0, 0, BitVec.ofNat 64 p.step]) ∧
  (∀ (s : State) (ts : Bool) (slot : BitVec 4) (d b : Reg) (y : Word) (c : Core), s.Legal (.lvget ts slot d b) → (if ts then s.me.readS b = .ok (y, c) else c = s.me) →
    (s.start.running s.cur = none ∨ s.me.current = false) →
    ∃ t, exec (.lvget ts slot d b) s = .next t ∧ (∀ j, j < 4 → (t.core s.cur).sreg (d.toNat + j) = 0) ∧
      (∀ r, r < d.toNat ∨ d.toNat + 4 ≤ r → (t.core s.cur).sreg r = c.sreg r) ∧ Claims.Passed (s.core s.cur) (t.core s.cur) (Instr.lvget ts slot d b).len) ∧
  (∀ (s : State) (reseat : Bool) (d a b e : Reg) (x y z : Word) (c1 c2 c : Core),
    let i : Instr := if reseat then .lvsetReseat d a b e else .lvset d a b e
    let p := s.partOf s.cur
    s.Legal i → s.me.readS a = .ok (x, c1) → c1.readS b = .ok (y, c2) → c2.readS e = .ok (z, c) → x.toNat < 2 ^ 24 → s.start.released s.cur .device = true → d.toNat < 56 →
    let id := if y.toNat % 2 ^ 32 = 0 then c.run.getD 0 else y.toNat % 2 ^ 32
    let lvl := z.toNat % 2 ^ 32
    let answers := fun (n : Word) => exec i s = .next (s.doneIn ((s.start.publish s.cur .device).setCore s.cur (c.writeS d.toNat n)) i)
    (s.isSup s.cur = true ∨ id = c.run.getD 0 ∨ ∃ l, s.running s.cur = some l ∧ id ∈ l.kids) →
    (s.launch p id = none → answers 1) ∧
    (∀ l, s.launch p id = some l → (s.stoppedL l = true ∨ (l.kind = 1 ∧ l.patches = [])) → exec i s = .next s.waits) ∧
    (∀ l, s.launch p id = some l → s.stoppedL l = false →
      let near := fun (q : Patch) => q.neighbours.filterMap fun j => l.patches[j]?
      (l.kind ≠ 1 → answers 1) ∧
      (l.kind = 1 → l.patches ≠ [] → l.patches[x.toNat]? = none → answers 2) ∧
      (∀ q, l.kind = 1 → l.patches[x.toNat]? = some q →
        (q.claim = true → answers 3) ∧
        (q.claim = false → reseat = false → (serialLe q.lo lvl = false ∨ serialLe lvl q.ln = false ∨ (lvl + 2 ^ 32 - q.lo) % 2 ^ 32 % q.step ≠ 0) → answers 4) ∧
        (q.claim = false → (reseat = true ∨ (serialLe q.lo lvl = true ∧ serialLe lvl q.ln = true ∧ (lvl + 2 ^ 32 - q.lo) % 2 ^ 32 % q.step = 0)) →
          (∃ r ∈ near q, serialLe r.lo lvl = false ∨ (reseat = true ∧ serialLe lvl r.ln = false)) → answers 5) ∧
        (q.claim = false → reseat = true → (∀ r ∈ near q, serialLe r.lo lvl = true ∧ serialLe lvl r.ln = true) →
          2 ^ 31 < (l.endLevel + 2 ^ 32 - lvl) % 2 ^ 32 + l.smax → serialLe l.endLevel lvl = false → answers 6) ∧
        (q.claim = false → (reseat = true ∨ (serialLe q.lo lvl = true ∧ serialLe lvl q.ln = true ∧ (lvl + 2 ^ 32 - q.lo) % 2 ^ 32 % q.step = 0)) →
          (∀ r ∈ near q, serialLe r.lo lvl = true ∧ (reseat = true → serialLe lvl r.ln = true)) →
          (reseat = true → (l.endLevel + 2 ^ 32 - lvl) % 2 ^ 32 + l.smax ≤ 2 ^ 31) →
          ∃ t l' q', exec i s = .next t ∧ (d ≠ 0 → (t.core s.cur).sreg d.toNat = 0) ∧ t.launch p id = some l' ∧ l'.patches[x.toNat]? = some q' ∧ q'.ln = lvl ∧
            q'.lo = (if reseat then lvl else q.lo) ∧ q'.step = q.step ∧ Claims.RegsBut c (t.core s.cur) d.toNat))))

/-- R30, R44 to R49: RPT captures its frame and runs nothing yet, or with a count of 0 leaves it behind; a fetch fault of the capture, or a word that no frame holds,
traps before the count is read; at EPC with ACTIVE = 1 the frame that RPTSTATE describes goes on; an iteration commits what its captured instructions make of the core, RPTSTATE
counting; a trap in an iteration leaves no effect of it and reports the frame at the RPT, its position in RPTSTATE.
An iteration as one step, and RPTSTATE 0 after the last, is log entry 36. -/
def Obligations.RepeatFrames : Prop :=
  (∀ (s : State) (csrc : Bool) (a : Reg) (count : BitVec 16) (b1 a1 d1 : BitVec 2) (n1 : BitVec 4) (c : Core) (cnt : Nat) (ws : List IWord) (t : State),
    let i : Instr := .rpt csrc a count b1 a1 d1 n1
    s.Legal i → (s.me.sys.rptstate.getLsbD 63 = false ∨ s.me.sys.epc ≠ s.me.pc) →
    (∀ q v, s.start.capture s.cur captureFuel (n1.toNat + 1) (s.me.pc + 8) [] = .error (q, v) → exec i s = .next (s.traps i q v)) ∧
    (s.start.capture s.cur captureFuel (n1.toNat + 1) (s.me.pc + 8) [] = .ok (ws, t) → (splitFrame [] ws).length = n1.toNat + 1 →
    (∀ o, frameBad 2 (splitFrame [] ws) = some o → exec i s = .next (s.traps i .rptbad (BitVec.ofNat 64 o))) ∧
    (frameBad 2 (splitFrame [] ws) = none → (if csrc then ∃ x, s.me.readS a = .ok (x, c) ∧ cnt = x.toNat % 2 ^ 32 else c = s.me ∧ cnt = count.toNat) →
    ∃ u, exec i s = .next u ∧ (∀ r, (u.core s.cur).sreg r = c.sreg r) ∧ (u.core s.cur).v = c.v ∧ u.mem = s.mem ∧
      (cnt ≠ 0 → (u.core s.cur).frame = some ws ∧ (u.core s.cur).pc = s.me.pc ∧ (u.core s.cur).sys.rptstate =
        BitVec.ofNat 64 (2 ^ 63 + n1.toNat * 2 ^ 59 + d1.toNat * 2 ^ 57 + a1.toNat * 2 ^ 55 + b1.toNat * 2 ^ 53 + cnt)) ∧
      (cnt = 0 → (u.core s.cur).frame = none ∧ (u.core s.cur).sys = c.sys ∧ (u.core s.cur).pc = s.me.pc + BitVec.ofNat 64 (8 + 4 * ws.length))))) ∧
  (∀ (s : State) (csrc : Bool) (a : Reg) (count : BitVec 16) (b1 a1 d1 : BitVec 2) (n1 : BitVec 4) (ws : List IWord) (t : State),
    let i : Instr := .rpt csrc a count b1 a1 d1 n1
    let r := s.me.sys.rptstate.toNat
    s.Legal i → s.me.sys.rptstate.getLsbD 63 = true → s.me.sys.epc = s.me.pc → bits r 31 0 ≠ 0 →
    s.start.capture s.cur captureFuel (bits r 62 59 + 1) (s.me.pc + 8) [] = .ok (ws, t) → frameBad 2 (splitFrame [] ws) = none →
    (splitFrame [] ws).length = bits r 62 59 + 1 →
    ∃ u, exec i s = .next u ∧ (u.core s.cur).frame = some ws ∧ (u.core s.cur).sys = s.me.sys ∧ (u.core s.cur).pc = s.me.pc ∧ u.mem = s.mem ∧
      ∀ r, (u.core s.cur).sreg r = s.me.sreg r) ∧
  (∀ (s : State) (ws : List IWord), (s.core s.cur).frame = some ws →
    let c := s.core s.cur
    let r := c.sys.rptstate.toNat
    let m := bits r 47 40
    let moved := (m * strideOf (bits r 58 57), m * strideOf (bits r 56 55), m * strideOf (bits r 54 53))
    (∀ c', s.me.runFrame s.cur (s.feat s.cur) (s.isSup s.cur) moved 0 (splitFrame [] ws) = .ok c' → c'.txq = [] → c'.sys.rptstate = c.sys.rptstate →
      ∃ t, exec .rptIteration s = .next t ∧ (∀ n, (t.core s.cur).sreg n = c'.sreg n) ∧ (t.core s.cur).v = c'.v ∧ (t.core s.cur).k = c'.k ∧
        (1 < bits r 31 0 → (t.core s.cur).frame = c'.frame ∧ (t.core s.cur).pc = c'.pc ∧ (t.core s.cur).sys.rptstate.toNat % 2 ^ 32 = r % 2 ^ 32 - 1 ∧
          bits (t.core s.cur).sys.rptstate.toNat 47 40 = (m + 1) % 224) ∧
        (bits r 31 0 = 1 → (t.core s.cur).frame = none ∧ (t.core s.cur).pc = c'.pc + BitVec.ofNat 64 (8 + 4 * ws.length) ∧
          (t.core s.cur).sys.rptstate = 0)) ∧
    (∀ j q v, s.me.runFrame s.cur (s.feat s.cur) (s.isSup s.cur) moved 0 (splitFrame [] ws) = .error (j, .trap q v) →
      exec .rptIteration s = .next ((s.setCore s.cur { c with frame := none, sys := { c.sys with rptstate := BitVec.ofNat 64 (setBits r 51 48 j) } }).takeTrap s.cur q v (c.pc + 8)))) ∧
  (∀ (m : Nat × Nat × Nat) (d a b : Reg), d.toNat < 56 → a.toNat < 56 → b.toNat < 56 →
    ∃ d' a' b', staggerInstr m (.add d a b) = some (.add d' a' b') ∧ d'.toNat = (d.toNat + m.1) % 56 ∧ a'.toNat = (a.toNat + m.2.1) % 56 ∧ b'.toNat = (b.toNat + m.2.2) % 56)

/-! ### The supervisor's instructions (R280, R348, R361, R364 to R366) -/

/-- R348, R364 to R366, R280: PARK waits while HEAD = TAIL and acquires; GONG counts once and passes when its target has stopped; GONG.release releases, then counts down; TLBI removes the
translations it reaches; SRESUME makes a parked task ready, ends it, or reads or writes a word of its save slot, and answers 1 where the core has none.
What GONG and TLBI wait for is log entry 44, PARK's mailbox log entry 43, the corners of SRESUME log entry 41. -/
def Obligations.SupervisorInstructions : Prop :=
  (∀ s : State, s.Legal .park →
    let at_ := lsKey s.cur 0x18000
    let word := fun o => Claims.little (fun j => s.loadByte s.cur false (at_ + o + j)) 4
    s.poisonSeen s.cur at_ = false → s.poisonSeen s.cur (at_ + 8) = false →
    (word 0 = word 8 → exec .park s = .next s.waits) ∧ (word 0 ≠ word 8 → exec .park s = .next (s.doneIn (s.start.acquireAt s.cur .device) .park))) ∧
  (∀ (s : State) (a : Reg) (x : Word) (c : Core) (g : Option Nat), s.me.readS a = .ok (x, c) → gongTarget x = some g →
    let p := s.partOf s.cur
    (s.Legal (.gong a) → s.gongCount p g = none → exec (.gong a) s = .next (s.done (.gong a) { c with begun := none })) ∧
    (∀ n, s.Legal (.gong a) → s.gongCount p g = some n → (s.core s.cur).begun = none →
      ∃ t, exec (.gong a) s = .next t ∧ t.gongCount p g = some (n + 1) ∧
        let u := (((s.start.setGong p (n + 1) g).modCore s.cur fun c => { c with begun := some s.serial }).dropTickets p g).parkTarget p g
        (u.targetStopped p g = true → Claims.RegsBut c (t.core s.cur) 0 ∧ Claims.Passed (s.core s.cur) (t.core s.cur) 4 ∧ (t.core s.cur).l1d = [] ∧ (t.core s.cur).begun = none) ∧
        (u.targetStopped p g = false → (t.core s.cur).pc = (s.core s.cur).pc ∧ (t.core s.cur).stalled = true ∧ (t.core s.cur).begun = some s.serial)) ∧
    (s.Legal (.gongRelease a) → (s.gongCount p g = none ∨ s.gongCount p g = some 0) → exec (.gongRelease a) s = .next (s.done (.gongRelease a) c)) ∧
    (∀ n, s.Legal (.gongRelease a) → s.gongCount p g = some (n + 1) → s.start.released s.cur .device = false → exec (.gongRelease a) s = .next s.waits) ∧
    (∀ n, s.Legal (.gongRelease a) → s.gongCount p g = some (n + 1) → s.start.released s.cur .device = true →
      ∃ t, exec (.gongRelease a) s = .next t ∧ t.gongCount p g = some n ∧ Claims.RegsBut c (t.core s.cur) 0 ∧ Claims.Passed (s.core s.cur) (t.core s.cur) 4 ∧ t.mem = s.mem)) ∧
  (∀ (s : State) (sc : Scope) (all : Bool) (a : Reg) (x : Word) (c : Core),
    let i : Instr := if all then .tlbiAll sc else .tlbiVa sc a
    let hit := fun (e : TlbEntry) => if all then e.part = s.partOf s.cur else e.covers (s.partOf s.cur) x.toNat = true
    s.Legal i → (if all then c = s.me else s.me.readS a = .ok (x, c)) → (s.core s.cur).begun = none →
    s.start.tlbiBusy s.cur sc s.serial (fun va => all || decide (va / 2 ^ 31 = x.toNat / 2 ^ 31)) = false →
    ∃ t, exec i s = .next t ∧ (∀ k, s.tlbiReach s.cur sc k = true → ∀ e, (e ∈ (t.core k).itlb ∨ e ∈ (t.core k).dtlb) → ¬ hit e) ∧
      (sc ≠ .core → ∀ g, s.tlbiReach s.cur sc (g * 24) = true → ∀ e ∈ (t.cluster g).l2tlb, ¬ hit e) ∧
      Claims.RegsBut c (t.core s.cur) 0 ∧ Claims.Passed (s.core s.cur) (t.core s.cur) i.len ∧ t.mem = s.mem) ∧
  (∀ (s : State) (d a b e : Reg) (x y z : Word) (c1 c2 c3 : Core), s.me.readS a = .ok (x, c1) → c1.readS b = .ok (y, c2) → c2.readS e = .ok (z, c3) → x.toNat < 2 ^ 12 → d.toNat < 56 →
    let p := s.partOf s.cur
    (s.parkedAt p x.toNat = none →
      (s.Legal (.sresume d a) → exec (.sresume d a) s = .next (s.done (.sresume d a) (c1.writeS d.toNat 1))) ∧
      (s.Legal (.sresumeAbandon d a) → exec (.sresumeAbandon d a) s = .next (s.done (.sresumeAbandon d a) (c1.writeS d.toNat 1))) ∧
      (s.Legal (.sresumePut d a b e) → exec (.sresumePut d a b e) s = .next (s.done (.sresumePut d a b e) (c3.writeS d.toNat 1))) ∧
      (s.Legal (.sresumeGet d a b) → d.toNat + 1 < 56 → ∃ t, exec (.sresumeGet d a b) s = .next t ∧ (t.core s.cur).sreg (d.toNat + 1) = 1 ∧ t.mem = s.mem)) ∧
    (∀ j al, s.parkedAt p x.toNat = some (j, al) → (∀ k, k < 512 → s.slotPoison j al.slot k = false) →
      (s.Legal (.sresume d a) → ∃ t m, exec (.sresume d a) s = .next t ∧ (d ≠ 0 → (t.core s.cur).sreg d.toNat = 0) ∧ (t.core j).alloc al.launch = some m ∧ m.st = .ready) ∧
      (s.Legal (.sresumeAbandon d a) →
        ∃ t m, exec (.sresumeAbandon d a) s = .next t ∧ (d ≠ 0 → (t.core s.cur).sreg d.toNat = 0) ∧ (t.core j).alloc al.launch = some m ∧ m.st = .idle ∧ m.current = false) ∧
      (s.Legal (.sresumeGet d a b) → y.toNat < 512 → d.toNat + 1 < 56 → d ≠ 0 →
        exec (.sresumeGet d a b) s = .next (s.done (.sresumeGet d a b) ((c2.writeS d.toNat (BitVec.ofNat 64 (s.slotWord j al.slot y.toNat))).writeS (d.toNat + 1) 0))) ∧
      (s.Legal (.sresumePut d a b e) → y.toNat < 512 → slotMask y.toNat ≠ 0 →
        let m : Word := BitVec.ofNat 64 (slotMask y.toNat)
        ∃ t, exec (.sresumePut d a b e) s = .next t ∧ (d ≠ 0 → (t.core s.cur).sreg d.toNat = 0) ∧
          BitVec.ofNat 64 (t.slotWord j al.slot y.toNat) = (BitVec.ofNat 64 (s.slotWord j al.slot y.toNat) &&& ~~~m) ||| (z &&& m) ∧
          ∀ k, k < lsKey j (slotOff al.slot + 8 * y.toNat) ∨ lsKey j (slotOff al.slot + 8 * y.toNat) + 8 ≤ k → t.byte k = s.byte k)))

/-! ### Posted commands at work (R132 to R176, R242 to R270) -/

namespace Sys2Proof.Claims

/-- A command may begin its work: nothing holds it, and its .release condition, where it has one, holds (R243, R365). -/
def Free (s : State) (c : Cmd) : Prop := s.cmdHeld c = false ∧ (c.phase = .started ∨ (c.phase = .posted ∧ c.release = false))

/-- A descriptor of one element of n bytes, from a to b, with no object, no flow and no time (R246). -/
def OneElement (k : CmdKind) (d : List Byte) (n a b : Nat) : Prop :=
  descOk k d = true ∧ Desc.count d = 1 ∧ Desc.esize d = n ∧ Desc.srcAddr d 0 = a ∧ Desc.dstAddr d 0 = b ∧ Desc.flow d = 0 ∧ Desc.tb d = false ∧ Desc.db d = false ∧
  Desc.sb d = false ∧ Desc.rg d = false

/-- A copy whose work is done completes without a fault: at once, or as soon as no page under migration holds its status words (R242). -/
def closed (t : State) (c : Cmd) : State :=
  let d := { c with code := 0, cause := 0, faddr := 0, phase := .finished }
  if t.statusBusy c then t.setCmd d else t.finishCopy d

/-- A local byte is quiet: no page under migration covers it, no write to its granule waits, it holds no poison (R350, R369). -/
def Quiet (s : State) (k : Nat) : Prop := s.heldAt k = false ∧ s.granuleBusy k = false ∧ s.poisoned k = false

end Sys2Proof.Claims

/-- R242, R243, R247, R250 to R253: a .release command starts once its condition holds; a command with TB once its time has come; CFLAG writes or adds; a copy and a combination of one
element land at its destination; a rank contributes at its group header and waits for the generation.
R251: what an accumulating CRED makes of the destination element and the source element.
The units of a copy and their order are log entry 31; the operands of events are log entry 54. -/
def Obligations.CopyEvents : Prop :=
  (∀ (s t : State) (c : Cmd), s.cmd s.arg.id = some c → s.settleCmd c = some t →
     (c.phase = .posted → c.release = true → s.cmdHeld c = false → (∀ j ∈ c.after, s.cmd j = none) → (∀ q ∈ (s.core c.core).late, c.upto ≤ q.id) →
       s.hostSeen .system c.core ((s.visible c.core).join (s.earlierHost c)) = true → (∀ x ∈ s.conflicts, ¬ (x.core = c.core ∧ x.store = true)) →
       exec .commandReleaseStart s = .next ((t.publish c.core .system).setCmd { c with phase := .started })) ∧
     (Claims.Free s c → c.kind.isCopy = true → Desc.tb c.snap = true → c.timed = false → ofBytes ((c.snap.drop 160).take 8) ≤ s.time.toNat →
       exec .copyNotbeforeStart s = .next (s.setCmd { c with timed := true })) ∧
     (∀ add k, Claims.Free s c → c.kind = .cflag add → c.a.toNat % 8 = 0 → t.engAddr c (if add then .rmw else .store) c.a.toNat = .ok (.here k) → t.heldAt k = false → (add = true → t.poisoned k = false) →
       exec .copyCommandComplete s = .next ((t.writeCmd c (at_ k 8 ((if add then t.rd k 8 else 0) + c.v.toNat))).finishCmd { c with code := 0, cause := 0, faddr := 0 } false false)) ∧
     (∀ n a b k j, Claims.Free s c → c.kind = .cpy → c.parts = [] → c.pend = [] → n ∈ [1, 2, 4, 8] → Claims.OneElement .cpy c.snap n a b → a % n = 0 → b % n = 0 →
       t.engAddr c .load a = .ok (.here k) → t.engAddr c .store b = .ok (.here j) → Claims.Quiet t k → t.heldAt j = false →
       exec .copyCommandComplete s = .next (Claims.closed (t.engWrite c (at_ j n (t.rd k n)) j b) c)) ∧
     (∀ m a b k j, Claims.Free s c → c.parts = [] → c.pend = [] → 2 ≤ m → m ≤ 6 → c.kind = .cred m → Claims.OneElement (.cred m) c.snap 4 a b → a % 4 = 0 → b % 4 = 0 →
       t.engAddr c .load a = .ok (.here k) → t.engAddr c .rmw b = .ok (.here j) → (m = 2 ∨ typeOfPa j ≠ some .host) → Claims.Quiet t k → t.heldAt j = false → t.poisoned j = false →
       exec .copyCommandComplete s = .next (Claims.closed (t.engWrite c (at_ j 4 (credOp m (t.rd j 4) (t.rd k 4))) j b) c)) ∧
     (∀ a b k j h g u keys, Claims.Free s c → c.kind = .cred 0 → Claims.OneElement (.cred 0) c.snap 4 a b → a % 4 = 0 → b % 4 = 0 →
       t.engAddr c .load a = .ok (.here k) → t.engAddr c .rmw b = .ok (.here j) → typeOfPa k ≠ some .host → typeOfPa j ≠ some .host → Claims.Quiet t k → t.heldAt j = false →
       let ga := ofBytes ((c.snap.drop 152).take 8)
       ga % 64 = 0 → t.engAddr c .rmw ga = .ok (.here h) → typeOfPa h ≠ some .host → t.heldAt h = false → t.poisoned h = false →
       Desc.rank c.snap ≤ bits (t.rd h 8) 43 32 → t.rankPlaces c none = .ok keys → (∀ q ∈ keys, t.heldAt q = false) →
       t.rankContribute h 0 (Desc.rank c.snap) 4 keys [j] (bytesOf 4 (t.rd k 4)) = .took g u →
       let r := (u.trackRank c h g keys [j]).readsDone { c with phase := .waiting, hops := 0, k := g, addr := BitVec.ofNat 64 h }
       exec .credRankContribution s = .next (r.2.setCmd r.1))) ∧
  (∀ (s t : State) (hdr op rank n g : Nat) (keys dsts : List Nat) (data : List Byte), s.rankContribute hdr op rank n keys dsts data = .took g t →
     let w := s.rd hdr 8
     rank ≤ bits w 43 32 ∧ g = bits w 15 12 ∧ t.cores = s.cores ∧ t.cmds = s.cmds) ∧
  (∀ x y : BitVec 32,
     credOp 2 x.toNat y.toNat = (x + y).toNat ∧ credOp 5 x.toNat y.toNat = (if x.sle y then x else y).toNat ∧ credOp 6 x.toNat y.toNat = (if x.sle y then y else x).toNat ∧
     credOp 3 x.toNat y.toNat = fi32.minmax false x.toNat y.toNat ∧ credOp 4 x.toNat y.toNat = fi32.minmax true x.toNat y.toNat)

/-- R258, R262, R264, R267 to R270, R371: a step of a chain loads, masks and adds, or combines, and goes on or ends the chain; the result reaches its origin, with FAULT, CAUSE LEASE where RETOFF lies outside the allocation; a repartition runs once every member has
arrived, on the items sorted by key, rank and index; a member with another TAG is MISMATCH, a STALE one PEERRESET; what a member delivers goes to its place in RECV; it reports its counts, 0 where it failed, once its items are acknowledged.
The corners are log entries 32 and 33; the operands of events are log entry 54. -/
def Obligations.ChainAndRepartEvents : Prop :=
  (∀ (s : State) (c : Cmd) (pa : Nat) (y : Word) (u : State), s.arg.q = false → s.cmd s.arg.id = some c → c.kind = .chase → c.phase = .running → s.cmdHeld c = false →
    let x := (packetSteps c.snap).getD c.k 0
    s.engAddr c .load c.addr.toNat = .ok (.here pa) → s.chainBusy x pa = false →
    s.chainStep x (BitVec.ofNat 64 (ofBytes ((c.snap.drop 16).take 8))) c.addr pa = .val y u →
    (c.k + 1 < (packetSteps c.snap).length → exec .chaseStep s = .next (u.setCmd { c with phase := .running, k := c.k + 1, addr := y })) ∧
    (c.k + 1 = (packetSteps c.snap).length → exec .chaseStep s = .next (u.setCmd { c with phase := .finished, code := 0, cause := 0, v := y, faddr := 0, pend := [] }))) ∧
  (∀ (s : State) (x : BitVec 128) (v a : Word) (pa : Nat), (typeOfPa pa = some .cms ∨ typeOfPa pa = some .dev) → s.poisoned pa = false →
    let mask : Word := x.extractLsb' 0 64
    let off : Int := (x.extractLsb' 64 32).toInt
    (x.extractLsb' 96 8 = 1#8 → a.toNat % 8 = 0 → s.chainStep x v a pa = .val (BitVec.ofInt 64 ((BitVec.ofNat 64 (s.rd pa 8) &&& mask).toNat + off)) s) ∧
    (x.extractLsb' 96 8 = 2#8 → a.toNat % 4 = 0 → s.chainStep x v a pa = .val (BitVec.ofInt 64 ((BitVec.ofNat 64 (s.rd pa 4) &&& mask).toNat + off)) s) ∧
    (x.extractLsb' 96 8 = 4#8 → a.toNat % 8 = 0 → s.chainStep x v a pa = .val (BitVec.ofNat 64 (s.rd pa 8)) (s.wr pa 8 (s.rd pa 8 + v.toNat)))) ∧
  (∀ (s : State) (c : Cmd) (b : Bank) (j k : Nat), s.cmd s.arg.id = some c → c.kind = .chase → c.phase = .finished → s.cmdHeld c = false → (s.core c.core).bankOf c.launch = some b → b.serial = c.serial →
    let w := ofBytes (c.snap.take 8)
    let st := BitVec.ofNat 64 (c.cause % 256 * 2 ^ 24 + c.hops % 32 * 2 ^ 19 + c.k % 8 * 2 ^ 16 + c.code)
    w.testBit 31 = false → s.engAddr c .store (0x00FFFF0000000000 + w % 2 ^ 17) = .ok (.here j) → s.engAddr c .store (0x00FFFF0000000000 + w % 2 ^ 17 + 8) = .ok (.here k) →
    exec .chaseResult s = .next (((s.writeCmd c (at_ j 8 c.v.toNat)).writeCmd c (at_ k 8 st.toNat)).finishCmd c (decide (c.code ≠ 0)) (decide (c.code = 4)))) ∧
  (∀ (s : State) (c : Cmd) (b : Bank), s.cmd s.arg.id = some c → c.kind = .chase → c.phase = .finished → s.cmdHeld c = false → (s.core c.core).bankOf c.launch = some b → b.serial = c.serial →
    let w := ofBytes (c.snap.take 8)
    w.testBit 31 = false → c.code = 0 → (∃ q, s.engAddr c .store (0x00FFFF0000000000 + w % 2 ^ 17) = .error q) →
    exec .chaseResult s = .next (s.finishCmd { c with code := 2, cause := Cause.lease.code } true false)) ∧
  (∀ (s t : State) (c : Cmd), s.cmd s.arg.id = some c → c.kind = .repart → Claims.Free s c → s.settleCmd c = some t → blockOk t.cfg.chip.toNat c.snap = true →
    t.tableOk c = true →
    let w := ofBytes (c.snap.take 8)
    (t.staleMember c = true → exec .repartCollective s = .next (t.setCmd { c with phase := .finished, code := 6, got := [] })) ∧
    (t.staleMember c = false → t.repartBusy c = false → t.repAsk c = [] →
      (∀ p, p < bits w 25 16 + 1 → p ≠ w % 2 ^ 10 → ∃ m, s.arg.members.filter (fun m => m.rank = p) = [m]) → s.arg.members.length = bits w 25 16 →
      exec .repartCollective s = .next ((t.collective c s.arg.members).2.setCmd (t.collective c s.arg.members).1))) ∧
  (∀ (s : State) (c : Cmd) (x : Sys2Proof.Cell) (d : RepDue) (tag k : Nat) (data : List Byte),
    (s.cmds.find? fun c => c.kind == .repart && decide (ofBytes (c.snap.take 8) / 2 ^ 32 = tag) &&
      decide (ofBytes ((c.snap.drop (128 + 2 * d.rank)).take 2) = x.srcId.toNat)) = some c →
    c.code < 2 → c.hops = 3 → s.cmdHeld c = false → s.holds = [] → d ∈ c.due → d.off = 0 → (∀ e ∈ c.due, e.rank = d.rank → e.idx = d.idx → e.off = d.off → e = d) →
    let isz := ofBytes ((c.snap.drop 24).take 8) % 2 ^ 9
    let va := ofBytes ((c.snap.drop 40).take 8) + d.pos * isz
    isz = 8 → data.length = 8 → va % 8 = 0 → s.engAddr c .store va = .ok (.here k) →
    s.takeItem x tag d.rank d.idx 0 data =
      some (((s.engWrite c (data.mapIdx fun i b => (k + i, b)) k va).setCmd { c with due := c.due.filter fun e => e ≠ d }).emit (s.ackTo x true false []))) ∧
  (∀ l : List RepItem, (sortItems l).Perm l ∧ (sortItems l).Pairwise fun a b => a.key < b.key ∨ (a.key = b.key ∧ (a.rank < b.rank ∨ (a.rank = b.rank ∧ a.idx ≤ b.idx)))) ∧
  (∀ (s t : State) (c d : Cmd) (ms : List RepMember), s.collective c ms = (d, t) → (∃ m ∈ ms, m.tag ≠ ofBytes (c.snap.take 8) / 2 ^ 32) →
    d = { c with phase := .finished, code := 3, cause := 0, faddr := 0, got := [] } ∧ t = s) ∧
  (∀ (s : State) (c : Cmd) (r e b : Nat), s.cmd s.arg.id = some c → c.kind = .repart → (c.phase = .finished ∨ (c.phase = .waiting ∧ c.pend = [] ∧ c.hops = 3 ∧ c.due = [])) → c.acks = [] → s.cmdHeld c = false →
    (∀ j, j < 4 → s.vaBusy c true (c.a.toNat + 64 + 8 * j) = false) → c.code < 2 → c.got = [(8, bytesOf 8 r ++ bytesOf 8 e ++ bytesOf 8 b)] →
    r < 2 ^ 64 → e < 2 ^ 64 → b < 2 ^ 64 →
    exec .repartComplete s = .next (((((s.engPut c (c.a.toNat + 64) 8 r).engPut c (c.a.toNat + 72) 8 e).engPut c (c.a.toNat + 80) 8 b).engPut c (c.a.toNat + 88) 8 c.code).finishCmd c false false)) ∧
  (∀ (s : State) (c : Cmd), s.cmd s.arg.id = some c → c.kind = .repart → c.phase = .finished → c.acks = [] → s.cmdHeld c = false →
    (∀ j, j < 4 → s.vaBusy c true (c.a.toNat + 64 + 8 * j) = false) → 2 ≤ c.code →
    exec .repartComplete s = .next (((((s.engPut c (c.a.toNat + 64) 8 0).engPut c (c.a.toNat + 72) 8 0).engPut c (c.a.toNat + 80) 8 0).engPut c (c.a.toNat + 88) 8 c.code).finishCmd c
      true (decide (c.code = 5))))

namespace Sys2Proof.Claims

/-- R138, R154: a PROGRESS word: DONE, the row group and the K-block of a member. -/
def progressWord (m : Member) : Nat := (if m.done then 2 ^ 31 else 0) + m.rg % 16 * 2 ^ 20 + m.kb % 2 ^ 20

end Sys2Proof.Claims

/-- R134, R137, R138, R140, R148, R154, R155, R159, R160: the matrix dispatcher and engines: a binding is granted in its turn, its words 0; the record is read, then the operation begins,
does nothing where every entry is DONE, or ends where its record is bad; a row group's words are applied together; at a boundary an operation that is held parks with its PROGRESS written,
and a parked one goes on; a command whose status is known completes, an MXQ with its CODE, FLAGS, FADDR and PROGRESS written into its record; MXRD copies the words of a handle to its addresses, MXWR from them.
R147, R154: where a member stands after a row group: the next row group, else the next pass of 16 K-blocks, else done.
Single steps of the engine are log entry 34; the operands of events are log entry 54. -/
def Obligations.MatrixEvents : Prop :=
  (∀ (s : State) (c : Cmd), s.cmd s.arg.id = some c → s.cmdHeld c = false →
     (∀ h rows cols l regs, c.kind = .mxz h rows cols false false → c.phase = .posted → s.inTurn c h = true → s.launch c.part c.launch = some l →
       (∀ y ∈ s.handles, y.core = c.core → y.launch = c.launch → y.regs = []) → l.bindHopeless c.core (blocks128 rows) (blocks128 cols) = false →
       s.regionsFor c.core l (blocks128 rows) (blocks128 cols) = some regs → s.waitsBefore c s.serial = false →
       exec .matrixBindGrant s = .next ((s.bind (s.handle c.core c.launch h) rows cols regs).setCmd { c with phase := .finished, code := 0, cause := 0, faddr := 0, memberFail := 0 })) ∧
     (∀ t b, c.kind = .mxq → c.phase = .posted → s.settleCmd c = some t → t.mxRead c c.a.toNat 128 = .ok b →
       exec .matrixOperationStart s = .next ((t.keepEng c.ecl c.a.toNat).setCmd { c with snap := b, phase := .started })) ∧
     (let x := s.handle c.core c.launch (Mx.acc c.snap);
       c.kind = .mxq → c.phase = .started → s.inTurn c (Mx.acc c.snap) = true → s.depMet c = true → mxCheck c.snap x c.num (s.feat c.core) = 0 → Mx.opc c.snap ≠ 4 →
       let ms := (List.range (x.mb * x.nb)).map fun j => memberOf (Mx.progress c.snap j)
       ((∃ m ∈ ms, m.done = false) → exec .matrixOperationStart s = .next (s.setCmd { c with members := ms, phase := .running })) ∧
       ((∀ m ∈ ms, m.done = true) → exec .matrixOperationStart s =
         .next (s.setCmd { c with members := ms.map fun _ => ⟨true, 0, (mxOp c.snap x).nkb⟩, phase := .finished, code := 0, cause := 0, faddr := 0, memberFail := 0 }))) ∧
     (let x := s.handle c.core c.launch (Mx.acc c.snap);
       let code := mxCheck c.snap x c.num (s.feat c.core)
       c.kind = .mxq → c.phase = .started → s.inTurn c (Mx.acc c.snap) = true → code ≠ 0 →
       exec .matrixOperationStart s = .next (s.setCmd { c with phase := .finished, code := code, cause := 0, faddr := 0, memberFail := 0 })) ∧
     (∀ h, c.kind = .mxz h 0 0 true false → c.phase = .posted → s.inTurn c h = true →
       exec .matrixOperationStart s = .next ((s.releaseHandle { s.handle c.core c.launch h with refused := false }).setCmd
         { c with phase := .finished, code := 0, cause := 0, faddr := 0, memberFail := 0 })) ∧
     (∀ m ws fl, c.kind = .mxq → c.phase = .running → c.members[s.arg.n]? = some m → m.done = false →
       let x := s.handle c.core c.launch (Mx.acc c.snap)
       s.mxGroup c x s.arg.n m = .ok (ws, fl) →
       let t := ws.foldl (fun t w => t.setAccWord x w.1 w.2.1 w.2.2) s
       let ms := c.members.set s.arg.n (m.next (x.rowGroups (s.arg.n / x.nb)) (mxOp c.snap x).nkb)
       ((∃ m ∈ ms, m.done = false) → exec .matrixRowGroup s = .next (t.setCmd { c with members := ms, flags := c.flags ||| fl })) ∧
       ((∀ m ∈ ms, m.done = true) → exec .matrixRowGroup s =
         .next (t.setCmd { c with members := ms.map fun _ => ⟨true, 0, (mxOp c.snap x).nkb⟩, flags := c.flags ||| fl, phase := .finished, code := 0, cause := 0, faddr := 0, memberFail := 0 }))) ∧
     (c.kind = .mxq → c.phase = .parked →
       (∀ j m, c.members[j]? = some m → m.done = false → s.mxGroup c (s.handle c.core c.launch (Mx.acc c.snap)) j m ≠ .error .held) → exec .matrixResume s = .next (s.setCmd { c with phase := .running })) ∧
     (∀ h rows cols f t, c.kind = .mxrd h rows cols f → c.phase = .posted → s.inTurn c h = true → s.settleCmd c = some t →
       let x := s.handle c.core c.launch h
       rows ≠ 0 → x.refused = false → x.bound = true → rows ≤ x.rows → cols ≤ x.cols →
       (∀ w ∈ moveWords c.a c.v rows cols, ∃ k, t.engAddr (c.atBlock (w.1 / 128)) .store w.2.2 = .ok (.here k) ∧ typeOfPa k ≠ some .ls ∧ typeOfPa k ≠ some .host ∧ c.foreign w.2.2 k = false ∧
         t.heldAt k = false) →
       let u := (moveWords c.a c.v rows cols).foldl (fun u w => match t.engAddr (c.atBlock (w.1 / 128)) .store w.2.2 with
         | .ok (.here k) => u.writeCmd c (at_ k 4 (t.accWord x w.1 w.2.1)) | _ => u) t
       exec .matrixOperationStart s = .next ((if f then u.releaseHandle x else u).setCmd { c with phase := .finished, code := 0, cause := 0, faddr := 0, memberFail := 0 })) ∧
     (∀ h rows cols t, c.kind = .mxwr h rows cols → c.phase = .posted → s.inTurn c h = true → s.settleCmd c = some t →
       let x := s.handle c.core c.launch h
       rows ≠ 0 → x.refused = false → x.bound = true → rows ≤ x.rows → cols ≤ x.cols →
       (∀ w ∈ moveWords c.a c.v rows cols, ∃ k, t.engAddr (c.atBlock (w.1 / 128)) .load w.2.2 = .ok (.here k) ∧ typeOfPa k ≠ some .ls ∧ typeOfPa k ≠ some .host ∧ c.foreign w.2.2 k = false ∧
         t.heldAt k = false ∧ t.granuleBusy k = false ∧ t.poisoned k = false) →
       let u := (moveWords c.a c.v rows cols).foldl (fun u w => match t.engAddr (c.atBlock (w.1 / 128)) .load w.2.2 with | .ok (.here k) => u.setAccWord x w.1 w.2.1 (t.rd k 4) | _ => u) t
       exec .matrixOperationStart s = .next (u.setCmd { c with phase := .finished, code := 0, cause := 0, faddr := 0, memberFail := 0 })) ∧
     (c.phase = .finished → c.kind.isMatrix = true → c.kind ≠ .mxq →
       exec .matrixComplete s = .next (s.finishCmd c (decide (c.code ≠ 0)) (decide (c.cause = 10)))) ∧
     (c.phase = .finished → c.kind = .mxq → s.vaBusy c true (c.a.toNat + 80) = false →
       let asks := !c.snap.isEmpty && Mx.uci c.snap && (s.feat c.core).testBit 13
       (asks = true → s.uciFull c = false) →
       let x := s.handle c.core c.launch (Mx.acc c.snap)
       let status := (s.engPut c (c.a.toNat + 80) 8 (c.memberFail * 2 ^ 24 + c.cause * 2 ^ 16 + c.flags % 32 * 2 ^ 8 + c.code)).engPut c (c.a.toNat + 88) 8 c.faddr.toNat
       let progress := c.members.zipIdx.foldl (fun u p => u.engPut c (c.a.toNat + 96 + 4 * p.2) 4 (Claims.progressWord p.1)) status
       let u := if c.idle = false ∧ Mx.opc c.snap ≠ 4 ∧ Mx.wkeep c.snap = false then progress.setHandle { x with wset := none } else progress
       exec .matrixComplete s = .next ((if asks then u.askUci c else u).finishCmd { c with uci := asks } (decide (c.code ≠ 0)) (decide (c.code = 6))))) ∧
  (∀ (s : State) (c : Cmd), s.cmd s.arg.id = some c → c.kind = .mxq → c.phase = .running → s.progressBusy c = false →
     (s.cmdHeld c = true ∨ ∃ m, c.members[s.arg.n]? = some m ∧ m.done = false ∧ s.mxGroup c (s.handle c.core c.launch (Mx.acc c.snap)) s.arg.n m = .error .held) →
     exec .matrixRowGroup s = .next ((s.writeProgress c).setCmd { c with phase := .parked })) ∧
  (∀ (m : Member) (groups nkb : Nat), m.done = false →
     (m.rg + 1 < groups → m.next groups nkb = { m with rg := m.rg + 1 }) ∧
     (groups ≤ m.rg + 1 → m.kb + 16 < nkb → m.next groups nkb = { m with rg := 0, kb := m.kb + 16 }) ∧
     (groups ≤ m.rg + 1 → nkb ≤ m.kb + 16 → (m.next groups nkb).done = true))

/-- R163, R166, R170, R172, R174, R176: a generation of SYNC reads the buffer CUR names, writes the other, turns CUR, counts COUNT up and REMAIN down; every cell at ring distance the radius
or more becomes what the table says of its neighbourhood; of CHEQ one half of the cells at a time, HALF between them; an RSTEP that begins loads its table once, which serves it until it parks;
at a boundary an RSTEP whose task is away, or that is held, parks, and goes on later, the table loaded again; RCFG and RTAB do their work in their turn; abandoned commands complete with code 7, those of one task in their order.
R162: the engine writes w2 and w3 whole.
Single steps of the engine are log entry 35, what an RSTEP that never began reports log entry 70; the operands of events are log entry 54. -/
def Obligations.RuleEvents : Prop :=
  (∀ (s : State) (c : Cmd), s.cmd s.arg.id = some c → s.cmdHeld c = false →
    (∀ table rows, c.kind = .rstep → c.phase = .running → s.taskAway c = false → s.arg.q = false →
      let t := c.tile
      let w2 := c.w2
      let left := bits w2 19 16 - 1
      let owed := setBits (setBits w2 19 16 left) 63 32 (bits w2 63 32 + 1)
      let held := fun w => { c with snap := c.snap.take 16 ++ bytesOf 8 w, got := c.got.filter fun p => t.inTable p.1 }
      let u := s.drawOpen c t
      let ended := fun (d : Cmd) => if left = 0 then { d with phase := .finished, code := 0, faddr := 0 } else d
      s.ruleRead c (cspVa t.tbl) t.tableLen = .ok table →
      (t.cheq = false → s.tileRows c t (if w2.testBit 22 then t.buf1 else t.buf0) = .ok rows →
        let w := setBit owed 22 (!w2.testBit 22)
        exec .ruleHalfStep s = .next (((u.putRows c t (if w2.testBit 22 then t.buf0 else t.buf1) 0 (t.advance table rows 0)).putW2 c w).setCmd (ended (held w)))) ∧
      (t.cheq = true → s.tileRows c t t.buf0 = .ok rows →
        (w2.testBit 23 = false → let w := setBit w2 23 true
          exec .ruleHalfStep s = .next (((u.putRows c t t.buf0 0 (t.advance table rows 0)).putW2 c w).setCmd (held w))) ∧
        (w2.testBit 23 = true → let w := setBit owed 23 false
          exec .ruleHalfStep s = .next (((u.putRows c t t.buf0 1 (t.advance table rows 1)).putW2 c w).setCmd (ended (held w)))))) ∧
    (∀ tab, c.kind = .rstep → c.phase = .parked → s.taskAway c = false → (∀ y ∈ s.ruleCmds c, s.ruleBusy y = false) → s.loadTable c c.tile = .ok tab →
      exec .ruleResume s = .next ((s.drawOpen c c.tile).setCmd { c with phase := .running, got := tab })) ∧
    (∀ t w0 w1 w2, c.kind = .rstep → s.ruleTurn c = true → s.settleCmd c = some t → t.descWord c 0 = .ok w0 → t.descWord c 1 = .ok w1 → t.descWord c 2 = .ok w2 →
      let x := tileOf w0 w1
      let n := c.v.toNat
      let ends := fun (code : Nat) => exec .ruleHalfStep s = .next (t.setCmd { c with phase := .finished, code := code, faddr := 0 })
      let w := setBits (setBit w2 15 true) 19 16 n
      let d := { c with k := 1, snap := bytesOf 8 w0 ++ bytesOf 8 w1 ++ bytesOf 8 w }
      (w2.testBit 20 = false → ends 1) ∧ (w2.testBit 20 = true → w2.testBit 21 = false → ends 3) ∧
      (w2.testBit 20 = true → w2.testBit 21 = true →
        (x.halo < n * x.reach → ends 4) ∧
        (n * x.reach ≤ x.halo → n = 0 → exec .ruleHalfStep s = .next (t.setCmd { d with phase := .finished, code := 0, faddr := 0 })) ∧
        (∀ tab, n * x.reach ≤ x.halo → n ≠ 0 → t.loadTable c x = .ok tab →
          exec .ruleHalfStep s = .next (((t.putW2 d w).drawOpen d x).setCmd { d with phase := .running, got := tab })))) ∧
    (∀ t, c.kind = .rcfg → s.ruleTurn c = true → s.settleCmd c = some t →
      let d := ((t.engPut c c.a.toNat 8 c.v.toNat).engPut c (c.a.toNat + 8) 8 c.c.toNat).engPut c (c.a.toNat + 24) 8 0
      let ok := tileOk c.v.toNat c.c.toNat (c.a.toNat - 0x00FFFE0000000000) (d.windowSize c)
      exec .ruleCommandComplete s = .next ((d.engPut c (c.a.toNat + 16) 8 (if ok then 2 ^ 20 else 2 ^ 24)).finishCmd c (!ok) false)) ∧
    (∀ t w0 w1 w2 b, c.kind = .rtab → c.k = 0 → s.ruleTurn c = true → s.settleCmd c = some t → t.descWord c 0 = .ok w0 → t.descWord c 1 = .ok w1 → t.descWord c 2 = .ok w2 →
      w2.testBit 20 = true →
      let x := tileOf w0 w1
      (c.c.toNat = x.tableLen → t.engRead c 8 c.v.toNat x.tableLen = .ok b → (∀ y ∈ b, y.toNat < 2 ^ x.b) →
        exec .ruleCommandComplete s = .next ((((((t.keepEng c.ecl c.v.toNat).cspPut c x.tbl (b.mapIdx fun j y => (j, y))).putDesc c 3 x.tableLen).putDesc c 2 (setBits (setBit w2 21 true) 31 24 0)).finishCmd c false false))) ∧
      ((c.c.toNat ≠ x.tableLen ∨ (t.engRead c 8 c.v.toNat x.tableLen = .ok b ∧ ∃ y ∈ b, 2 ^ x.b ≤ y.toNat)) →
        exec .ruleCommandComplete s = .next ((t.putW2 c (setBit (setBits w2 31 24 2) 21 false)).finishCmd { c with code := 2 } true false))) ∧
    (c.kind = .rstep → c.phase = .finished → c.code ≠ 7 → c.k = 1 →
      exec .ruleCommandComplete s = .next ((s.putW2 c (setBit (setBits c.w2 31 24 c.code) 15 false)).finishCmd c (decide (c.code ≠ 0)) (decide (c.code = 6)))) ∧
    (∀ w, c.kind = .rstep → c.phase = .finished → c.code < 6 → c.k = 0 → s.descWord c 2 = .ok w →
      exec .ruleCommandComplete s = .next ((s.putW2 c (setBits w 31 24 c.code)).finishCmd c (decide (c.code ≠ 0)) false)) ∧
    (∀ w, c.phase = .finished → c.code = 7 → c.k = 0 → s.descWord c 2 = .ok w → (∀ y ∈ s.ruleCmds c, y.phase ≠ .running ∧ (sameTask y c = true → c.id ≤ y.id)) →
      (c.kind = .rstep → exec .ruleAbandon s = .next ((s.putW2 c (setBits (setBit (setBits w 31 24 7) 15 false) 19 16 c.v.toNat)).finishCmd c true false)) ∧
      (c.kind = .rcfg ∨ c.kind = .rtab → exec .ruleAbandon s = .next ((s.putW2 c (setBits w 31 24 7)).finishCmd c true false)))) ∧
  (∀ (s : State) (c : Cmd), s.cmd s.arg.id = some c → c.kind = .rstep → c.phase = .running → (s.cmdHeld c = true ∨ s.taskAway c = true) →
    exec .ruleHalfStep s = .next (s.setCmd { c with phase := .parked, got := [] })) ∧
  (∀ (s : State) (c : Cmd) (w l k : Nat), c.kind.isRule = true → windowOf (c.a.toNat + 16) ≠ none → windowOf (c.a.toNat + 24) ≠ none → s.descWord c 3 = .ok l →
    s.engAddr c .store (c.a.toNat + 16) = .ok (.here k) → s.engAddr c .store (c.a.toNat + 24) = .ok (.here (k + 8)) →
    let u := s.putW2 c w
    u.rd k 8 = w % 2 ^ 64 ∧ u.rd (k + 8) 8 = l ∧ ∀ x, x < k ∨ k + 16 ≤ x → u.byte x = s.byte x) ∧
  (∀ (t : Tile) (table : List Byte) (rows : List Nat) (p x y : Nat), x < t.sw → y < t.sh → 1 ≤ t.b →
    cellAt t (t.advance table rows p) x y =
      if t.radius ≤ t.dist x y ∧ (t.cheq = true → (x + y + t.par) % 2 = p) then (table.getD (t.index rows x y) 0).toNat % 2 ^ t.b else cellAt t rows x y)

/-! ### The scheduler (R292 to R306, R316 to R321, R328 to R330, R356 to R358, R366, R372) -/

/-- R297, R298, R303, R304, R320: a task starts at ENTRY with its coordinates in s1 and s2, ARG in s3, the end of its local store in s54 and every other register 0, and acquires; a range, or the
next item of a queue, goes to a core that asks; a steal assigns the upper part of the victim's range; a causal dispatch claims the patch that goes first.
R356, R358, R378: a saved context comes back word by word; its PC as it stands in the slot, and one that is no multiple of 4 traps with ALIGN at its fetch; a save writes the context to the
slot and frees the core.
R368: a start uses the slot of a lost context again.
What a start leaves alone is log entry 42, placement log entry 38; the operands of events are log entry 54. -/
def Obligations.TaskEvents : Prop :=
  (∀ (s : State) (i : Nat) (l : Launch) (a : Alloc) (x y : Word),
    let t := s.startTask i l a x y
    let c := t.core i
    c.run = some l.id ∧ c.pc = BitVec.ofNat 64 (l.word 2) ∧ c.sreg 1 = x ∧ c.sreg 2 = y ∧ c.sreg 3 = BitVec.ofNat 64 (l.word 3) ∧
    c.sreg 54 = BitVec.ofNat 64 (0x00FFFF0000000000 + l.lsu * 4096) ∧ (∀ r, r ≠ 1 → r ≠ 2 → r ≠ 3 → r ≠ 54 → c.sreg r = 0) ∧ (∀ r, c.vreg r = 0) ∧ (∀ r, c.kreg r = 0) ∧
    c.l1i = [] ∧ (∀ q ∈ c.l1d ++ c.hview, q ∈ (s.core i).l1d ++ (s.core i).hview ∧ (l.know.here (clusterOf i)).meets q = true ∧
      ∀ p, l.kind = 1 → l.patches[x.toNat]? = some p → (p.know.here (clusterOf i)).meets q = true) ∧
    (l.kind = 0 → c.l1d = (s.core i).l1d.filter (l.know.here (clusterOf i)).meets) ∧ (l.kind = 2 → c.l1d = []) ∧ c.current = true ∧ c.sys.fpctl = 0 ∧ c.sys.launchid = BitVec.ofNat 64 l.id ∧ c.range = (if l.kind = 0 then (x, y) else (0, 0)) ∧
    (∀ j, j ≠ i → t.core j = s.core j) ∧ t.mem = (if bits (s.slotWord i a.slot 0) 19 16 = 3 then s.setSlotState i a.slot 0 else s).mem) ∧
  (∀ (s : State) (l : Launch) (a : Alloc),
    let k := s.arg.core
    s.launch (s.partOf k) s.arg.lid = some l → (s.core k).alloc s.arg.lid = some a → (s.core k).run = none → s.isSup k = false → s.outranked k a = false →
    (∀ x y, s.serving l = true → a.st = .assigned x y → exec .taskStart s = .next (s.startTask k l a (if l.kind = 0 then a.rb else x) (if l.kind = 0 then a.re else y))) ∧
    (∀ r, s.serving l = true → l.kind = 0 → a.st = .idle → l.whole = some r →
      exec .taskStart s = .next ((s.setLaunch { l with whole := none }).startTask k l a r.1 r.2)) ∧
    (∀ x t, s.serving l = true → l.kind = 2 → a.st = .idle → l.queue = x :: t →
      exec .taskStart s = .next ((s.setLaunch { l with queue := t, qseq := l.qseq + 1 }).startTask k l a x (BitVec.ofNat 64 l.qseq))) ∧
    (∀ j p, s.serving l = true → l.kind = 1 → a.st = .idle → l.order.find? (l.eligible s.time.toNat k) = some j → l.patches[j]? = some p →
      let t := s.setPatch l j { p with claim := true, since := none, far := false } [j]
      ∃ m q, exec .causalDispatch s = .next (t.startTask k m a (BitVec.ofNat 64 j) (BitVec.ofNat 64 p.ln)) ∧ t.launch l.part l.id = some m ∧
        m.patches[j]? = some q ∧ q.claim = true ∧ q.ln = p.ln) ∧
    ((a.st = .away ∨ a.st = .ready) → s.hasWork k a = true → (∀ n, n < 512 → s.slotPoison k a.slot n = false) →
      ∃ t, exec .contextRestore s = .next t ∧ (t.core k).run = some l.id ∧ (t.core k).pc = BitVec.ofNat 64 (s.slotWord k a.slot 1) ∧
        ((t.core k).pc.toNat % 4 ≠ 0 → t.fetch k (t.core k).pc = .error (.align, (t.core k).pc)) ∧
        (∀ p, p < 8 → ((t.core k).txp p).drop = a.bank.drops.contains p) ∧
        (∀ r, 1 ≤ r → r < 56 → (t.core k).sreg r = BitVec.ofNat 64 (s.slotWord k a.slot (23 + r))) ∧
        (∀ r, r < 8 → (t.core k).kreg r = BitVec.ofNat 64 (s.slotWord k a.slot (88 + r))) ∧
        (∀ r w, r < 32 → w < 8 → lane ((t.core k).vreg r) 64 w = s.slotWord k a.slot (168 + 8 * r + w)) ∧ (t.core k).current = a.current)) ∧
  (∀ (s u : State) (l : Launch) (a : Alloc) (j : Nat) (x y : Word),
    let k := s.arg.core
    s.launch (s.partOf k) s.arg.lid = some l → (s.core k).alloc s.arg.lid = some a → s.outranked k a = false → s.serving l = true → l.kind = 0 → a.st = .idle → l.whole = none →
    l.returned = [] → ((s.core k).run = none ∨ ∃ r b, (s.core k).run = some r ∧ (s.core k).alloc r = some b ∧ s.prioOf k b < l.prio) →
    (if s.arg.q then some s.arg.id else s.victim l k a) = some j → j ≠ k → s.stealFrom l j = some (u, x, y) →
    ∃ t b, exec .stealRequest s = .next t ∧ (t.core k).alloc a.launch = some b ∧ b.st = .assigned x y ∧ (b.rb, b.re) = (x, y) ∧ t.core j = u.core j ∧ t.mem = s.mem ∧
      ((s.core k).run ≠ none → (t.core k).preempt = true)) ∧
  (∀ (s t : State) (l : Launch) (j : Nat) (x y : Word) (b : Alloc), (s.core j).alloc l.id = some b → s.stealFrom l j = some (t, x, y) →
    let r := s.heldRange j b
    2 ≤ r.2.toNat - r.1.toNat ∧ x.toNat = r.1.toNat + (r.2.toNat - r.1.toNat + 1) / 2 ∧ y = r.2 ∧
    ((s.core j).run = some l.id → (t.core j).range = (r.1, x)) ∧ (∀ i, i ≠ j → t.core i = s.core i)) ∧
  (∀ (s : State) (l : Nat) (a : Alloc), s.mustSave s.arg.core = true → (s.core s.arg.core).run = some l → (s.core s.arg.core).alloc l = some a → (s.core s.arg.core).anyPoison = false →
    let c := s.core s.arg.core
    ∃ t b, exec .contextSave s = .next t ∧ (t.core s.arg.core).run = none ∧ (t.core s.arg.core).alloc l = some b ∧ b.st = .away ∧ b.slot = a.slot ∧
      b.current = c.current ∧ t.slotWord s.arg.core a.slot 1 = c.unitPc.toNat ∧ (∀ r, 1 ≤ r → r < 56 → t.slotWord s.arg.core a.slot (23 + r) = (c.sreg r).toNat) ∧
      (c.frame ≠ none → t.slotWord s.arg.core a.slot 12 = c.pc.toNat) ∧ (c.frame = none → t.slotWord s.arg.core a.slot 12 = c.sys.epc.toNat))

/-- R292, R300, R304 to R306, R372: a launch that arrives gets its checks; a host slot becomes a launch; PRED is read when the last predecessor completes, once, and skips on 0; a team is
admitted in the order of priorities and turns; a launch that is over leaves, w31 saying how; an ended team gives back its allocations.
R316, R320, R321, R330: a causal launch whose tables pass the checks of `State.validate` is ready with every patch evaluated, another is rejected with REASON and FAILP; a patch that has been
runnable for 2 µs is for every core; LAUNCHCTL's commands answer in STATUS: LRESUME thaws a frozen launch, ABANDON ends its tasks, another command does nothing.
What validation decides where R316 leaves it open are log entries 25 and 53; placement is log entry 38, the end of work log entry 39, channels log entry 45; the operands of events are
log entry 54. -/
def Obligations.LaunchEvents : Prop :=
  ((∀ s : State, s.arg.q = false → s.arg.part < s.cfg.nparts →
     let p := s.prt s.arg.part
     let pa := p.hqbase + 256 * (p.head % 2 ^ p.log2)
     p.en = true → p.ready = true → p.head ≠ p.tail → (∀ j, j < 32 → s.poisoned (pa + 8 * j) = false) → s.queueRoom s.arg.part (bits (s.rd pa 8) 31 30) = true →
     s.heldAt (pa + 248) = false → s.launch s.arg.part p.nextLid = none →
     ∃ t, exec .launchArrival s = .next t ∧ (t.prt s.arg.part).head = (p.head + 1) % 2 ^ 32 ∧ t.cores = s.cores ∧
       ∃ m ∈ t.launches, m.part = s.arg.part ∧ m.id = p.nextLid ∧ m.record = (List.range 32).map (fun j => BitVec.ofNat 64 (s.rd (pa + 8 * j) 8)) ∧ m.recPa = pa) ∧
   ∀ (s : State) (l : Launch), s.launch s.arg.part s.arg.lid = some l →
     (s.arg.q = true → l.st = .arrived → l.result = none → l.abandoned = false →
       ∃ t, exec .launchArrival s = .next t ∧ t.launch l.part l.id = some (s.checkRecord l) ∧ t.cores = s.cores ∧ t.mem = s.mem) ∧
     (l.cond = true → l.pred = none → (∀ i ∈ [l.word 9 % 2 ^ 32, l.word 9 / 2 ^ 32, l.word 10 % 2 ^ 32, l.word 10 / 2 ^ 32], s.predDone l i = true) →
       { l with pred := some ((s.schedRead l.part (l.word 8) 1).bind List.head?) } ∈ (s.catchPreds l.part).launches) ∧
     (∀ x, l.st = .waiting → l.abandoned = false → l.result = none → s.stoppedL l = false → l.pred = some (some x) →
       exec .predicateRead s = .next (s.setLaunch (if x = 0 then { l with result := some (0x81, 0) } else { l with st := .ready, know := s.pubs }))) ∧
     ((∀ m ∈ s.launches, m.part = l.part → l.prio < m.prio → ∀ u, u < m.nteams → s.canAdmit m u = false) →
       (∀ m ∈ (s.rota l.part l.prio).takeWhile (fun m => m.id ≠ l.id), ∀ u, u < m.nteams → s.canAdmit m u = false) → s.canAdmit l s.arg.team = true →
       ∃ t, exec .teamAdmission s = .next t ∧ (∀ i ∈ l.teamCores s.arg.team, ∃ a, (t.core i).alloc l.id = some a ∧ a.st = .idle ∧ a.units = l.lsu ∧ a.team = s.arg.team) ∧
         ∀ b, (∀ i ∈ l.teamCores s.arg.team, ∀ n, n < 2 → b < lsKey i (slotOff n) ∨ lsKey i (slotOff n) + 8 ≤ b) → t.byte b = s.byte b) ∧
     (∀ code detail, s.completion l = some (code, detail) → s.heldAt (l.recPa + 248) = false →
       ∃ t, exec .launchCompletion s = .next t ∧ t.launch l.part l.id = none ∧ t.rd (l.recPa + 248) 8 = (l.id * 2 ^ 32 + detail * 256 + code) % 2 ^ 64 ∧
         ∀ b, b < l.recPa + 248 ∨ l.recPa + 256 ≤ b → t.byte b = s.byte b) ∧
     (s.arg.team < l.nteams → s.stoppedL l = false → (∃ i ∈ l.teamCores s.arg.team, ((s.core i).alloc l.id).isSome = true) →
       (∀ i ∈ l.teamCores s.arg.team, ∀ a, (s.core i).alloc l.id = some a → a.st = .ended) → s.launchCmds l = [] →
       ∃ t, exec .allocationRelease s = .next t ∧ (∀ i ∈ l.teamCores s.arg.team, (t.core i).alloc l.id = none) ∧
         (∀ a ∈ (t.cluster (l.teamAt s.arg.team).1).cs, ¬ (a.launch = l.id ∧ a.team = some s.arg.team)) ∧ t.mem = s.mem)) ∧
  ((∀ s : State, s.arg.core < 2304 → s.isSup s.arg.core = true → 3 ≤ s.arg.w.toNat % 16 →
     ∃ t, exec .launchctlBadcmd s = .next t ∧ (t.core s.arg.core).sys.launchctl = BitVec.ofNat 64 (s.arg.w.toNat / 2 ^ 32 * 2 ^ 32 + 3 * 2 ^ 16) ∧ t.launches = s.launches ∧
       t.mem = s.mem) ∧
   ∀ (s : State) (l : Launch), s.launch s.arg.part s.arg.lid = some l →
     (∀ l', l.st = .validating → l.abandoned = false → l.result = none → s.stoppedL l = false → s.validate l = (l', none) → exec .causalValidation s = .next (s.setLaunch l')) ∧
     (∀ l' c i pa, l.st = .validating → l.abandoned = false → l.result = none → s.stoppedL l = false → s.validate l = (l', some (c, i)) →
       s.schedPa l.part .store (l.word 7 + 16) = some pa →
       (s.heldAt pa = false → exec .causalValidation s = .next ((s.wr pa 4 (c * 2 ^ 24 + i % 2 ^ 24)).setLaunch { l' with result := some (0x85, c) })) ∧
       (s.heldAt pa = true → ∃ t, exec .causalValidation s = .next t ∧ t.mem = s.mem ∧
         ∃ h ∈ t.holds, ∃ q ∈ h.q, q.bytes = at_ pa 4 (c * 2 ^ 24 + i % 2 ^ 24) ∧ (h.place pa).isSome = true)) ∧
     (∀ i j p t, l.patches[j]? = some p → p.since = some t → t + 512000 ≤ s.time.toNat → l.eligible s.time.toNat i j = true) ∧
     (∀ p t, l.patches[s.arg.n]? = some p → p.since = some t → t + 512000 ≤ s.time.toNat → p.far = false →
       exec .homeEligibilityTimeout s = .next (s.setLaunch { l with patches := l.patches.set s.arg.n { p with far := true } }).wakeAll) ∧
     (let k := s.arg.core
       let x := s.arg.w.toNat
       k < 2304 → s.isSup k = true → s.partOf k = s.arg.part → x / 2 ^ 32 = s.arg.lid →
       (x % 16 = 1 → s.released k .device = true → l.frozen = true →
         ∃ t m, exec .lresume s = .next t ∧ t.launch l.part l.id = some m ∧ m.frozen = false ∧ (t.core k).sys.launchctl = BitVec.ofNat 64 (s.arg.lid * 2 ^ 32)) ∧
       (x % 16 = 2 →
         ∃ t m, exec .launchAbandon s = .next t ∧ t.launch l.part l.id = some m ∧ m.abandoned = true ∧ m.queue = [] ∧ (t.core k).sys.launchctl = BitVec.ofNat 64 (s.arg.lid * 2 ^ 32) ∧
           (∀ c ∈ t.cmds, c.part = l.part → c.launch = l.id → c.phase = .finished ∨ (c.phase = .waiting ∧ c.pend ≠ [])))))

/-! ### The memory system (R130, R182, R184, R204, R231, R235, R332, R343, R350, R361) -/

/-- R130, R182, R204, R231, R235, R332, R343, R350, R361: the events that stand for what a core has outstanding: a load returns, and one left outstanding takes its value; a buffered store
reaches its home, unless an earlier one must come first; a conflict reaches DCONF; a walk fills the TLBs, but never for a window; a refused request is granted; a stream reads ahead or writes out; a port word arrives; a fault message is posted; a page is held, and released at its new place.
That a load takes its value later, and what the memory system does to copies and views beside it (`q`), is log entry 16; DCONF's report to whatever context is on the core log entry
60, a DESIGN CHOICE; tickets are log entry 9, ports log entry 29, the mailbox log entry 43. The pieces of stores are log entry 14, walks log entry 13, a migration log entry 18; the operands of events are log entry 54. -/
def Obligations.MemoryEvents : Prop :=
  (∀ s : State,
    let k := s.arg.core
    let c := s.core k
    (s.arg.q = false → c.late[s.arg.n]? = none → c.late.length < c.loads → exec .loadReturn s = .next (s.setCore k { c with loads := c.loads - 1, stalled := false })) ∧
    (∀ l p, s.arg.q = false → s.arg.addr = 0 → c.late[s.arg.n]? = some l → l.parts = [p] → p.pos = 0 → l.val = 0 → s.granuleBusy p.key = false →
      let x := Claims.little (fun j => if l.strong then s.strongByte k (p.key + j) else s.loadByte k false (p.key + j)) p.n
      let poisons := l.bad || if l.strong then s.poisonSeen k p.key else s.poisonPlain k p.key
      ∃ t, exec .loadReturn s = .next t ∧ t.mem = s.mem ∧ (t.core k).loads = c.loads - 1 ∧ (∀ q ∈ (t.core k).late, q ∈ c.late ∧ q.id ≠ l.id) ∧
        (∀ d n sg, l.dst = .s d n sg → (∀ r, r ≠ d → (t.core k).sreg r = c.sreg r) ∧ (t.core k).v = c.v ∧
          (d ≠ 0 → (t.core k).sreg d = (if sg then BitVec.ofInt 64 (Claims.ival (8 * n) x) else BitVec.ofNat 64 x) ∧ (d ∈ (t.core k).poison.s ↔ poisons = true))) ∧
        (∀ d bm z, l.dst = .v d bm z → (∀ r, (t.core k).sreg r = c.sreg r) ∧ (∀ r, r ≠ d → (t.core k).vreg r = c.vreg r) ∧
          (poisons = false → ∀ j, j < 64 → lane ((t.core k).vreg d) 8 j = if bm.testBit j then x / 2 ^ (8 * j) % 2 ^ 8 else if z then 0 else lane (c.vreg d) 8 j)) ∧
        (l.dst = .none → (∀ r, (t.core k).sreg r = c.sreg r) ∧ (t.core k).v = c.v)) ∧
    (∀ l p q, s.arg.q = false → c.late[s.arg.n]? = some l → l.parts = [p, q] → p.key / 8 = s.arg.addr / 8 → q.key / 8 ≠ s.arg.addr / 8 → s.arg.addr ≠ 0 → s.granuleBusy p.key = false →
      ∃ t, exec .loadReturn s = .next t ∧ t.mem = s.mem ∧ (∀ r, (t.core k).sreg r = c.sreg r) ∧ (t.core k).v = c.v ∧
        ∃ m ∈ (t.core k).late, m.id = l.id ∧ m.parts = [q] ∧ m.val = l.val + 2 ^ (8 * p.pos) *
          Claims.little (fun j => if l.strong then s.strongByte k (p.key + j) else s.loadByte k false (p.key + j)) p.n) ∧
    (s.arg.q = true → ∃ t, exec .loadReturn s = .next t ∧ t.mem = s.mem ∧ (t.core k).sb = c.sb ∧ (t.core k).pc = c.pc ∧ ∀ r, (t.core k).sreg r = c.sreg r)) ∧
  (∀ (s : State) (e : SbEntry),
    let k := s.arg.core
    let c := s.core k
    c.sb[s.arg.n]? = some e → (s.cluster (clusterOf k)).sb = [] →
    (s.arg.q = false → s.holds = [] → s.mayPerform k (c.sb.take s.arg.n) e = true →
      ∃ t, exec .storePerformed s = .next t ∧ (∀ x, t.byte x = ((e.bytes.reverse.find? fun p => p.1 = x).map (·.2)).getD (s.byte x)) ∧
        (t.core k).sb.map (·.bytes) = (c.sb.eraseIdx s.arg.n).map (·.bytes) ∧ ∀ r, (t.core k).sreg r = c.sreg r) ∧
    (s.arg.q = false → s.mayPerform k (c.sb.take s.arg.n) e = false → exec .storePerformed s = .next s) ∧
    (s.arg.q = true → e.out = true → ∃ t, exec .storePerformed s = .next t ∧ t.mem = s.mem ∧ (t.core k).sb = c.sb.set s.arg.n { e with out := false })) ∧
  (∀ (s : State) (r : Conflict) (t : List Conflict), s.conflicts = r :: t →
    let d := (s.core r.core).sys.dconf.toNat
    ∃ u, exec .dconfReport s = .next u ∧ u.conflicts = t ∧ u.mem = s.mem ∧
      (d.testBit 63 = true → (u.core r.core).sys.dconf.toNat = if d.testBit 62 then d else d + 2 ^ 62) ∧
      (d.testBit 63 = false → let x := (u.core r.core).sys.dconf
        x.getLsbD 63 = true ∧ x.getLsbD 61 = r.store ∧ bits x.toNat 55 6 = bits r.va.toNat 55 6)) ∧
  (∀ s : State, windowOf s.arg.addr ≠ none → exec .pageTableWalk s = .next s) ∧
  (∀ (s : State) (e : TlbEntry), s.arg.addr < 2 ^ 56 → windowOf s.arg.addr = none → s.walk (s.partOf s.arg.core) s.arg.addr = .found e →
    ∃ t, exec .pageTableWalk s = .next t ∧ e ∈ (t.cluster (clusterOf s.arg.core)).l2tlb ∧
      (if s.arg.q then e ∈ (t.core s.arg.core).itlb else e ∈ (t.core s.arg.core).dtlb) ∧ t.mem = s.mem) ∧
  (∀ (s : State) (t : Ticket) (r : List Ticket), s.tickets = t :: r → t.core = s.arg.core → t.granted = false → s.heldAt t.addr = false →
    ∃ u, exec .homeRetryGrant s = .next u ∧ { t with granted := true } ∈ u.tickets ∧ (u.core t.core).stalled = false ∧ u.mem = s.mem) ∧
  (∀ (s : State),
    let k := s.arg.core
    let q := (s.core k).strmAt s.arg.n
    let keys := s.strmKeys k q (q.next + q.buf.length)
    (s.arg.q = false → q.part = [] → s.gonged k = false → q.bound = true → q.output = false → q.buf.length < 4 → q.next + q.buf.length < strmItems q.desc → keys.length = 16 → (∀ x ∈ keys, s.poisonSeen k x = false) →
      ∃ t, exec .streamPrefetch s = .next t ∧ t.mem = s.mem ∧ (t.core k).strmAt s.arg.n =
        { q with buf := q.buf ++ [.ok (BitVec.ofNat 512 (ofLanes 32 (keys.map fun x => Claims.little (fun j => s.loadByte k false (x + j)) 4)))] }) ∧
    (s.arg.q = false → q.part = [] → s.gonged k = false → q.bound = true → q.output = false → q.buf.length < 4 → q.next + q.buf.length < strmItems q.desc → keys.length = 16 →
      ∀ j a, keys[j]? = some a → s.poisonSeen k a = true → (∀ i b, i < j → keys[i]? = some b → s.poisonSeen k b = false) →
      ∃ t, exec .streamPrefetch s = .next t ∧ t.mem = s.mem ∧ (t.core k).strmAt s.arg.n =
        { q with buf := q.buf ++ [.bad (strmAddr q.base q.desc (q.next + q.buf.length) + BitVec.ofNat 64 (4 * j))] }) ∧
    (∀ e, e ∈ (s.core k).sb → (∀ y ∈ (s.core k).sb, y.grp = e.grp ∧ y.strm = some s.arg.n ∧ y.strong = false) → (s.cluster (clusterOf k)).sb = [] → s.holds = [] →
      ∃ u, exec .streamWriteOut s = .next u ∧ (u.core k).sb = [] ∧ (∀ r, (u.core k).sreg r = (s.core k).sreg r) ∧
        ∀ x, u.byte x = ((((s.core k).sb.flatMap (·.bytes)).reverse.find? fun p => p.1 = x).map (·.2)).getD (s.byte x))) ∧
  (∀ (s : State) (w : Wire) (b : Bank), s.wires[s.arg.n]? = some w → (∀ v ∈ s.wires.take s.arg.n, ¬ (v.dst = w.dst ∧ v.dstPort = w.dstPort ∧ v.launch = w.launch)) →
    (s.core w.dst).bankOf w.launch = some b → (s.rxOf w.dst w.launch w.dstPort).q.length < 8 →
    ∃ t, exec .portWordDelivery s = .next t ∧ t.wires = s.wires.eraseIdx s.arg.n ∧ t.mem = s.mem ∧
      (t.rxOf w.dst w.launch w.dstPort).q = (s.rxOf w.dst w.launch w.dstPort).q ++ [⟨w.w, coreId w.core, w.port, w.last, w.trunc⟩]) ∧
  (∀ (s : State) (m : FaultMsg), s.canPost s.arg.part s.arg.n = some m →
    let k := s.supOf s.arg.part
    let h := s.mailHead s.arg.part
    ∃ t, exec .faultMessagePost s = .next t ∧ (t.prt s.arg.part).outbox = (s.prt s.arg.part).outbox.eraseIdx s.arg.n ∧ t.mailHead s.arg.part = (h + 1) % 2 ^ 32 ∧
      (∀ j, j < 8 → t.rd (lsKey k (0x18040 + 64 * (h % 255)) + 8 * j) 8 = (m.words h).getD j 0 % 2 ^ 64)) ∧
  (∀ s : State,
    let page := fun a => a % 2 ^ 16 = 0 ∧ (typeOfPa a = some .dev ∨ typeOfPa a = some .cms) ∧ typeOfPa (a + s.arg.n - 1) = typeOfPa a
    s.arg.n ≠ 0 → s.arg.n % 2 ^ 16 = 0 → page s.arg.addr → page s.arg.addr2 → (s.arg.addr + s.arg.n ≤ s.arg.addr2 ∨ s.arg.addr2 + s.arg.n ≤ s.arg.addr) → s.holds = [] →
    ∃ t, exec .migrationHold s = .next t ∧ t.holds = [⟨s.arg.addr, s.arg.addr2, s.arg.n, []⟩] ∧ t.mem = s.mem ∧ t.cmds = s.cmds ∧ ∀ i,
      (∀ r, (t.core i).sreg r = (s.core i).sreg r) ∧ (t.core i).pc = (s.core i).pc ∧ (t.core i).sb = (s.core i).sb ∧
      (t.core i).l1d = (s.core i).l1d.filter fun l => !(decide (l.la < s.arg.addr2 + s.arg.n) && decide (s.arg.addr2 < l.la + 64))) ∧
  (∀ (s : State) (h : Hold) (q : HeldStore) (a : Nat) (b : Byte), s.holds = [h] → h.old = s.arg.addr → h.q = [q] → h.old ≤ a → a < h.old + h.len →
    let k := h.new + (a - h.old)
    q.eng = none →
    (q.rmw = none → q.bytes = [(a, b)] →
      ∃ t, exec .migrationRelease s = .next t ∧ t.holds = [] ∧ t.byte k = b ∧ ∀ x, x ≠ k → t.byte x = s.byte x) ∧
    (∀ r, q.rmw = some r → q.bytes.head? = some (a, b) → q.core ≠ ncores → typeOfPa k ≠ some .csp → s.mpoison = [] → (s.core q.core).rmw = some (q.grp, none) →
      ∃ t, exec .migrationRelease s = .next t ∧ t.holds = [] ∧ (t.core q.core).rmw = some (q.grp, some (s.rd k r.n)) ∧ (∀ x, x < k ∨ k + r.n ≤ x → t.byte x = s.byte x) ∧
        t.rd k r.n = r.op.eval r.n (s.rd k r.n) r.v r.v2 % 2 ^ (8 * r.n)))

/-! ### The fabric, time, errors, the host, management (R254 to R259, R350 to R355, R367 to R374, R400 to R406) -/

namespace Sys2Proof.Claims

/-- A count of R374 in the live records. -/
def count (s : State) (idx field : Nat) : Nat := SMap.get 0 s.life (idx * 16 + field)

/-- s is t but for the lifetime counts, where the one named has gone up by one, to its largest value at most (R374). -/
def Counted (s t : State) (idx field top : Nat) : Prop :=
  count t idx field = Min.min top (count s idx field + 1) ∧ (∀ i f, i * 16 + f ≠ idx * 16 + field → count t i f = count s i f) ∧ t = { s with life := t.life }

/-- The controller is asked for command `cmd` in the command area of the event's partition, no word of which holds poison (R373). -/
def Asked (s : State) (cmd : Nat) : Prop :=
  s.arg.part < s.cfg.nparts ∧ (s.prt s.arg.part).asked = true ∧ (∀ k, k < 4 → s.poisoned (s.areaKey s.arg.part k) = false) ∧ s.areaWord s.arg.part 0 / 2 ^ 56 = cmd

/-- The controller's event i answers with a status and leaves a state that meets p (R373). -/
def Answers (s : State) (i : Instr) (status : Nat) (p : State → Prop) : Prop :=
  ∃ t, exec i s = .next t ∧ t.areaWord s.arg.part 7 = status * 2 ^ 56 + s.areaWord s.arg.part 0 % 2 ^ 56 ∧ p t

/-- The event i appends one answer of this kind and these bytes to the requester, and changes nothing else (R355, R406). -/
def Replies (s : State) (i : Instr) (kind : String) (data : List Byte) : Prop :=
  exec i s = .next { s with replies := s.replies ++ [{ part := s.arg.part, kind := kind, data := data }] }

end Sys2Proof.Claims

/-- R254 to R258, R352, R374: a write or read cell that a window admits is served and answered; the slot that is on carries the oldest
cell of its flow, or a best-effort cell, once; a new incarnation, announced, makes the peer STALE and ends copies that wait for it, whose requests that have not left are withdrawn (R242); link events.
The form of a cell is log entry 46, the tables log entry 6; the operands of events are log entry 54. -/
def Obligations.FabricEvents : Prop :=
  (∀ (s : State) (x : Cell), s.arg.cell = some x → s.cellValid x = true →
    let ack := fun (ok : Bool) (d : List Byte) => s.cellTo x.srcId.toNat x.part 0 x.cmd x.idx (.ack x.cmd x.idx ok false d)
    (∀ pa data, x.kind = .write pa data →
      (s.admitsAll x.srcId.toNat true pa data.length = true → s.heldIn pa data.length = false →
        ∃ t, exec .fabricCellArrival s = .next t ∧ t.cells = s.cells ++ [ack true []] ∧ (∀ j, j < data.length → t.byte (pa + j) = data.getD j 0) ∧
          ∀ a, a < pa ∨ pa + data.length ≤ a → t.byte a = s.byte a) ∧
      (s.admitsAll x.srcId.toNat true pa data.length = false → ∃ t, exec .fabricCellArrival s = .next t ∧ t.cells = s.cells ++ [ack false []] ∧ t.mem = s.mem)) ∧
    (∀ pa n, x.kind = .read pa n → s.admitsAll x.srcId.toNat false pa n = true → s.holds = [] → s.poisonIn pa n = false →
      ∃ t, exec .fabricCellArrival s = .next t ∧ t.cells = s.cells ++ [ack true ((List.range n).map fun j => s.byte (pa + j))] ∧ t.mem = s.mem)) ∧
  (∀ (s : State) (c : Cell) (k : Nat), s.arg.n < 18 →
    let now := s.time.toNat / 347
    let e := SMap.get 0 s.resv (s.arg.n * 64 + now % 64)
    (now < SMap.get 0 s.slots s.arg.n → exec .fabricSlot s = .next s) ∧
    (SMap.get 0 s.slots s.arg.n ≤ now → s.cells[k]? = some c → s.cellHeld c = false → c.part = bits e.toNat 14 12 →
      (e.getLsbD 15 = true ∧ c.flow ≠ 0 ∧ c.flow = e.extractLsb' 0 8 ∧ (∀ j y, j < k → s.cells[j]? = some y → ¬ (y.part = c.part ∧ y.flow = c.flow ∧ s.cellHeld y = false))) ∨
        (e.getLsbD 15 = false ∧ c.flow = 0 ∧ s.arg.id = k) →
      ∃ t, exec .fabricSlot s = .next t ∧ t.cells = s.cells.eraseIdx k ∧ t.sent = s.sent ++ [(s.arg.n, c)] ∧ SMap.get 0 t.slots s.arg.n = now + 1 ∧ t.mem = s.mem)) ∧
  (∀ (s : State) (x : Cell), s.arg.cell = some x → x.kind = .announce → x.srcId ≠ s.cfg.chip → (SMap.get {} s.peers x.srcId.toNat).inc ≠ x.srcInc →
    ∃ t, exec .fabricCellArrival s = .next t ∧ SMap.get {} t.peers x.srcId.toNat = { inc := x.srcInc, active := false } ∧ t.mem = s.mem) ∧
  (∀ s : State, s.arg.id < 2 ^ 10 → s.arg.id ≠ s.cfg.chip.toNat → (SMap.get {} s.peers s.arg.id).inc ≠ BitVec.ofNat 16 s.arg.n →
    ∃ t, exec .incarnAnnouncement s = .next t ∧ SMap.get {} t.peers s.arg.id = { inc := BitVec.ofNat 16 s.arg.n, active := false } ∧
      (∀ j, j ≠ s.arg.id → SMap.get {} t.peers j = SMap.get {} s.peers j) ∧
      (∀ c ∈ s.cmds, c.kind = .cpy → (∃ p ∈ c.pend, p.2.1 = s.arg.id) → c.code ≠ 5 → (∀ e ∈ s.cmds, e.id = c.id → e = c) →
        (∃ d ∈ t.cmds, d.id = c.id ∧ d.code = 4 ∧ (∀ p ∈ d.pend, p ∈ c.pend ∧ p.2.1 ≠ s.arg.id) ∧ d.phase = if d.pend = [] then .finished else .waiting) ∧
        ∀ x ∈ t.cells, x.cmd = c.id → x.srcId = s.cfg.chip → cellAnswers x = true)) ∧
  (∀ s : State, exec .linkCrcRetry s = .next s) ∧
  (∀ s : State, s.arg.n < 20 → ∃ t, exec .linkRetrain s = .next t ∧ Claims.Counted s t (0x4200 + s.arg.n) 0 (2 ^ 64 - 1))

/-- R259, R367, R369, R374, R404: the time counter only moves forward; 16 estimates in a row within 5 ns lock it, one outside unlocks it; a corrected error is counted and nothing else;
an uncorrectable one poisons its unit, once the loads of it that are outstanding have their values (log entry 16); droops, thermal intervals and the flush of the records.
The counter's steps are log entry 50, error sites log entry 51; the operands of events are log entry 54. -/
def Obligations.TimeAndErrorEvents : Prop :=
  (∀ s : State, ∃ t, exec .timeCounterTick s = .next t ∧ t.time.toNat = Min.min (2 ^ 64 - 1) (s.time.toNat + s.arg.n) ∧ t.mem = s.mem) ∧
  (∀ (s : State) (i : Instr), (i = .ptpSync ∧ s.cfg.grandmaster = false) ∨ (i = .referencePulse ∧ s.cfg.grandmaster = true) →
    ∃ t, exec i s = .next t ∧ s.time.toNat ≤ t.time.toNat ∧ t.mem = s.mem ∧
      (5 * 256 < s.arg.i.natAbs → t.locked = false ∧ t.good = 0 ∧ t.time = s.time) ∧
      (s.arg.i.natAbs ≤ 5 * 256 → t.good = Min.min 16 (s.good + 1) ∧ t.locked = (s.locked || decide (15 ≤ s.good))) ∧
      (s.everLocked = true → t.time = s.time)) ∧
  (∀ s : State, exec .syncTimeout s = .next { s with good := 0, locked := false }) ∧
  (∀ (s : State) (x : ErrSite) (k : Nat), s.arg.site = some x → siteIndex x = some k → ∃ t, exec .correctedError s = .next t ∧ Claims.Counted s t k 0 (2 ^ 64 - 1)) ∧
  (∀ s : State,
    (∀ a, s.arg.site = some (.memory a) → (typeOfPa a = some .cms ∨ typeOfPa a = some .csp ∨ typeOfPa a = some .ls) →
      ∃ t, exec .uncorrectableError s = .next t ∧ t.poisoned a = true ∧ (∀ b, unitOf b ≠ unitOf a → t.poisoned b = s.poisoned b) ∧ t.mem = s.mem ∧
        ∀ i, (s.core i).late = [] → t.core i = s.core i) ∧
    (∀ i r, s.arg.site = some (.scalar i r) → i < 2304 → 1 ≤ r → r < 56 →
      ∃ t, exec .uncorrectableError s = .next t ∧ r ∈ (t.core i).poison.s ∧ (∀ n, (t.core i).sreg n = (s.core i).sreg n) ∧ t.mem = s.mem)) ∧
  (∀ s : State, s.arg.n < 6 → ∃ t, exec .voltageDroop s = .next t ∧ Claims.Counted s t (0x4100 + s.arg.n) 0 (2 ^ 64 - 1)) ∧
  (∀ s : State, exec .lifetimeRecordFlush s = .next { s with lifeFlash := s.life }) ∧
  (∀ s : State, s.arg.data = [] →
    let bin := fun (k : Nat) => Min.min 15 ((s.sensors.peaks.getD k 0 - 30) / 5)
    ∃ t, exec .thermalInterval s = .next t ∧ t.sensors.peaks = s.sensors.temps ∧ t.mem = s.mem ∧
      ∀ k, k < 4 → Claims.count t (0x4000 + k) (bin k) = Min.min (2 ^ 32 - 1) (Claims.count s (0x4000 + k) (bin k) + 1))

/-- R340, R355, R373, R406: the supervisor's commands to the management controller answer in w7: WRPCB writes the masked bits of a control block word, PEERACT makes a peer ACTIVE, RDLIFE returns
a record, WRFLOW sets a flow, another command is BADCMD, each once it is asked for; the attestation and management messages are answered.
The form of the replies, and arguments that hold poison, are log entry 48; the operands of events are log entry 54. -/
def Obligations.ManagementEvents : Prop :=
  (∀ s : State,
    let p := s.arg.part
    let w := s.areaWord p
    (Claims.Asked s 1 → w 1 = 3 → w 3 < 2 ^ 60 →
      Claims.Answers s .wrpcb 0 fun t => t.prt p = { s.prt p with asked := false, hint0 := ((s.prt p).hint0 &&& (2 ^ 64 - 1 - w 3)) ||| (w 2 &&& w 3) }) ∧
    (Claims.Asked s 1 → (w 1 = 0 ∨ 7 < w 1) → Claims.Answers s .wrpcb 3 fun t => t.prt p = { s.prt p with asked := false }) ∧
    (Claims.Asked s 2 → w 1 < 2 ^ 10 → Claims.Answers s .peeract 0 fun t => SMap.get {} t.peers (w 1) = { SMap.get {} s.peers (w 1) with active := true }) ∧
    (Claims.Asked s 2 → 2 ^ 10 ≤ w 1 → Claims.Answers s .peeract 3 fun t => t.peers = s.peers) ∧
    (∀ r, Claims.Asked s 3 → s.lifeRecord (w 1) = some r → r.length = 64 →
      Claims.Answers s .rdlife 0 fun t => ∀ j, j < 64 → t.byte (s.areaKey p 8 + j) = r.getD j 0) ∧
    (Claims.Asked s 4 → 1 ≤ w 1 → w 1 ≤ 255 → w 2 < 2 ^ 17 → bits (w 2) 15 10 = 0 →
      Claims.Answers s .wrflow 0 fun t => SMap.get 0 (t.prt p).flows (w 1) = BitVec.ofNat 64 (w 2)) ∧
    (∀ cmd, (cmd = 0 ∨ 4 < cmd) → Claims.Asked s cmd → Claims.Answers s .mgmtBadcmd 1 fun t => t.prt p = { s.prt p with asked := false }) ∧
    (∀ cmd i n, (cmd, i, n) ∈ [(1, .wrpcb, 3), (2, .peeract, 1), (3, .rdlife, 1), (4, .wrflow, 2)] → p < s.cfg.nparts → (s.prt p).asked = true → s.poisoned (s.areaKey p 0) = false →
      s.areaWord p 0 / 2 ^ 56 = cmd → (∃ k, 1 ≤ k ∧ k ≤ n ∧ s.poisoned (s.areaKey p k) = true) →
      Claims.Answers s i 3 fun t => t.peers = s.peers ∧ t.prt p = { s.prt p with asked := false }) ∧
    ((s.prt p).asked = false → ∀ i ∈ [.wrpcb, .peeract, .rdlife, .wrflow, .mgmtBadcmd], exec i s = .next s)) ∧
  (∀ (s : State) (n : Nat), n < 0x900 → (s.lifeRecord n) = some (bytesOf 8 (Claims.count s n 0) ++ List.replicate 56 0)) ∧
  (∀ s : State, Claims.Replies s .getVersion "VERSION" [0x12, 0x13]) ∧
  (∀ s : State, Claims.Replies s .getCapabilities "CAPABILITIES CERT CHAL MEAS" []) ∧
  (∀ s : State, Claims.Replies s .negotiateAlgorithms "ALGORITHMS ECDSA-P384 SHA-384" []) ∧
  (∀ s : State, Claims.Replies s .getDigests "DIGESTS" (Config.sha384 Config.certChain)) ∧
  (∀ s : State, Claims.Replies s .getCertificate "CERTIFICATE" Config.certChain) ∧
  (∀ s : State, let m := Config.sha384 Config.certChain
    let n := Config.nonce s.fresh
    ∃ t, exec .challenge s = .next t ∧ t.replies = s.replies ++ [{ part := s.arg.part, kind := "CHALLENGE_AUTH", data := m ++ n ++ Config.sign s.fresh (s.arg.data ++ m ++ n) }]) ∧
  (∀ s : State, s.arg.q = false → (s.arg.n = 1 → Claims.Replies s .getMeasurements "MEASUREMENTS" (Config.sha384 Config.firmware)) ∧
    (s.arg.n = 3 → Claims.Replies s .getMeasurements "MEASUREMENTS" Config.romVersion) ∧ (s.arg.n = 4 → Claims.Replies s .getMeasurements "ERROR" [])) ∧
  (∀ s : State, s.arg.data = [] → let y := s.sensors
    Claims.Replies s .pldmMonitoring "PLDM" ((y.temps.flatMap (bytesOf 2)) ++ bytesOf 4 y.power ++ bytesOf 4 y.voltage ++ [if y.coolant then 1 else 0])) ∧
  (∀ (s : State) (r : List Byte), s.lifeRecord s.arg.n = some r → Claims.Replies s .mctpRdlife "RDLIFE" r) ∧
  (∀ s : State, Claims.Replies s .rdtime "RDTIME" (bytesOf 8 ((if s.locked then 2 ^ 63 else 0) + (if s.cfg.fixed then 2 ^ 62 else 0) + s.cfg.domain.toNat) ++ bytesOf 8 s.time.toNat)) ∧
  (∀ s : State, s.arg.q = true → s.arg.lid ∈ [1, 2, 4, 8] → s.arg.id < 2 ^ 10 → s.arg.n < 2 ^ 8 →
    ∃ t, exec .wrcfg s = .next t ∧ t.flash.chip.toNat = s.arg.id ∧ t.flash.domain.toNat = s.arg.n ∧ t.flash.nparts = s.arg.lid ∧ t.cfg = s.cfg ∧ t.mem = s.mem) ∧
  (∀ s : State, exec .coolantAlarm s = .next { s with sensors := { s.sensors with coolant := s.arg.q } })

/-- R400 to R403, R405, R374: the host's queue registers, its reads, writes and AtomicOps through BAR2; R350: its write to a page under migration is queued; what each reset leaves; a partition
that is READY has its slots reserved and has announced the new INCARN (R255, R258); power loss loses the counts that are not in flash.
How host accesses enter is log entry 47, what a reset keeps log entry 49, how the reservation tables are set log entry 69, the announcement as one cell for each port, sent once,
log entry 46, that memory lists nothing after a reset log entry 2: choices of the model; the operands of events are log entry 54. -/
def Obligations.HostAndResetEvents : Prop :=
  (∀ s : State, s.arg.part < s.cfg.nparts →
    let p := s.prt s.arg.part
    let used := (s.arg.n % 2 ^ 32 + 2 ^ 32 - p.head) % 2 ^ 32
    (s.hostWaits s.arg.part hostBase = false → (used ≤ 2 ^ p.log2 → exec .hostQueueTailWrite s = .next (s.setPart s.arg.part { p with tail := s.arg.n % 2 ^ 32 })) ∧
    (2 ^ p.log2 < used → exec .hostQueueTailWrite s = .next (s.setPart s.arg.part { p with ovr := true })) ∧
    (let g := if 4 ≤ s.arg.w.toNat % 16 ∧ s.arg.w.toNat % 16 ≤ 12 then s.arg.w.toNat % 16 else p.log2
      let on := s.arg.w.getLsbD 31
      let fits := s.ringOk s.arg.part p.hqbase g
      exec .hostQueueControlWrite s = .next (s.setPart s.arg.part { p with en := on && fits, log2 := g, badbase := p.badbase || (on && !fits) })) ∧
    (s.arg.q = false → s.arg.addr = 0x020 → exec .registerWrite s = .next (s.setPart s.arg.part
      { p with badbase := p.badbase && !s.arg.w.getLsbD 1, ovr := p.ovr && !s.arg.w.getLsbD 0 })) ∧
    (s.arg.q = false → s.arg.addr = 0 → p.en = false → exec .registerWrite s = .next (s.setPart s.arg.part { p with hqbase := s.arg.w.toNat % 2 ^ 52 }))) ∧
    (s.arg.q = true → s.arg.addr = 0x040 → exec .registerWrite s = .next { s with hostReplies := s.hostReplies ++ [HostReply.mk s.arg.part
      (some (bytesOf 8 (s.incarn.toNat * 2 ^ 48 + s.cfg.chip.toNat * 2 ^ 32 + s.arg.part * 2 ^ 24 + 0x009A03)))] }) ∧
    (∀ a, (∀ j, j < 8 → typeOfPa (s.arg.addr + j) ≠ some .host ∧ s.bar2 s.arg.part (s.arg.addr + j) = some (a + j)) → s.holds = [] →
      (∀ j, j < 8 → s.poisoned (a + j) = false) →
      (s.arg.id = 0 → s.arg.n = 8 → exec .hostBar2Access s =
        .next { s with hostReplies := s.hostReplies ++ [{ part := s.arg.part, data := some ((List.range 8).map fun j => s.byte (a + j)) }] }) ∧
      (s.arg.id = 1 → s.arg.data.length = 8 → ∃ t, exec .hostBar2Access s = .next t ∧ (∀ j, j < 8 → t.byte (a + j) = s.arg.data.getD j 0) ∧
        ∀ b, b < a ∨ a + 8 ≤ b → t.byte b = s.byte b) ∧
      (s.arg.id = 2 → s.arg.n = 8 → s.arg.addr % 8 = 0 → ∃ t, exec .hostBar2Access s = .next t ∧ t.rd a 8 = (s.rd a 8 + s.arg.w.toNat) % 2 ^ 64 ∧
        ∀ b, b < a ∨ a + 8 ≤ b → t.byte b = s.byte b)) ∧
    (∀ a h, (∀ j, j < 8 → typeOfPa (s.arg.addr + j) ≠ some .host ∧ s.bar2 s.arg.part (s.arg.addr + j) = some (a + j)) → s.holds = [h] →
      (∀ j, j < 8 → (h.place (a + j)).isSome = true) → s.holdRoom h = true → s.arg.id = 1 → s.arg.data.length = 8 →
      ∃ t q, exec .hostBar2Access s = .next t ∧ t.mem = s.mem ∧ t.holds = [{ h with q := h.q ++ [q] }] ∧ q.core = ncores ∧ q.bytes = s.arg.data.mapIdx fun j b => (a + j, b))) ∧
  (∀ s : State, exec .moduleReset s = .next s.resetModule) ∧
  (∀ s : State, let t := s.resetModule
    t.mem = [] ∧ t.mpoison = [] ∧ t.cores = [] ∧ t.launches = [] ∧ t.cmds = [] ∧ t.time = 0 ∧ t.locked = false ∧ t.cfg = s.flash ∧ t.powered = true ∧
    t.incarn = (if s.stored = 0xFFFF then 1 else s.stored + 1) ∧ t.stored = t.incarn ∧ t.life = s.life) ∧
  (∀ s : State, s.arg.part < s.cfg.nparts → ∃ t, exec .functionLevelReset s = .next t ∧
    (let p := t.prt s.arg.part; p.en = false ∧ p.tail = 0 ∧ p.head = 0 ∧ p.ready = false) ∧
    (∀ l ∈ t.launches, l.part = s.arg.part → l.abandoned = true)) ∧
  (∀ s : State, exec .link1Reset s = .next s) ∧
  (∀ s : State, s.arg.n < 4 → ∃ t, exec .overTemperature s = .next t ∧ t.mem = [] ∧ t.cores = [] ∧ t.time = 0 ∧
    Claims.count t (0x4000 + s.arg.n) 15 = Min.min (2 ^ 32 - 1) (Claims.count s (0x4000 + s.arg.n) 15 + 1)) ∧
  (∀ s : State, s.arg.n = 4 ∨ s.arg.n = 5 → exec .overTemperature s = .next s.resetModule) ∧
  (∀ s : State, s.arg.part < s.cfg.nparts → ∃ t, exec .partitionReady s = .next t ∧ t.prt s.arg.part = { s.prt s.arg.part with ready := true } ∧ t.announced = true ∧
    (s.announced = true → t.sent = s.sent) ∧
    (s.announced = false → t.sent = s.sent ++ (List.range 18).map fun k =>
      (k, { dstId := 0, dstInc := 0, srcId := s.cfg.chip, srcInc := s.incarn, part := 0, flow := 0, cmd := 0, idx := 0, kind := .announce })) ∧
    (s.arg.data = [] → t.resv = s.resv) ∧
    ∀ a b, s.arg.data = [a, b] → s.arg.addr < 1152 → SMap.get 0 t.resv s.arg.addr = (b ++ a) &&& 0xF0FF#16 ∧ ∀ j, j ≠ s.arg.addr → SMap.get 0 t.resv j = SMap.get 0 s.resv j) ∧
  (∀ s : State, exec .powerLoss s = .next { s with powered := false, life := s.lifeFlash })

/-! ### Decoding, stepping, memory, reset -/

/-- R31, R32, R50 to R52, R101, R106, R214, R217, R221, R302: words written out from the encoding tables decode to the instructions they stand for. -/
def Obligations.DecodeWords : Prop :=
  decodeWords 0x00000000 0 = .ok .nop ∧ decodeWords 0x000005A8 0 = .ok (.time 5) ∧ decodeWords 0x000180AC 0 = .ok (.waitt 6) ∧
  decodeWords 0x08000000 0 = .ok .yield ∧ decodeWords 0x20000000 0 = .ok .park ∧ decodeWords 0x00030443 0x00010000 = .ok (.vld .f32 1 ⟨3, 0, 0, 64⟩) ∧
  decodeWords 0x01C61497 0x00000008 = .ok (.bankopAddF32 5 6 7 8) ∧ decodeWords 0xFFF03FC0 0 = .ok (.waitc 63 0 63 63) ∧
  decodeWords 0x000000CF 0x00000001 = .ok (.tlwait 0 0 1) ∧ decodeWords 0x002000B0 0 = .ok (.carr false 2) ∧ decodeWords 0x0155078D 0 = .ok (.vrnd .f32 7 20 21)

/-- R28, R31, R32, R50 to R53: every legal instruction of the opcode table encodes to words that decode to it, whatever bytes follow, and its length is that of its words. -/
def Obligations.DecodeEncode : Prop :=
  ∀ (i : Instr) (rest : List Byte), i.coded = true → i.wf = true → decode (encodeBytes i ++ rest) = .ok (i, i.len) ∧ (encodeBytes i).length = i.len

/-- R28, R30 item 1: with no act on the agenda, a step of a powered machine whose current core runs fetches at its pc and executes what the words decode to, with word 0 in hand; words that
decode to nothing are the row UNASSIGNED_ENCODING; a word that cannot be fetched traps, and a pc that is no multiple of 4 traps with ALIGN (R378).
The agenda is log entry 1. -/
def Obligations.StepRunsDecodedInstruction : Prop :=
  ∀ s : State, s.agenda = [] → s.powered = true → s.runnable s.cur = true → (s.core s.cur).stalled = false → 0 < s.budget → s.uciReady s.cur = false →
    (s.core s.cur).frame = none →
    let s' := { s with budget := s.budget - 1 }
    let pc := (s.core s.cur).pc
    (pc.toNat % 4 ≠ 0 → step s = .next (s'.takeTrap s.cur .align pc (pc + 4))) ∧
    (pc.toNat % 4 = 0 → (∀ q, s.fetchPa s.cur pc.toNat = .error q → step s = .next (s'.takeTrap s.cur q pc (pc + 4))) ∧
    (∀ w0 t, s'.fetchWord s.cur pc = .ok (w0, t) →
      (w0.toNat % 4 ≠ 3 → ∀ i, decodeWords w0 0 = .ok i → step s = exec i (t.modCore s.cur fun c => { c with ir := w0 })) ∧
      (w0.toNat % 4 ≠ 3 → ∀ e, decodeWords w0 0 = .error e → step s = exec .unassignedEncoding (t.modCore s.cur fun c => { c with ir := w0 })) ∧
      (w0.toNat % 4 = 3 → ∀ w1 u, t.fetchWord s.cur (pc + 4) = .ok (w1, u) →
        (∀ i, decodeWords w0 w1 = .ok i → step s = exec i (u.modCore s.cur fun c => { c with ir := w0 })) ∧
        (∀ e, decodeWords w0 w1 = .error e → step s = exec .unassignedEncoding (u.modCore s.cur fun c => { c with ir := w0 })))))

/-- The canonical form of memory is an invariant: every step that answers a state keeps it, from every state that has it. -/
def Obligations.MemoryInvariant : Prop := ∀ s t : State, s.MemOk → step s = .next t → t.MemOk

/-- R16, R55, R57, R58, R198, R259, R403: what reset leaves: no instruction has run, memory lists nothing and is canonical, FEAT reads 0xFFFF, ISAVER 0x0300, INCARN 1 after a stored 0, the time counter
is 0, timelines, queues and launches are empty; R358: word 0 of a save slot is the COREID of its core. The pc at 0 (log entry 4), registers at 0 (log entry 3), memory that lists nothing, so that every byte reads 0 (log entry 2), and core 0 with an empty agenda as what a step turns to first
(log entry 10) are the model's choices. -/
def Obligations.ResetState : Prop :=
  State.reset.MemOk ∧ State.reset.mem = [] ∧ State.reset.cur = 0 ∧ (State.reset.core 0).pc = 0 ∧ State.reset.isSup 0 = true ∧ State.reset.feat 0 = 0xFFFF ∧
  State.reset.sysReg 0 0x004 = 0x0300 ∧ State.reset.incarn = 1 ∧ State.reset.time = 0 ∧ State.reset.locked = false ∧ (∀ n, (State.reset.core 0).sreg n = 0) ∧
  (∀ n, n < 4 → (State.reset.core 0).tl n = {}) ∧ State.reset.launches = [] ∧ State.reset.cmds = [] ∧ State.reset.agenda = [] ∧ State.reset.powered = true ∧
  ∀ i, i < 2304 → State.reset.slotWord i 0 0 = coreId i ∧ State.reset.slotWord i 1 0 = coreId i
end

