-- ==== Sys2Proof/Laws/Fields.lean ====
section
/-!
SUPPORT. Laws/Fields.lean: cutting a word into fields and putting it together are inverse (R31 to R33), and the codes of the small enumerations.
-/
namespace Sys2Proof.Laws

open Sys2Proof

theorem extract_append_hi {n m : Nat} (x : BitVec n) (y : BitVec m) (s l : Nat) : (x ++ y).extractLsb' (m + s) l = x.extractLsb' s l := by
  apply BitVec.eq_of_getLsbD_eq
  intro i hi
  simp only [BitVec.getLsbD_extractLsb', BitVec.getLsbD_append]
  have : ¬ (m + s + i < m) := by omega
  simp only [this, hi, decide_true, Bool.true_and, if_false]
  congr 1; omega

theorem extract_append_lo {n m : Nat} (x : BitVec n) (y : BitVec m) (s l : Nat) (h : s + l ≤ m) : (x ++ y).extractLsb' s l = y.extractLsb' s l := by
  apply BitVec.eq_of_getLsbD_eq
  intro i hi
  simp only [BitVec.getLsbD_extractLsb', BitVec.getLsbD_append]
  have : s + i < m := by omega
  simp [this, hi]

@[simp] theorem extract_all {n : Nat} (x : BitVec n) : x.extractLsb' 0 n = x := by
  apply BitVec.eq_of_getLsbD_eq
  intro i hi
  simp [hi]

theorem extract_last {n m : Nat} (x : BitVec n) (y : BitVec m) : (x ++ y).extractLsb' 0 m = y := (extract_append_lo x y 0 m (by omega)).trans (extract_all y)


@[simp] theorem fields_split_join (x : Fields) : Fields.split x.join = x := by
  obtain ⟨x0, x1, x2, x3, x4, x5⟩ := x
  simp only [Fields.split, Fields.join, Fields.mk.injEq]
  exact ⟨((extract_append_hi _ x5 24 6).trans ((extract_append_hi _ x4 18 6).trans ((extract_append_hi _ x3 12 6).trans ((extract_append_hi _ x2 6 6).trans ((extract_append_hi _ x1 0 6).trans (extract_all x0)))))), ((extract_append_hi _ x5 18 6).trans ((extract_append_hi _ x4 12 6).trans ((extract_append_hi _ x3 6 6).trans ((extract_append_hi _ x2 0 6).trans (extract_last _ x1))))), ((extract_append_hi _ x5 12 6).trans ((extract_append_hi _ x4 6 6).trans ((extract_append_hi _ x3 0 6).trans (extract_last _ x2)))), ((extract_append_hi _ x5 6 6).trans ((extract_append_hi _ x4 0 6).trans (extract_last _ x3))), ((extract_append_hi _ x5 0 6).trans (extract_last _ x4)), (extract_last _ x5)⟩


@[simp] theorem long0_split_join (x : Long0) : Long0.split x.join = x := by
  obtain ⟨x0, x1, x2, x3, x4, x5⟩ := x
  simp only [Long0.split, Long0.join, Long0.mk.injEq]
  exact ⟨((extract_append_hi _ x5 26 4).trans ((extract_append_hi _ x4 18 4).trans ((extract_append_hi _ x3 12 4).trans ((extract_append_hi _ x2 6 4).trans ((extract_append_hi _ x1 0 4).trans (extract_all x0)))))), ((extract_append_hi _ x5 20 6).trans ((extract_append_hi _ x4 12 6).trans ((extract_append_hi _ x3 6 6).trans ((extract_append_hi _ x2 0 6).trans (extract_last _ x1))))), ((extract_append_hi _ x5 14 6).trans ((extract_append_hi _ x4 6 6).trans ((extract_append_hi _ x3 0 6).trans (extract_last _ x2)))), ((extract_append_hi _ x5 8 6).trans ((extract_append_hi _ x4 0 6).trans (extract_last _ x3))), ((extract_append_hi _ x5 0 8).trans (extract_last _ x4)), (extract_last _ x5)⟩


@[simp] theorem lr_split_join (x : LR) : LR.split x.join = x := by
  obtain ⟨x0, x1⟩ := x
  simp only [LR.split, LR.join, LR.mk.injEq]
  exact ⟨((extract_append_hi _ x1 0 26).trans (extract_all x0)), (extract_last _ x1)⟩


@[simp] theorem lm_split_join (x : LM) : LM.split x.join = x := by
  obtain ⟨x0, x1, x2, x3, x4⟩ := x
  simp only [LM.split, LM.join, LM.mk.injEq]
  exact ⟨((extract_append_hi _ x4 8 22).trans ((extract_append_hi _ x3 6 22).trans ((extract_append_hi _ x2 3 22).trans ((extract_append_hi _ x1 0 22).trans (extract_all x0))))), ((extract_append_hi _ x4 5 3).trans ((extract_append_hi _ x3 3 3).trans ((extract_append_hi _ x2 0 3).trans (extract_last _ x1)))), ((extract_append_hi _ x4 2 3).trans ((extract_append_hi _ x3 0 3).trans (extract_last _ x2))), ((extract_append_hi _ x4 0 2).trans (extract_last _ x3)), (extract_last _ x4)⟩

theorem isLong_fields (x : Fields) : isLong x.join = (x.sel == 3) := by
  have := congrArg Fields.sel (fields_split_join x)
  simp only [Fields.split] at this
  simp [isLong, this]

theorem isLong_long0 (x : Long0) : isLong x.join = (x.sel == 3) := by
  have := congrArg Long0.sel (long0_split_join x)
  simp only [Long0.split] at this
  simp [isLong, this]

@[simp] theorem cut_1_5_at_0 (x0 : BitVec 1) (x1 : BitVec 5) : (x0 ++ x1).extractLsb' 5 1 = x0 := ((extract_append_hi _ x1 0 1).trans (extract_all x0))
@[simp] theorem cut_1_5_at_1 (x0 : BitVec 1) (x1 : BitVec 5) : (x0 ++ x1).extractLsb' 0 5 = x1 := (extract_last _ x1)
@[simp] theorem cut_3_3_at_0 (x0 : BitVec 3) (x1 : BitVec 3) : (x0 ++ x1).extractLsb' 3 3 = x0 := ((extract_append_hi _ x1 0 3).trans (extract_all x0))
@[simp] theorem cut_3_3_at_1 (x0 : BitVec 3) (x1 : BitVec 3) : (x0 ++ x1).extractLsb' 0 3 = x1 := (extract_last _ x1)
@[simp] theorem cut_2_1_3_at_0 (x0 : BitVec 2) (x1 : BitVec 1) (x2 : BitVec 3) : (x0 ++ x1 ++ x2).extractLsb' 4 2 = x0 := ((extract_append_hi _ x2 1 2).trans ((extract_append_hi _ x1 0 2).trans (extract_all x0)))
@[simp] theorem cut_2_1_3_at_1 (x0 : BitVec 2) (x1 : BitVec 1) (x2 : BitVec 3) : (x0 ++ x1 ++ x2).extractLsb' 3 1 = x1 := ((extract_append_hi _ x2 0 1).trans (extract_last _ x1))
@[simp] theorem cut_2_1_3_at_2 (x0 : BitVec 2) (x1 : BitVec 1) (x2 : BitVec 3) : (x0 ++ x1 ++ x2).extractLsb' 0 3 = x2 := (extract_last _ x2)
@[simp] theorem cut_1_1_4_at_0 (x0 : BitVec 1) (x1 : BitVec 1) (x2 : BitVec 4) : (x0 ++ x1 ++ x2).extractLsb' 5 1 = x0 := ((extract_append_hi _ x2 1 1).trans ((extract_append_hi _ x1 0 1).trans (extract_all x0)))
@[simp] theorem cut_1_1_4_at_1 (x0 : BitVec 1) (x1 : BitVec 1) (x2 : BitVec 4) : (x0 ++ x1 ++ x2).extractLsb' 4 1 = x1 := ((extract_append_hi _ x2 0 1).trans (extract_last _ x1))
@[simp] theorem cut_1_1_4_at_2 (x0 : BitVec 1) (x1 : BitVec 1) (x2 : BitVec 4) : (x0 ++ x1 ++ x2).extractLsb' 0 4 = x2 := (extract_last _ x2)
@[simp] theorem cut_5_1_at_0 (x0 : BitVec 5) (x1 : BitVec 1) : (x0 ++ x1).extractLsb' 1 5 = x0 := ((extract_append_hi _ x1 0 5).trans (extract_all x0))
@[simp] theorem cut_5_1_at_1 (x0 : BitVec 5) (x1 : BitVec 1) : (x0 ++ x1).extractLsb' 0 1 = x1 := (extract_last _ x1)
@[simp] theorem cut_22_1_3_4_2_at_0 (x0 : BitVec 22) (x1 : BitVec 1) (x2 : BitVec 3) (x3 : BitVec 4) (x4 : BitVec 2) : (x0 ++ x1 ++ x2 ++ x3 ++ x4).extractLsb' 10 22 = x0 := ((extract_append_hi _ x4 8 22).trans ((extract_append_hi _ x3 4 22).trans ((extract_append_hi _ x2 1 22).trans ((extract_append_hi _ x1 0 22).trans (extract_all x0)))))
@[simp] theorem cut_22_1_3_4_2_at_1 (x0 : BitVec 22) (x1 : BitVec 1) (x2 : BitVec 3) (x3 : BitVec 4) (x4 : BitVec 2) : (x0 ++ x1 ++ x2 ++ x3 ++ x4).extractLsb' 9 1 = x1 := ((extract_append_hi _ x4 7 1).trans ((extract_append_hi _ x3 3 1).trans ((extract_append_hi _ x2 0 1).trans (extract_last _ x1))))
@[simp] theorem cut_22_1_3_4_2_at_2 (x0 : BitVec 22) (x1 : BitVec 1) (x2 : BitVec 3) (x3 : BitVec 4) (x4 : BitVec 2) : (x0 ++ x1 ++ x2 ++ x3 ++ x4).extractLsb' 6 3 = x2 := ((extract_append_hi _ x4 4 3).trans ((extract_append_hi _ x3 0 3).trans (extract_last _ x2)))
@[simp] theorem cut_22_1_3_4_2_at_3 (x0 : BitVec 22) (x1 : BitVec 1) (x2 : BitVec 3) (x3 : BitVec 4) (x4 : BitVec 2) : (x0 ++ x1 ++ x2 ++ x3 ++ x4).extractLsb' 2 4 = x3 := ((extract_append_hi _ x4 0 4).trans (extract_last _ x3))
@[simp] theorem cut_22_1_3_4_2_at_4 (x0 : BitVec 22) (x1 : BitVec 1) (x2 : BitVec 3) (x3 : BitVec 4) (x4 : BitVec 2) : (x0 ++ x1 ++ x2 ++ x3 ++ x4).extractLsb' 0 2 = x4 := (extract_last _ x4)
@[simp] theorem cut_21_1_1_3_4_2_at_0 (x0 : BitVec 21) (x1 : BitVec 1) (x2 : BitVec 1) (x3 : BitVec 3) (x4 : BitVec 4) (x5 : BitVec 2) : (x0 ++ x1 ++ x2 ++ x3 ++ x4 ++ x5).extractLsb' 11 21 = x0 := ((extract_append_hi _ x5 9 21).trans ((extract_append_hi _ x4 5 21).trans ((extract_append_hi _ x3 2 21).trans ((extract_append_hi _ x2 1 21).trans ((extract_append_hi _ x1 0 21).trans (extract_all x0))))))
@[simp] theorem cut_21_1_1_3_4_2_at_1 (x0 : BitVec 21) (x1 : BitVec 1) (x2 : BitVec 1) (x3 : BitVec 3) (x4 : BitVec 4) (x5 : BitVec 2) : (x0 ++ x1 ++ x2 ++ x3 ++ x4 ++ x5).extractLsb' 10 1 = x1 := ((extract_append_hi _ x5 8 1).trans ((extract_append_hi _ x4 4 1).trans ((extract_append_hi _ x3 1 1).trans ((extract_append_hi _ x2 0 1).trans (extract_last _ x1)))))
@[simp] theorem cut_21_1_1_3_4_2_at_2 (x0 : BitVec 21) (x1 : BitVec 1) (x2 : BitVec 1) (x3 : BitVec 3) (x4 : BitVec 4) (x5 : BitVec 2) : (x0 ++ x1 ++ x2 ++ x3 ++ x4 ++ x5).extractLsb' 9 1 = x2 := ((extract_append_hi _ x5 7 1).trans ((extract_append_hi _ x4 3 1).trans ((extract_append_hi _ x3 0 1).trans (extract_last _ x2))))
@[simp] theorem cut_21_1_1_3_4_2_at_3 (x0 : BitVec 21) (x1 : BitVec 1) (x2 : BitVec 1) (x3 : BitVec 3) (x4 : BitVec 4) (x5 : BitVec 2) : (x0 ++ x1 ++ x2 ++ x3 ++ x4 ++ x5).extractLsb' 6 3 = x3 := ((extract_append_hi _ x5 4 3).trans ((extract_append_hi _ x4 0 3).trans (extract_last _ x3)))
@[simp] theorem cut_21_1_1_3_4_2_at_4 (x0 : BitVec 21) (x1 : BitVec 1) (x2 : BitVec 1) (x3 : BitVec 3) (x4 : BitVec 4) (x5 : BitVec 2) : (x0 ++ x1 ++ x2 ++ x3 ++ x4 ++ x5).extractLsb' 2 4 = x4 := ((extract_append_hi _ x5 0 4).trans (extract_last _ x4))
@[simp] theorem cut_21_1_1_3_4_2_at_5 (x0 : BitVec 21) (x1 : BitVec 1) (x2 : BitVec 1) (x3 : BitVec 3) (x4 : BitVec 4) (x5 : BitVec 2) : (x0 ++ x1 ++ x2 ++ x3 ++ x4 ++ x5).extractLsb' 0 2 = x5 := (extract_last _ x5)
@[simp] theorem cut_26_4_2_at_0 (x0 : BitVec 26) (x1 : BitVec 4) (x2 : BitVec 2) : (x0 ++ x1 ++ x2).extractLsb' 6 26 = x0 := ((extract_append_hi _ x2 4 26).trans ((extract_append_hi _ x1 0 26).trans (extract_all x0)))
@[simp] theorem cut_26_4_2_at_1 (x0 : BitVec 26) (x1 : BitVec 4) (x2 : BitVec 2) : (x0 ++ x1 ++ x2).extractLsb' 2 4 = x1 := ((extract_append_hi _ x2 0 4).trans (extract_last _ x1))
@[simp] theorem cut_26_4_2_at_2 (x0 : BitVec 26) (x1 : BitVec 4) (x2 : BitVec 2) : (x0 ++ x1 ++ x2).extractLsb' 0 2 = x2 := (extract_last _ x2)
@[simp] theorem cut_24_1_1_at_0 (x0 : BitVec 24) (x1 : BitVec 1) (x2 : BitVec 1) : (x0 ++ x1 ++ x2).extractLsb' 2 24 = x0 := ((extract_append_hi _ x2 1 24).trans ((extract_append_hi _ x1 0 24).trans (extract_all x0)))
@[simp] theorem cut_24_1_1_at_1 (x0 : BitVec 24) (x1 : BitVec 1) (x2 : BitVec 1) : (x0 ++ x1 ++ x2).extractLsb' 1 1 = x1 := ((extract_append_hi _ x2 0 1).trans (extract_last _ x1))
@[simp] theorem cut_24_1_1_at_2 (x0 : BitVec 24) (x1 : BitVec 1) (x2 : BitVec 1) : (x0 ++ x1 ++ x2).extractLsb' 0 1 = x2 := (extract_last _ x2)
@[simp] theorem cut_21_3_1_1_at_0 (x0 : BitVec 21) (x1 : BitVec 3) (x2 : BitVec 1) (x3 : BitVec 1) : (x0 ++ x1 ++ x2 ++ x3).extractLsb' 5 21 = x0 := ((extract_append_hi _ x3 4 21).trans ((extract_append_hi _ x2 3 21).trans ((extract_append_hi _ x1 0 21).trans (extract_all x0))))
@[simp] theorem cut_21_3_1_1_at_1 (x0 : BitVec 21) (x1 : BitVec 3) (x2 : BitVec 1) (x3 : BitVec 1) : (x0 ++ x1 ++ x2 ++ x3).extractLsb' 2 3 = x1 := ((extract_append_hi _ x3 1 3).trans ((extract_append_hi _ x2 0 3).trans (extract_last _ x1)))
@[simp] theorem cut_21_3_1_1_at_2 (x0 : BitVec 21) (x1 : BitVec 3) (x2 : BitVec 1) (x3 : BitVec 1) : (x0 ++ x1 ++ x2 ++ x3).extractLsb' 1 1 = x2 := ((extract_append_hi _ x3 0 1).trans (extract_last _ x2))
@[simp] theorem cut_21_3_1_1_at_3 (x0 : BitVec 21) (x1 : BitVec 3) (x2 : BitVec 1) (x3 : BitVec 1) : (x0 ++ x1 ++ x2 ++ x3).extractLsb' 0 1 = x3 := (extract_last _ x3)
@[simp] theorem cut_16_4_4_2_at_0 (x0 : BitVec 16) (x1 : BitVec 4) (x2 : BitVec 4) (x3 : BitVec 2) : (x0 ++ x1 ++ x2 ++ x3).extractLsb' 10 16 = x0 := ((extract_append_hi _ x3 8 16).trans ((extract_append_hi _ x2 4 16).trans ((extract_append_hi _ x1 0 16).trans (extract_all x0))))
@[simp] theorem cut_16_4_4_2_at_1 (x0 : BitVec 16) (x1 : BitVec 4) (x2 : BitVec 4) (x3 : BitVec 2) : (x0 ++ x1 ++ x2 ++ x3).extractLsb' 6 4 = x1 := ((extract_append_hi _ x3 4 4).trans ((extract_append_hi _ x2 0 4).trans (extract_last _ x1)))
@[simp] theorem cut_16_4_4_2_at_2 (x0 : BitVec 16) (x1 : BitVec 4) (x2 : BitVec 4) (x3 : BitVec 2) : (x0 ++ x1 ++ x2 ++ x3).extractLsb' 2 4 = x2 := ((extract_append_hi _ x3 0 4).trans (extract_last _ x2))
@[simp] theorem cut_16_4_4_2_at_3 (x0 : BitVec 16) (x1 : BitVec 4) (x2 : BitVec 4) (x3 : BitVec 2) : (x0 ++ x1 ++ x2 ++ x3).extractLsb' 0 2 = x3 := (extract_last _ x3)
@[simp] theorem cut_25_1_at_0 (x0 : BitVec 25) (x1 : BitVec 1) : (x0 ++ x1).extractLsb' 1 25 = x0 := ((extract_append_hi _ x1 0 25).trans (extract_all x0))
@[simp] theorem cut_25_1_at_1 (x0 : BitVec 25) (x1 : BitVec 1) : (x0 ++ x1).extractLsb' 0 1 = x1 := (extract_last _ x1)
@[simp] theorem cut_21_1_4_at_0 (x0 : BitVec 21) (x1 : BitVec 1) (x2 : BitVec 4) : (x0 ++ x1 ++ x2).extractLsb' 5 21 = x0 := ((extract_append_hi _ x2 1 21).trans ((extract_append_hi _ x1 0 21).trans (extract_all x0)))
@[simp] theorem cut_21_1_4_at_1 (x0 : BitVec 21) (x1 : BitVec 1) (x2 : BitVec 4) : (x0 ++ x1 ++ x2).extractLsb' 4 1 = x1 := ((extract_append_hi _ x2 0 1).trans (extract_last _ x1))
@[simp] theorem cut_21_1_4_at_2 (x0 : BitVec 21) (x1 : BitVec 1) (x2 : BitVec 4) : (x0 ++ x1 ++ x2).extractLsb' 0 4 = x2 := (extract_last _ x2)
@[simp] theorem cut_22_4_at_0 (x0 : BitVec 22) (x1 : BitVec 4) : (x0 ++ x1).extractLsb' 4 22 = x0 := ((extract_append_hi _ x1 0 22).trans (extract_all x0))
@[simp] theorem cut_22_4_at_1 (x0 : BitVec 22) (x1 : BitVec 4) : (x0 ++ x1).extractLsb' 0 4 = x1 := (extract_last _ x1)
@[simp] theorem cut_24_2_at_0 (x0 : BitVec 24) (x1 : BitVec 2) : (x0 ++ x1).extractLsb' 2 24 = x0 := ((extract_append_hi _ x1 0 24).trans (extract_all x0))
@[simp] theorem cut_24_2_at_1 (x0 : BitVec 24) (x1 : BitVec 2) : (x0 ++ x1).extractLsb' 0 2 = x1 := (extract_last _ x1)
@[simp] theorem cut_1_1_2_at_0 (x0 : BitVec 1) (x1 : BitVec 1) (x2 : BitVec 2) : (x0 ++ x1 ++ x2).extractLsb' 3 1 = x0 := ((extract_append_hi _ x2 1 1).trans ((extract_append_hi _ x1 0 1).trans (extract_all x0)))
@[simp] theorem cut_1_1_2_at_1 (x0 : BitVec 1) (x1 : BitVec 1) (x2 : BitVec 2) : (x0 ++ x1 ++ x2).extractLsb' 2 1 = x1 := ((extract_append_hi _ x2 0 1).trans (extract_last _ x1))
@[simp] theorem cut_1_1_2_at_2 (x0 : BitVec 1) (x1 : BitVec 1) (x2 : BitVec 2) : (x0 ++ x1 ++ x2).extractLsb' 0 2 = x2 := (extract_last _ x2)
@[simp] theorem cut_1_3_at_0 (x0 : BitVec 1) (x1 : BitVec 3) : (x0 ++ x1).extractLsb' 3 1 = x0 := ((extract_append_hi _ x1 0 1).trans (extract_all x0))
@[simp] theorem cut_1_3_at_1 (x0 : BitVec 1) (x1 : BitVec 3) : (x0 ++ x1).extractLsb' 0 3 = x1 := (extract_last _ x1)
@[simp] theorem cut_3_1_at_0 (x0 : BitVec 3) (x1 : BitVec 1) : (x0 ++ x1).extractLsb' 1 3 = x0 := ((extract_append_hi _ x1 0 3).trans (extract_all x0))
@[simp] theorem cut_3_1_at_1 (x0 : BitVec 3) (x1 : BitVec 1) : (x0 ++ x1).extractLsb' 0 1 = x1 := (extract_last _ x1)
@[simp] theorem cut_6_16_2_2_2_4_at_0 (x0 : BitVec 6) (x1 : BitVec 16) (x2 : BitVec 2) (x3 : BitVec 2) (x4 : BitVec 2) (x5 : BitVec 4) : (x0 ++ x1 ++ x2 ++ x3 ++ x4 ++ x5).extractLsb' 26 6 = x0 := ((extract_append_hi _ x5 22 6).trans ((extract_append_hi _ x4 20 6).trans ((extract_append_hi _ x3 18 6).trans ((extract_append_hi _ x2 16 6).trans ((extract_append_hi _ x1 0 6).trans (extract_all x0))))))
@[simp] theorem cut_6_16_2_2_2_4_at_1 (x0 : BitVec 6) (x1 : BitVec 16) (x2 : BitVec 2) (x3 : BitVec 2) (x4 : BitVec 2) (x5 : BitVec 4) : (x0 ++ x1 ++ x2 ++ x3 ++ x4 ++ x5).extractLsb' 10 16 = x1 := ((extract_append_hi _ x5 6 16).trans ((extract_append_hi _ x4 4 16).trans ((extract_append_hi _ x3 2 16).trans ((extract_append_hi _ x2 0 16).trans (extract_last _ x1)))))
@[simp] theorem cut_6_16_2_2_2_4_at_2 (x0 : BitVec 6) (x1 : BitVec 16) (x2 : BitVec 2) (x3 : BitVec 2) (x4 : BitVec 2) (x5 : BitVec 4) : (x0 ++ x1 ++ x2 ++ x3 ++ x4 ++ x5).extractLsb' 8 2 = x2 := ((extract_append_hi _ x5 4 2).trans ((extract_append_hi _ x4 2 2).trans ((extract_append_hi _ x3 0 2).trans (extract_last _ x2))))
@[simp] theorem cut_6_16_2_2_2_4_at_3 (x0 : BitVec 6) (x1 : BitVec 16) (x2 : BitVec 2) (x3 : BitVec 2) (x4 : BitVec 2) (x5 : BitVec 4) : (x0 ++ x1 ++ x2 ++ x3 ++ x4 ++ x5).extractLsb' 6 2 = x3 := ((extract_append_hi _ x5 2 2).trans ((extract_append_hi _ x4 0 2).trans (extract_last _ x3)))
@[simp] theorem cut_6_16_2_2_2_4_at_4 (x0 : BitVec 6) (x1 : BitVec 16) (x2 : BitVec 2) (x3 : BitVec 2) (x4 : BitVec 2) (x5 : BitVec 4) : (x0 ++ x1 ++ x2 ++ x3 ++ x4 ++ x5).extractLsb' 4 2 = x4 := ((extract_append_hi _ x5 0 2).trans (extract_last _ x4))
@[simp] theorem cut_6_16_2_2_2_4_at_5 (x0 : BitVec 6) (x1 : BitVec 16) (x2 : BitVec 2) (x3 : BitVec 2) (x4 : BitVec 2) (x5 : BitVec 4) : (x0 ++ x1 ++ x2 ++ x3 ++ x4 ++ x5).extractLsb' 0 4 = x5 := (extract_last _ x5)
@[simp] theorem cut_9_17_lo (x0 : BitVec 9) (x1 : BitVec 17) : (x0 ++ x1).extractLsb' 0 17 = x1 := extract_last x0 x1
@[simp] theorem cut_9_17_bit (x1 : BitVec 17) : (0#9 ++ x1).extractLsb' 17 1 = 0 := (extract_append_hi 0#9 x1 0 1).trans (by decide)
@[simp] theorem cut_9_17_hi (x1 : BitVec 17) : (0#9 ++ x1).extractLsb' 18 8 = 0 := (extract_append_hi 0#9 x1 1 8).trans (by decide)
@[simp] theorem cut_zero_fmt (x : BitVec 4) : (0#1 ++ 0#1 ++ x).extractLsb' 4 2 = 0 := (extract_append_hi (0#1 ++ 0#1) x 0 2).trans (by decide)

/-! Immediates in pieces (R31) -/

theorem join_pieces {n : Nat} (x : BitVec n) (k l : Nat) (h : n = k + l) : (x.extractLsb' l k ++ x.extractLsb' 0 l : BitVec (k + l)) = x.cast h := by
  subst h
  apply BitVec.eq_of_getLsbD_eq
  intro i hi
  simp only [BitVec.getLsbD_append, BitVec.getLsbD_extractLsb', BitVec.cast_eq]
  by_cases h : i < l
  · simp [h]
  · simp only [h, if_false]
    have h2 : i - l < k := by omega
    simp only [h2, decide_true, Bool.true_and]
    congr 1; omega

@[simp] theorem hi6_lo6 (i : BitVec 12) : hi6 i ++ lo6 i = i := join_pieces i 6 6 rfl

@[simp] theorem pieces18 (i : BitVec 18) : i.extractLsb' 12 6 ++ i.extractLsb' 6 6 ++ i.extractLsb' 0 6 = i := by
  have h := join_pieces (i.extractLsb' 6 12) 6 6 rfl
  have h2 := join_pieces i 12 6 rfl
  simp only [BitVec.cast_eq] at h h2
  rw [show (i.extractLsb' 6 12).extractLsb' 6 6 = i.extractLsb' 12 6 from by
      apply BitVec.eq_of_getLsbD_eq; intro j hj; simp only [BitVec.getLsbD_extractLsb', hj, decide_true, Bool.true_and]
      rw [show decide (6 + j < 12) = true from by simp; omega]; simp only [Bool.true_and]; congr 1; omega,
    show (i.extractLsb' 6 12).extractLsb' 0 6 = i.extractLsb' 6 6 from by
      apply BitVec.eq_of_getLsbD_eq; intro j hj; simp only [BitVec.getLsbD_extractLsb', hj, decide_true, Bool.true_and]
      rw [show decide (0 + j < 12) = true from by simp; omega]; simp only [Bool.true_and]; congr 1; omega] at h
  exact (congrArg (· ++ i.extractLsb' 0 6) h).trans h2

@[simp] theorem pieces24 (i : BitVec 24) : i.extractLsb' 18 6 ++ i.extractLsb' 12 6 ++ i.extractLsb' 6 6 ++ i.extractLsb' 0 6 = i := by
  have h := pieces18 (i.extractLsb' 6 18)
  have h2 := join_pieces i 18 6 rfl
  simp only [BitVec.cast_eq] at h2
  have e (a : Nat) (ha : a + 6 ≤ 18) : (i.extractLsb' 6 18).extractLsb' a 6 = i.extractLsb' (6 + a) 6 := by
    apply BitVec.eq_of_getLsbD_eq; intro j hj
    simp only [BitVec.getLsbD_extractLsb', hj, decide_true, Bool.true_and]
    rw [show decide (a + j < 18) = true from by simp; omega]; simp only [Bool.true_and]; congr 1; omega
  rw [e 12 (by omega), e 6 (by omega), e 0 (by omega)] at h
  exact (congrArg (· ++ i.extractLsb' 0 6) h).trans h2

/-! Codes of the enumerations -/

@[simp] theorem b1_eq_one (b : Bool) : (b1 b == 1) = b := by cases b <;> rfl
@[simp] theorem b1_beq_one (b : Bool) : (b1 b == 1#1) = b := by cases b <;> rfl
@[simp] theorem b1_beq_zero (b : Bool) : (b1 b == 0#1) = !b := by cases b <;> rfl
@[simp] theorem b1_eq_zero (b : Bool) : (b1 b == 0) = !b := by cases b <;> rfl
@[simp] theorem b1_eq_one' (b : Bool) : (b1 b = 1#1) = (b = true) := by cases b <;> simp [b1]
@[simp] theorem b1_eq_zero' (b : Bool) : (b1 b = 0#1) = (b = false) := by cases b <;> simp [b1]
@[simp] theorem fmtOf_code (f : Fmt) : fmtOf f.code = some f := by cases f <;> rfl
@[simp] theorem cvtOf_code (f : CvtKind) : cvtOf f.code = f := by cases f <;> rfl
@[simp] theorem rmodeOf_code (m : RMode) : rmodeOf m.code = some m := by cases m <;> rfl
@[simp] theorem scopeOf_code (s : Scope) : scopeOf s.code = some s := by cases s <;> rfl
@[simp] theorem scopeOf2_code2 (s : Scope) : scopeOf2 s.code2 = s := by cases s <;> rfl
@[simp] theorem ldSizeOf_code (s : LdSize) : ldSizeOf s.code = some s := by cases s <;> rfl
@[simp] theorem stSizeOf_code (s : StSize) : stSizeOf s.code = some s := by cases s <;> rfl
@[simp] theorem atomOrderOf_code (o : Order) : atomOrderOf o.code = o := by cases o <;> rfl
@[simp] theorem maskCondOf_code (c : MaskCond) : maskCondOf c.code = some c := by cases c <;> rfl
@[simp] theorem code2_not_three (s : Scope) (h : s ≠ .system) : (s.code2 != 3) = true := by cases s <;> simp_all [Scope.code2]
@[simp] theorem cut_false_fmt (x : BitVec 4) : (b1 false ++ b1 false ++ x).extractLsb' 4 2 = 0#2 := cut_zero_fmt x
@[simp] theorem toNat_b1_true : (b1 true).toNat = 1 := rfl

end Sys2Proof.Laws
end

