-- ==== Sys2Proof/Laws/Maps.lean ====
section
/-!
SUPPORT. Laws/Maps.lean: the finite maps: reading after writing, and that every update keeps the canonical form.
-/
set_option Elab.async false

namespace Sys2Proof.Machine

variable {α : Type}

theorem SMap.get_erase_same (d : α) (m : SMap α) (a : Nat) : SMap.get d (SMap.erase m a) a = d := by
  induction m with
  | nil => rfl
  | cons p t ih => obtain ⟨k, v⟩ := p; simp only [SMap.erase]; split <;> simp_all [SMap.get]

theorem SMap.get_erase_other (d : α) (m : SMap α) {a b : Nat} (h : b ≠ a) : SMap.get d (SMap.erase m a) b = SMap.get d m b := by
  induction m with
  | nil => rfl
  | cons p t ih =>
    obtain ⟨k, v⟩ := p
    simp only [SMap.erase]
    split
    · rename_i hk; subst hk; simp [SMap.get, h, ih]
    · simp [SMap.get, ih]

theorem SMap.mem_erase {m : SMap α} {a : Nat} {p : Nat × α} : p ∈ SMap.erase m a ↔ p ∈ m ∧ p.1 ≠ a := by
  induction m with
  | nil => simp [SMap.erase]
  | cons q t ih =>
    obtain ⟨k, v⟩ := q
    simp only [SMap.erase]
    split
    · rename_i hk; subst hk
      rw [ih]; constructor
      · rintro ⟨h, h'⟩; exact ⟨List.mem_cons_of_mem _ h, h'⟩
      · rintro ⟨h, h'⟩
        rcases List.mem_cons.mp h with rfl | h
        · exact absurd rfl h'
        · exact ⟨h, h'⟩
    · rename_i hk
      rw [List.mem_cons, ih, List.mem_cons]
      constructor
      · rintro (rfl | ⟨h, h'⟩)
        · exact ⟨Or.inl rfl, fun e => hk e.symm⟩
        · exact ⟨Or.inr h, h'⟩
      · rintro ⟨rfl | h, h'⟩
        · exact Or.inl rfl
        · exact Or.inr ⟨h, h'⟩

theorem SMap.get_insert_same (d : α) (m : SMap α) (a : Nat) (x : α) (h : ∀ p ∈ m, p.1 ≠ a) : SMap.get d (SMap.insert m a x) a = x := by
  induction m with
  | nil => simp [SMap.insert, SMap.get]
  | cons p t ih =>
    obtain ⟨k, v⟩ := p
    simp only [SMap.insert]
    split
    · simp [SMap.get]
    · have hk : a ≠ k := fun e => h (k, v) (by simp) e.symm
      simp only [SMap.get, hk, if_false]
      exact ih fun p hp => h p (List.mem_cons_of_mem _ hp)

theorem SMap.get_insert_other (d : α) (m : SMap α) {a b : Nat} (x : α) (h : b ≠ a) : SMap.get d (SMap.insert m a x) b = SMap.get d m b := by
  induction m with
  | nil => simp [SMap.insert, SMap.get, h]
  | cons p t ih =>
    obtain ⟨k, v⟩ := p
    simp only [SMap.insert]
    split
    · simp [SMap.get, h]
    · simp [SMap.get, ih]

/-- Reading the key just written. -/
@[simp] theorem SMap.get_set_same [DecidableEq α] (d : α) (m : SMap α) (a : Nat) (x : α) : SMap.get d (SMap.set d m a x) a = x := by
  unfold SMap.set
  split
  · rename_i h; rw [SMap.get_erase_same, h]
  · exact SMap.get_insert_same _ _ _ _ fun p hp => (SMap.mem_erase.mp hp).2

/-- Reading another key, whose default may be another. -/
theorem SMap.get_set_far [DecidableEq α] (d e : α) (m : SMap α) {a b : Nat} (x : α) (h : b ≠ a) : SMap.get e (SMap.set d m a x) b = SMap.get e m b := by
  unfold SMap.set
  split
  · exact SMap.get_erase_other e m h
  · rw [SMap.get_insert_other e _ x h, SMap.get_erase_other e m h]

/-- Reading another key. -/
theorem SMap.get_set_other [DecidableEq α] (d : α) (m : SMap α) {a b : Nat} (x : α) (h : b ≠ a) : SMap.get d (SMap.set d m a x) b = SMap.get d m b :=
  SMap.get_set_far d d m x h

/-! ### The canonical form -/

/-- Every key lies above b, keys rise, and no value is the default: the form in list terms. -/
theorem SMap.wfFrom_iff [DecidableEq α] (d : Nat → α) (b : Option Nat) (m : SMap α) :
    SMap.wfFrom d b m = true ↔ (∀ p ∈ m, (∀ x, b = some x → x < p.1) ∧ p.2 ≠ d p.1) ∧ m.Pairwise fun p q => p.1 < q.1 := by
  induction m generalizing b with
  | nil => simp [SMap.wfFrom]
  | cons p t ih =>
    obtain ⟨k, v⟩ := p
    simp only [SMap.wfFrom, Bool.and_eq_true, ih, List.pairwise_cons, List.mem_cons, forall_eq_or_imp, decide_eq_true_eq]
    constructor
    · rintro ⟨⟨hb, hv⟩, h1, h2⟩
      refine ⟨⟨⟨?_, hv⟩, fun q hq => ⟨?_, (h1 q hq).2⟩⟩, fun q hq => (h1 q hq).1 k rfl, h2⟩
      · intro x hx; subst hx; simpa using hb
      · intro x hx; subst hx
        have := (h1 q hq).1 k rfl
        simp only [decide_eq_true_eq] at hb
        omega
    · rintro ⟨⟨⟨hb, hv⟩, h1⟩, h2, h3⟩
      refine ⟨⟨?_, hv⟩, fun q hq => ⟨?_, (h1 q hq).2⟩, h3⟩
      · cases b with
        | none => rfl
        | some x => simpa using hb x rfl
      · intro x hx; cases hx; exact h2 q hq

theorem SMap.wf_iff [DecidableEq α] (d : Nat → α) (m : SMap α) : SMap.wf d m = true ↔ (∀ p ∈ m, p.2 ≠ d p.1) ∧ m.Pairwise fun p q => p.1 < q.1 := by
  rw [SMap.wf, SMap.wfFrom_iff]; simp

theorem SMap.erase_sublist (m : SMap α) (a : Nat) : (SMap.erase m a).Sublist m := by
  induction m with
  | nil => simp [SMap.erase]
  | cons p t ih =>
    obtain ⟨k, v⟩ := p
    simp only [SMap.erase]
    split
    · exact ih.trans (List.sublist_cons_self _ _)
    · exact ih.cons_cons _

theorem SMap.wf_sublist [DecidableEq α] {d : Nat → α} {m m' : SMap α} (h : m'.Sublist m) (w : SMap.wf d m = true) : SMap.wf d m' = true := by
  rw [SMap.wf_iff] at *
  exact ⟨fun p hp => w.1 p (h.subset hp), w.2.sublist h⟩

theorem SMap.mem_insert {m : SMap α} {a : Nat} {x : α} {p : Nat × α} : p ∈ SMap.insert m a x ↔ p = (a, x) ∨ p ∈ m := by
  induction m with
  | nil => simp [SMap.insert]
  | cons q t ih =>
    obtain ⟨k, v⟩ := q
    simp only [SMap.insert]
    split
    · simp
    · simp only [List.mem_cons, ih]; tauto

theorem SMap.wf_insert [DecidableEq α] {d : Nat → α} {m : SMap α} (a : Nat) {x : α} (hx : x ≠ d a) (h : ∀ p ∈ m, p.1 ≠ a) (w : SMap.wf d m = true) :
    SMap.wf d (SMap.insert m a x) = true := by
  rw [SMap.wf_iff] at *
  refine ⟨?_, ?_⟩
  · intro p hp
    rcases SMap.mem_insert.mp hp with rfl | hp
    · exact hx
    · exact w.1 p hp
  · obtain ⟨-, w⟩ := w
    induction m with
    | nil => simp [SMap.insert]
    | cons q t ih =>
      obtain ⟨k, v⟩ := q
      simp only [SMap.insert]
      rw [List.pairwise_cons] at w
      split
      · rename_i hk
        rw [List.pairwise_cons, List.pairwise_cons]
        refine ⟨?_, w⟩
        intro p hp
        rcases List.mem_cons.mp hp with rfl | hp
        · exact hk
        · exact Nat.lt_trans hk (w.1 p hp)
      · rename_i hk
        have hne : k ≠ a := h (k, v) (by simp)
        rw [List.pairwise_cons]
        refine ⟨?_, ih (fun p hp => h p (List.mem_cons_of_mem _ hp)) w.2⟩
        intro p hp
        rcases SMap.mem_insert.mp hp with rfl | hp
        · show k < a; omega
        · exact w.1 p hp

/-- Writing a key keeps the canonical form. -/
theorem SMap.wf_set [DecidableEq α] {d : Nat → α} {m : SMap α} (a : Nat) (x : α) (w : SMap.wf d m = true) : SMap.wf d (SMap.set (d a) m a x) = true := by
  unfold SMap.set
  split
  · exact SMap.wf_sublist (SMap.erase_sublist m a) w
  · rename_i hx
    exact SMap.wf_insert a hx (fun p hp => (SMap.mem_erase.mp hp).2) (SMap.wf_sublist (SMap.erase_sublist m a) w)

theorem SMap.get_of_mem [DecidableEq α] {d : Nat → α} {m : SMap α} (e : α) (w : SMap.wf d m = true) {p : Nat × α} (h : p ∈ m) : SMap.get e m p.1 = p.2 := by
  rw [SMap.wf_iff] at w
  obtain ⟨-, w⟩ := w
  induction m with
  | nil => cases h
  | cons q t ih =>
    obtain ⟨k, v⟩ := q
    rw [List.pairwise_cons] at w
    rcases List.mem_cons.mp h with rfl | h
    · simp [SMap.get]
    · have := w.1 p h
      have hne : p.1 ≠ k := by simp only at this; omega
      simp only [SMap.get, hne, if_false]
      exact ih h w.2

theorem SMap.mem_of_get [DecidableEq α] {d : α} {m : SMap α} {a : Nat} (h : SMap.get d m a ≠ d) : (a, SMap.get d m a) ∈ m := by
  induction m with
  | nil => exact absurd rfl h
  | cons q t ih =>
    obtain ⟨k, v⟩ := q
    by_cases hk : a = k
    · subst hk; simp [SMap.get]
    · simp only [SMap.get, hk, if_false] at h ⊢
      exact List.mem_cons_of_mem _ (ih h)

/-- Maps in canonical form that read the same everywhere are the same list. -/
theorem SMap.ext_get [DecidableEq α] {d : Nat → α} {m m' : SMap α} (w : SMap.wf d m = true) (w' : SMap.wf d m' = true)
    (h : ∀ a, SMap.get (d a) m a = SMap.get (d a) m' a) : m = m' := by
  have sub {m m' : SMap α} (w : SMap.wf d m = true) (h : ∀ a, SMap.get (d a) m a = SMap.get (d a) m' a) (p : Nat × α) (hp : p ∈ m) : p ∈ m' := by
    have e := SMap.get_of_mem (d p.1) w hp
    have ne : SMap.get (d p.1) m' p.1 ≠ d p.1 := by rw [← h, e]; exact ((SMap.wf_iff d m).mp w).1 p hp
    have := SMap.mem_of_get ne
    rw [← h, e] at this
    exact this
  have pw := ((SMap.wf_iff d m).mp w).2
  have pw' := ((SMap.wf_iff d m').mp w').2
  have nd {m : SMap α} (pw : m.Pairwise fun p q => p.1 < q.1) : m.Nodup := pw.imp fun {a b} hab e => by subst e; omega
  exact List.Perm.eq_of_sortedLE' (sub w h) (sub w' fun a => (h a).symm) pw pw' (nd pw) (nd pw')
where
  List.Perm.eq_of_sortedLE' {m m' : SMap α} (s : ∀ p ∈ m, p ∈ m') (s' : ∀ p ∈ m', p ∈ m) (pw : m.Pairwise fun p q => p.1 < q.1)
      (pw' : m'.Pairwise fun p q => p.1 < q.1) (nd : m.Nodup) (nd' : m'.Nodup) : m = m' := by
    have hp : m.Perm m' := (List.perm_ext_iff_of_nodup nd nd').mpr fun p => ⟨s p, s' p⟩
    exact hp.eq_of_pairwise (fun a b _ _ h1 h2 => absurd h1 (by omega)) pw pw'

theorem SMap.erase_insert (m : SMap α) (a : Nat) (x : α) : SMap.erase (SMap.insert m a x) a = SMap.erase m a := by
  induction m with
  | nil => simp [SMap.insert, SMap.erase]
  | cons p t ih =>
    obtain ⟨k, v⟩ := p
    simp only [SMap.insert]
    split
    · simp [SMap.erase]
    · simp [SMap.erase, ih]

theorem SMap.erase_erase (m : SMap α) (a : Nat) : SMap.erase (SMap.erase m a) a = SMap.erase m a := by
  induction m with
  | nil => rfl
  | cons p t ih =>
    obtain ⟨k, v⟩ := p
    by_cases h : a = k
    · subst h; simp [SMap.erase, ih]
    · simp [SMap.erase, h, ih]

/-- A second write to a key replaces the first. -/
@[simp] theorem SMap.set_set_same [DecidableEq α] (d : α) (m : SMap α) (a : Nat) (x y : α) :
    SMap.set d (SMap.set d m a x) a y = SMap.set d m a y := by
  have e : SMap.erase (SMap.set d m a x) a = SMap.erase m a := by
    by_cases h : x = d
    · simp [SMap.set, h, SMap.erase_erase]
    · simp [SMap.set, h, SMap.erase_insert, SMap.erase_erase]
  rw [SMap.set, e]; rfl

end Sys2Proof.Machine
end

