-- ==== Sys2Proof/Laws/State.lean ====
section
/-!
SUPPORT. Laws/State.lean: one lemma per field for each named update of the machine, and what the updates of a core and of a part read back.
-/
set_option Elab.async false

namespace Sys2Proof.Machine

open Sys2Proof

/-! ### Reading back -/

@[simp] theorem State.core_setCore_same (s : State) (i : Nat) (c : Core) : (s.setCore i c).core i = c := SMap.get_set_same _ _ _ _
theorem State.core_setCore_other (s : State) {i j : Nat} (c : Core) (h : j ≠ i) : (s.setCore i c).core j = s.core j := SMap.get_set_other _ _ _ h
@[simp] theorem State.core_modCore_same (s : State) (i : Nat) (f : Core → Core) : (s.modCore i f).core i = f (s.core i) := SMap.get_set_same _ _ _ _
theorem State.core_modCore_other (s : State) {i j : Nat} (f : Core → Core) (h : j ≠ i) : (s.modCore i f).core j = s.core j := SMap.get_set_other _ _ _ h
@[simp] theorem State.cluster_setCluster_same (s : State) (i : Nat) (c : Cluster) : (s.setCluster i c).cluster i = c := SMap.get_set_same _ _ _ _
theorem State.cluster_setCluster_other (s : State) {i j : Nat} (c : Cluster) (h : j ≠ i) : (s.setCluster i c).cluster j = s.cluster j :=
  SMap.get_set_other _ _ _ h
@[simp] theorem State.prt_setPart_same (s : State) (i : Nat) (p : Part) : (s.setPart i p).prt i = p := SMap.get_set_same _ _ _ _
theorem State.prt_setPart_other (s : State) {i j : Nat} (p : Part) (h : j ≠ i) : (s.setPart i p).prt j = s.prt j := SMap.get_set_other _ _ _ h

/-- A second update of a core replaces the first. -/
@[simp] theorem State.setCore_setCore (s : State) (i : Nat) (c c' : Core) : (s.setCore i c).setCore i c' = s.setCore i c' := by
  simp [State.setCore]
@[simp] theorem State.modCore_setCore (s : State) (i : Nat) (c : Core) (f : Core → Core) : (s.setCore i c).modCore i f = s.setCore i (f c) := by
  simp [State.modCore]

/-- An update of one core leaves the rest of the module. -/
theorem State.setCore_rest (s : State) (i : Nat) (c : Core) : s.setCore i c = { s with cores := (s.setCore i c).cores } := rfl


/-! ### setCore -/

@[simp] theorem State.setCore_mem (s : State) (i : Nat) (c : Core) : (s.setCore i c).mem = s.mem := rfl
@[simp] theorem State.setCore_mpoison (s : State) (i : Nat) (c : Core) : (s.setCore i c).mpoison = s.mpoison := rfl
@[simp] theorem State.setCore_clusters (s : State) (i : Nat) (c : Core) : (s.setCore i c).clusters = s.clusters := rfl
@[simp] theorem State.setCore_dchans (s : State) (i : Nat) (c : Core) : (s.setCore i c).dchans = s.dchans := rfl
@[simp] theorem State.setCore_dmask (s : State) (i : Nat) (c : Core) : (s.setCore i c).dmask = s.dmask := rfl
@[simp] theorem State.setCore_dclus (s : State) (i : Nat) (c : Core) : (s.setCore i c).dclus = s.dclus := rfl
@[simp] theorem State.setCore_handles (s : State) (i : Nat) (c : Core) : (s.setCore i c).handles = s.handles := rfl
@[simp] theorem State.setCore_cmds (s : State) (i : Nat) (c : Core) : (s.setCore i c).cmds = s.cmds := rfl
@[simp] theorem State.setCore_wires (s : State) (i : Nat) (c : Core) : (s.setCore i c).wires = s.wires := rfl
@[simp] theorem State.setCore_launches (s : State) (i : Nat) (c : Core) : (s.setCore i c).launches = s.launches := rfl
@[simp] theorem State.setCore_parts (s : State) (i : Nat) (c : Core) : (s.setCore i c).parts = s.parts := rfl
@[simp] theorem State.setCore_holds (s : State) (i : Nat) (c : Core) : (s.setCore i c).holds = s.holds := rfl
@[simp] theorem State.setCore_tickets (s : State) (i : Nat) (c : Core) : (s.setCore i c).tickets = s.tickets := rfl
@[simp] theorem State.setCore_grans (s : State) (i : Nat) (c : Core) : (s.setCore i c).grans = s.grans := rfl
@[simp] theorem State.setCore_reds (s : State) (i : Nat) (c : Core) : (s.setCore i c).reds = s.reds := rfl
@[simp] theorem State.setCore_rankSlots (s : State) (i : Nat) (c : Core) : (s.setCore i c).rankSlots = s.rankSlots := rfl
@[simp] theorem State.setCore_hist (s : State) (i : Nat) (c : Core) : (s.setCore i c).hist = s.hist := rfl
@[simp] theorem State.setCore_pub (s : State) (i : Nat) (c : Core) : (s.setCore i c).pub = s.pub := rfl
@[simp] theorem State.setCore_hostPub (s : State) (i : Nat) (c : Core) : (s.setCore i c).hostPub = s.hostPub := rfl
@[simp] theorem State.setCore_conflicts (s : State) (i : Nat) (c : Core) : (s.setCore i c).conflicts = s.conflicts := rfl
@[simp] theorem State.setCore_serial (s : State) (i : Nat) (c : Core) : (s.setCore i c).serial = s.serial := rfl
@[simp] theorem State.setCore_owed (s : State) (i : Nat) (c : Core) : (s.setCore i c).owed = s.owed := rfl
@[simp] theorem State.setCore_parcels (s : State) (i : Nat) (c : Core) : (s.setCore i c).parcels = s.parcels := rfl
@[simp] theorem State.setCore_chains (s : State) (i : Nat) (c : Core) : (s.setCore i c).chains = s.chains := rfl
@[simp] theorem State.setCore_peers (s : State) (i : Nat) (c : Core) : (s.setCore i c).peers = s.peers := rfl
@[simp] theorem State.setCore_resv (s : State) (i : Nat) (c : Core) : (s.setCore i c).resv = s.resv := rfl
@[simp] theorem State.setCore_cells (s : State) (i : Nat) (c : Core) : (s.setCore i c).cells = s.cells := rfl
@[simp] theorem State.setCore_sent (s : State) (i : Nat) (c : Core) : (s.setCore i c).sent = s.sent := rfl
@[simp] theorem State.setCore_slots (s : State) (i : Nat) (c : Core) : (s.setCore i c).slots = s.slots := rfl
@[simp] theorem State.setCore_announced (s : State) (i : Nat) (c : Core) : (s.setCore i c).announced = s.announced := rfl
@[simp] theorem State.setCore_time (s : State) (i : Nat) (c : Core) : (s.setCore i c).time = s.time := rfl
@[simp] theorem State.setCore_locked (s : State) (i : Nat) (c : Core) : (s.setCore i c).locked = s.locked := rfl
@[simp] theorem State.setCore_good (s : State) (i : Nat) (c : Core) : (s.setCore i c).good = s.good := rfl
@[simp] theorem State.setCore_everLocked (s : State) (i : Nat) (c : Core) : (s.setCore i c).everLocked = s.everLocked := rfl
@[simp] theorem State.setCore_cfg (s : State) (i : Nat) (c : Core) : (s.setCore i c).cfg = s.cfg := rfl
@[simp] theorem State.setCore_flash (s : State) (i : Nat) (c : Core) : (s.setCore i c).flash = s.flash := rfl
@[simp] theorem State.setCore_incarn (s : State) (i : Nat) (c : Core) : (s.setCore i c).incarn = s.incarn := rfl
@[simp] theorem State.setCore_stored (s : State) (i : Nat) (c : Core) : (s.setCore i c).stored = s.stored := rfl
@[simp] theorem State.setCore_life (s : State) (i : Nat) (c : Core) : (s.setCore i c).life = s.life := rfl
@[simp] theorem State.setCore_lifeFlash (s : State) (i : Nat) (c : Core) : (s.setCore i c).lifeFlash = s.lifeFlash := rfl
@[simp] theorem State.setCore_sensors (s : State) (i : Nat) (c : Core) : (s.setCore i c).sensors = s.sensors := rfl
@[simp] theorem State.setCore_replies (s : State) (i : Nat) (c : Core) : (s.setCore i c).replies = s.replies := rfl
@[simp] theorem State.setCore_hostReplies (s : State) (i : Nat) (c : Core) : (s.setCore i c).hostReplies = s.hostReplies := rfl
@[simp] theorem State.setCore_powered (s : State) (i : Nat) (c : Core) : (s.setCore i c).powered = s.powered := rfl
@[simp] theorem State.setCore_agenda (s : State) (i : Nat) (c : Core) : (s.setCore i c).agenda = s.agenda := rfl
@[simp] theorem State.setCore_arg (s : State) (i : Nat) (c : Core) : (s.setCore i c).arg = s.arg := rfl
@[simp] theorem State.setCore_cur (s : State) (i : Nat) (c : Core) : (s.setCore i c).cur = s.cur := rfl
@[simp] theorem State.setCore_budget (s : State) (i : Nat) (c : Core) : (s.setCore i c).budget = s.budget := rfl
@[simp] theorem State.setCore_fresh (s : State) (i : Nat) (c : Core) : (s.setCore i c).fresh = s.fresh := rfl

/-! ### modCore -/

@[simp] theorem State.modCore_mem (s : State) (i : Nat) (f : Core → Core) : (s.modCore i f).mem = s.mem := rfl
@[simp] theorem State.modCore_mpoison (s : State) (i : Nat) (f : Core → Core) : (s.modCore i f).mpoison = s.mpoison := rfl
@[simp] theorem State.modCore_clusters (s : State) (i : Nat) (f : Core → Core) : (s.modCore i f).clusters = s.clusters := rfl
@[simp] theorem State.modCore_dchans (s : State) (i : Nat) (f : Core → Core) : (s.modCore i f).dchans = s.dchans := rfl
@[simp] theorem State.modCore_dmask (s : State) (i : Nat) (f : Core → Core) : (s.modCore i f).dmask = s.dmask := rfl
@[simp] theorem State.modCore_dclus (s : State) (i : Nat) (f : Core → Core) : (s.modCore i f).dclus = s.dclus := rfl
@[simp] theorem State.modCore_handles (s : State) (i : Nat) (f : Core → Core) : (s.modCore i f).handles = s.handles := rfl
@[simp] theorem State.modCore_cmds (s : State) (i : Nat) (f : Core → Core) : (s.modCore i f).cmds = s.cmds := rfl
@[simp] theorem State.modCore_wires (s : State) (i : Nat) (f : Core → Core) : (s.modCore i f).wires = s.wires := rfl
@[simp] theorem State.modCore_launches (s : State) (i : Nat) (f : Core → Core) : (s.modCore i f).launches = s.launches := rfl
@[simp] theorem State.modCore_parts (s : State) (i : Nat) (f : Core → Core) : (s.modCore i f).parts = s.parts := rfl
@[simp] theorem State.modCore_holds (s : State) (i : Nat) (f : Core → Core) : (s.modCore i f).holds = s.holds := rfl
@[simp] theorem State.modCore_tickets (s : State) (i : Nat) (f : Core → Core) : (s.modCore i f).tickets = s.tickets := rfl
@[simp] theorem State.modCore_grans (s : State) (i : Nat) (f : Core → Core) : (s.modCore i f).grans = s.grans := rfl
@[simp] theorem State.modCore_reds (s : State) (i : Nat) (f : Core → Core) : (s.modCore i f).reds = s.reds := rfl
@[simp] theorem State.modCore_rankSlots (s : State) (i : Nat) (f : Core → Core) : (s.modCore i f).rankSlots = s.rankSlots := rfl
@[simp] theorem State.modCore_hist (s : State) (i : Nat) (f : Core → Core) : (s.modCore i f).hist = s.hist := rfl
@[simp] theorem State.modCore_pub (s : State) (i : Nat) (f : Core → Core) : (s.modCore i f).pub = s.pub := rfl
@[simp] theorem State.modCore_hostPub (s : State) (i : Nat) (f : Core → Core) : (s.modCore i f).hostPub = s.hostPub := rfl
@[simp] theorem State.modCore_conflicts (s : State) (i : Nat) (f : Core → Core) : (s.modCore i f).conflicts = s.conflicts := rfl
@[simp] theorem State.modCore_serial (s : State) (i : Nat) (f : Core → Core) : (s.modCore i f).serial = s.serial := rfl
@[simp] theorem State.modCore_owed (s : State) (i : Nat) (f : Core → Core) : (s.modCore i f).owed = s.owed := rfl
@[simp] theorem State.modCore_parcels (s : State) (i : Nat) (f : Core → Core) : (s.modCore i f).parcels = s.parcels := rfl
@[simp] theorem State.modCore_chains (s : State) (i : Nat) (f : Core → Core) : (s.modCore i f).chains = s.chains := rfl
@[simp] theorem State.modCore_peers (s : State) (i : Nat) (f : Core → Core) : (s.modCore i f).peers = s.peers := rfl
@[simp] theorem State.modCore_resv (s : State) (i : Nat) (f : Core → Core) : (s.modCore i f).resv = s.resv := rfl
@[simp] theorem State.modCore_cells (s : State) (i : Nat) (f : Core → Core) : (s.modCore i f).cells = s.cells := rfl
@[simp] theorem State.modCore_sent (s : State) (i : Nat) (f : Core → Core) : (s.modCore i f).sent = s.sent := rfl
@[simp] theorem State.modCore_slots (s : State) (i : Nat) (f : Core → Core) : (s.modCore i f).slots = s.slots := rfl
@[simp] theorem State.modCore_announced (s : State) (i : Nat) (f : Core → Core) : (s.modCore i f).announced = s.announced := rfl
@[simp] theorem State.modCore_time (s : State) (i : Nat) (f : Core → Core) : (s.modCore i f).time = s.time := rfl
@[simp] theorem State.modCore_locked (s : State) (i : Nat) (f : Core → Core) : (s.modCore i f).locked = s.locked := rfl
@[simp] theorem State.modCore_good (s : State) (i : Nat) (f : Core → Core) : (s.modCore i f).good = s.good := rfl
@[simp] theorem State.modCore_everLocked (s : State) (i : Nat) (f : Core → Core) : (s.modCore i f).everLocked = s.everLocked := rfl
@[simp] theorem State.modCore_cfg (s : State) (i : Nat) (f : Core → Core) : (s.modCore i f).cfg = s.cfg := rfl
@[simp] theorem State.modCore_flash (s : State) (i : Nat) (f : Core → Core) : (s.modCore i f).flash = s.flash := rfl
@[simp] theorem State.modCore_incarn (s : State) (i : Nat) (f : Core → Core) : (s.modCore i f).incarn = s.incarn := rfl
@[simp] theorem State.modCore_stored (s : State) (i : Nat) (f : Core → Core) : (s.modCore i f).stored = s.stored := rfl
@[simp] theorem State.modCore_life (s : State) (i : Nat) (f : Core → Core) : (s.modCore i f).life = s.life := rfl
@[simp] theorem State.modCore_lifeFlash (s : State) (i : Nat) (f : Core → Core) : (s.modCore i f).lifeFlash = s.lifeFlash := rfl
@[simp] theorem State.modCore_sensors (s : State) (i : Nat) (f : Core → Core) : (s.modCore i f).sensors = s.sensors := rfl
@[simp] theorem State.modCore_replies (s : State) (i : Nat) (f : Core → Core) : (s.modCore i f).replies = s.replies := rfl
@[simp] theorem State.modCore_hostReplies (s : State) (i : Nat) (f : Core → Core) : (s.modCore i f).hostReplies = s.hostReplies := rfl
@[simp] theorem State.modCore_powered (s : State) (i : Nat) (f : Core → Core) : (s.modCore i f).powered = s.powered := rfl
@[simp] theorem State.modCore_agenda (s : State) (i : Nat) (f : Core → Core) : (s.modCore i f).agenda = s.agenda := rfl
@[simp] theorem State.modCore_arg (s : State) (i : Nat) (f : Core → Core) : (s.modCore i f).arg = s.arg := rfl
@[simp] theorem State.modCore_cur (s : State) (i : Nat) (f : Core → Core) : (s.modCore i f).cur = s.cur := rfl
@[simp] theorem State.modCore_budget (s : State) (i : Nat) (f : Core → Core) : (s.modCore i f).budget = s.budget := rfl
@[simp] theorem State.modCore_fresh (s : State) (i : Nat) (f : Core → Core) : (s.modCore i f).fresh = s.fresh := rfl

/-! ### mapCores -/

@[simp] theorem State.mapCores_mem (s : State) (f : Nat → Core → Core) : (s.mapCores f).mem = s.mem := rfl
@[simp] theorem State.mapCores_mpoison (s : State) (f : Nat → Core → Core) : (s.mapCores f).mpoison = s.mpoison := rfl
@[simp] theorem State.mapCores_clusters (s : State) (f : Nat → Core → Core) : (s.mapCores f).clusters = s.clusters := rfl
@[simp] theorem State.mapCores_dchans (s : State) (f : Nat → Core → Core) : (s.mapCores f).dchans = s.dchans := rfl
@[simp] theorem State.mapCores_dmask (s : State) (f : Nat → Core → Core) : (s.mapCores f).dmask = s.dmask := rfl
@[simp] theorem State.mapCores_dclus (s : State) (f : Nat → Core → Core) : (s.mapCores f).dclus = s.dclus := rfl
@[simp] theorem State.mapCores_handles (s : State) (f : Nat → Core → Core) : (s.mapCores f).handles = s.handles := rfl
@[simp] theorem State.mapCores_cmds (s : State) (f : Nat → Core → Core) : (s.mapCores f).cmds = s.cmds := rfl
@[simp] theorem State.mapCores_wires (s : State) (f : Nat → Core → Core) : (s.mapCores f).wires = s.wires := rfl
@[simp] theorem State.mapCores_launches (s : State) (f : Nat → Core → Core) : (s.mapCores f).launches = s.launches := rfl
@[simp] theorem State.mapCores_parts (s : State) (f : Nat → Core → Core) : (s.mapCores f).parts = s.parts := rfl
@[simp] theorem State.mapCores_holds (s : State) (f : Nat → Core → Core) : (s.mapCores f).holds = s.holds := rfl
@[simp] theorem State.mapCores_tickets (s : State) (f : Nat → Core → Core) : (s.mapCores f).tickets = s.tickets := rfl
@[simp] theorem State.mapCores_grans (s : State) (f : Nat → Core → Core) : (s.mapCores f).grans = s.grans := rfl
@[simp] theorem State.mapCores_reds (s : State) (f : Nat → Core → Core) : (s.mapCores f).reds = s.reds := rfl
@[simp] theorem State.mapCores_rankSlots (s : State) (f : Nat → Core → Core) : (s.mapCores f).rankSlots = s.rankSlots := rfl
@[simp] theorem State.mapCores_hist (s : State) (f : Nat → Core → Core) : (s.mapCores f).hist = s.hist := rfl
@[simp] theorem State.mapCores_pub (s : State) (f : Nat → Core → Core) : (s.mapCores f).pub = s.pub := rfl
@[simp] theorem State.mapCores_hostPub (s : State) (f : Nat → Core → Core) : (s.mapCores f).hostPub = s.hostPub := rfl
@[simp] theorem State.mapCores_conflicts (s : State) (f : Nat → Core → Core) : (s.mapCores f).conflicts = s.conflicts := rfl
@[simp] theorem State.mapCores_serial (s : State) (f : Nat → Core → Core) : (s.mapCores f).serial = s.serial := rfl
@[simp] theorem State.mapCores_owed (s : State) (f : Nat → Core → Core) : (s.mapCores f).owed = s.owed := rfl
@[simp] theorem State.mapCores_parcels (s : State) (f : Nat → Core → Core) : (s.mapCores f).parcels = s.parcels := rfl
@[simp] theorem State.mapCores_chains (s : State) (f : Nat → Core → Core) : (s.mapCores f).chains = s.chains := rfl
@[simp] theorem State.mapCores_peers (s : State) (f : Nat → Core → Core) : (s.mapCores f).peers = s.peers := rfl
@[simp] theorem State.mapCores_resv (s : State) (f : Nat → Core → Core) : (s.mapCores f).resv = s.resv := rfl
@[simp] theorem State.mapCores_cells (s : State) (f : Nat → Core → Core) : (s.mapCores f).cells = s.cells := rfl
@[simp] theorem State.mapCores_sent (s : State) (f : Nat → Core → Core) : (s.mapCores f).sent = s.sent := rfl
@[simp] theorem State.mapCores_slots (s : State) (f : Nat → Core → Core) : (s.mapCores f).slots = s.slots := rfl
@[simp] theorem State.mapCores_announced (s : State) (f : Nat → Core → Core) : (s.mapCores f).announced = s.announced := rfl
@[simp] theorem State.mapCores_time (s : State) (f : Nat → Core → Core) : (s.mapCores f).time = s.time := rfl
@[simp] theorem State.mapCores_locked (s : State) (f : Nat → Core → Core) : (s.mapCores f).locked = s.locked := rfl
@[simp] theorem State.mapCores_good (s : State) (f : Nat → Core → Core) : (s.mapCores f).good = s.good := rfl
@[simp] theorem State.mapCores_everLocked (s : State) (f : Nat → Core → Core) : (s.mapCores f).everLocked = s.everLocked := rfl
@[simp] theorem State.mapCores_cfg (s : State) (f : Nat → Core → Core) : (s.mapCores f).cfg = s.cfg := rfl
@[simp] theorem State.mapCores_flash (s : State) (f : Nat → Core → Core) : (s.mapCores f).flash = s.flash := rfl
@[simp] theorem State.mapCores_incarn (s : State) (f : Nat → Core → Core) : (s.mapCores f).incarn = s.incarn := rfl
@[simp] theorem State.mapCores_stored (s : State) (f : Nat → Core → Core) : (s.mapCores f).stored = s.stored := rfl
@[simp] theorem State.mapCores_life (s : State) (f : Nat → Core → Core) : (s.mapCores f).life = s.life := rfl
@[simp] theorem State.mapCores_lifeFlash (s : State) (f : Nat → Core → Core) : (s.mapCores f).lifeFlash = s.lifeFlash := rfl
@[simp] theorem State.mapCores_sensors (s : State) (f : Nat → Core → Core) : (s.mapCores f).sensors = s.sensors := rfl
@[simp] theorem State.mapCores_replies (s : State) (f : Nat → Core → Core) : (s.mapCores f).replies = s.replies := rfl
@[simp] theorem State.mapCores_hostReplies (s : State) (f : Nat → Core → Core) : (s.mapCores f).hostReplies = s.hostReplies := rfl
@[simp] theorem State.mapCores_powered (s : State) (f : Nat → Core → Core) : (s.mapCores f).powered = s.powered := rfl
@[simp] theorem State.mapCores_agenda (s : State) (f : Nat → Core → Core) : (s.mapCores f).agenda = s.agenda := rfl
@[simp] theorem State.mapCores_arg (s : State) (f : Nat → Core → Core) : (s.mapCores f).arg = s.arg := rfl
@[simp] theorem State.mapCores_cur (s : State) (f : Nat → Core → Core) : (s.mapCores f).cur = s.cur := rfl
@[simp] theorem State.mapCores_budget (s : State) (f : Nat → Core → Core) : (s.mapCores f).budget = s.budget := rfl
@[simp] theorem State.mapCores_fresh (s : State) (f : Nat → Core → Core) : (s.mapCores f).fresh = s.fresh := rfl

/-! ### setCluster -/

@[simp] theorem State.setCluster_mem (s : State) (i : Nat) (c : Cluster) : (s.setCluster i c).mem = s.mem := rfl
@[simp] theorem State.setCluster_mpoison (s : State) (i : Nat) (c : Cluster) : (s.setCluster i c).mpoison = s.mpoison := rfl
@[simp] theorem State.setCluster_cores (s : State) (i : Nat) (c : Cluster) : (s.setCluster i c).cores = s.cores := rfl
@[simp] theorem State.setCluster_dchans (s : State) (i : Nat) (c : Cluster) : (s.setCluster i c).dchans = s.dchans := rfl
@[simp] theorem State.setCluster_dmask (s : State) (i : Nat) (c : Cluster) : (s.setCluster i c).dmask = s.dmask := rfl
@[simp] theorem State.setCluster_dclus (s : State) (i : Nat) (c : Cluster) : (s.setCluster i c).dclus = s.dclus := rfl
@[simp] theorem State.setCluster_handles (s : State) (i : Nat) (c : Cluster) : (s.setCluster i c).handles = s.handles := rfl
@[simp] theorem State.setCluster_cmds (s : State) (i : Nat) (c : Cluster) : (s.setCluster i c).cmds = s.cmds := rfl
@[simp] theorem State.setCluster_wires (s : State) (i : Nat) (c : Cluster) : (s.setCluster i c).wires = s.wires := rfl
@[simp] theorem State.setCluster_launches (s : State) (i : Nat) (c : Cluster) : (s.setCluster i c).launches = s.launches := rfl
@[simp] theorem State.setCluster_parts (s : State) (i : Nat) (c : Cluster) : (s.setCluster i c).parts = s.parts := rfl
@[simp] theorem State.setCluster_holds (s : State) (i : Nat) (c : Cluster) : (s.setCluster i c).holds = s.holds := rfl
@[simp] theorem State.setCluster_tickets (s : State) (i : Nat) (c : Cluster) : (s.setCluster i c).tickets = s.tickets := rfl
@[simp] theorem State.setCluster_grans (s : State) (i : Nat) (c : Cluster) : (s.setCluster i c).grans = s.grans := rfl
@[simp] theorem State.setCluster_reds (s : State) (i : Nat) (c : Cluster) : (s.setCluster i c).reds = s.reds := rfl
@[simp] theorem State.setCluster_rankSlots (s : State) (i : Nat) (c : Cluster) : (s.setCluster i c).rankSlots = s.rankSlots := rfl
@[simp] theorem State.setCluster_hist (s : State) (i : Nat) (c : Cluster) : (s.setCluster i c).hist = s.hist := rfl
@[simp] theorem State.setCluster_pub (s : State) (i : Nat) (c : Cluster) : (s.setCluster i c).pub = s.pub := rfl
@[simp] theorem State.setCluster_hostPub (s : State) (i : Nat) (c : Cluster) : (s.setCluster i c).hostPub = s.hostPub := rfl
@[simp] theorem State.setCluster_conflicts (s : State) (i : Nat) (c : Cluster) : (s.setCluster i c).conflicts = s.conflicts := rfl
@[simp] theorem State.setCluster_serial (s : State) (i : Nat) (c : Cluster) : (s.setCluster i c).serial = s.serial := rfl
@[simp] theorem State.setCluster_owed (s : State) (i : Nat) (c : Cluster) : (s.setCluster i c).owed = s.owed := rfl
@[simp] theorem State.setCluster_parcels (s : State) (i : Nat) (c : Cluster) : (s.setCluster i c).parcels = s.parcels := rfl
@[simp] theorem State.setCluster_chains (s : State) (i : Nat) (c : Cluster) : (s.setCluster i c).chains = s.chains := rfl
@[simp] theorem State.setCluster_peers (s : State) (i : Nat) (c : Cluster) : (s.setCluster i c).peers = s.peers := rfl
@[simp] theorem State.setCluster_resv (s : State) (i : Nat) (c : Cluster) : (s.setCluster i c).resv = s.resv := rfl
@[simp] theorem State.setCluster_cells (s : State) (i : Nat) (c : Cluster) : (s.setCluster i c).cells = s.cells := rfl
@[simp] theorem State.setCluster_sent (s : State) (i : Nat) (c : Cluster) : (s.setCluster i c).sent = s.sent := rfl
@[simp] theorem State.setCluster_slots (s : State) (i : Nat) (c : Cluster) : (s.setCluster i c).slots = s.slots := rfl
@[simp] theorem State.setCluster_announced (s : State) (i : Nat) (c : Cluster) : (s.setCluster i c).announced = s.announced := rfl
@[simp] theorem State.setCluster_time (s : State) (i : Nat) (c : Cluster) : (s.setCluster i c).time = s.time := rfl
@[simp] theorem State.setCluster_locked (s : State) (i : Nat) (c : Cluster) : (s.setCluster i c).locked = s.locked := rfl
@[simp] theorem State.setCluster_good (s : State) (i : Nat) (c : Cluster) : (s.setCluster i c).good = s.good := rfl
@[simp] theorem State.setCluster_everLocked (s : State) (i : Nat) (c : Cluster) : (s.setCluster i c).everLocked = s.everLocked := rfl
@[simp] theorem State.setCluster_cfg (s : State) (i : Nat) (c : Cluster) : (s.setCluster i c).cfg = s.cfg := rfl
@[simp] theorem State.setCluster_flash (s : State) (i : Nat) (c : Cluster) : (s.setCluster i c).flash = s.flash := rfl
@[simp] theorem State.setCluster_incarn (s : State) (i : Nat) (c : Cluster) : (s.setCluster i c).incarn = s.incarn := rfl
@[simp] theorem State.setCluster_stored (s : State) (i : Nat) (c : Cluster) : (s.setCluster i c).stored = s.stored := rfl
@[simp] theorem State.setCluster_life (s : State) (i : Nat) (c : Cluster) : (s.setCluster i c).life = s.life := rfl
@[simp] theorem State.setCluster_lifeFlash (s : State) (i : Nat) (c : Cluster) : (s.setCluster i c).lifeFlash = s.lifeFlash := rfl
@[simp] theorem State.setCluster_sensors (s : State) (i : Nat) (c : Cluster) : (s.setCluster i c).sensors = s.sensors := rfl
@[simp] theorem State.setCluster_replies (s : State) (i : Nat) (c : Cluster) : (s.setCluster i c).replies = s.replies := rfl
@[simp] theorem State.setCluster_hostReplies (s : State) (i : Nat) (c : Cluster) : (s.setCluster i c).hostReplies = s.hostReplies := rfl
@[simp] theorem State.setCluster_powered (s : State) (i : Nat) (c : Cluster) : (s.setCluster i c).powered = s.powered := rfl
@[simp] theorem State.setCluster_agenda (s : State) (i : Nat) (c : Cluster) : (s.setCluster i c).agenda = s.agenda := rfl
@[simp] theorem State.setCluster_arg (s : State) (i : Nat) (c : Cluster) : (s.setCluster i c).arg = s.arg := rfl
@[simp] theorem State.setCluster_cur (s : State) (i : Nat) (c : Cluster) : (s.setCluster i c).cur = s.cur := rfl
@[simp] theorem State.setCluster_budget (s : State) (i : Nat) (c : Cluster) : (s.setCluster i c).budget = s.budget := rfl
@[simp] theorem State.setCluster_fresh (s : State) (i : Nat) (c : Cluster) : (s.setCluster i c).fresh = s.fresh := rfl

/-! ### setPart -/

@[simp] theorem State.setPart_mem (s : State) (i : Nat) (p : Part) : (s.setPart i p).mem = s.mem := rfl
@[simp] theorem State.setPart_mpoison (s : State) (i : Nat) (p : Part) : (s.setPart i p).mpoison = s.mpoison := rfl
@[simp] theorem State.setPart_cores (s : State) (i : Nat) (p : Part) : (s.setPart i p).cores = s.cores := rfl
@[simp] theorem State.setPart_clusters (s : State) (i : Nat) (p : Part) : (s.setPart i p).clusters = s.clusters := rfl
@[simp] theorem State.setPart_dchans (s : State) (i : Nat) (p : Part) : (s.setPart i p).dchans = s.dchans := rfl
@[simp] theorem State.setPart_dmask (s : State) (i : Nat) (p : Part) : (s.setPart i p).dmask = s.dmask := rfl
@[simp] theorem State.setPart_dclus (s : State) (i : Nat) (p : Part) : (s.setPart i p).dclus = s.dclus := rfl
@[simp] theorem State.setPart_handles (s : State) (i : Nat) (p : Part) : (s.setPart i p).handles = s.handles := rfl
@[simp] theorem State.setPart_cmds (s : State) (i : Nat) (p : Part) : (s.setPart i p).cmds = s.cmds := rfl
@[simp] theorem State.setPart_wires (s : State) (i : Nat) (p : Part) : (s.setPart i p).wires = s.wires := rfl
@[simp] theorem State.setPart_launches (s : State) (i : Nat) (p : Part) : (s.setPart i p).launches = s.launches := rfl
@[simp] theorem State.setPart_holds (s : State) (i : Nat) (p : Part) : (s.setPart i p).holds = s.holds := rfl
@[simp] theorem State.setPart_tickets (s : State) (i : Nat) (p : Part) : (s.setPart i p).tickets = s.tickets := rfl
@[simp] theorem State.setPart_grans (s : State) (i : Nat) (p : Part) : (s.setPart i p).grans = s.grans := rfl
@[simp] theorem State.setPart_reds (s : State) (i : Nat) (p : Part) : (s.setPart i p).reds = s.reds := rfl
@[simp] theorem State.setPart_rankSlots (s : State) (i : Nat) (p : Part) : (s.setPart i p).rankSlots = s.rankSlots := rfl
@[simp] theorem State.setPart_hist (s : State) (i : Nat) (p : Part) : (s.setPart i p).hist = s.hist := rfl
@[simp] theorem State.setPart_pub (s : State) (i : Nat) (p : Part) : (s.setPart i p).pub = s.pub := rfl
@[simp] theorem State.setPart_hostPub (s : State) (i : Nat) (p : Part) : (s.setPart i p).hostPub = s.hostPub := rfl
@[simp] theorem State.setPart_conflicts (s : State) (i : Nat) (p : Part) : (s.setPart i p).conflicts = s.conflicts := rfl
@[simp] theorem State.setPart_serial (s : State) (i : Nat) (p : Part) : (s.setPart i p).serial = s.serial := rfl
@[simp] theorem State.setPart_owed (s : State) (i : Nat) (p : Part) : (s.setPart i p).owed = s.owed := rfl
@[simp] theorem State.setPart_parcels (s : State) (i : Nat) (p : Part) : (s.setPart i p).parcels = s.parcels := rfl
@[simp] theorem State.setPart_chains (s : State) (i : Nat) (p : Part) : (s.setPart i p).chains = s.chains := rfl
@[simp] theorem State.setPart_peers (s : State) (i : Nat) (p : Part) : (s.setPart i p).peers = s.peers := rfl
@[simp] theorem State.setPart_resv (s : State) (i : Nat) (p : Part) : (s.setPart i p).resv = s.resv := rfl
@[simp] theorem State.setPart_cells (s : State) (i : Nat) (p : Part) : (s.setPart i p).cells = s.cells := rfl
@[simp] theorem State.setPart_sent (s : State) (i : Nat) (p : Part) : (s.setPart i p).sent = s.sent := rfl
@[simp] theorem State.setPart_slots (s : State) (i : Nat) (p : Part) : (s.setPart i p).slots = s.slots := rfl
@[simp] theorem State.setPart_announced (s : State) (i : Nat) (p : Part) : (s.setPart i p).announced = s.announced := rfl
@[simp] theorem State.setPart_time (s : State) (i : Nat) (p : Part) : (s.setPart i p).time = s.time := rfl
@[simp] theorem State.setPart_locked (s : State) (i : Nat) (p : Part) : (s.setPart i p).locked = s.locked := rfl
@[simp] theorem State.setPart_good (s : State) (i : Nat) (p : Part) : (s.setPart i p).good = s.good := rfl
@[simp] theorem State.setPart_everLocked (s : State) (i : Nat) (p : Part) : (s.setPart i p).everLocked = s.everLocked := rfl
@[simp] theorem State.setPart_cfg (s : State) (i : Nat) (p : Part) : (s.setPart i p).cfg = s.cfg := rfl
@[simp] theorem State.setPart_flash (s : State) (i : Nat) (p : Part) : (s.setPart i p).flash = s.flash := rfl
@[simp] theorem State.setPart_incarn (s : State) (i : Nat) (p : Part) : (s.setPart i p).incarn = s.incarn := rfl
@[simp] theorem State.setPart_stored (s : State) (i : Nat) (p : Part) : (s.setPart i p).stored = s.stored := rfl
@[simp] theorem State.setPart_life (s : State) (i : Nat) (p : Part) : (s.setPart i p).life = s.life := rfl
@[simp] theorem State.setPart_lifeFlash (s : State) (i : Nat) (p : Part) : (s.setPart i p).lifeFlash = s.lifeFlash := rfl
@[simp] theorem State.setPart_sensors (s : State) (i : Nat) (p : Part) : (s.setPart i p).sensors = s.sensors := rfl
@[simp] theorem State.setPart_replies (s : State) (i : Nat) (p : Part) : (s.setPart i p).replies = s.replies := rfl
@[simp] theorem State.setPart_hostReplies (s : State) (i : Nat) (p : Part) : (s.setPart i p).hostReplies = s.hostReplies := rfl
@[simp] theorem State.setPart_powered (s : State) (i : Nat) (p : Part) : (s.setPart i p).powered = s.powered := rfl
@[simp] theorem State.setPart_agenda (s : State) (i : Nat) (p : Part) : (s.setPart i p).agenda = s.agenda := rfl
@[simp] theorem State.setPart_arg (s : State) (i : Nat) (p : Part) : (s.setPart i p).arg = s.arg := rfl
@[simp] theorem State.setPart_cur (s : State) (i : Nat) (p : Part) : (s.setPart i p).cur = s.cur := rfl
@[simp] theorem State.setPart_budget (s : State) (i : Nat) (p : Part) : (s.setPart i p).budget = s.budget := rfl
@[simp] theorem State.setPart_fresh (s : State) (i : Nat) (p : Part) : (s.setPart i p).fresh = s.fresh := rfl

/-! ### modPart -/

@[simp] theorem State.modPart_mem (s : State) (i : Nat) (f : Part → Part) : (s.modPart i f).mem = s.mem := rfl
@[simp] theorem State.modPart_mpoison (s : State) (i : Nat) (f : Part → Part) : (s.modPart i f).mpoison = s.mpoison := rfl
@[simp] theorem State.modPart_cores (s : State) (i : Nat) (f : Part → Part) : (s.modPart i f).cores = s.cores := rfl
@[simp] theorem State.modPart_clusters (s : State) (i : Nat) (f : Part → Part) : (s.modPart i f).clusters = s.clusters := rfl
@[simp] theorem State.modPart_dchans (s : State) (i : Nat) (f : Part → Part) : (s.modPart i f).dchans = s.dchans := rfl
@[simp] theorem State.modPart_dmask (s : State) (i : Nat) (f : Part → Part) : (s.modPart i f).dmask = s.dmask := rfl
@[simp] theorem State.modPart_dclus (s : State) (i : Nat) (f : Part → Part) : (s.modPart i f).dclus = s.dclus := rfl
@[simp] theorem State.modPart_handles (s : State) (i : Nat) (f : Part → Part) : (s.modPart i f).handles = s.handles := rfl
@[simp] theorem State.modPart_cmds (s : State) (i : Nat) (f : Part → Part) : (s.modPart i f).cmds = s.cmds := rfl
@[simp] theorem State.modPart_wires (s : State) (i : Nat) (f : Part → Part) : (s.modPart i f).wires = s.wires := rfl
@[simp] theorem State.modPart_launches (s : State) (i : Nat) (f : Part → Part) : (s.modPart i f).launches = s.launches := rfl
@[simp] theorem State.modPart_holds (s : State) (i : Nat) (f : Part → Part) : (s.modPart i f).holds = s.holds := rfl
@[simp] theorem State.modPart_tickets (s : State) (i : Nat) (f : Part → Part) : (s.modPart i f).tickets = s.tickets := rfl
@[simp] theorem State.modPart_grans (s : State) (i : Nat) (f : Part → Part) : (s.modPart i f).grans = s.grans := rfl
@[simp] theorem State.modPart_reds (s : State) (i : Nat) (f : Part → Part) : (s.modPart i f).reds = s.reds := rfl
@[simp] theorem State.modPart_rankSlots (s : State) (i : Nat) (f : Part → Part) : (s.modPart i f).rankSlots = s.rankSlots := rfl
@[simp] theorem State.modPart_hist (s : State) (i : Nat) (f : Part → Part) : (s.modPart i f).hist = s.hist := rfl
@[simp] theorem State.modPart_pub (s : State) (i : Nat) (f : Part → Part) : (s.modPart i f).pub = s.pub := rfl
@[simp] theorem State.modPart_hostPub (s : State) (i : Nat) (f : Part → Part) : (s.modPart i f).hostPub = s.hostPub := rfl
@[simp] theorem State.modPart_conflicts (s : State) (i : Nat) (f : Part → Part) : (s.modPart i f).conflicts = s.conflicts := rfl
@[simp] theorem State.modPart_serial (s : State) (i : Nat) (f : Part → Part) : (s.modPart i f).serial = s.serial := rfl
@[simp] theorem State.modPart_owed (s : State) (i : Nat) (f : Part → Part) : (s.modPart i f).owed = s.owed := rfl
@[simp] theorem State.modPart_parcels (s : State) (i : Nat) (f : Part → Part) : (s.modPart i f).parcels = s.parcels := rfl
@[simp] theorem State.modPart_chains (s : State) (i : Nat) (f : Part → Part) : (s.modPart i f).chains = s.chains := rfl
@[simp] theorem State.modPart_peers (s : State) (i : Nat) (f : Part → Part) : (s.modPart i f).peers = s.peers := rfl
@[simp] theorem State.modPart_resv (s : State) (i : Nat) (f : Part → Part) : (s.modPart i f).resv = s.resv := rfl
@[simp] theorem State.modPart_cells (s : State) (i : Nat) (f : Part → Part) : (s.modPart i f).cells = s.cells := rfl
@[simp] theorem State.modPart_sent (s : State) (i : Nat) (f : Part → Part) : (s.modPart i f).sent = s.sent := rfl
@[simp] theorem State.modPart_slots (s : State) (i : Nat) (f : Part → Part) : (s.modPart i f).slots = s.slots := rfl
@[simp] theorem State.modPart_announced (s : State) (i : Nat) (f : Part → Part) : (s.modPart i f).announced = s.announced := rfl
@[simp] theorem State.modPart_time (s : State) (i : Nat) (f : Part → Part) : (s.modPart i f).time = s.time := rfl
@[simp] theorem State.modPart_locked (s : State) (i : Nat) (f : Part → Part) : (s.modPart i f).locked = s.locked := rfl
@[simp] theorem State.modPart_good (s : State) (i : Nat) (f : Part → Part) : (s.modPart i f).good = s.good := rfl
@[simp] theorem State.modPart_everLocked (s : State) (i : Nat) (f : Part → Part) : (s.modPart i f).everLocked = s.everLocked := rfl
@[simp] theorem State.modPart_cfg (s : State) (i : Nat) (f : Part → Part) : (s.modPart i f).cfg = s.cfg := rfl
@[simp] theorem State.modPart_flash (s : State) (i : Nat) (f : Part → Part) : (s.modPart i f).flash = s.flash := rfl
@[simp] theorem State.modPart_incarn (s : State) (i : Nat) (f : Part → Part) : (s.modPart i f).incarn = s.incarn := rfl
@[simp] theorem State.modPart_stored (s : State) (i : Nat) (f : Part → Part) : (s.modPart i f).stored = s.stored := rfl
@[simp] theorem State.modPart_life (s : State) (i : Nat) (f : Part → Part) : (s.modPart i f).life = s.life := rfl
@[simp] theorem State.modPart_lifeFlash (s : State) (i : Nat) (f : Part → Part) : (s.modPart i f).lifeFlash = s.lifeFlash := rfl
@[simp] theorem State.modPart_sensors (s : State) (i : Nat) (f : Part → Part) : (s.modPart i f).sensors = s.sensors := rfl
@[simp] theorem State.modPart_replies (s : State) (i : Nat) (f : Part → Part) : (s.modPart i f).replies = s.replies := rfl
@[simp] theorem State.modPart_hostReplies (s : State) (i : Nat) (f : Part → Part) : (s.modPart i f).hostReplies = s.hostReplies := rfl
@[simp] theorem State.modPart_powered (s : State) (i : Nat) (f : Part → Part) : (s.modPart i f).powered = s.powered := rfl
@[simp] theorem State.modPart_agenda (s : State) (i : Nat) (f : Part → Part) : (s.modPart i f).agenda = s.agenda := rfl
@[simp] theorem State.modPart_arg (s : State) (i : Nat) (f : Part → Part) : (s.modPart i f).arg = s.arg := rfl
@[simp] theorem State.modPart_cur (s : State) (i : Nat) (f : Part → Part) : (s.modPart i f).cur = s.cur := rfl
@[simp] theorem State.modPart_budget (s : State) (i : Nat) (f : Part → Part) : (s.modPart i f).budget = s.budget := rfl
@[simp] theorem State.modPart_fresh (s : State) (i : Nat) (f : Part → Part) : (s.modPart i f).fresh = s.fresh := rfl

/-! ### setLaunch -/

@[simp] theorem State.setLaunch_mem (s : State) (l : Launch) : (s.setLaunch l).mem = s.mem := rfl
@[simp] theorem State.setLaunch_mpoison (s : State) (l : Launch) : (s.setLaunch l).mpoison = s.mpoison := rfl
@[simp] theorem State.setLaunch_cores (s : State) (l : Launch) : (s.setLaunch l).cores = s.cores := rfl
@[simp] theorem State.setLaunch_clusters (s : State) (l : Launch) : (s.setLaunch l).clusters = s.clusters := rfl
@[simp] theorem State.setLaunch_dchans (s : State) (l : Launch) : (s.setLaunch l).dchans = s.dchans := rfl
@[simp] theorem State.setLaunch_dmask (s : State) (l : Launch) : (s.setLaunch l).dmask = s.dmask := rfl
@[simp] theorem State.setLaunch_dclus (s : State) (l : Launch) : (s.setLaunch l).dclus = s.dclus := rfl
@[simp] theorem State.setLaunch_handles (s : State) (l : Launch) : (s.setLaunch l).handles = s.handles := rfl
@[simp] theorem State.setLaunch_cmds (s : State) (l : Launch) : (s.setLaunch l).cmds = s.cmds := rfl
@[simp] theorem State.setLaunch_wires (s : State) (l : Launch) : (s.setLaunch l).wires = s.wires := rfl
@[simp] theorem State.setLaunch_parts (s : State) (l : Launch) : (s.setLaunch l).parts = s.parts := rfl
@[simp] theorem State.setLaunch_holds (s : State) (l : Launch) : (s.setLaunch l).holds = s.holds := rfl
@[simp] theorem State.setLaunch_tickets (s : State) (l : Launch) : (s.setLaunch l).tickets = s.tickets := rfl
@[simp] theorem State.setLaunch_grans (s : State) (l : Launch) : (s.setLaunch l).grans = s.grans := rfl
@[simp] theorem State.setLaunch_reds (s : State) (l : Launch) : (s.setLaunch l).reds = s.reds := rfl
@[simp] theorem State.setLaunch_rankSlots (s : State) (l : Launch) : (s.setLaunch l).rankSlots = s.rankSlots := rfl
@[simp] theorem State.setLaunch_hist (s : State) (l : Launch) : (s.setLaunch l).hist = s.hist := rfl
@[simp] theorem State.setLaunch_pub (s : State) (l : Launch) : (s.setLaunch l).pub = s.pub := rfl
@[simp] theorem State.setLaunch_hostPub (s : State) (l : Launch) : (s.setLaunch l).hostPub = s.hostPub := rfl
@[simp] theorem State.setLaunch_conflicts (s : State) (l : Launch) : (s.setLaunch l).conflicts = s.conflicts := rfl
@[simp] theorem State.setLaunch_serial (s : State) (l : Launch) : (s.setLaunch l).serial = s.serial := rfl
@[simp] theorem State.setLaunch_owed (s : State) (l : Launch) : (s.setLaunch l).owed = s.owed := rfl
@[simp] theorem State.setLaunch_parcels (s : State) (l : Launch) : (s.setLaunch l).parcels = s.parcels := rfl
@[simp] theorem State.setLaunch_chains (s : State) (l : Launch) : (s.setLaunch l).chains = s.chains := rfl
@[simp] theorem State.setLaunch_peers (s : State) (l : Launch) : (s.setLaunch l).peers = s.peers := rfl
@[simp] theorem State.setLaunch_resv (s : State) (l : Launch) : (s.setLaunch l).resv = s.resv := rfl
@[simp] theorem State.setLaunch_cells (s : State) (l : Launch) : (s.setLaunch l).cells = s.cells := rfl
@[simp] theorem State.setLaunch_sent (s : State) (l : Launch) : (s.setLaunch l).sent = s.sent := rfl
@[simp] theorem State.setLaunch_slots (s : State) (l : Launch) : (s.setLaunch l).slots = s.slots := rfl
@[simp] theorem State.setLaunch_announced (s : State) (l : Launch) : (s.setLaunch l).announced = s.announced := rfl
@[simp] theorem State.setLaunch_time (s : State) (l : Launch) : (s.setLaunch l).time = s.time := rfl
@[simp] theorem State.setLaunch_locked (s : State) (l : Launch) : (s.setLaunch l).locked = s.locked := rfl
@[simp] theorem State.setLaunch_good (s : State) (l : Launch) : (s.setLaunch l).good = s.good := rfl
@[simp] theorem State.setLaunch_everLocked (s : State) (l : Launch) : (s.setLaunch l).everLocked = s.everLocked := rfl
@[simp] theorem State.setLaunch_cfg (s : State) (l : Launch) : (s.setLaunch l).cfg = s.cfg := rfl
@[simp] theorem State.setLaunch_flash (s : State) (l : Launch) : (s.setLaunch l).flash = s.flash := rfl
@[simp] theorem State.setLaunch_incarn (s : State) (l : Launch) : (s.setLaunch l).incarn = s.incarn := rfl
@[simp] theorem State.setLaunch_stored (s : State) (l : Launch) : (s.setLaunch l).stored = s.stored := rfl
@[simp] theorem State.setLaunch_life (s : State) (l : Launch) : (s.setLaunch l).life = s.life := rfl
@[simp] theorem State.setLaunch_lifeFlash (s : State) (l : Launch) : (s.setLaunch l).lifeFlash = s.lifeFlash := rfl
@[simp] theorem State.setLaunch_sensors (s : State) (l : Launch) : (s.setLaunch l).sensors = s.sensors := rfl
@[simp] theorem State.setLaunch_replies (s : State) (l : Launch) : (s.setLaunch l).replies = s.replies := rfl
@[simp] theorem State.setLaunch_hostReplies (s : State) (l : Launch) : (s.setLaunch l).hostReplies = s.hostReplies := rfl
@[simp] theorem State.setLaunch_powered (s : State) (l : Launch) : (s.setLaunch l).powered = s.powered := rfl
@[simp] theorem State.setLaunch_agenda (s : State) (l : Launch) : (s.setLaunch l).agenda = s.agenda := rfl
@[simp] theorem State.setLaunch_arg (s : State) (l : Launch) : (s.setLaunch l).arg = s.arg := rfl
@[simp] theorem State.setLaunch_cur (s : State) (l : Launch) : (s.setLaunch l).cur = s.cur := rfl
@[simp] theorem State.setLaunch_budget (s : State) (l : Launch) : (s.setLaunch l).budget = s.budget := rfl
@[simp] theorem State.setLaunch_fresh (s : State) (l : Launch) : (s.setLaunch l).fresh = s.fresh := rfl

/-! ### setCmd -/

@[simp] theorem State.setCmd_mem (s : State) (c : Cmd) : (s.setCmd c).mem = s.mem := rfl
@[simp] theorem State.setCmd_mpoison (s : State) (c : Cmd) : (s.setCmd c).mpoison = s.mpoison := rfl
@[simp] theorem State.setCmd_cores (s : State) (c : Cmd) : (s.setCmd c).cores = s.cores := rfl
@[simp] theorem State.setCmd_clusters (s : State) (c : Cmd) : (s.setCmd c).clusters = s.clusters := rfl
@[simp] theorem State.setCmd_dchans (s : State) (c : Cmd) : (s.setCmd c).dchans = s.dchans := rfl
@[simp] theorem State.setCmd_dmask (s : State) (c : Cmd) : (s.setCmd c).dmask = s.dmask := rfl
@[simp] theorem State.setCmd_dclus (s : State) (c : Cmd) : (s.setCmd c).dclus = s.dclus := rfl
@[simp] theorem State.setCmd_handles (s : State) (c : Cmd) : (s.setCmd c).handles = s.handles := rfl
@[simp] theorem State.setCmd_wires (s : State) (c : Cmd) : (s.setCmd c).wires = s.wires := rfl
@[simp] theorem State.setCmd_launches (s : State) (c : Cmd) : (s.setCmd c).launches = s.launches := rfl
@[simp] theorem State.setCmd_parts (s : State) (c : Cmd) : (s.setCmd c).parts = s.parts := rfl
@[simp] theorem State.setCmd_holds (s : State) (c : Cmd) : (s.setCmd c).holds = s.holds := rfl
@[simp] theorem State.setCmd_tickets (s : State) (c : Cmd) : (s.setCmd c).tickets = s.tickets := rfl
@[simp] theorem State.setCmd_grans (s : State) (c : Cmd) : (s.setCmd c).grans = s.grans := rfl
@[simp] theorem State.setCmd_reds (s : State) (c : Cmd) : (s.setCmd c).reds = s.reds := rfl
@[simp] theorem State.setCmd_rankSlots (s : State) (c : Cmd) : (s.setCmd c).rankSlots = s.rankSlots := rfl
@[simp] theorem State.setCmd_hist (s : State) (c : Cmd) : (s.setCmd c).hist = s.hist := rfl
@[simp] theorem State.setCmd_pub (s : State) (c : Cmd) : (s.setCmd c).pub = s.pub := rfl
@[simp] theorem State.setCmd_hostPub (s : State) (c : Cmd) : (s.setCmd c).hostPub = s.hostPub := rfl
@[simp] theorem State.setCmd_conflicts (s : State) (c : Cmd) : (s.setCmd c).conflicts = s.conflicts := rfl
@[simp] theorem State.setCmd_serial (s : State) (c : Cmd) : (s.setCmd c).serial = s.serial := rfl
@[simp] theorem State.setCmd_owed (s : State) (c : Cmd) : (s.setCmd c).owed = s.owed := rfl
@[simp] theorem State.setCmd_parcels (s : State) (c : Cmd) : (s.setCmd c).parcels = s.parcels := rfl
@[simp] theorem State.setCmd_chains (s : State) (c : Cmd) : (s.setCmd c).chains = s.chains := rfl
@[simp] theorem State.setCmd_peers (s : State) (c : Cmd) : (s.setCmd c).peers = s.peers := rfl
@[simp] theorem State.setCmd_resv (s : State) (c : Cmd) : (s.setCmd c).resv = s.resv := rfl
@[simp] theorem State.setCmd_cells (s : State) (c : Cmd) : (s.setCmd c).cells = s.cells := rfl
@[simp] theorem State.setCmd_sent (s : State) (c : Cmd) : (s.setCmd c).sent = s.sent := rfl
@[simp] theorem State.setCmd_slots (s : State) (c : Cmd) : (s.setCmd c).slots = s.slots := rfl
@[simp] theorem State.setCmd_announced (s : State) (c : Cmd) : (s.setCmd c).announced = s.announced := rfl
@[simp] theorem State.setCmd_time (s : State) (c : Cmd) : (s.setCmd c).time = s.time := rfl
@[simp] theorem State.setCmd_locked (s : State) (c : Cmd) : (s.setCmd c).locked = s.locked := rfl
@[simp] theorem State.setCmd_good (s : State) (c : Cmd) : (s.setCmd c).good = s.good := rfl
@[simp] theorem State.setCmd_everLocked (s : State) (c : Cmd) : (s.setCmd c).everLocked = s.everLocked := rfl
@[simp] theorem State.setCmd_cfg (s : State) (c : Cmd) : (s.setCmd c).cfg = s.cfg := rfl
@[simp] theorem State.setCmd_flash (s : State) (c : Cmd) : (s.setCmd c).flash = s.flash := rfl
@[simp] theorem State.setCmd_incarn (s : State) (c : Cmd) : (s.setCmd c).incarn = s.incarn := rfl
@[simp] theorem State.setCmd_stored (s : State) (c : Cmd) : (s.setCmd c).stored = s.stored := rfl
@[simp] theorem State.setCmd_life (s : State) (c : Cmd) : (s.setCmd c).life = s.life := rfl
@[simp] theorem State.setCmd_lifeFlash (s : State) (c : Cmd) : (s.setCmd c).lifeFlash = s.lifeFlash := rfl
@[simp] theorem State.setCmd_sensors (s : State) (c : Cmd) : (s.setCmd c).sensors = s.sensors := rfl
@[simp] theorem State.setCmd_replies (s : State) (c : Cmd) : (s.setCmd c).replies = s.replies := rfl
@[simp] theorem State.setCmd_hostReplies (s : State) (c : Cmd) : (s.setCmd c).hostReplies = s.hostReplies := rfl
@[simp] theorem State.setCmd_powered (s : State) (c : Cmd) : (s.setCmd c).powered = s.powered := rfl
@[simp] theorem State.setCmd_agenda (s : State) (c : Cmd) : (s.setCmd c).agenda = s.agenda := rfl
@[simp] theorem State.setCmd_arg (s : State) (c : Cmd) : (s.setCmd c).arg = s.arg := rfl
@[simp] theorem State.setCmd_cur (s : State) (c : Cmd) : (s.setCmd c).cur = s.cur := rfl
@[simp] theorem State.setCmd_budget (s : State) (c : Cmd) : (s.setCmd c).budget = s.budget := rfl
@[simp] theorem State.setCmd_fresh (s : State) (c : Cmd) : (s.setCmd c).fresh = s.fresh := rfl

/-! ### tick -/

@[simp] theorem State.tick_mem (s : State) : (s.tick).mem = s.mem := rfl
@[simp] theorem State.tick_mpoison (s : State) : (s.tick).mpoison = s.mpoison := rfl
@[simp] theorem State.tick_cores (s : State) : (s.tick).cores = s.cores := rfl
@[simp] theorem State.tick_clusters (s : State) : (s.tick).clusters = s.clusters := rfl
@[simp] theorem State.tick_dchans (s : State) : (s.tick).dchans = s.dchans := rfl
@[simp] theorem State.tick_dmask (s : State) : (s.tick).dmask = s.dmask := rfl
@[simp] theorem State.tick_dclus (s : State) : (s.tick).dclus = s.dclus := rfl
@[simp] theorem State.tick_handles (s : State) : (s.tick).handles = s.handles := rfl
@[simp] theorem State.tick_cmds (s : State) : (s.tick).cmds = s.cmds := rfl
@[simp] theorem State.tick_wires (s : State) : (s.tick).wires = s.wires := rfl
@[simp] theorem State.tick_launches (s : State) : (s.tick).launches = s.launches := rfl
@[simp] theorem State.tick_parts (s : State) : (s.tick).parts = s.parts := rfl
@[simp] theorem State.tick_holds (s : State) : (s.tick).holds = s.holds := rfl
@[simp] theorem State.tick_tickets (s : State) : (s.tick).tickets = s.tickets := rfl
@[simp] theorem State.tick_grans (s : State) : (s.tick).grans = s.grans := rfl
@[simp] theorem State.tick_reds (s : State) : (s.tick).reds = s.reds := rfl
@[simp] theorem State.tick_rankSlots (s : State) : (s.tick).rankSlots = s.rankSlots := rfl
@[simp] theorem State.tick_hist (s : State) : (s.tick).hist = s.hist := rfl
@[simp] theorem State.tick_pub (s : State) : (s.tick).pub = s.pub := rfl
@[simp] theorem State.tick_hostPub (s : State) : (s.tick).hostPub = s.hostPub := rfl
@[simp] theorem State.tick_conflicts (s : State) : (s.tick).conflicts = s.conflicts := rfl
@[simp] theorem State.tick_owed (s : State) : (s.tick).owed = s.owed := rfl
@[simp] theorem State.tick_parcels (s : State) : (s.tick).parcels = s.parcels := rfl
@[simp] theorem State.tick_chains (s : State) : (s.tick).chains = s.chains := rfl
@[simp] theorem State.tick_peers (s : State) : (s.tick).peers = s.peers := rfl
@[simp] theorem State.tick_resv (s : State) : (s.tick).resv = s.resv := rfl
@[simp] theorem State.tick_cells (s : State) : (s.tick).cells = s.cells := rfl
@[simp] theorem State.tick_sent (s : State) : (s.tick).sent = s.sent := rfl
@[simp] theorem State.tick_slots (s : State) : (s.tick).slots = s.slots := rfl
@[simp] theorem State.tick_announced (s : State) : (s.tick).announced = s.announced := rfl
@[simp] theorem State.tick_time (s : State) : (s.tick).time = s.time := rfl
@[simp] theorem State.tick_locked (s : State) : (s.tick).locked = s.locked := rfl
@[simp] theorem State.tick_good (s : State) : (s.tick).good = s.good := rfl
@[simp] theorem State.tick_everLocked (s : State) : (s.tick).everLocked = s.everLocked := rfl
@[simp] theorem State.tick_cfg (s : State) : (s.tick).cfg = s.cfg := rfl
@[simp] theorem State.tick_flash (s : State) : (s.tick).flash = s.flash := rfl
@[simp] theorem State.tick_incarn (s : State) : (s.tick).incarn = s.incarn := rfl
@[simp] theorem State.tick_stored (s : State) : (s.tick).stored = s.stored := rfl
@[simp] theorem State.tick_life (s : State) : (s.tick).life = s.life := rfl
@[simp] theorem State.tick_lifeFlash (s : State) : (s.tick).lifeFlash = s.lifeFlash := rfl
@[simp] theorem State.tick_sensors (s : State) : (s.tick).sensors = s.sensors := rfl
@[simp] theorem State.tick_replies (s : State) : (s.tick).replies = s.replies := rfl
@[simp] theorem State.tick_hostReplies (s : State) : (s.tick).hostReplies = s.hostReplies := rfl
@[simp] theorem State.tick_powered (s : State) : (s.tick).powered = s.powered := rfl
@[simp] theorem State.tick_agenda (s : State) : (s.tick).agenda = s.agenda := rfl
@[simp] theorem State.tick_arg (s : State) : (s.tick).arg = s.arg := rfl
@[simp] theorem State.tick_cur (s : State) : (s.tick).cur = s.cur := rfl
@[simp] theorem State.tick_budget (s : State) : (s.tick).budget = s.budget := rfl
@[simp] theorem State.tick_fresh (s : State) : (s.tick).fresh = s.fresh := rfl

/-! ### draw -/

@[simp] theorem State.draw_mem (s : State) : (s.draw).mem = s.mem := rfl
@[simp] theorem State.draw_mpoison (s : State) : (s.draw).mpoison = s.mpoison := rfl
@[simp] theorem State.draw_cores (s : State) : (s.draw).cores = s.cores := rfl
@[simp] theorem State.draw_clusters (s : State) : (s.draw).clusters = s.clusters := rfl
@[simp] theorem State.draw_dchans (s : State) : (s.draw).dchans = s.dchans := rfl
@[simp] theorem State.draw_dmask (s : State) : (s.draw).dmask = s.dmask := rfl
@[simp] theorem State.draw_dclus (s : State) : (s.draw).dclus = s.dclus := rfl
@[simp] theorem State.draw_handles (s : State) : (s.draw).handles = s.handles := rfl
@[simp] theorem State.draw_cmds (s : State) : (s.draw).cmds = s.cmds := rfl
@[simp] theorem State.draw_wires (s : State) : (s.draw).wires = s.wires := rfl
@[simp] theorem State.draw_launches (s : State) : (s.draw).launches = s.launches := rfl
@[simp] theorem State.draw_parts (s : State) : (s.draw).parts = s.parts := rfl
@[simp] theorem State.draw_holds (s : State) : (s.draw).holds = s.holds := rfl
@[simp] theorem State.draw_tickets (s : State) : (s.draw).tickets = s.tickets := rfl
@[simp] theorem State.draw_grans (s : State) : (s.draw).grans = s.grans := rfl
@[simp] theorem State.draw_reds (s : State) : (s.draw).reds = s.reds := rfl
@[simp] theorem State.draw_rankSlots (s : State) : (s.draw).rankSlots = s.rankSlots := rfl
@[simp] theorem State.draw_hist (s : State) : (s.draw).hist = s.hist := rfl
@[simp] theorem State.draw_pub (s : State) : (s.draw).pub = s.pub := rfl
@[simp] theorem State.draw_hostPub (s : State) : (s.draw).hostPub = s.hostPub := rfl
@[simp] theorem State.draw_conflicts (s : State) : (s.draw).conflicts = s.conflicts := rfl
@[simp] theorem State.draw_serial (s : State) : (s.draw).serial = s.serial := rfl
@[simp] theorem State.draw_owed (s : State) : (s.draw).owed = s.owed := rfl
@[simp] theorem State.draw_parcels (s : State) : (s.draw).parcels = s.parcels := rfl
@[simp] theorem State.draw_chains (s : State) : (s.draw).chains = s.chains := rfl
@[simp] theorem State.draw_peers (s : State) : (s.draw).peers = s.peers := rfl
@[simp] theorem State.draw_resv (s : State) : (s.draw).resv = s.resv := rfl
@[simp] theorem State.draw_cells (s : State) : (s.draw).cells = s.cells := rfl
@[simp] theorem State.draw_sent (s : State) : (s.draw).sent = s.sent := rfl
@[simp] theorem State.draw_slots (s : State) : (s.draw).slots = s.slots := rfl
@[simp] theorem State.draw_announced (s : State) : (s.draw).announced = s.announced := rfl
@[simp] theorem State.draw_time (s : State) : (s.draw).time = s.time := rfl
@[simp] theorem State.draw_locked (s : State) : (s.draw).locked = s.locked := rfl
@[simp] theorem State.draw_good (s : State) : (s.draw).good = s.good := rfl
@[simp] theorem State.draw_everLocked (s : State) : (s.draw).everLocked = s.everLocked := rfl
@[simp] theorem State.draw_cfg (s : State) : (s.draw).cfg = s.cfg := rfl
@[simp] theorem State.draw_flash (s : State) : (s.draw).flash = s.flash := rfl
@[simp] theorem State.draw_incarn (s : State) : (s.draw).incarn = s.incarn := rfl
@[simp] theorem State.draw_stored (s : State) : (s.draw).stored = s.stored := rfl
@[simp] theorem State.draw_life (s : State) : (s.draw).life = s.life := rfl
@[simp] theorem State.draw_lifeFlash (s : State) : (s.draw).lifeFlash = s.lifeFlash := rfl
@[simp] theorem State.draw_sensors (s : State) : (s.draw).sensors = s.sensors := rfl
@[simp] theorem State.draw_replies (s : State) : (s.draw).replies = s.replies := rfl
@[simp] theorem State.draw_hostReplies (s : State) : (s.draw).hostReplies = s.hostReplies := rfl
@[simp] theorem State.draw_powered (s : State) : (s.draw).powered = s.powered := rfl
@[simp] theorem State.draw_agenda (s : State) : (s.draw).agenda = s.agenda := rfl
@[simp] theorem State.draw_arg (s : State) : (s.draw).arg = s.arg := rfl
@[simp] theorem State.draw_cur (s : State) : (s.draw).cur = s.cur := rfl
@[simp] theorem State.draw_budget (s : State) : (s.draw).budget = s.budget := rfl

/-! ### write -/

@[simp] theorem State.write_cores (s : State) (l : List (Nat × Byte)) : (s.write l).cores = s.cores := rfl
@[simp] theorem State.write_clusters (s : State) (l : List (Nat × Byte)) : (s.write l).clusters = s.clusters := rfl
@[simp] theorem State.write_dchans (s : State) (l : List (Nat × Byte)) : (s.write l).dchans = s.dchans := rfl
@[simp] theorem State.write_dmask (s : State) (l : List (Nat × Byte)) : (s.write l).dmask = s.dmask := rfl
@[simp] theorem State.write_dclus (s : State) (l : List (Nat × Byte)) : (s.write l).dclus = s.dclus := rfl
@[simp] theorem State.write_handles (s : State) (l : List (Nat × Byte)) : (s.write l).handles = s.handles := rfl
@[simp] theorem State.write_cmds (s : State) (l : List (Nat × Byte)) : (s.write l).cmds = s.cmds := rfl
@[simp] theorem State.write_wires (s : State) (l : List (Nat × Byte)) : (s.write l).wires = s.wires := rfl
@[simp] theorem State.write_launches (s : State) (l : List (Nat × Byte)) : (s.write l).launches = s.launches := rfl
@[simp] theorem State.write_parts (s : State) (l : List (Nat × Byte)) : (s.write l).parts = s.parts := rfl
@[simp] theorem State.write_holds (s : State) (l : List (Nat × Byte)) : (s.write l).holds = s.holds := rfl
@[simp] theorem State.write_tickets (s : State) (l : List (Nat × Byte)) : (s.write l).tickets = s.tickets := rfl
@[simp] theorem State.write_grans (s : State) (l : List (Nat × Byte)) : (s.write l).grans = s.grans := rfl
@[simp] theorem State.write_reds (s : State) (l : List (Nat × Byte)) : (s.write l).reds = s.reds := rfl
@[simp] theorem State.write_rankSlots (s : State) (l : List (Nat × Byte)) : (s.write l).rankSlots = s.rankSlots := rfl
@[simp] theorem State.write_pub (s : State) (l : List (Nat × Byte)) : (s.write l).pub = s.pub := rfl
@[simp] theorem State.write_hostPub (s : State) (l : List (Nat × Byte)) : (s.write l).hostPub = s.hostPub := rfl
@[simp] theorem State.write_conflicts (s : State) (l : List (Nat × Byte)) : (s.write l).conflicts = s.conflicts := rfl
@[simp] theorem State.write_serial (s : State) (l : List (Nat × Byte)) : (s.write l).serial = s.serial := rfl
@[simp] theorem State.write_owed (s : State) (l : List (Nat × Byte)) : (s.write l).owed = s.owed := rfl
@[simp] theorem State.write_parcels (s : State) (l : List (Nat × Byte)) : (s.write l).parcels = s.parcels := rfl
@[simp] theorem State.write_chains (s : State) (l : List (Nat × Byte)) : (s.write l).chains = s.chains := rfl
@[simp] theorem State.write_peers (s : State) (l : List (Nat × Byte)) : (s.write l).peers = s.peers := rfl
@[simp] theorem State.write_resv (s : State) (l : List (Nat × Byte)) : (s.write l).resv = s.resv := rfl
@[simp] theorem State.write_cells (s : State) (l : List (Nat × Byte)) : (s.write l).cells = s.cells := rfl
@[simp] theorem State.write_sent (s : State) (l : List (Nat × Byte)) : (s.write l).sent = s.sent := rfl
@[simp] theorem State.write_slots (s : State) (l : List (Nat × Byte)) : (s.write l).slots = s.slots := rfl
@[simp] theorem State.write_announced (s : State) (l : List (Nat × Byte)) : (s.write l).announced = s.announced := rfl
@[simp] theorem State.write_time (s : State) (l : List (Nat × Byte)) : (s.write l).time = s.time := rfl
@[simp] theorem State.write_locked (s : State) (l : List (Nat × Byte)) : (s.write l).locked = s.locked := rfl
@[simp] theorem State.write_good (s : State) (l : List (Nat × Byte)) : (s.write l).good = s.good := rfl
@[simp] theorem State.write_everLocked (s : State) (l : List (Nat × Byte)) : (s.write l).everLocked = s.everLocked := rfl
@[simp] theorem State.write_cfg (s : State) (l : List (Nat × Byte)) : (s.write l).cfg = s.cfg := rfl
@[simp] theorem State.write_flash (s : State) (l : List (Nat × Byte)) : (s.write l).flash = s.flash := rfl
@[simp] theorem State.write_incarn (s : State) (l : List (Nat × Byte)) : (s.write l).incarn = s.incarn := rfl
@[simp] theorem State.write_stored (s : State) (l : List (Nat × Byte)) : (s.write l).stored = s.stored := rfl
@[simp] theorem State.write_life (s : State) (l : List (Nat × Byte)) : (s.write l).life = s.life := rfl
@[simp] theorem State.write_lifeFlash (s : State) (l : List (Nat × Byte)) : (s.write l).lifeFlash = s.lifeFlash := rfl
@[simp] theorem State.write_sensors (s : State) (l : List (Nat × Byte)) : (s.write l).sensors = s.sensors := rfl
@[simp] theorem State.write_replies (s : State) (l : List (Nat × Byte)) : (s.write l).replies = s.replies := rfl
@[simp] theorem State.write_hostReplies (s : State) (l : List (Nat × Byte)) : (s.write l).hostReplies = s.hostReplies := rfl
@[simp] theorem State.write_powered (s : State) (l : List (Nat × Byte)) : (s.write l).powered = s.powered := rfl
@[simp] theorem State.write_agenda (s : State) (l : List (Nat × Byte)) : (s.write l).agenda = s.agenda := rfl
@[simp] theorem State.write_arg (s : State) (l : List (Nat × Byte)) : (s.write l).arg = s.arg := rfl
@[simp] theorem State.write_cur (s : State) (l : List (Nat × Byte)) : (s.write l).cur = s.cur := rfl
@[simp] theorem State.write_budget (s : State) (l : List (Nat × Byte)) : (s.write l).budget = s.budget := rfl
@[simp] theorem State.write_fresh (s : State) (l : List (Nat × Byte)) : (s.write l).fresh = s.fresh := rfl

/-! ### wr -/

@[simp] theorem State.wr_cores (s : State) (a n x : Nat) : (s.wr a n x).cores = s.cores := rfl
@[simp] theorem State.wr_clusters (s : State) (a n x : Nat) : (s.wr a n x).clusters = s.clusters := rfl
@[simp] theorem State.wr_dchans (s : State) (a n x : Nat) : (s.wr a n x).dchans = s.dchans := rfl
@[simp] theorem State.wr_dmask (s : State) (a n x : Nat) : (s.wr a n x).dmask = s.dmask := rfl
@[simp] theorem State.wr_dclus (s : State) (a n x : Nat) : (s.wr a n x).dclus = s.dclus := rfl
@[simp] theorem State.wr_handles (s : State) (a n x : Nat) : (s.wr a n x).handles = s.handles := rfl
@[simp] theorem State.wr_cmds (s : State) (a n x : Nat) : (s.wr a n x).cmds = s.cmds := rfl
@[simp] theorem State.wr_wires (s : State) (a n x : Nat) : (s.wr a n x).wires = s.wires := rfl
@[simp] theorem State.wr_launches (s : State) (a n x : Nat) : (s.wr a n x).launches = s.launches := rfl
@[simp] theorem State.wr_parts (s : State) (a n x : Nat) : (s.wr a n x).parts = s.parts := rfl
@[simp] theorem State.wr_holds (s : State) (a n x : Nat) : (s.wr a n x).holds = s.holds := rfl
@[simp] theorem State.wr_tickets (s : State) (a n x : Nat) : (s.wr a n x).tickets = s.tickets := rfl
@[simp] theorem State.wr_grans (s : State) (a n x : Nat) : (s.wr a n x).grans = s.grans := rfl
@[simp] theorem State.wr_reds (s : State) (a n x : Nat) : (s.wr a n x).reds = s.reds := rfl
@[simp] theorem State.wr_rankSlots (s : State) (a n x : Nat) : (s.wr a n x).rankSlots = s.rankSlots := rfl
@[simp] theorem State.wr_pub (s : State) (a n x : Nat) : (s.wr a n x).pub = s.pub := rfl
@[simp] theorem State.wr_hostPub (s : State) (a n x : Nat) : (s.wr a n x).hostPub = s.hostPub := rfl
@[simp] theorem State.wr_conflicts (s : State) (a n x : Nat) : (s.wr a n x).conflicts = s.conflicts := rfl
@[simp] theorem State.wr_serial (s : State) (a n x : Nat) : (s.wr a n x).serial = s.serial := rfl
@[simp] theorem State.wr_owed (s : State) (a n x : Nat) : (s.wr a n x).owed = s.owed := rfl
@[simp] theorem State.wr_parcels (s : State) (a n x : Nat) : (s.wr a n x).parcels = s.parcels := rfl
@[simp] theorem State.wr_chains (s : State) (a n x : Nat) : (s.wr a n x).chains = s.chains := rfl
@[simp] theorem State.wr_peers (s : State) (a n x : Nat) : (s.wr a n x).peers = s.peers := rfl
@[simp] theorem State.wr_resv (s : State) (a n x : Nat) : (s.wr a n x).resv = s.resv := rfl
@[simp] theorem State.wr_cells (s : State) (a n x : Nat) : (s.wr a n x).cells = s.cells := rfl
@[simp] theorem State.wr_sent (s : State) (a n x : Nat) : (s.wr a n x).sent = s.sent := rfl
@[simp] theorem State.wr_slots (s : State) (a n x : Nat) : (s.wr a n x).slots = s.slots := rfl
@[simp] theorem State.wr_announced (s : State) (a n x : Nat) : (s.wr a n x).announced = s.announced := rfl
@[simp] theorem State.wr_time (s : State) (a n x : Nat) : (s.wr a n x).time = s.time := rfl
@[simp] theorem State.wr_locked (s : State) (a n x : Nat) : (s.wr a n x).locked = s.locked := rfl
@[simp] theorem State.wr_good (s : State) (a n x : Nat) : (s.wr a n x).good = s.good := rfl
@[simp] theorem State.wr_everLocked (s : State) (a n x : Nat) : (s.wr a n x).everLocked = s.everLocked := rfl
@[simp] theorem State.wr_cfg (s : State) (a n x : Nat) : (s.wr a n x).cfg = s.cfg := rfl
@[simp] theorem State.wr_flash (s : State) (a n x : Nat) : (s.wr a n x).flash = s.flash := rfl
@[simp] theorem State.wr_incarn (s : State) (a n x : Nat) : (s.wr a n x).incarn = s.incarn := rfl
@[simp] theorem State.wr_stored (s : State) (a n x : Nat) : (s.wr a n x).stored = s.stored := rfl
@[simp] theorem State.wr_life (s : State) (a n x : Nat) : (s.wr a n x).life = s.life := rfl
@[simp] theorem State.wr_lifeFlash (s : State) (a n x : Nat) : (s.wr a n x).lifeFlash = s.lifeFlash := rfl
@[simp] theorem State.wr_sensors (s : State) (a n x : Nat) : (s.wr a n x).sensors = s.sensors := rfl
@[simp] theorem State.wr_replies (s : State) (a n x : Nat) : (s.wr a n x).replies = s.replies := rfl
@[simp] theorem State.wr_hostReplies (s : State) (a n x : Nat) : (s.wr a n x).hostReplies = s.hostReplies := rfl
@[simp] theorem State.wr_powered (s : State) (a n x : Nat) : (s.wr a n x).powered = s.powered := rfl
@[simp] theorem State.wr_agenda (s : State) (a n x : Nat) : (s.wr a n x).agenda = s.agenda := rfl
@[simp] theorem State.wr_arg (s : State) (a n x : Nat) : (s.wr a n x).arg = s.arg := rfl
@[simp] theorem State.wr_cur (s : State) (a n x : Nat) : (s.wr a n x).cur = s.cur := rfl
@[simp] theorem State.wr_budget (s : State) (a n x : Nat) : (s.wr a n x).budget = s.budget := rfl
@[simp] theorem State.wr_fresh (s : State) (a n x : Nat) : (s.wr a n x).fresh = s.fresh := rfl

/-! ### writeBy -/

@[simp] theorem State.writeBy_cores (s : State) (w g : Nat) (l : List (Nat × Byte)) : (s.writeBy w g l).cores = s.cores := rfl
@[simp] theorem State.writeBy_clusters (s : State) (w g : Nat) (l : List (Nat × Byte)) : (s.writeBy w g l).clusters = s.clusters := rfl
@[simp] theorem State.writeBy_dchans (s : State) (w g : Nat) (l : List (Nat × Byte)) : (s.writeBy w g l).dchans = s.dchans := rfl
@[simp] theorem State.writeBy_dmask (s : State) (w g : Nat) (l : List (Nat × Byte)) : (s.writeBy w g l).dmask = s.dmask := rfl
@[simp] theorem State.writeBy_dclus (s : State) (w g : Nat) (l : List (Nat × Byte)) : (s.writeBy w g l).dclus = s.dclus := rfl
@[simp] theorem State.writeBy_handles (s : State) (w g : Nat) (l : List (Nat × Byte)) : (s.writeBy w g l).handles = s.handles := rfl
@[simp] theorem State.writeBy_cmds (s : State) (w g : Nat) (l : List (Nat × Byte)) : (s.writeBy w g l).cmds = s.cmds := rfl
@[simp] theorem State.writeBy_wires (s : State) (w g : Nat) (l : List (Nat × Byte)) : (s.writeBy w g l).wires = s.wires := rfl
@[simp] theorem State.writeBy_launches (s : State) (w g : Nat) (l : List (Nat × Byte)) : (s.writeBy w g l).launches = s.launches := rfl
@[simp] theorem State.writeBy_parts (s : State) (w g : Nat) (l : List (Nat × Byte)) : (s.writeBy w g l).parts = s.parts := rfl
@[simp] theorem State.writeBy_holds (s : State) (w g : Nat) (l : List (Nat × Byte)) : (s.writeBy w g l).holds = s.holds := rfl
@[simp] theorem State.writeBy_tickets (s : State) (w g : Nat) (l : List (Nat × Byte)) : (s.writeBy w g l).tickets = s.tickets := rfl
@[simp] theorem State.writeBy_grans (s : State) (w g : Nat) (l : List (Nat × Byte)) : (s.writeBy w g l).grans = s.grans := rfl
@[simp] theorem State.writeBy_reds (s : State) (w g : Nat) (l : List (Nat × Byte)) : (s.writeBy w g l).reds = s.reds := rfl
@[simp] theorem State.writeBy_rankSlots (s : State) (w g : Nat) (l : List (Nat × Byte)) : (s.writeBy w g l).rankSlots = s.rankSlots := rfl
@[simp] theorem State.writeBy_pub (s : State) (w g : Nat) (l : List (Nat × Byte)) : (s.writeBy w g l).pub = s.pub := rfl
@[simp] theorem State.writeBy_hostPub (s : State) (w g : Nat) (l : List (Nat × Byte)) : (s.writeBy w g l).hostPub = s.hostPub := rfl
@[simp] theorem State.writeBy_conflicts (s : State) (w g : Nat) (l : List (Nat × Byte)) : (s.writeBy w g l).conflicts = s.conflicts := rfl
@[simp] theorem State.writeBy_serial (s : State) (w g : Nat) (l : List (Nat × Byte)) : (s.writeBy w g l).serial = s.serial := rfl
@[simp] theorem State.writeBy_owed (s : State) (w g : Nat) (l : List (Nat × Byte)) : (s.writeBy w g l).owed = s.owed := rfl
@[simp] theorem State.writeBy_parcels (s : State) (w g : Nat) (l : List (Nat × Byte)) : (s.writeBy w g l).parcels = s.parcels := rfl
@[simp] theorem State.writeBy_chains (s : State) (w g : Nat) (l : List (Nat × Byte)) : (s.writeBy w g l).chains = s.chains := rfl
@[simp] theorem State.writeBy_peers (s : State) (w g : Nat) (l : List (Nat × Byte)) : (s.writeBy w g l).peers = s.peers := rfl
@[simp] theorem State.writeBy_resv (s : State) (w g : Nat) (l : List (Nat × Byte)) : (s.writeBy w g l).resv = s.resv := rfl
@[simp] theorem State.writeBy_cells (s : State) (w g : Nat) (l : List (Nat × Byte)) : (s.writeBy w g l).cells = s.cells := rfl
@[simp] theorem State.writeBy_sent (s : State) (w g : Nat) (l : List (Nat × Byte)) : (s.writeBy w g l).sent = s.sent := rfl
@[simp] theorem State.writeBy_slots (s : State) (w g : Nat) (l : List (Nat × Byte)) : (s.writeBy w g l).slots = s.slots := rfl
@[simp] theorem State.writeBy_announced (s : State) (w g : Nat) (l : List (Nat × Byte)) : (s.writeBy w g l).announced = s.announced := rfl
@[simp] theorem State.writeBy_time (s : State) (w g : Nat) (l : List (Nat × Byte)) : (s.writeBy w g l).time = s.time := rfl
@[simp] theorem State.writeBy_locked (s : State) (w g : Nat) (l : List (Nat × Byte)) : (s.writeBy w g l).locked = s.locked := rfl
@[simp] theorem State.writeBy_good (s : State) (w g : Nat) (l : List (Nat × Byte)) : (s.writeBy w g l).good = s.good := rfl
@[simp] theorem State.writeBy_everLocked (s : State) (w g : Nat) (l : List (Nat × Byte)) : (s.writeBy w g l).everLocked = s.everLocked := rfl
@[simp] theorem State.writeBy_cfg (s : State) (w g : Nat) (l : List (Nat × Byte)) : (s.writeBy w g l).cfg = s.cfg := rfl
@[simp] theorem State.writeBy_flash (s : State) (w g : Nat) (l : List (Nat × Byte)) : (s.writeBy w g l).flash = s.flash := rfl
@[simp] theorem State.writeBy_incarn (s : State) (w g : Nat) (l : List (Nat × Byte)) : (s.writeBy w g l).incarn = s.incarn := rfl
@[simp] theorem State.writeBy_stored (s : State) (w g : Nat) (l : List (Nat × Byte)) : (s.writeBy w g l).stored = s.stored := rfl
@[simp] theorem State.writeBy_life (s : State) (w g : Nat) (l : List (Nat × Byte)) : (s.writeBy w g l).life = s.life := rfl
@[simp] theorem State.writeBy_lifeFlash (s : State) (w g : Nat) (l : List (Nat × Byte)) : (s.writeBy w g l).lifeFlash = s.lifeFlash := rfl
@[simp] theorem State.writeBy_sensors (s : State) (w g : Nat) (l : List (Nat × Byte)) : (s.writeBy w g l).sensors = s.sensors := rfl
@[simp] theorem State.writeBy_replies (s : State) (w g : Nat) (l : List (Nat × Byte)) : (s.writeBy w g l).replies = s.replies := rfl
@[simp] theorem State.writeBy_hostReplies (s : State) (w g : Nat) (l : List (Nat × Byte)) : (s.writeBy w g l).hostReplies = s.hostReplies := rfl
@[simp] theorem State.writeBy_powered (s : State) (w g : Nat) (l : List (Nat × Byte)) : (s.writeBy w g l).powered = s.powered := rfl
@[simp] theorem State.writeBy_agenda (s : State) (w g : Nat) (l : List (Nat × Byte)) : (s.writeBy w g l).agenda = s.agenda := rfl
@[simp] theorem State.writeBy_arg (s : State) (w g : Nat) (l : List (Nat × Byte)) : (s.writeBy w g l).arg = s.arg := rfl
@[simp] theorem State.writeBy_cur (s : State) (w g : Nat) (l : List (Nat × Byte)) : (s.writeBy w g l).cur = s.cur := rfl
@[simp] theorem State.writeBy_budget (s : State) (w g : Nat) (l : List (Nat × Byte)) : (s.writeBy w g l).budget = s.budget := rfl
@[simp] theorem State.writeBy_fresh (s : State) (w g : Nat) (l : List (Nat × Byte)) : (s.writeBy w g l).fresh = s.fresh := rfl

/-! ### acquire -/

@[simp] theorem State.acquire_mem (s : State) (i : Nat) : (s.acquire i).mem = s.mem := rfl
@[simp] theorem State.acquire_mpoison (s : State) (i : Nat) : (s.acquire i).mpoison = s.mpoison := rfl
@[simp] theorem State.acquire_clusters (s : State) (i : Nat) : (s.acquire i).clusters = s.clusters := rfl
@[simp] theorem State.acquire_dchans (s : State) (i : Nat) : (s.acquire i).dchans = s.dchans := rfl
@[simp] theorem State.acquire_dmask (s : State) (i : Nat) : (s.acquire i).dmask = s.dmask := rfl
@[simp] theorem State.acquire_dclus (s : State) (i : Nat) : (s.acquire i).dclus = s.dclus := rfl
@[simp] theorem State.acquire_handles (s : State) (i : Nat) : (s.acquire i).handles = s.handles := rfl
@[simp] theorem State.acquire_cmds (s : State) (i : Nat) : (s.acquire i).cmds = s.cmds := rfl
@[simp] theorem State.acquire_wires (s : State) (i : Nat) : (s.acquire i).wires = s.wires := rfl
@[simp] theorem State.acquire_launches (s : State) (i : Nat) : (s.acquire i).launches = s.launches := rfl
@[simp] theorem State.acquire_parts (s : State) (i : Nat) : (s.acquire i).parts = s.parts := rfl
@[simp] theorem State.acquire_holds (s : State) (i : Nat) : (s.acquire i).holds = s.holds := rfl
@[simp] theorem State.acquire_tickets (s : State) (i : Nat) : (s.acquire i).tickets = s.tickets := rfl
@[simp] theorem State.acquire_grans (s : State) (i : Nat) : (s.acquire i).grans = s.grans := rfl
@[simp] theorem State.acquire_reds (s : State) (i : Nat) : (s.acquire i).reds = s.reds := rfl
@[simp] theorem State.acquire_rankSlots (s : State) (i : Nat) : (s.acquire i).rankSlots = s.rankSlots := rfl
@[simp] theorem State.acquire_hist (s : State) (i : Nat) : (s.acquire i).hist = s.hist := rfl
@[simp] theorem State.acquire_pub (s : State) (i : Nat) : (s.acquire i).pub = s.pub := rfl
@[simp] theorem State.acquire_hostPub (s : State) (i : Nat) : (s.acquire i).hostPub = s.hostPub := rfl
@[simp] theorem State.acquire_conflicts (s : State) (i : Nat) : (s.acquire i).conflicts = s.conflicts := rfl
@[simp] theorem State.acquire_serial (s : State) (i : Nat) : (s.acquire i).serial = s.serial := rfl
@[simp] theorem State.acquire_owed (s : State) (i : Nat) : (s.acquire i).owed = s.owed := rfl
@[simp] theorem State.acquire_parcels (s : State) (i : Nat) : (s.acquire i).parcels = s.parcels := rfl
@[simp] theorem State.acquire_chains (s : State) (i : Nat) : (s.acquire i).chains = s.chains := rfl
@[simp] theorem State.acquire_peers (s : State) (i : Nat) : (s.acquire i).peers = s.peers := rfl
@[simp] theorem State.acquire_resv (s : State) (i : Nat) : (s.acquire i).resv = s.resv := rfl
@[simp] theorem State.acquire_cells (s : State) (i : Nat) : (s.acquire i).cells = s.cells := rfl
@[simp] theorem State.acquire_sent (s : State) (i : Nat) : (s.acquire i).sent = s.sent := rfl
@[simp] theorem State.acquire_slots (s : State) (i : Nat) : (s.acquire i).slots = s.slots := rfl
@[simp] theorem State.acquire_announced (s : State) (i : Nat) : (s.acquire i).announced = s.announced := rfl
@[simp] theorem State.acquire_time (s : State) (i : Nat) : (s.acquire i).time = s.time := rfl
@[simp] theorem State.acquire_locked (s : State) (i : Nat) : (s.acquire i).locked = s.locked := rfl
@[simp] theorem State.acquire_good (s : State) (i : Nat) : (s.acquire i).good = s.good := rfl
@[simp] theorem State.acquire_everLocked (s : State) (i : Nat) : (s.acquire i).everLocked = s.everLocked := rfl
@[simp] theorem State.acquire_cfg (s : State) (i : Nat) : (s.acquire i).cfg = s.cfg := rfl
@[simp] theorem State.acquire_flash (s : State) (i : Nat) : (s.acquire i).flash = s.flash := rfl
@[simp] theorem State.acquire_incarn (s : State) (i : Nat) : (s.acquire i).incarn = s.incarn := rfl
@[simp] theorem State.acquire_stored (s : State) (i : Nat) : (s.acquire i).stored = s.stored := rfl
@[simp] theorem State.acquire_life (s : State) (i : Nat) : (s.acquire i).life = s.life := rfl
@[simp] theorem State.acquire_lifeFlash (s : State) (i : Nat) : (s.acquire i).lifeFlash = s.lifeFlash := rfl
@[simp] theorem State.acquire_sensors (s : State) (i : Nat) : (s.acquire i).sensors = s.sensors := rfl
@[simp] theorem State.acquire_replies (s : State) (i : Nat) : (s.acquire i).replies = s.replies := rfl
@[simp] theorem State.acquire_hostReplies (s : State) (i : Nat) : (s.acquire i).hostReplies = s.hostReplies := rfl
@[simp] theorem State.acquire_powered (s : State) (i : Nat) : (s.acquire i).powered = s.powered := rfl
@[simp] theorem State.acquire_agenda (s : State) (i : Nat) : (s.acquire i).agenda = s.agenda := rfl
@[simp] theorem State.acquire_arg (s : State) (i : Nat) : (s.acquire i).arg = s.arg := rfl
@[simp] theorem State.acquire_cur (s : State) (i : Nat) : (s.acquire i).cur = s.cur := rfl
@[simp] theorem State.acquire_budget (s : State) (i : Nat) : (s.acquire i).budget = s.budget := rfl
@[simp] theorem State.acquire_fresh (s : State) (i : Nat) : (s.acquire i).fresh = s.fresh := rfl

/-! ### hostWrote -/

@[simp] theorem State.hostWrote_mem (s : State) (l : List (Nat × Byte)) : (s.hostWrote l).mem = s.mem := rfl
@[simp] theorem State.hostWrote_mpoison (s : State) (l : List (Nat × Byte)) : (s.hostWrote l).mpoison = s.mpoison := rfl
@[simp] theorem State.hostWrote_cores (s : State) (l : List (Nat × Byte)) : (s.hostWrote l).cores = s.cores := rfl
@[simp] theorem State.hostWrote_clusters (s : State) (l : List (Nat × Byte)) : (s.hostWrote l).clusters = s.clusters := rfl
@[simp] theorem State.hostWrote_dchans (s : State) (l : List (Nat × Byte)) : (s.hostWrote l).dchans = s.dchans := rfl
@[simp] theorem State.hostWrote_dmask (s : State) (l : List (Nat × Byte)) : (s.hostWrote l).dmask = s.dmask := rfl
@[simp] theorem State.hostWrote_dclus (s : State) (l : List (Nat × Byte)) : (s.hostWrote l).dclus = s.dclus := rfl
@[simp] theorem State.hostWrote_handles (s : State) (l : List (Nat × Byte)) : (s.hostWrote l).handles = s.handles := rfl
@[simp] theorem State.hostWrote_cmds (s : State) (l : List (Nat × Byte)) : (s.hostWrote l).cmds = s.cmds := rfl
@[simp] theorem State.hostWrote_wires (s : State) (l : List (Nat × Byte)) : (s.hostWrote l).wires = s.wires := rfl
@[simp] theorem State.hostWrote_launches (s : State) (l : List (Nat × Byte)) : (s.hostWrote l).launches = s.launches := rfl
@[simp] theorem State.hostWrote_parts (s : State) (l : List (Nat × Byte)) : (s.hostWrote l).parts = s.parts := rfl
@[simp] theorem State.hostWrote_holds (s : State) (l : List (Nat × Byte)) : (s.hostWrote l).holds = s.holds := rfl
@[simp] theorem State.hostWrote_tickets (s : State) (l : List (Nat × Byte)) : (s.hostWrote l).tickets = s.tickets := rfl
@[simp] theorem State.hostWrote_grans (s : State) (l : List (Nat × Byte)) : (s.hostWrote l).grans = s.grans := rfl
@[simp] theorem State.hostWrote_reds (s : State) (l : List (Nat × Byte)) : (s.hostWrote l).reds = s.reds := rfl
@[simp] theorem State.hostWrote_rankSlots (s : State) (l : List (Nat × Byte)) : (s.hostWrote l).rankSlots = s.rankSlots := rfl
@[simp] theorem State.hostWrote_hist (s : State) (l : List (Nat × Byte)) : (s.hostWrote l).hist = s.hist := rfl
@[simp] theorem State.hostWrote_pub (s : State) (l : List (Nat × Byte)) : (s.hostWrote l).pub = s.pub := rfl
@[simp] theorem State.hostWrote_conflicts (s : State) (l : List (Nat × Byte)) : (s.hostWrote l).conflicts = s.conflicts := rfl
@[simp] theorem State.hostWrote_serial (s : State) (l : List (Nat × Byte)) : (s.hostWrote l).serial = s.serial := rfl
@[simp] theorem State.hostWrote_owed (s : State) (l : List (Nat × Byte)) : (s.hostWrote l).owed = s.owed := rfl
@[simp] theorem State.hostWrote_parcels (s : State) (l : List (Nat × Byte)) : (s.hostWrote l).parcels = s.parcels := rfl
@[simp] theorem State.hostWrote_chains (s : State) (l : List (Nat × Byte)) : (s.hostWrote l).chains = s.chains := rfl
@[simp] theorem State.hostWrote_peers (s : State) (l : List (Nat × Byte)) : (s.hostWrote l).peers = s.peers := rfl
@[simp] theorem State.hostWrote_resv (s : State) (l : List (Nat × Byte)) : (s.hostWrote l).resv = s.resv := rfl
@[simp] theorem State.hostWrote_cells (s : State) (l : List (Nat × Byte)) : (s.hostWrote l).cells = s.cells := rfl
@[simp] theorem State.hostWrote_sent (s : State) (l : List (Nat × Byte)) : (s.hostWrote l).sent = s.sent := rfl
@[simp] theorem State.hostWrote_slots (s : State) (l : List (Nat × Byte)) : (s.hostWrote l).slots = s.slots := rfl
@[simp] theorem State.hostWrote_announced (s : State) (l : List (Nat × Byte)) : (s.hostWrote l).announced = s.announced := rfl
@[simp] theorem State.hostWrote_time (s : State) (l : List (Nat × Byte)) : (s.hostWrote l).time = s.time := rfl
@[simp] theorem State.hostWrote_locked (s : State) (l : List (Nat × Byte)) : (s.hostWrote l).locked = s.locked := rfl
@[simp] theorem State.hostWrote_good (s : State) (l : List (Nat × Byte)) : (s.hostWrote l).good = s.good := rfl
@[simp] theorem State.hostWrote_everLocked (s : State) (l : List (Nat × Byte)) : (s.hostWrote l).everLocked = s.everLocked := rfl
@[simp] theorem State.hostWrote_cfg (s : State) (l : List (Nat × Byte)) : (s.hostWrote l).cfg = s.cfg := rfl
@[simp] theorem State.hostWrote_flash (s : State) (l : List (Nat × Byte)) : (s.hostWrote l).flash = s.flash := rfl
@[simp] theorem State.hostWrote_incarn (s : State) (l : List (Nat × Byte)) : (s.hostWrote l).incarn = s.incarn := rfl
@[simp] theorem State.hostWrote_stored (s : State) (l : List (Nat × Byte)) : (s.hostWrote l).stored = s.stored := rfl
@[simp] theorem State.hostWrote_life (s : State) (l : List (Nat × Byte)) : (s.hostWrote l).life = s.life := rfl
@[simp] theorem State.hostWrote_lifeFlash (s : State) (l : List (Nat × Byte)) : (s.hostWrote l).lifeFlash = s.lifeFlash := rfl
@[simp] theorem State.hostWrote_sensors (s : State) (l : List (Nat × Byte)) : (s.hostWrote l).sensors = s.sensors := rfl
@[simp] theorem State.hostWrote_replies (s : State) (l : List (Nat × Byte)) : (s.hostWrote l).replies = s.replies := rfl
@[simp] theorem State.hostWrote_hostReplies (s : State) (l : List (Nat × Byte)) : (s.hostWrote l).hostReplies = s.hostReplies := rfl
@[simp] theorem State.hostWrote_powered (s : State) (l : List (Nat × Byte)) : (s.hostWrote l).powered = s.powered := rfl
@[simp] theorem State.hostWrote_agenda (s : State) (l : List (Nat × Byte)) : (s.hostWrote l).agenda = s.agenda := rfl
@[simp] theorem State.hostWrote_arg (s : State) (l : List (Nat × Byte)) : (s.hostWrote l).arg = s.arg := rfl
@[simp] theorem State.hostWrote_cur (s : State) (l : List (Nat × Byte)) : (s.hostWrote l).cur = s.cur := rfl
@[simp] theorem State.hostWrote_budget (s : State) (l : List (Nat × Byte)) : (s.hostWrote l).budget = s.budget := rfl
@[simp] theorem State.hostWrote_fresh (s : State) (l : List (Nat × Byte)) : (s.hostWrote l).fresh = s.fresh := rfl

/-! ### learnPubs -/

@[simp] theorem State.learnPubs_mem (s : State) (i : Nat) (p : Pubs) : (s.learnPubs i p).mem = s.mem := rfl
@[simp] theorem State.learnPubs_mpoison (s : State) (i : Nat) (p : Pubs) : (s.learnPubs i p).mpoison = s.mpoison := rfl
@[simp] theorem State.learnPubs_clusters (s : State) (i : Nat) (p : Pubs) : (s.learnPubs i p).clusters = s.clusters := rfl
@[simp] theorem State.learnPubs_dchans (s : State) (i : Nat) (p : Pubs) : (s.learnPubs i p).dchans = s.dchans := rfl
@[simp] theorem State.learnPubs_dmask (s : State) (i : Nat) (p : Pubs) : (s.learnPubs i p).dmask = s.dmask := rfl
@[simp] theorem State.learnPubs_dclus (s : State) (i : Nat) (p : Pubs) : (s.learnPubs i p).dclus = s.dclus := rfl
@[simp] theorem State.learnPubs_handles (s : State) (i : Nat) (p : Pubs) : (s.learnPubs i p).handles = s.handles := rfl
@[simp] theorem State.learnPubs_cmds (s : State) (i : Nat) (p : Pubs) : (s.learnPubs i p).cmds = s.cmds := rfl
@[simp] theorem State.learnPubs_wires (s : State) (i : Nat) (p : Pubs) : (s.learnPubs i p).wires = s.wires := rfl
@[simp] theorem State.learnPubs_launches (s : State) (i : Nat) (p : Pubs) : (s.learnPubs i p).launches = s.launches := rfl
@[simp] theorem State.learnPubs_parts (s : State) (i : Nat) (p : Pubs) : (s.learnPubs i p).parts = s.parts := rfl
@[simp] theorem State.learnPubs_holds (s : State) (i : Nat) (p : Pubs) : (s.learnPubs i p).holds = s.holds := rfl
@[simp] theorem State.learnPubs_tickets (s : State) (i : Nat) (p : Pubs) : (s.learnPubs i p).tickets = s.tickets := rfl
@[simp] theorem State.learnPubs_grans (s : State) (i : Nat) (p : Pubs) : (s.learnPubs i p).grans = s.grans := rfl
@[simp] theorem State.learnPubs_reds (s : State) (i : Nat) (p : Pubs) : (s.learnPubs i p).reds = s.reds := rfl
@[simp] theorem State.learnPubs_rankSlots (s : State) (i : Nat) (p : Pubs) : (s.learnPubs i p).rankSlots = s.rankSlots := rfl
@[simp] theorem State.learnPubs_hist (s : State) (i : Nat) (p : Pubs) : (s.learnPubs i p).hist = s.hist := rfl
@[simp] theorem State.learnPubs_pub (s : State) (i : Nat) (p : Pubs) : (s.learnPubs i p).pub = s.pub := rfl
@[simp] theorem State.learnPubs_hostPub (s : State) (i : Nat) (p : Pubs) : (s.learnPubs i p).hostPub = s.hostPub := rfl
@[simp] theorem State.learnPubs_conflicts (s : State) (i : Nat) (p : Pubs) : (s.learnPubs i p).conflicts = s.conflicts := rfl
@[simp] theorem State.learnPubs_serial (s : State) (i : Nat) (p : Pubs) : (s.learnPubs i p).serial = s.serial := rfl
@[simp] theorem State.learnPubs_owed (s : State) (i : Nat) (p : Pubs) : (s.learnPubs i p).owed = s.owed := rfl
@[simp] theorem State.learnPubs_parcels (s : State) (i : Nat) (p : Pubs) : (s.learnPubs i p).parcels = s.parcels := rfl
@[simp] theorem State.learnPubs_chains (s : State) (i : Nat) (p : Pubs) : (s.learnPubs i p).chains = s.chains := rfl
@[simp] theorem State.learnPubs_peers (s : State) (i : Nat) (p : Pubs) : (s.learnPubs i p).peers = s.peers := rfl
@[simp] theorem State.learnPubs_resv (s : State) (i : Nat) (p : Pubs) : (s.learnPubs i p).resv = s.resv := rfl
@[simp] theorem State.learnPubs_cells (s : State) (i : Nat) (p : Pubs) : (s.learnPubs i p).cells = s.cells := rfl
@[simp] theorem State.learnPubs_sent (s : State) (i : Nat) (p : Pubs) : (s.learnPubs i p).sent = s.sent := rfl
@[simp] theorem State.learnPubs_slots (s : State) (i : Nat) (p : Pubs) : (s.learnPubs i p).slots = s.slots := rfl
@[simp] theorem State.learnPubs_announced (s : State) (i : Nat) (p : Pubs) : (s.learnPubs i p).announced = s.announced := rfl
@[simp] theorem State.learnPubs_time (s : State) (i : Nat) (p : Pubs) : (s.learnPubs i p).time = s.time := rfl
@[simp] theorem State.learnPubs_locked (s : State) (i : Nat) (p : Pubs) : (s.learnPubs i p).locked = s.locked := rfl
@[simp] theorem State.learnPubs_good (s : State) (i : Nat) (p : Pubs) : (s.learnPubs i p).good = s.good := rfl
@[simp] theorem State.learnPubs_everLocked (s : State) (i : Nat) (p : Pubs) : (s.learnPubs i p).everLocked = s.everLocked := rfl
@[simp] theorem State.learnPubs_cfg (s : State) (i : Nat) (p : Pubs) : (s.learnPubs i p).cfg = s.cfg := rfl
@[simp] theorem State.learnPubs_flash (s : State) (i : Nat) (p : Pubs) : (s.learnPubs i p).flash = s.flash := rfl
@[simp] theorem State.learnPubs_incarn (s : State) (i : Nat) (p : Pubs) : (s.learnPubs i p).incarn = s.incarn := rfl
@[simp] theorem State.learnPubs_stored (s : State) (i : Nat) (p : Pubs) : (s.learnPubs i p).stored = s.stored := rfl
@[simp] theorem State.learnPubs_life (s : State) (i : Nat) (p : Pubs) : (s.learnPubs i p).life = s.life := rfl
@[simp] theorem State.learnPubs_lifeFlash (s : State) (i : Nat) (p : Pubs) : (s.learnPubs i p).lifeFlash = s.lifeFlash := rfl
@[simp] theorem State.learnPubs_sensors (s : State) (i : Nat) (p : Pubs) : (s.learnPubs i p).sensors = s.sensors := rfl
@[simp] theorem State.learnPubs_replies (s : State) (i : Nat) (p : Pubs) : (s.learnPubs i p).replies = s.replies := rfl
@[simp] theorem State.learnPubs_hostReplies (s : State) (i : Nat) (p : Pubs) : (s.learnPubs i p).hostReplies = s.hostReplies := rfl
@[simp] theorem State.learnPubs_powered (s : State) (i : Nat) (p : Pubs) : (s.learnPubs i p).powered = s.powered := rfl
@[simp] theorem State.learnPubs_agenda (s : State) (i : Nat) (p : Pubs) : (s.learnPubs i p).agenda = s.agenda := rfl
@[simp] theorem State.learnPubs_arg (s : State) (i : Nat) (p : Pubs) : (s.learnPubs i p).arg = s.arg := rfl
@[simp] theorem State.learnPubs_cur (s : State) (i : Nat) (p : Pubs) : (s.learnPubs i p).cur = s.cur := rfl
@[simp] theorem State.learnPubs_budget (s : State) (i : Nat) (p : Pubs) : (s.learnPubs i p).budget = s.budget := rfl
@[simp] theorem State.learnPubs_fresh (s : State) (i : Nat) (p : Pubs) : (s.learnPubs i p).fresh = s.fresh := rfl

/-! ### queueAt -/

@[simp] theorem State.queueAt_mem (s : State) (h : Hold) (q : HeldStore) : (s.queueAt h q).mem = s.mem := rfl
@[simp] theorem State.queueAt_mpoison (s : State) (h : Hold) (q : HeldStore) : (s.queueAt h q).mpoison = s.mpoison := rfl
@[simp] theorem State.queueAt_cores (s : State) (h : Hold) (q : HeldStore) : (s.queueAt h q).cores = s.cores := rfl
@[simp] theorem State.queueAt_clusters (s : State) (h : Hold) (q : HeldStore) : (s.queueAt h q).clusters = s.clusters := rfl
@[simp] theorem State.queueAt_dchans (s : State) (h : Hold) (q : HeldStore) : (s.queueAt h q).dchans = s.dchans := rfl
@[simp] theorem State.queueAt_dmask (s : State) (h : Hold) (q : HeldStore) : (s.queueAt h q).dmask = s.dmask := rfl
@[simp] theorem State.queueAt_dclus (s : State) (h : Hold) (q : HeldStore) : (s.queueAt h q).dclus = s.dclus := rfl
@[simp] theorem State.queueAt_handles (s : State) (h : Hold) (q : HeldStore) : (s.queueAt h q).handles = s.handles := rfl
@[simp] theorem State.queueAt_cmds (s : State) (h : Hold) (q : HeldStore) : (s.queueAt h q).cmds = s.cmds := rfl
@[simp] theorem State.queueAt_wires (s : State) (h : Hold) (q : HeldStore) : (s.queueAt h q).wires = s.wires := rfl
@[simp] theorem State.queueAt_launches (s : State) (h : Hold) (q : HeldStore) : (s.queueAt h q).launches = s.launches := rfl
@[simp] theorem State.queueAt_parts (s : State) (h : Hold) (q : HeldStore) : (s.queueAt h q).parts = s.parts := rfl
@[simp] theorem State.queueAt_tickets (s : State) (h : Hold) (q : HeldStore) : (s.queueAt h q).tickets = s.tickets := rfl
@[simp] theorem State.queueAt_grans (s : State) (h : Hold) (q : HeldStore) : (s.queueAt h q).grans = s.grans := rfl
@[simp] theorem State.queueAt_reds (s : State) (h : Hold) (q : HeldStore) : (s.queueAt h q).reds = s.reds := rfl
@[simp] theorem State.queueAt_rankSlots (s : State) (h : Hold) (q : HeldStore) : (s.queueAt h q).rankSlots = s.rankSlots := rfl
@[simp] theorem State.queueAt_hist (s : State) (h : Hold) (q : HeldStore) : (s.queueAt h q).hist = s.hist := rfl
@[simp] theorem State.queueAt_pub (s : State) (h : Hold) (q : HeldStore) : (s.queueAt h q).pub = s.pub := rfl
@[simp] theorem State.queueAt_hostPub (s : State) (h : Hold) (q : HeldStore) : (s.queueAt h q).hostPub = s.hostPub := rfl
@[simp] theorem State.queueAt_conflicts (s : State) (h : Hold) (q : HeldStore) : (s.queueAt h q).conflicts = s.conflicts := rfl
@[simp] theorem State.queueAt_serial (s : State) (h : Hold) (q : HeldStore) : (s.queueAt h q).serial = s.serial := rfl
@[simp] theorem State.queueAt_owed (s : State) (h : Hold) (q : HeldStore) : (s.queueAt h q).owed = s.owed := rfl
@[simp] theorem State.queueAt_parcels (s : State) (h : Hold) (q : HeldStore) : (s.queueAt h q).parcels = s.parcels := rfl
@[simp] theorem State.queueAt_chains (s : State) (h : Hold) (q : HeldStore) : (s.queueAt h q).chains = s.chains := rfl
@[simp] theorem State.queueAt_peers (s : State) (h : Hold) (q : HeldStore) : (s.queueAt h q).peers = s.peers := rfl
@[simp] theorem State.queueAt_resv (s : State) (h : Hold) (q : HeldStore) : (s.queueAt h q).resv = s.resv := rfl
@[simp] theorem State.queueAt_cells (s : State) (h : Hold) (q : HeldStore) : (s.queueAt h q).cells = s.cells := rfl
@[simp] theorem State.queueAt_sent (s : State) (h : Hold) (q : HeldStore) : (s.queueAt h q).sent = s.sent := rfl
@[simp] theorem State.queueAt_slots (s : State) (h : Hold) (q : HeldStore) : (s.queueAt h q).slots = s.slots := rfl
@[simp] theorem State.queueAt_announced (s : State) (h : Hold) (q : HeldStore) : (s.queueAt h q).announced = s.announced := rfl
@[simp] theorem State.queueAt_time (s : State) (h : Hold) (q : HeldStore) : (s.queueAt h q).time = s.time := rfl
@[simp] theorem State.queueAt_locked (s : State) (h : Hold) (q : HeldStore) : (s.queueAt h q).locked = s.locked := rfl
@[simp] theorem State.queueAt_good (s : State) (h : Hold) (q : HeldStore) : (s.queueAt h q).good = s.good := rfl
@[simp] theorem State.queueAt_everLocked (s : State) (h : Hold) (q : HeldStore) : (s.queueAt h q).everLocked = s.everLocked := rfl
@[simp] theorem State.queueAt_cfg (s : State) (h : Hold) (q : HeldStore) : (s.queueAt h q).cfg = s.cfg := rfl
@[simp] theorem State.queueAt_flash (s : State) (h : Hold) (q : HeldStore) : (s.queueAt h q).flash = s.flash := rfl
@[simp] theorem State.queueAt_incarn (s : State) (h : Hold) (q : HeldStore) : (s.queueAt h q).incarn = s.incarn := rfl
@[simp] theorem State.queueAt_stored (s : State) (h : Hold) (q : HeldStore) : (s.queueAt h q).stored = s.stored := rfl
@[simp] theorem State.queueAt_life (s : State) (h : Hold) (q : HeldStore) : (s.queueAt h q).life = s.life := rfl
@[simp] theorem State.queueAt_lifeFlash (s : State) (h : Hold) (q : HeldStore) : (s.queueAt h q).lifeFlash = s.lifeFlash := rfl
@[simp] theorem State.queueAt_sensors (s : State) (h : Hold) (q : HeldStore) : (s.queueAt h q).sensors = s.sensors := rfl
@[simp] theorem State.queueAt_replies (s : State) (h : Hold) (q : HeldStore) : (s.queueAt h q).replies = s.replies := rfl
@[simp] theorem State.queueAt_hostReplies (s : State) (h : Hold) (q : HeldStore) : (s.queueAt h q).hostReplies = s.hostReplies := rfl
@[simp] theorem State.queueAt_powered (s : State) (h : Hold) (q : HeldStore) : (s.queueAt h q).powered = s.powered := rfl
@[simp] theorem State.queueAt_agenda (s : State) (h : Hold) (q : HeldStore) : (s.queueAt h q).agenda = s.agenda := rfl
@[simp] theorem State.queueAt_arg (s : State) (h : Hold) (q : HeldStore) : (s.queueAt h q).arg = s.arg := rfl
@[simp] theorem State.queueAt_cur (s : State) (h : Hold) (q : HeldStore) : (s.queueAt h q).cur = s.cur := rfl
@[simp] theorem State.queueAt_budget (s : State) (h : Hold) (q : HeldStore) : (s.queueAt h q).budget = s.budget := rfl
@[simp] theorem State.queueAt_fresh (s : State) (h : Hold) (q : HeldStore) : (s.queueAt h q).fresh = s.fresh := rfl

/-! ### share -/

@[simp] theorem State.share_mem (s : State) (i : Nat) : (s.share i).mem = s.mem := by unfold State.share; dsimp only; split <;> rfl
@[simp] theorem State.share_mpoison (s : State) (i : Nat) : (s.share i).mpoison = s.mpoison := by unfold State.share; dsimp only; split <;> rfl
@[simp] theorem State.share_dchans (s : State) (i : Nat) : (s.share i).dchans = s.dchans := by unfold State.share; dsimp only; split <;> rfl
@[simp] theorem State.share_dmask (s : State) (i : Nat) : (s.share i).dmask = s.dmask := by unfold State.share; dsimp only; split <;> rfl
@[simp] theorem State.share_dclus (s : State) (i : Nat) : (s.share i).dclus = s.dclus := by unfold State.share; dsimp only; split <;> rfl
@[simp] theorem State.share_handles (s : State) (i : Nat) : (s.share i).handles = s.handles := by unfold State.share; dsimp only; split <;> rfl
@[simp] theorem State.share_cmds (s : State) (i : Nat) : (s.share i).cmds = s.cmds := by unfold State.share; dsimp only; split <;> rfl
@[simp] theorem State.share_wires (s : State) (i : Nat) : (s.share i).wires = s.wires := by unfold State.share; dsimp only; split <;> rfl
@[simp] theorem State.share_launches (s : State) (i : Nat) : (s.share i).launches = s.launches := by unfold State.share; dsimp only; split <;> rfl
@[simp] theorem State.share_parts (s : State) (i : Nat) : (s.share i).parts = s.parts := by unfold State.share; dsimp only; split <;> rfl
@[simp] theorem State.share_holds (s : State) (i : Nat) : (s.share i).holds = s.holds := by unfold State.share; dsimp only; split <;> rfl
@[simp] theorem State.share_tickets (s : State) (i : Nat) : (s.share i).tickets = s.tickets := by unfold State.share; dsimp only; split <;> rfl
@[simp] theorem State.share_grans (s : State) (i : Nat) : (s.share i).grans = s.grans := by unfold State.share; dsimp only; split <;> rfl
@[simp] theorem State.share_reds (s : State) (i : Nat) : (s.share i).reds = s.reds := by unfold State.share; dsimp only; split <;> rfl
@[simp] theorem State.share_rankSlots (s : State) (i : Nat) : (s.share i).rankSlots = s.rankSlots := by unfold State.share; dsimp only; split <;> rfl
@[simp] theorem State.share_hist (s : State) (i : Nat) : (s.share i).hist = s.hist := by unfold State.share; dsimp only; split <;> rfl
@[simp] theorem State.share_pub (s : State) (i : Nat) : (s.share i).pub = s.pub := by unfold State.share; dsimp only; split <;> rfl
@[simp] theorem State.share_hostPub (s : State) (i : Nat) : (s.share i).hostPub = s.hostPub := by unfold State.share; dsimp only; split <;> rfl
@[simp] theorem State.share_conflicts (s : State) (i : Nat) : (s.share i).conflicts = s.conflicts := by unfold State.share; dsimp only; split <;> rfl
@[simp] theorem State.share_serial (s : State) (i : Nat) : (s.share i).serial = s.serial := by unfold State.share; dsimp only; split <;> rfl
@[simp] theorem State.share_owed (s : State) (i : Nat) : (s.share i).owed = s.owed := by unfold State.share; dsimp only; split <;> rfl
@[simp] theorem State.share_parcels (s : State) (i : Nat) : (s.share i).parcels = s.parcels := by unfold State.share; dsimp only; split <;> rfl
@[simp] theorem State.share_chains (s : State) (i : Nat) : (s.share i).chains = s.chains := by unfold State.share; dsimp only; split <;> rfl
@[simp] theorem State.share_peers (s : State) (i : Nat) : (s.share i).peers = s.peers := by unfold State.share; dsimp only; split <;> rfl
@[simp] theorem State.share_resv (s : State) (i : Nat) : (s.share i).resv = s.resv := by unfold State.share; dsimp only; split <;> rfl
@[simp] theorem State.share_cells (s : State) (i : Nat) : (s.share i).cells = s.cells := by unfold State.share; dsimp only; split <;> rfl
@[simp] theorem State.share_sent (s : State) (i : Nat) : (s.share i).sent = s.sent := by unfold State.share; dsimp only; split <;> rfl
@[simp] theorem State.share_slots (s : State) (i : Nat) : (s.share i).slots = s.slots := by unfold State.share; dsimp only; split <;> rfl
@[simp] theorem State.share_announced (s : State) (i : Nat) : (s.share i).announced = s.announced := by unfold State.share; dsimp only; split <;> rfl
@[simp] theorem State.share_time (s : State) (i : Nat) : (s.share i).time = s.time := by unfold State.share; dsimp only; split <;> rfl
@[simp] theorem State.share_locked (s : State) (i : Nat) : (s.share i).locked = s.locked := by unfold State.share; dsimp only; split <;> rfl
@[simp] theorem State.share_good (s : State) (i : Nat) : (s.share i).good = s.good := by unfold State.share; dsimp only; split <;> rfl
@[simp] theorem State.share_everLocked (s : State) (i : Nat) : (s.share i).everLocked = s.everLocked := by unfold State.share; dsimp only; split <;> rfl
@[simp] theorem State.share_cfg (s : State) (i : Nat) : (s.share i).cfg = s.cfg := by unfold State.share; dsimp only; split <;> rfl
@[simp] theorem State.share_flash (s : State) (i : Nat) : (s.share i).flash = s.flash := by unfold State.share; dsimp only; split <;> rfl
@[simp] theorem State.share_incarn (s : State) (i : Nat) : (s.share i).incarn = s.incarn := by unfold State.share; dsimp only; split <;> rfl
@[simp] theorem State.share_stored (s : State) (i : Nat) : (s.share i).stored = s.stored := by unfold State.share; dsimp only; split <;> rfl
@[simp] theorem State.share_life (s : State) (i : Nat) : (s.share i).life = s.life := by unfold State.share; dsimp only; split <;> rfl
@[simp] theorem State.share_lifeFlash (s : State) (i : Nat) : (s.share i).lifeFlash = s.lifeFlash := by unfold State.share; dsimp only; split <;> rfl
@[simp] theorem State.share_sensors (s : State) (i : Nat) : (s.share i).sensors = s.sensors := by unfold State.share; dsimp only; split <;> rfl
@[simp] theorem State.share_replies (s : State) (i : Nat) : (s.share i).replies = s.replies := by unfold State.share; dsimp only; split <;> rfl
@[simp] theorem State.share_hostReplies (s : State) (i : Nat) : (s.share i).hostReplies = s.hostReplies := by unfold State.share; dsimp only; split <;> rfl
@[simp] theorem State.share_powered (s : State) (i : Nat) : (s.share i).powered = s.powered := by unfold State.share; dsimp only; split <;> rfl
@[simp] theorem State.share_agenda (s : State) (i : Nat) : (s.share i).agenda = s.agenda := by unfold State.share; dsimp only; split <;> rfl
@[simp] theorem State.share_arg (s : State) (i : Nat) : (s.share i).arg = s.arg := by unfold State.share; dsimp only; split <;> rfl
@[simp] theorem State.share_cur (s : State) (i : Nat) : (s.share i).cur = s.cur := by unfold State.share; dsimp only; split <;> rfl
@[simp] theorem State.share_budget (s : State) (i : Nat) : (s.share i).budget = s.budget := by unfold State.share; dsimp only; split <;> rfl
@[simp] theorem State.share_fresh (s : State) (i : Nat) : (s.share i).fresh = s.fresh := by unfold State.share; dsimp only; split <;> rfl

/-! ### acquireAt -/

@[simp] theorem State.acquireAt_mem (s : State) (i : Nat) (sc : Scope) : (s.acquireAt i sc).mem = s.mem := by cases sc <;> rfl
@[simp] theorem State.acquireAt_mpoison (s : State) (i : Nat) (sc : Scope) : (s.acquireAt i sc).mpoison = s.mpoison := by cases sc <;> rfl
@[simp] theorem State.acquireAt_clusters (s : State) (i : Nat) (sc : Scope) : (s.acquireAt i sc).clusters = s.clusters := by cases sc <;> rfl
@[simp] theorem State.acquireAt_dchans (s : State) (i : Nat) (sc : Scope) : (s.acquireAt i sc).dchans = s.dchans := by cases sc <;> rfl
@[simp] theorem State.acquireAt_dmask (s : State) (i : Nat) (sc : Scope) : (s.acquireAt i sc).dmask = s.dmask := by cases sc <;> rfl
@[simp] theorem State.acquireAt_dclus (s : State) (i : Nat) (sc : Scope) : (s.acquireAt i sc).dclus = s.dclus := by cases sc <;> rfl
@[simp] theorem State.acquireAt_handles (s : State) (i : Nat) (sc : Scope) : (s.acquireAt i sc).handles = s.handles := by cases sc <;> rfl
@[simp] theorem State.acquireAt_cmds (s : State) (i : Nat) (sc : Scope) : (s.acquireAt i sc).cmds = s.cmds := by cases sc <;> rfl
@[simp] theorem State.acquireAt_wires (s : State) (i : Nat) (sc : Scope) : (s.acquireAt i sc).wires = s.wires := by cases sc <;> rfl
@[simp] theorem State.acquireAt_launches (s : State) (i : Nat) (sc : Scope) : (s.acquireAt i sc).launches = s.launches := by cases sc <;> rfl
@[simp] theorem State.acquireAt_parts (s : State) (i : Nat) (sc : Scope) : (s.acquireAt i sc).parts = s.parts := by cases sc <;> rfl
@[simp] theorem State.acquireAt_holds (s : State) (i : Nat) (sc : Scope) : (s.acquireAt i sc).holds = s.holds := by cases sc <;> rfl
@[simp] theorem State.acquireAt_tickets (s : State) (i : Nat) (sc : Scope) : (s.acquireAt i sc).tickets = s.tickets := by cases sc <;> rfl
@[simp] theorem State.acquireAt_grans (s : State) (i : Nat) (sc : Scope) : (s.acquireAt i sc).grans = s.grans := by cases sc <;> rfl
@[simp] theorem State.acquireAt_reds (s : State) (i : Nat) (sc : Scope) : (s.acquireAt i sc).reds = s.reds := by cases sc <;> rfl
@[simp] theorem State.acquireAt_rankSlots (s : State) (i : Nat) (sc : Scope) : (s.acquireAt i sc).rankSlots = s.rankSlots := by cases sc <;> rfl
@[simp] theorem State.acquireAt_hist (s : State) (i : Nat) (sc : Scope) : (s.acquireAt i sc).hist = s.hist := by cases sc <;> rfl
@[simp] theorem State.acquireAt_pub (s : State) (i : Nat) (sc : Scope) : (s.acquireAt i sc).pub = s.pub := by cases sc <;> rfl
@[simp] theorem State.acquireAt_hostPub (s : State) (i : Nat) (sc : Scope) : (s.acquireAt i sc).hostPub = s.hostPub := by cases sc <;> rfl
@[simp] theorem State.acquireAt_conflicts (s : State) (i : Nat) (sc : Scope) : (s.acquireAt i sc).conflicts = s.conflicts := by cases sc <;> rfl
@[simp] theorem State.acquireAt_serial (s : State) (i : Nat) (sc : Scope) : (s.acquireAt i sc).serial = s.serial := by cases sc <;> rfl
@[simp] theorem State.acquireAt_owed (s : State) (i : Nat) (sc : Scope) : (s.acquireAt i sc).owed = s.owed := by cases sc <;> rfl
@[simp] theorem State.acquireAt_parcels (s : State) (i : Nat) (sc : Scope) : (s.acquireAt i sc).parcels = s.parcels := by cases sc <;> rfl
@[simp] theorem State.acquireAt_chains (s : State) (i : Nat) (sc : Scope) : (s.acquireAt i sc).chains = s.chains := by cases sc <;> rfl
@[simp] theorem State.acquireAt_peers (s : State) (i : Nat) (sc : Scope) : (s.acquireAt i sc).peers = s.peers := by cases sc <;> rfl
@[simp] theorem State.acquireAt_resv (s : State) (i : Nat) (sc : Scope) : (s.acquireAt i sc).resv = s.resv := by cases sc <;> rfl
@[simp] theorem State.acquireAt_cells (s : State) (i : Nat) (sc : Scope) : (s.acquireAt i sc).cells = s.cells := by cases sc <;> rfl
@[simp] theorem State.acquireAt_sent (s : State) (i : Nat) (sc : Scope) : (s.acquireAt i sc).sent = s.sent := by cases sc <;> rfl
@[simp] theorem State.acquireAt_slots (s : State) (i : Nat) (sc : Scope) : (s.acquireAt i sc).slots = s.slots := by cases sc <;> rfl
@[simp] theorem State.acquireAt_announced (s : State) (i : Nat) (sc : Scope) : (s.acquireAt i sc).announced = s.announced := by cases sc <;> rfl
@[simp] theorem State.acquireAt_time (s : State) (i : Nat) (sc : Scope) : (s.acquireAt i sc).time = s.time := by cases sc <;> rfl
@[simp] theorem State.acquireAt_locked (s : State) (i : Nat) (sc : Scope) : (s.acquireAt i sc).locked = s.locked := by cases sc <;> rfl
@[simp] theorem State.acquireAt_good (s : State) (i : Nat) (sc : Scope) : (s.acquireAt i sc).good = s.good := by cases sc <;> rfl
@[simp] theorem State.acquireAt_everLocked (s : State) (i : Nat) (sc : Scope) : (s.acquireAt i sc).everLocked = s.everLocked := by cases sc <;> rfl
@[simp] theorem State.acquireAt_cfg (s : State) (i : Nat) (sc : Scope) : (s.acquireAt i sc).cfg = s.cfg := by cases sc <;> rfl
@[simp] theorem State.acquireAt_flash (s : State) (i : Nat) (sc : Scope) : (s.acquireAt i sc).flash = s.flash := by cases sc <;> rfl
@[simp] theorem State.acquireAt_incarn (s : State) (i : Nat) (sc : Scope) : (s.acquireAt i sc).incarn = s.incarn := by cases sc <;> rfl
@[simp] theorem State.acquireAt_stored (s : State) (i : Nat) (sc : Scope) : (s.acquireAt i sc).stored = s.stored := by cases sc <;> rfl
@[simp] theorem State.acquireAt_life (s : State) (i : Nat) (sc : Scope) : (s.acquireAt i sc).life = s.life := by cases sc <;> rfl
@[simp] theorem State.acquireAt_lifeFlash (s : State) (i : Nat) (sc : Scope) : (s.acquireAt i sc).lifeFlash = s.lifeFlash := by cases sc <;> rfl
@[simp] theorem State.acquireAt_sensors (s : State) (i : Nat) (sc : Scope) : (s.acquireAt i sc).sensors = s.sensors := by cases sc <;> rfl
@[simp] theorem State.acquireAt_replies (s : State) (i : Nat) (sc : Scope) : (s.acquireAt i sc).replies = s.replies := by cases sc <;> rfl
@[simp] theorem State.acquireAt_hostReplies (s : State) (i : Nat) (sc : Scope) : (s.acquireAt i sc).hostReplies = s.hostReplies := by cases sc <;> rfl
@[simp] theorem State.acquireAt_powered (s : State) (i : Nat) (sc : Scope) : (s.acquireAt i sc).powered = s.powered := by cases sc <;> rfl
@[simp] theorem State.acquireAt_agenda (s : State) (i : Nat) (sc : Scope) : (s.acquireAt i sc).agenda = s.agenda := by cases sc <;> rfl
@[simp] theorem State.acquireAt_arg (s : State) (i : Nat) (sc : Scope) : (s.acquireAt i sc).arg = s.arg := by cases sc <;> rfl
@[simp] theorem State.acquireAt_cur (s : State) (i : Nat) (sc : Scope) : (s.acquireAt i sc).cur = s.cur := by cases sc <;> rfl
@[simp] theorem State.acquireAt_budget (s : State) (i : Nat) (sc : Scope) : (s.acquireAt i sc).budget = s.budget := by cases sc <;> rfl
@[simp] theorem State.acquireAt_fresh (s : State) (i : Nat) (sc : Scope) : (s.acquireAt i sc).fresh = s.fresh := by cases sc <;> rfl

/-! ### publish -/

@[simp] theorem State.publish_mem (s : State) (i : Nat) (sc : Scope) : (s.publish i sc).mem = s.mem := by cases sc with | cluster => exact State.share_mem _ _ | _ => rfl
@[simp] theorem State.publish_mpoison (s : State) (i : Nat) (sc : Scope) : (s.publish i sc).mpoison = s.mpoison := by cases sc with | cluster => exact State.share_mpoison _ _ | _ => rfl
@[simp] theorem State.publish_dchans (s : State) (i : Nat) (sc : Scope) : (s.publish i sc).dchans = s.dchans := by cases sc with | cluster => exact State.share_dchans _ _ | _ => rfl
@[simp] theorem State.publish_dmask (s : State) (i : Nat) (sc : Scope) : (s.publish i sc).dmask = s.dmask := by cases sc with | cluster => exact State.share_dmask _ _ | _ => rfl
@[simp] theorem State.publish_dclus (s : State) (i : Nat) (sc : Scope) : (s.publish i sc).dclus = s.dclus := by cases sc with | cluster => exact State.share_dclus _ _ | _ => rfl
@[simp] theorem State.publish_handles (s : State) (i : Nat) (sc : Scope) : (s.publish i sc).handles = s.handles := by cases sc with | cluster => exact State.share_handles _ _ | _ => rfl
@[simp] theorem State.publish_cmds (s : State) (i : Nat) (sc : Scope) : (s.publish i sc).cmds = s.cmds := by cases sc with | cluster => exact State.share_cmds _ _ | _ => rfl
@[simp] theorem State.publish_wires (s : State) (i : Nat) (sc : Scope) : (s.publish i sc).wires = s.wires := by cases sc with | cluster => exact State.share_wires _ _ | _ => rfl
@[simp] theorem State.publish_launches (s : State) (i : Nat) (sc : Scope) : (s.publish i sc).launches = s.launches := by cases sc with | cluster => exact State.share_launches _ _ | _ => rfl
@[simp] theorem State.publish_parts (s : State) (i : Nat) (sc : Scope) : (s.publish i sc).parts = s.parts := by cases sc with | cluster => exact State.share_parts _ _ | _ => rfl
@[simp] theorem State.publish_holds (s : State) (i : Nat) (sc : Scope) : (s.publish i sc).holds = s.holds := by cases sc with | cluster => exact State.share_holds _ _ | _ => rfl
@[simp] theorem State.publish_tickets (s : State) (i : Nat) (sc : Scope) : (s.publish i sc).tickets = s.tickets := by cases sc with | cluster => exact State.share_tickets _ _ | _ => rfl
@[simp] theorem State.publish_grans (s : State) (i : Nat) (sc : Scope) : (s.publish i sc).grans = s.grans := by cases sc with | cluster => exact State.share_grans _ _ | _ => rfl
@[simp] theorem State.publish_reds (s : State) (i : Nat) (sc : Scope) : (s.publish i sc).reds = s.reds := by cases sc with | cluster => exact State.share_reds _ _ | _ => rfl
@[simp] theorem State.publish_rankSlots (s : State) (i : Nat) (sc : Scope) : (s.publish i sc).rankSlots = s.rankSlots := by cases sc with | cluster => exact State.share_rankSlots _ _ | _ => rfl
@[simp] theorem State.publish_hist (s : State) (i : Nat) (sc : Scope) : (s.publish i sc).hist = s.hist := by cases sc with | cluster => exact State.share_hist _ _ | _ => rfl
@[simp] theorem State.publish_hostPub (s : State) (i : Nat) (sc : Scope) : (s.publish i sc).hostPub = s.hostPub := by cases sc with | cluster => exact State.share_hostPub _ _ | _ => rfl
@[simp] theorem State.publish_conflicts (s : State) (i : Nat) (sc : Scope) : (s.publish i sc).conflicts = s.conflicts := by cases sc with | cluster => exact State.share_conflicts _ _ | _ => rfl
@[simp] theorem State.publish_serial (s : State) (i : Nat) (sc : Scope) : (s.publish i sc).serial = s.serial := by cases sc with | cluster => exact State.share_serial _ _ | _ => rfl
@[simp] theorem State.publish_owed (s : State) (i : Nat) (sc : Scope) : (s.publish i sc).owed = s.owed := by cases sc with | cluster => exact State.share_owed _ _ | _ => rfl
@[simp] theorem State.publish_parcels (s : State) (i : Nat) (sc : Scope) : (s.publish i sc).parcels = s.parcels := by cases sc with | cluster => exact State.share_parcels _ _ | _ => rfl
@[simp] theorem State.publish_chains (s : State) (i : Nat) (sc : Scope) : (s.publish i sc).chains = s.chains := by cases sc with | cluster => exact State.share_chains _ _ | _ => rfl
@[simp] theorem State.publish_peers (s : State) (i : Nat) (sc : Scope) : (s.publish i sc).peers = s.peers := by cases sc with | cluster => exact State.share_peers _ _ | _ => rfl
@[simp] theorem State.publish_resv (s : State) (i : Nat) (sc : Scope) : (s.publish i sc).resv = s.resv := by cases sc with | cluster => exact State.share_resv _ _ | _ => rfl
@[simp] theorem State.publish_cells (s : State) (i : Nat) (sc : Scope) : (s.publish i sc).cells = s.cells := by cases sc with | cluster => exact State.share_cells _ _ | _ => rfl
@[simp] theorem State.publish_sent (s : State) (i : Nat) (sc : Scope) : (s.publish i sc).sent = s.sent := by cases sc with | cluster => exact State.share_sent _ _ | _ => rfl
@[simp] theorem State.publish_slots (s : State) (i : Nat) (sc : Scope) : (s.publish i sc).slots = s.slots := by cases sc with | cluster => exact State.share_slots _ _ | _ => rfl
@[simp] theorem State.publish_announced (s : State) (i : Nat) (sc : Scope) : (s.publish i sc).announced = s.announced := by cases sc with | cluster => exact State.share_announced _ _ | _ => rfl
@[simp] theorem State.publish_time (s : State) (i : Nat) (sc : Scope) : (s.publish i sc).time = s.time := by cases sc with | cluster => exact State.share_time _ _ | _ => rfl
@[simp] theorem State.publish_locked (s : State) (i : Nat) (sc : Scope) : (s.publish i sc).locked = s.locked := by cases sc with | cluster => exact State.share_locked _ _ | _ => rfl
@[simp] theorem State.publish_good (s : State) (i : Nat) (sc : Scope) : (s.publish i sc).good = s.good := by cases sc with | cluster => exact State.share_good _ _ | _ => rfl
@[simp] theorem State.publish_everLocked (s : State) (i : Nat) (sc : Scope) : (s.publish i sc).everLocked = s.everLocked := by cases sc with | cluster => exact State.share_everLocked _ _ | _ => rfl
@[simp] theorem State.publish_cfg (s : State) (i : Nat) (sc : Scope) : (s.publish i sc).cfg = s.cfg := by cases sc with | cluster => exact State.share_cfg _ _ | _ => rfl
@[simp] theorem State.publish_flash (s : State) (i : Nat) (sc : Scope) : (s.publish i sc).flash = s.flash := by cases sc with | cluster => exact State.share_flash _ _ | _ => rfl
@[simp] theorem State.publish_incarn (s : State) (i : Nat) (sc : Scope) : (s.publish i sc).incarn = s.incarn := by cases sc with | cluster => exact State.share_incarn _ _ | _ => rfl
@[simp] theorem State.publish_stored (s : State) (i : Nat) (sc : Scope) : (s.publish i sc).stored = s.stored := by cases sc with | cluster => exact State.share_stored _ _ | _ => rfl
@[simp] theorem State.publish_life (s : State) (i : Nat) (sc : Scope) : (s.publish i sc).life = s.life := by cases sc with | cluster => exact State.share_life _ _ | _ => rfl
@[simp] theorem State.publish_lifeFlash (s : State) (i : Nat) (sc : Scope) : (s.publish i sc).lifeFlash = s.lifeFlash := by cases sc with | cluster => exact State.share_lifeFlash _ _ | _ => rfl
@[simp] theorem State.publish_sensors (s : State) (i : Nat) (sc : Scope) : (s.publish i sc).sensors = s.sensors := by cases sc with | cluster => exact State.share_sensors _ _ | _ => rfl
@[simp] theorem State.publish_replies (s : State) (i : Nat) (sc : Scope) : (s.publish i sc).replies = s.replies := by cases sc with | cluster => exact State.share_replies _ _ | _ => rfl
@[simp] theorem State.publish_hostReplies (s : State) (i : Nat) (sc : Scope) : (s.publish i sc).hostReplies = s.hostReplies := by cases sc with | cluster => exact State.share_hostReplies _ _ | _ => rfl
@[simp] theorem State.publish_powered (s : State) (i : Nat) (sc : Scope) : (s.publish i sc).powered = s.powered := by cases sc with | cluster => exact State.share_powered _ _ | _ => rfl
@[simp] theorem State.publish_agenda (s : State) (i : Nat) (sc : Scope) : (s.publish i sc).agenda = s.agenda := by cases sc with | cluster => exact State.share_agenda _ _ | _ => rfl
@[simp] theorem State.publish_arg (s : State) (i : Nat) (sc : Scope) : (s.publish i sc).arg = s.arg := by cases sc with | cluster => exact State.share_arg _ _ | _ => rfl
@[simp] theorem State.publish_cur (s : State) (i : Nat) (sc : Scope) : (s.publish i sc).cur = s.cur := by cases sc with | cluster => exact State.share_cur _ _ | _ => rfl
@[simp] theorem State.publish_budget (s : State) (i : Nat) (sc : Scope) : (s.publish i sc).budget = s.budget := by cases sc with | cluster => exact State.share_budget _ _ | _ => rfl
@[simp] theorem State.publish_fresh (s : State) (i : Nat) (sc : Scope) : (s.publish i sc).fresh = s.fresh := by cases sc with | cluster => exact State.share_fresh _ _ | _ => rfl

/-! ### Updates of a core -/

@[simp] theorem Core.setS_v (c : Core) (r : Nat) (x : Word) : (c.setS r x).v = c.v := by unfold Core.setS; split <;> rfl
@[simp] theorem Core.setS_k (c : Core) (r : Nat) (x : Word) : (c.setS r x).k = c.k := by unfold Core.setS; split <;> rfl
@[simp] theorem Core.setS_shadow (c : Core) (r : Nat) (x : Word) : (c.setS r x).shadow = c.shadow := by unfold Core.setS; split <;> rfl
@[simp] theorem Core.setS_pc (c : Core) (r : Nat) (x : Word) : (c.setS r x).pc = c.pc := by unfold Core.setS; split <;> rfl
@[simp] theorem Core.setS_slot (c : Core) (r : Nat) (x : Word) : (c.setS r x).slot = c.slot := by unfold Core.setS; split <;> rfl
@[simp] theorem Core.setS_pfx (c : Core) (r : Nat) (x : Word) : (c.setS r x).pfx = c.pfx := by unfold Core.setS; split <;> rfl
@[simp] theorem Core.setS_pfxPc (c : Core) (r : Nat) (x : Word) : (c.setS r x).pfxPc = c.pfxPc := by unfold Core.setS; split <;> rfl
@[simp] theorem Core.setS_sys (c : Core) (r : Nat) (x : Word) : (c.setS r x).sys = c.sys := by unfold Core.setS; split <;> rfl
@[simp] theorem Core.setS_frame (c : Core) (r : Nat) (x : Word) : (c.setS r x).frame = c.frame := by unfold Core.setS; split <;> rfl
@[simp] theorem Core.setS_tx (c : Core) (r : Nat) (x : Word) : (c.setS r x).tx = c.tx := by unfold Core.setS; split <;> rfl
@[simp] theorem Core.setS_strm (c : Core) (r : Nat) (x : Word) : (c.setS r x).strm = c.strm := by unfold Core.setS; split <;> rfl
@[simp] theorem Core.setS_bank (c : Core) (r : Nat) (x : Word) : (c.setS r x).bank = c.bank := by unfold Core.setS; split <;> rfl
@[simp] theorem Core.setS_run (c : Core) (r : Nat) (x : Word) : (c.setS r x).run = c.run := by unfold Core.setS; split <;> rfl
@[simp] theorem Core.setS_current (c : Core) (r : Nat) (x : Word) : (c.setS r x).current = c.current := by unfold Core.setS; split <;> rfl
@[simp] theorem Core.setS_coord (c : Core) (r : Nat) (x : Word) : (c.setS r x).coord = c.coord := by unfold Core.setS; split <;> rfl
@[simp] theorem Core.setS_phasec (c : Core) (r : Nat) (x : Word) : (c.setS r x).phasec = c.phasec := by unfold Core.setS; split <;> rfl
@[simp] theorem Core.setS_bwait (c : Core) (r : Nat) (x : Word) : (c.setS r x).bwait = c.bwait := by unfold Core.setS; split <;> rfl
@[simp] theorem Core.setS_bgen (c : Core) (r : Nat) (x : Word) : (c.setS r x).bgen = c.bgen := by unfold Core.setS; split <;> rfl
@[simp] theorem Core.setS_allocs (c : Core) (r : Nat) (x : Word) : (c.setS r x).allocs = c.allocs := by unfold Core.setS; split <;> rfl
@[simp] theorem Core.setS_sb (c : Core) (r : Nat) (x : Word) : (c.setS r x).sb = c.sb := by unfold Core.setS; split <;> rfl
@[simp] theorem Core.setS_loads (c : Core) (r : Nat) (x : Word) : (c.setS r x).loads = c.loads := by unfold Core.setS; split <;> rfl
@[simp] theorem Core.setS_l1d (c : Core) (r : Nat) (x : Word) : (c.setS r x).l1d = c.l1d := by unfold Core.setS; split <;> rfl
@[simp] theorem Core.setS_l1i (c : Core) (r : Nat) (x : Word) : (c.setS r x).l1i = c.l1i := by unfold Core.setS; split <;> rfl
@[simp] theorem Core.setS_hview (c : Core) (r : Nat) (x : Word) : (c.setS r x).hview = c.hview := by unfold Core.setS; split <;> rfl
@[simp] theorem Core.setS_late (c : Core) (r : Nat) (x : Word) : (c.setS r x).late = c.late := by unfold Core.setS; split <;> rfl
@[simp] theorem Core.setS_defer (c : Core) (r : Nat) (x : Word) : (c.setS r x).defer = c.defer := by unfold Core.setS; split <;> rfl
@[simp] theorem Core.setS_relEp (c : Core) (r : Nat) (x : Word) : (c.setS r x).relEp = c.relEp := by unfold Core.setS; split <;> rfl
@[simp] theorem Core.setS_acqEp (c : Core) (r : Nat) (x : Word) : (c.setS r x).acqEp = c.acqEp := by unfold Core.setS; split <;> rfl
@[simp] theorem Core.setS_fullEp (c : Core) (r : Nat) (x : Word) : (c.setS r x).fullEp = c.fullEp := by unfold Core.setS; split <;> rfl
@[simp] theorem Core.setS_rmw (c : Core) (r : Nat) (x : Word) : (c.setS r x).rmw = c.rmw := by unfold Core.setS; split <;> rfl
@[simp] theorem Core.setS_itlb (c : Core) (r : Nat) (x : Word) : (c.setS r x).itlb = c.itlb := by unfold Core.setS; split <;> rfl
@[simp] theorem Core.setS_dtlb (c : Core) (r : Nat) (x : Word) : (c.setS r x).dtlb = c.dtlb := by unfold Core.setS; split <;> rfl
@[simp] theorem Core.setS_poison (c : Core) (r : Nat) (x : Word) : (c.setS r x).poison = c.poison := by unfold Core.setS; split <;> rfl
@[simp] theorem Core.setS_arr (c : Core) (r : Nat) (x : Word) : (c.setS r x).arr = c.arr := by unfold Core.setS; split <;> rfl
@[simp] theorem Core.setS_ir (c : Core) (r : Nat) (x : Word) : (c.setS r x).ir = c.ir := by unfold Core.setS; split <;> rfl
@[simp] theorem Core.setS_txq (c : Core) (r : Nat) (x : Word) : (c.setS r x).txq = c.txq := by unfold Core.setS; split <;> rfl
@[simp] theorem Core.setS_outq (c : Core) (r : Nat) (x : Word) : (c.setS r x).outq = c.outq := by unfold Core.setS; split <;> rfl
@[simp] theorem Core.setS_stalled (c : Core) (r : Nat) (x : Word) : (c.setS r x).stalled = c.stalled := by unfold Core.setS; split <;> rfl
@[simp] theorem Core.setS_preempt (c : Core) (r : Nat) (x : Word) : (c.setS r x).preempt = c.preempt := by unfold Core.setS; split <;> rfl
@[simp] theorem Core.setS_begun (c : Core) (r : Nat) (x : Word) : (c.setS r x).begun = c.begun := by unfold Core.setS; split <;> rfl
@[simp] theorem Core.setS_pushing (c : Core) (r : Nat) (x : Word) : (c.setS r x).pushing = c.pushing := by unfold Core.setS; split <;> rfl
@[simp] theorem Core.setK_s (c : Core) (r : Nat) (x : Word) : (c.setK r x).s = c.s := rfl
@[simp] theorem Core.setK_v (c : Core) (r : Nat) (x : Word) : (c.setK r x).v = c.v := rfl
@[simp] theorem Core.setK_shadow (c : Core) (r : Nat) (x : Word) : (c.setK r x).shadow = c.shadow := rfl
@[simp] theorem Core.setK_pc (c : Core) (r : Nat) (x : Word) : (c.setK r x).pc = c.pc := rfl
@[simp] theorem Core.setK_slot (c : Core) (r : Nat) (x : Word) : (c.setK r x).slot = c.slot := rfl
@[simp] theorem Core.setK_pfx (c : Core) (r : Nat) (x : Word) : (c.setK r x).pfx = c.pfx := rfl
@[simp] theorem Core.setK_pfxPc (c : Core) (r : Nat) (x : Word) : (c.setK r x).pfxPc = c.pfxPc := rfl
@[simp] theorem Core.setK_sys (c : Core) (r : Nat) (x : Word) : (c.setK r x).sys = c.sys := rfl
@[simp] theorem Core.setK_frame (c : Core) (r : Nat) (x : Word) : (c.setK r x).frame = c.frame := rfl
@[simp] theorem Core.setK_tx (c : Core) (r : Nat) (x : Word) : (c.setK r x).tx = c.tx := rfl
@[simp] theorem Core.setK_strm (c : Core) (r : Nat) (x : Word) : (c.setK r x).strm = c.strm := rfl
@[simp] theorem Core.setK_bank (c : Core) (r : Nat) (x : Word) : (c.setK r x).bank = c.bank := rfl
@[simp] theorem Core.setK_run (c : Core) (r : Nat) (x : Word) : (c.setK r x).run = c.run := rfl
@[simp] theorem Core.setK_current (c : Core) (r : Nat) (x : Word) : (c.setK r x).current = c.current := rfl
@[simp] theorem Core.setK_coord (c : Core) (r : Nat) (x : Word) : (c.setK r x).coord = c.coord := rfl
@[simp] theorem Core.setK_phasec (c : Core) (r : Nat) (x : Word) : (c.setK r x).phasec = c.phasec := rfl
@[simp] theorem Core.setK_bwait (c : Core) (r : Nat) (x : Word) : (c.setK r x).bwait = c.bwait := rfl
@[simp] theorem Core.setK_bgen (c : Core) (r : Nat) (x : Word) : (c.setK r x).bgen = c.bgen := rfl
@[simp] theorem Core.setK_allocs (c : Core) (r : Nat) (x : Word) : (c.setK r x).allocs = c.allocs := rfl
@[simp] theorem Core.setK_sb (c : Core) (r : Nat) (x : Word) : (c.setK r x).sb = c.sb := rfl
@[simp] theorem Core.setK_loads (c : Core) (r : Nat) (x : Word) : (c.setK r x).loads = c.loads := rfl
@[simp] theorem Core.setK_l1d (c : Core) (r : Nat) (x : Word) : (c.setK r x).l1d = c.l1d := rfl
@[simp] theorem Core.setK_l1i (c : Core) (r : Nat) (x : Word) : (c.setK r x).l1i = c.l1i := rfl
@[simp] theorem Core.setK_hview (c : Core) (r : Nat) (x : Word) : (c.setK r x).hview = c.hview := rfl
@[simp] theorem Core.setK_late (c : Core) (r : Nat) (x : Word) : (c.setK r x).late = c.late := rfl
@[simp] theorem Core.setK_defer (c : Core) (r : Nat) (x : Word) : (c.setK r x).defer = c.defer := rfl
@[simp] theorem Core.setK_relEp (c : Core) (r : Nat) (x : Word) : (c.setK r x).relEp = c.relEp := rfl
@[simp] theorem Core.setK_acqEp (c : Core) (r : Nat) (x : Word) : (c.setK r x).acqEp = c.acqEp := rfl
@[simp] theorem Core.setK_fullEp (c : Core) (r : Nat) (x : Word) : (c.setK r x).fullEp = c.fullEp := rfl
@[simp] theorem Core.setK_rmw (c : Core) (r : Nat) (x : Word) : (c.setK r x).rmw = c.rmw := rfl
@[simp] theorem Core.setK_itlb (c : Core) (r : Nat) (x : Word) : (c.setK r x).itlb = c.itlb := rfl
@[simp] theorem Core.setK_dtlb (c : Core) (r : Nat) (x : Word) : (c.setK r x).dtlb = c.dtlb := rfl
@[simp] theorem Core.setK_poison (c : Core) (r : Nat) (x : Word) : (c.setK r x).poison = c.poison := rfl
@[simp] theorem Core.setK_arr (c : Core) (r : Nat) (x : Word) : (c.setK r x).arr = c.arr := rfl
@[simp] theorem Core.setK_ir (c : Core) (r : Nat) (x : Word) : (c.setK r x).ir = c.ir := rfl
@[simp] theorem Core.setK_txq (c : Core) (r : Nat) (x : Word) : (c.setK r x).txq = c.txq := rfl
@[simp] theorem Core.setK_outq (c : Core) (r : Nat) (x : Word) : (c.setK r x).outq = c.outq := rfl
@[simp] theorem Core.setK_stalled (c : Core) (r : Nat) (x : Word) : (c.setK r x).stalled = c.stalled := rfl
@[simp] theorem Core.setK_preempt (c : Core) (r : Nat) (x : Word) : (c.setK r x).preempt = c.preempt := rfl
@[simp] theorem Core.setK_begun (c : Core) (r : Nat) (x : Word) : (c.setK r x).begun = c.begun := rfl
@[simp] theorem Core.setK_pushing (c : Core) (r : Nat) (x : Word) : (c.setK r x).pushing = c.pushing := rfl
@[simp] theorem Core.setV_s (c : Core) (r : Nat) (x : Vec) : (c.setV r x).s = c.s := rfl
@[simp] theorem Core.setV_k (c : Core) (r : Nat) (x : Vec) : (c.setV r x).k = c.k := rfl
@[simp] theorem Core.setV_shadow (c : Core) (r : Nat) (x : Vec) : (c.setV r x).shadow = c.shadow := rfl
@[simp] theorem Core.setV_pc (c : Core) (r : Nat) (x : Vec) : (c.setV r x).pc = c.pc := rfl
@[simp] theorem Core.setV_slot (c : Core) (r : Nat) (x : Vec) : (c.setV r x).slot = c.slot := rfl
@[simp] theorem Core.setV_pfx (c : Core) (r : Nat) (x : Vec) : (c.setV r x).pfx = c.pfx := rfl
@[simp] theorem Core.setV_pfxPc (c : Core) (r : Nat) (x : Vec) : (c.setV r x).pfxPc = c.pfxPc := rfl
@[simp] theorem Core.setV_sys (c : Core) (r : Nat) (x : Vec) : (c.setV r x).sys = c.sys := rfl
@[simp] theorem Core.setV_frame (c : Core) (r : Nat) (x : Vec) : (c.setV r x).frame = c.frame := rfl
@[simp] theorem Core.setV_tx (c : Core) (r : Nat) (x : Vec) : (c.setV r x).tx = c.tx := rfl
@[simp] theorem Core.setV_strm (c : Core) (r : Nat) (x : Vec) : (c.setV r x).strm = c.strm := rfl
@[simp] theorem Core.setV_bank (c : Core) (r : Nat) (x : Vec) : (c.setV r x).bank = c.bank := rfl
@[simp] theorem Core.setV_run (c : Core) (r : Nat) (x : Vec) : (c.setV r x).run = c.run := rfl
@[simp] theorem Core.setV_current (c : Core) (r : Nat) (x : Vec) : (c.setV r x).current = c.current := rfl
@[simp] theorem Core.setV_coord (c : Core) (r : Nat) (x : Vec) : (c.setV r x).coord = c.coord := rfl
@[simp] theorem Core.setV_phasec (c : Core) (r : Nat) (x : Vec) : (c.setV r x).phasec = c.phasec := rfl
@[simp] theorem Core.setV_bwait (c : Core) (r : Nat) (x : Vec) : (c.setV r x).bwait = c.bwait := rfl
@[simp] theorem Core.setV_bgen (c : Core) (r : Nat) (x : Vec) : (c.setV r x).bgen = c.bgen := rfl
@[simp] theorem Core.setV_allocs (c : Core) (r : Nat) (x : Vec) : (c.setV r x).allocs = c.allocs := rfl
@[simp] theorem Core.setV_sb (c : Core) (r : Nat) (x : Vec) : (c.setV r x).sb = c.sb := rfl
@[simp] theorem Core.setV_loads (c : Core) (r : Nat) (x : Vec) : (c.setV r x).loads = c.loads := rfl
@[simp] theorem Core.setV_l1d (c : Core) (r : Nat) (x : Vec) : (c.setV r x).l1d = c.l1d := rfl
@[simp] theorem Core.setV_l1i (c : Core) (r : Nat) (x : Vec) : (c.setV r x).l1i = c.l1i := rfl
@[simp] theorem Core.setV_hview (c : Core) (r : Nat) (x : Vec) : (c.setV r x).hview = c.hview := rfl
@[simp] theorem Core.setV_late (c : Core) (r : Nat) (x : Vec) : (c.setV r x).late = c.late := rfl
@[simp] theorem Core.setV_defer (c : Core) (r : Nat) (x : Vec) : (c.setV r x).defer = c.defer := rfl
@[simp] theorem Core.setV_relEp (c : Core) (r : Nat) (x : Vec) : (c.setV r x).relEp = c.relEp := rfl
@[simp] theorem Core.setV_acqEp (c : Core) (r : Nat) (x : Vec) : (c.setV r x).acqEp = c.acqEp := rfl
@[simp] theorem Core.setV_fullEp (c : Core) (r : Nat) (x : Vec) : (c.setV r x).fullEp = c.fullEp := rfl
@[simp] theorem Core.setV_rmw (c : Core) (r : Nat) (x : Vec) : (c.setV r x).rmw = c.rmw := rfl
@[simp] theorem Core.setV_itlb (c : Core) (r : Nat) (x : Vec) : (c.setV r x).itlb = c.itlb := rfl
@[simp] theorem Core.setV_dtlb (c : Core) (r : Nat) (x : Vec) : (c.setV r x).dtlb = c.dtlb := rfl
@[simp] theorem Core.setV_poison (c : Core) (r : Nat) (x : Vec) : (c.setV r x).poison = c.poison := rfl
@[simp] theorem Core.setV_arr (c : Core) (r : Nat) (x : Vec) : (c.setV r x).arr = c.arr := rfl
@[simp] theorem Core.setV_ir (c : Core) (r : Nat) (x : Vec) : (c.setV r x).ir = c.ir := rfl
@[simp] theorem Core.setV_txq (c : Core) (r : Nat) (x : Vec) : (c.setV r x).txq = c.txq := rfl
@[simp] theorem Core.setV_outq (c : Core) (r : Nat) (x : Vec) : (c.setV r x).outq = c.outq := rfl
@[simp] theorem Core.setV_stalled (c : Core) (r : Nat) (x : Vec) : (c.setV r x).stalled = c.stalled := rfl
@[simp] theorem Core.setV_preempt (c : Core) (r : Nat) (x : Vec) : (c.setV r x).preempt = c.preempt := rfl
@[simp] theorem Core.setV_begun (c : Core) (r : Nat) (x : Vec) : (c.setV r x).begun = c.begun := rfl
@[simp] theorem Core.setV_pushing (c : Core) (r : Nat) (x : Vec) : (c.setV r x).pushing = c.pushing := rfl
@[simp] theorem Core.setTl_s (c : Core) (t : Nat) (x : Timeline) : (c.setTl t x).s = c.s := rfl
@[simp] theorem Core.setTl_v (c : Core) (t : Nat) (x : Timeline) : (c.setTl t x).v = c.v := rfl
@[simp] theorem Core.setTl_k (c : Core) (t : Nat) (x : Timeline) : (c.setTl t x).k = c.k := rfl
@[simp] theorem Core.setTl_shadow (c : Core) (t : Nat) (x : Timeline) : (c.setTl t x).shadow = c.shadow := rfl
@[simp] theorem Core.setTl_pc (c : Core) (t : Nat) (x : Timeline) : (c.setTl t x).pc = c.pc := rfl
@[simp] theorem Core.setTl_slot (c : Core) (t : Nat) (x : Timeline) : (c.setTl t x).slot = c.slot := rfl
@[simp] theorem Core.setTl_pfx (c : Core) (t : Nat) (x : Timeline) : (c.setTl t x).pfx = c.pfx := rfl
@[simp] theorem Core.setTl_pfxPc (c : Core) (t : Nat) (x : Timeline) : (c.setTl t x).pfxPc = c.pfxPc := rfl
@[simp] theorem Core.setTl_sys (c : Core) (t : Nat) (x : Timeline) : (c.setTl t x).sys = c.sys := rfl
@[simp] theorem Core.setTl_frame (c : Core) (t : Nat) (x : Timeline) : (c.setTl t x).frame = c.frame := rfl
@[simp] theorem Core.setTl_tx (c : Core) (t : Nat) (x : Timeline) : (c.setTl t x).tx = c.tx := rfl
@[simp] theorem Core.setTl_strm (c : Core) (t : Nat) (x : Timeline) : (c.setTl t x).strm = c.strm := rfl
@[simp] theorem Core.setTl_run (c : Core) (t : Nat) (x : Timeline) : (c.setTl t x).run = c.run := rfl
@[simp] theorem Core.setTl_current (c : Core) (t : Nat) (x : Timeline) : (c.setTl t x).current = c.current := rfl
@[simp] theorem Core.setTl_coord (c : Core) (t : Nat) (x : Timeline) : (c.setTl t x).coord = c.coord := rfl
@[simp] theorem Core.setTl_phasec (c : Core) (t : Nat) (x : Timeline) : (c.setTl t x).phasec = c.phasec := rfl
@[simp] theorem Core.setTl_bwait (c : Core) (t : Nat) (x : Timeline) : (c.setTl t x).bwait = c.bwait := rfl
@[simp] theorem Core.setTl_bgen (c : Core) (t : Nat) (x : Timeline) : (c.setTl t x).bgen = c.bgen := rfl
@[simp] theorem Core.setTl_allocs (c : Core) (t : Nat) (x : Timeline) : (c.setTl t x).allocs = c.allocs := rfl
@[simp] theorem Core.setTl_sb (c : Core) (t : Nat) (x : Timeline) : (c.setTl t x).sb = c.sb := rfl
@[simp] theorem Core.setTl_loads (c : Core) (t : Nat) (x : Timeline) : (c.setTl t x).loads = c.loads := rfl
@[simp] theorem Core.setTl_l1d (c : Core) (t : Nat) (x : Timeline) : (c.setTl t x).l1d = c.l1d := rfl
@[simp] theorem Core.setTl_l1i (c : Core) (t : Nat) (x : Timeline) : (c.setTl t x).l1i = c.l1i := rfl
@[simp] theorem Core.setTl_hview (c : Core) (t : Nat) (x : Timeline) : (c.setTl t x).hview = c.hview := rfl
@[simp] theorem Core.setTl_late (c : Core) (t : Nat) (x : Timeline) : (c.setTl t x).late = c.late := rfl
@[simp] theorem Core.setTl_defer (c : Core) (t : Nat) (x : Timeline) : (c.setTl t x).defer = c.defer := rfl
@[simp] theorem Core.setTl_relEp (c : Core) (t : Nat) (x : Timeline) : (c.setTl t x).relEp = c.relEp := rfl
@[simp] theorem Core.setTl_acqEp (c : Core) (t : Nat) (x : Timeline) : (c.setTl t x).acqEp = c.acqEp := rfl
@[simp] theorem Core.setTl_fullEp (c : Core) (t : Nat) (x : Timeline) : (c.setTl t x).fullEp = c.fullEp := rfl
@[simp] theorem Core.setTl_rmw (c : Core) (t : Nat) (x : Timeline) : (c.setTl t x).rmw = c.rmw := rfl
@[simp] theorem Core.setTl_itlb (c : Core) (t : Nat) (x : Timeline) : (c.setTl t x).itlb = c.itlb := rfl
@[simp] theorem Core.setTl_dtlb (c : Core) (t : Nat) (x : Timeline) : (c.setTl t x).dtlb = c.dtlb := rfl
@[simp] theorem Core.setTl_poison (c : Core) (t : Nat) (x : Timeline) : (c.setTl t x).poison = c.poison := rfl
@[simp] theorem Core.setTl_arr (c : Core) (t : Nat) (x : Timeline) : (c.setTl t x).arr = c.arr := rfl
@[simp] theorem Core.setTl_ir (c : Core) (t : Nat) (x : Timeline) : (c.setTl t x).ir = c.ir := rfl
@[simp] theorem Core.setTl_txq (c : Core) (t : Nat) (x : Timeline) : (c.setTl t x).txq = c.txq := rfl
@[simp] theorem Core.setTl_outq (c : Core) (t : Nat) (x : Timeline) : (c.setTl t x).outq = c.outq := rfl
@[simp] theorem Core.setTl_stalled (c : Core) (t : Nat) (x : Timeline) : (c.setTl t x).stalled = c.stalled := rfl
@[simp] theorem Core.setTl_preempt (c : Core) (t : Nat) (x : Timeline) : (c.setTl t x).preempt = c.preempt := rfl
@[simp] theorem Core.setTl_begun (c : Core) (t : Nat) (x : Timeline) : (c.setTl t x).begun = c.begun := rfl
@[simp] theorem Core.setTl_pushing (c : Core) (t : Nat) (x : Timeline) : (c.setTl t x).pushing = c.pushing := rfl
@[simp] theorem Core.setTxp_s (c : Core) (p : Nat) (x : TxPort) : (c.setTxp p x).s = c.s := rfl
@[simp] theorem Core.setTxp_v (c : Core) (p : Nat) (x : TxPort) : (c.setTxp p x).v = c.v := rfl
@[simp] theorem Core.setTxp_k (c : Core) (p : Nat) (x : TxPort) : (c.setTxp p x).k = c.k := rfl
@[simp] theorem Core.setTxp_shadow (c : Core) (p : Nat) (x : TxPort) : (c.setTxp p x).shadow = c.shadow := rfl
@[simp] theorem Core.setTxp_pc (c : Core) (p : Nat) (x : TxPort) : (c.setTxp p x).pc = c.pc := rfl
@[simp] theorem Core.setTxp_slot (c : Core) (p : Nat) (x : TxPort) : (c.setTxp p x).slot = c.slot := rfl
@[simp] theorem Core.setTxp_pfx (c : Core) (p : Nat) (x : TxPort) : (c.setTxp p x).pfx = c.pfx := rfl
@[simp] theorem Core.setTxp_pfxPc (c : Core) (p : Nat) (x : TxPort) : (c.setTxp p x).pfxPc = c.pfxPc := rfl
@[simp] theorem Core.setTxp_sys (c : Core) (p : Nat) (x : TxPort) : (c.setTxp p x).sys = c.sys := rfl
@[simp] theorem Core.setTxp_frame (c : Core) (p : Nat) (x : TxPort) : (c.setTxp p x).frame = c.frame := rfl
@[simp] theorem Core.setTxp_strm (c : Core) (p : Nat) (x : TxPort) : (c.setTxp p x).strm = c.strm := rfl
@[simp] theorem Core.setTxp_bank (c : Core) (p : Nat) (x : TxPort) : (c.setTxp p x).bank = c.bank := rfl
@[simp] theorem Core.setTxp_run (c : Core) (p : Nat) (x : TxPort) : (c.setTxp p x).run = c.run := rfl
@[simp] theorem Core.setTxp_current (c : Core) (p : Nat) (x : TxPort) : (c.setTxp p x).current = c.current := rfl
@[simp] theorem Core.setTxp_coord (c : Core) (p : Nat) (x : TxPort) : (c.setTxp p x).coord = c.coord := rfl
@[simp] theorem Core.setTxp_phasec (c : Core) (p : Nat) (x : TxPort) : (c.setTxp p x).phasec = c.phasec := rfl
@[simp] theorem Core.setTxp_bwait (c : Core) (p : Nat) (x : TxPort) : (c.setTxp p x).bwait = c.bwait := rfl
@[simp] theorem Core.setTxp_bgen (c : Core) (p : Nat) (x : TxPort) : (c.setTxp p x).bgen = c.bgen := rfl
@[simp] theorem Core.setTxp_allocs (c : Core) (p : Nat) (x : TxPort) : (c.setTxp p x).allocs = c.allocs := rfl
@[simp] theorem Core.setTxp_sb (c : Core) (p : Nat) (x : TxPort) : (c.setTxp p x).sb = c.sb := rfl
@[simp] theorem Core.setTxp_loads (c : Core) (p : Nat) (x : TxPort) : (c.setTxp p x).loads = c.loads := rfl
@[simp] theorem Core.setTxp_l1d (c : Core) (p : Nat) (x : TxPort) : (c.setTxp p x).l1d = c.l1d := rfl
@[simp] theorem Core.setTxp_l1i (c : Core) (p : Nat) (x : TxPort) : (c.setTxp p x).l1i = c.l1i := rfl
@[simp] theorem Core.setTxp_hview (c : Core) (p : Nat) (x : TxPort) : (c.setTxp p x).hview = c.hview := rfl
@[simp] theorem Core.setTxp_late (c : Core) (p : Nat) (x : TxPort) : (c.setTxp p x).late = c.late := rfl
@[simp] theorem Core.setTxp_defer (c : Core) (p : Nat) (x : TxPort) : (c.setTxp p x).defer = c.defer := rfl
@[simp] theorem Core.setTxp_relEp (c : Core) (p : Nat) (x : TxPort) : (c.setTxp p x).relEp = c.relEp := rfl
@[simp] theorem Core.setTxp_acqEp (c : Core) (p : Nat) (x : TxPort) : (c.setTxp p x).acqEp = c.acqEp := rfl
@[simp] theorem Core.setTxp_fullEp (c : Core) (p : Nat) (x : TxPort) : (c.setTxp p x).fullEp = c.fullEp := rfl
@[simp] theorem Core.setTxp_rmw (c : Core) (p : Nat) (x : TxPort) : (c.setTxp p x).rmw = c.rmw := rfl
@[simp] theorem Core.setTxp_itlb (c : Core) (p : Nat) (x : TxPort) : (c.setTxp p x).itlb = c.itlb := rfl
@[simp] theorem Core.setTxp_dtlb (c : Core) (p : Nat) (x : TxPort) : (c.setTxp p x).dtlb = c.dtlb := rfl
@[simp] theorem Core.setTxp_poison (c : Core) (p : Nat) (x : TxPort) : (c.setTxp p x).poison = c.poison := rfl
@[simp] theorem Core.setTxp_arr (c : Core) (p : Nat) (x : TxPort) : (c.setTxp p x).arr = c.arr := rfl
@[simp] theorem Core.setTxp_ir (c : Core) (p : Nat) (x : TxPort) : (c.setTxp p x).ir = c.ir := rfl
@[simp] theorem Core.setTxp_txq (c : Core) (p : Nat) (x : TxPort) : (c.setTxp p x).txq = c.txq := rfl
@[simp] theorem Core.setTxp_outq (c : Core) (p : Nat) (x : TxPort) : (c.setTxp p x).outq = c.outq := rfl
@[simp] theorem Core.setTxp_stalled (c : Core) (p : Nat) (x : TxPort) : (c.setTxp p x).stalled = c.stalled := rfl
@[simp] theorem Core.setTxp_preempt (c : Core) (p : Nat) (x : TxPort) : (c.setTxp p x).preempt = c.preempt := rfl
@[simp] theorem Core.setTxp_begun (c : Core) (p : Nat) (x : TxPort) : (c.setTxp p x).begun = c.begun := rfl
@[simp] theorem Core.setTxp_pushing (c : Core) (p : Nat) (x : TxPort) : (c.setTxp p x).pushing = c.pushing := rfl
@[simp] theorem Core.setRxp_s (c : Core) (p : Nat) (x : RxPort) : (c.setRxp p x).s = c.s := rfl
@[simp] theorem Core.setRxp_v (c : Core) (p : Nat) (x : RxPort) : (c.setRxp p x).v = c.v := rfl
@[simp] theorem Core.setRxp_k (c : Core) (p : Nat) (x : RxPort) : (c.setRxp p x).k = c.k := rfl
@[simp] theorem Core.setRxp_shadow (c : Core) (p : Nat) (x : RxPort) : (c.setRxp p x).shadow = c.shadow := rfl
@[simp] theorem Core.setRxp_pc (c : Core) (p : Nat) (x : RxPort) : (c.setRxp p x).pc = c.pc := rfl
@[simp] theorem Core.setRxp_slot (c : Core) (p : Nat) (x : RxPort) : (c.setRxp p x).slot = c.slot := rfl
@[simp] theorem Core.setRxp_pfx (c : Core) (p : Nat) (x : RxPort) : (c.setRxp p x).pfx = c.pfx := rfl
@[simp] theorem Core.setRxp_pfxPc (c : Core) (p : Nat) (x : RxPort) : (c.setRxp p x).pfxPc = c.pfxPc := rfl
@[simp] theorem Core.setRxp_sys (c : Core) (p : Nat) (x : RxPort) : (c.setRxp p x).sys = c.sys := rfl
@[simp] theorem Core.setRxp_frame (c : Core) (p : Nat) (x : RxPort) : (c.setRxp p x).frame = c.frame := rfl
@[simp] theorem Core.setRxp_tx (c : Core) (p : Nat) (x : RxPort) : (c.setRxp p x).tx = c.tx := rfl
@[simp] theorem Core.setRxp_strm (c : Core) (p : Nat) (x : RxPort) : (c.setRxp p x).strm = c.strm := rfl
@[simp] theorem Core.setRxp_run (c : Core) (p : Nat) (x : RxPort) : (c.setRxp p x).run = c.run := rfl
@[simp] theorem Core.setRxp_current (c : Core) (p : Nat) (x : RxPort) : (c.setRxp p x).current = c.current := rfl
@[simp] theorem Core.setRxp_coord (c : Core) (p : Nat) (x : RxPort) : (c.setRxp p x).coord = c.coord := rfl
@[simp] theorem Core.setRxp_phasec (c : Core) (p : Nat) (x : RxPort) : (c.setRxp p x).phasec = c.phasec := rfl
@[simp] theorem Core.setRxp_bwait (c : Core) (p : Nat) (x : RxPort) : (c.setRxp p x).bwait = c.bwait := rfl
@[simp] theorem Core.setRxp_bgen (c : Core) (p : Nat) (x : RxPort) : (c.setRxp p x).bgen = c.bgen := rfl
@[simp] theorem Core.setRxp_allocs (c : Core) (p : Nat) (x : RxPort) : (c.setRxp p x).allocs = c.allocs := rfl
@[simp] theorem Core.setRxp_sb (c : Core) (p : Nat) (x : RxPort) : (c.setRxp p x).sb = c.sb := rfl
@[simp] theorem Core.setRxp_loads (c : Core) (p : Nat) (x : RxPort) : (c.setRxp p x).loads = c.loads := rfl
@[simp] theorem Core.setRxp_l1d (c : Core) (p : Nat) (x : RxPort) : (c.setRxp p x).l1d = c.l1d := rfl
@[simp] theorem Core.setRxp_l1i (c : Core) (p : Nat) (x : RxPort) : (c.setRxp p x).l1i = c.l1i := rfl
@[simp] theorem Core.setRxp_hview (c : Core) (p : Nat) (x : RxPort) : (c.setRxp p x).hview = c.hview := rfl
@[simp] theorem Core.setRxp_late (c : Core) (p : Nat) (x : RxPort) : (c.setRxp p x).late = c.late := rfl
@[simp] theorem Core.setRxp_defer (c : Core) (p : Nat) (x : RxPort) : (c.setRxp p x).defer = c.defer := rfl
@[simp] theorem Core.setRxp_relEp (c : Core) (p : Nat) (x : RxPort) : (c.setRxp p x).relEp = c.relEp := rfl
@[simp] theorem Core.setRxp_acqEp (c : Core) (p : Nat) (x : RxPort) : (c.setRxp p x).acqEp = c.acqEp := rfl
@[simp] theorem Core.setRxp_fullEp (c : Core) (p : Nat) (x : RxPort) : (c.setRxp p x).fullEp = c.fullEp := rfl
@[simp] theorem Core.setRxp_rmw (c : Core) (p : Nat) (x : RxPort) : (c.setRxp p x).rmw = c.rmw := rfl
@[simp] theorem Core.setRxp_itlb (c : Core) (p : Nat) (x : RxPort) : (c.setRxp p x).itlb = c.itlb := rfl
@[simp] theorem Core.setRxp_dtlb (c : Core) (p : Nat) (x : RxPort) : (c.setRxp p x).dtlb = c.dtlb := rfl
@[simp] theorem Core.setRxp_poison (c : Core) (p : Nat) (x : RxPort) : (c.setRxp p x).poison = c.poison := rfl
@[simp] theorem Core.setRxp_arr (c : Core) (p : Nat) (x : RxPort) : (c.setRxp p x).arr = c.arr := rfl
@[simp] theorem Core.setRxp_ir (c : Core) (p : Nat) (x : RxPort) : (c.setRxp p x).ir = c.ir := rfl
@[simp] theorem Core.setRxp_txq (c : Core) (p : Nat) (x : RxPort) : (c.setRxp p x).txq = c.txq := rfl
@[simp] theorem Core.setRxp_outq (c : Core) (p : Nat) (x : RxPort) : (c.setRxp p x).outq = c.outq := rfl
@[simp] theorem Core.setRxp_stalled (c : Core) (p : Nat) (x : RxPort) : (c.setRxp p x).stalled = c.stalled := rfl
@[simp] theorem Core.setRxp_preempt (c : Core) (p : Nat) (x : RxPort) : (c.setRxp p x).preempt = c.preempt := rfl
@[simp] theorem Core.setRxp_begun (c : Core) (p : Nat) (x : RxPort) : (c.setRxp p x).begun = c.begun := rfl
@[simp] theorem Core.setRxp_pushing (c : Core) (p : Nat) (x : RxPort) : (c.setRxp p x).pushing = c.pushing := rfl
@[simp] theorem Core.setStrm_s (c : Core) (q : Nat) (x : Strm) : (c.setStrm q x).s = c.s := rfl
@[simp] theorem Core.setStrm_v (c : Core) (q : Nat) (x : Strm) : (c.setStrm q x).v = c.v := rfl
@[simp] theorem Core.setStrm_k (c : Core) (q : Nat) (x : Strm) : (c.setStrm q x).k = c.k := rfl
@[simp] theorem Core.setStrm_shadow (c : Core) (q : Nat) (x : Strm) : (c.setStrm q x).shadow = c.shadow := rfl
@[simp] theorem Core.setStrm_pc (c : Core) (q : Nat) (x : Strm) : (c.setStrm q x).pc = c.pc := rfl
@[simp] theorem Core.setStrm_slot (c : Core) (q : Nat) (x : Strm) : (c.setStrm q x).slot = c.slot := rfl
@[simp] theorem Core.setStrm_pfx (c : Core) (q : Nat) (x : Strm) : (c.setStrm q x).pfx = c.pfx := rfl
@[simp] theorem Core.setStrm_pfxPc (c : Core) (q : Nat) (x : Strm) : (c.setStrm q x).pfxPc = c.pfxPc := rfl
@[simp] theorem Core.setStrm_sys (c : Core) (q : Nat) (x : Strm) : (c.setStrm q x).sys = c.sys := rfl
@[simp] theorem Core.setStrm_frame (c : Core) (q : Nat) (x : Strm) : (c.setStrm q x).frame = c.frame := rfl
@[simp] theorem Core.setStrm_tx (c : Core) (q : Nat) (x : Strm) : (c.setStrm q x).tx = c.tx := rfl
@[simp] theorem Core.setStrm_bank (c : Core) (q : Nat) (x : Strm) : (c.setStrm q x).bank = c.bank := rfl
@[simp] theorem Core.setStrm_run (c : Core) (q : Nat) (x : Strm) : (c.setStrm q x).run = c.run := rfl
@[simp] theorem Core.setStrm_current (c : Core) (q : Nat) (x : Strm) : (c.setStrm q x).current = c.current := rfl
@[simp] theorem Core.setStrm_coord (c : Core) (q : Nat) (x : Strm) : (c.setStrm q x).coord = c.coord := rfl
@[simp] theorem Core.setStrm_phasec (c : Core) (q : Nat) (x : Strm) : (c.setStrm q x).phasec = c.phasec := rfl
@[simp] theorem Core.setStrm_bwait (c : Core) (q : Nat) (x : Strm) : (c.setStrm q x).bwait = c.bwait := rfl
@[simp] theorem Core.setStrm_bgen (c : Core) (q : Nat) (x : Strm) : (c.setStrm q x).bgen = c.bgen := rfl
@[simp] theorem Core.setStrm_allocs (c : Core) (q : Nat) (x : Strm) : (c.setStrm q x).allocs = c.allocs := rfl
@[simp] theorem Core.setStrm_sb (c : Core) (q : Nat) (x : Strm) : (c.setStrm q x).sb = c.sb := rfl
@[simp] theorem Core.setStrm_loads (c : Core) (q : Nat) (x : Strm) : (c.setStrm q x).loads = c.loads := rfl
@[simp] theorem Core.setStrm_l1d (c : Core) (q : Nat) (x : Strm) : (c.setStrm q x).l1d = c.l1d := rfl
@[simp] theorem Core.setStrm_l1i (c : Core) (q : Nat) (x : Strm) : (c.setStrm q x).l1i = c.l1i := rfl
@[simp] theorem Core.setStrm_hview (c : Core) (q : Nat) (x : Strm) : (c.setStrm q x).hview = c.hview := rfl
@[simp] theorem Core.setStrm_late (c : Core) (q : Nat) (x : Strm) : (c.setStrm q x).late = c.late := rfl
@[simp] theorem Core.setStrm_defer (c : Core) (q : Nat) (x : Strm) : (c.setStrm q x).defer = c.defer := rfl
@[simp] theorem Core.setStrm_relEp (c : Core) (q : Nat) (x : Strm) : (c.setStrm q x).relEp = c.relEp := rfl
@[simp] theorem Core.setStrm_acqEp (c : Core) (q : Nat) (x : Strm) : (c.setStrm q x).acqEp = c.acqEp := rfl
@[simp] theorem Core.setStrm_fullEp (c : Core) (q : Nat) (x : Strm) : (c.setStrm q x).fullEp = c.fullEp := rfl
@[simp] theorem Core.setStrm_rmw (c : Core) (q : Nat) (x : Strm) : (c.setStrm q x).rmw = c.rmw := rfl
@[simp] theorem Core.setStrm_itlb (c : Core) (q : Nat) (x : Strm) : (c.setStrm q x).itlb = c.itlb := rfl
@[simp] theorem Core.setStrm_dtlb (c : Core) (q : Nat) (x : Strm) : (c.setStrm q x).dtlb = c.dtlb := rfl
@[simp] theorem Core.setStrm_poison (c : Core) (q : Nat) (x : Strm) : (c.setStrm q x).poison = c.poison := rfl
@[simp] theorem Core.setStrm_arr (c : Core) (q : Nat) (x : Strm) : (c.setStrm q x).arr = c.arr := rfl
@[simp] theorem Core.setStrm_ir (c : Core) (q : Nat) (x : Strm) : (c.setStrm q x).ir = c.ir := rfl
@[simp] theorem Core.setStrm_txq (c : Core) (q : Nat) (x : Strm) : (c.setStrm q x).txq = c.txq := rfl
@[simp] theorem Core.setStrm_outq (c : Core) (q : Nat) (x : Strm) : (c.setStrm q x).outq = c.outq := rfl
@[simp] theorem Core.setStrm_stalled (c : Core) (q : Nat) (x : Strm) : (c.setStrm q x).stalled = c.stalled := rfl
@[simp] theorem Core.setStrm_preempt (c : Core) (q : Nat) (x : Strm) : (c.setStrm q x).preempt = c.preempt := rfl
@[simp] theorem Core.setStrm_begun (c : Core) (q : Nat) (x : Strm) : (c.setStrm q x).begun = c.begun := rfl
@[simp] theorem Core.setStrm_pushing (c : Core) (q : Nat) (x : Strm) : (c.setStrm q x).pushing = c.pushing := rfl
@[simp] theorem Core.setAlloc_s (c : Core) (a : Alloc) : (c.setAlloc a).s = c.s := rfl
@[simp] theorem Core.setAlloc_v (c : Core) (a : Alloc) : (c.setAlloc a).v = c.v := rfl
@[simp] theorem Core.setAlloc_k (c : Core) (a : Alloc) : (c.setAlloc a).k = c.k := rfl
@[simp] theorem Core.setAlloc_shadow (c : Core) (a : Alloc) : (c.setAlloc a).shadow = c.shadow := rfl
@[simp] theorem Core.setAlloc_pc (c : Core) (a : Alloc) : (c.setAlloc a).pc = c.pc := rfl
@[simp] theorem Core.setAlloc_slot (c : Core) (a : Alloc) : (c.setAlloc a).slot = c.slot := rfl
@[simp] theorem Core.setAlloc_pfx (c : Core) (a : Alloc) : (c.setAlloc a).pfx = c.pfx := rfl
@[simp] theorem Core.setAlloc_pfxPc (c : Core) (a : Alloc) : (c.setAlloc a).pfxPc = c.pfxPc := rfl
@[simp] theorem Core.setAlloc_sys (c : Core) (a : Alloc) : (c.setAlloc a).sys = c.sys := rfl
@[simp] theorem Core.setAlloc_frame (c : Core) (a : Alloc) : (c.setAlloc a).frame = c.frame := rfl
@[simp] theorem Core.setAlloc_tx (c : Core) (a : Alloc) : (c.setAlloc a).tx = c.tx := rfl
@[simp] theorem Core.setAlloc_strm (c : Core) (a : Alloc) : (c.setAlloc a).strm = c.strm := rfl
@[simp] theorem Core.setAlloc_bank (c : Core) (a : Alloc) : (c.setAlloc a).bank = c.bank := rfl
@[simp] theorem Core.setAlloc_run (c : Core) (a : Alloc) : (c.setAlloc a).run = c.run := rfl
@[simp] theorem Core.setAlloc_current (c : Core) (a : Alloc) : (c.setAlloc a).current = c.current := rfl
@[simp] theorem Core.setAlloc_coord (c : Core) (a : Alloc) : (c.setAlloc a).coord = c.coord := rfl
@[simp] theorem Core.setAlloc_phasec (c : Core) (a : Alloc) : (c.setAlloc a).phasec = c.phasec := rfl
@[simp] theorem Core.setAlloc_bwait (c : Core) (a : Alloc) : (c.setAlloc a).bwait = c.bwait := rfl
@[simp] theorem Core.setAlloc_bgen (c : Core) (a : Alloc) : (c.setAlloc a).bgen = c.bgen := rfl
@[simp] theorem Core.setAlloc_sb (c : Core) (a : Alloc) : (c.setAlloc a).sb = c.sb := rfl
@[simp] theorem Core.setAlloc_loads (c : Core) (a : Alloc) : (c.setAlloc a).loads = c.loads := rfl
@[simp] theorem Core.setAlloc_l1d (c : Core) (a : Alloc) : (c.setAlloc a).l1d = c.l1d := rfl
@[simp] theorem Core.setAlloc_l1i (c : Core) (a : Alloc) : (c.setAlloc a).l1i = c.l1i := rfl
@[simp] theorem Core.setAlloc_hview (c : Core) (a : Alloc) : (c.setAlloc a).hview = c.hview := rfl
@[simp] theorem Core.setAlloc_late (c : Core) (a : Alloc) : (c.setAlloc a).late = c.late := rfl
@[simp] theorem Core.setAlloc_defer (c : Core) (a : Alloc) : (c.setAlloc a).defer = c.defer := rfl
@[simp] theorem Core.setAlloc_relEp (c : Core) (a : Alloc) : (c.setAlloc a).relEp = c.relEp := rfl
@[simp] theorem Core.setAlloc_acqEp (c : Core) (a : Alloc) : (c.setAlloc a).acqEp = c.acqEp := rfl
@[simp] theorem Core.setAlloc_fullEp (c : Core) (a : Alloc) : (c.setAlloc a).fullEp = c.fullEp := rfl
@[simp] theorem Core.setAlloc_rmw (c : Core) (a : Alloc) : (c.setAlloc a).rmw = c.rmw := rfl
@[simp] theorem Core.setAlloc_itlb (c : Core) (a : Alloc) : (c.setAlloc a).itlb = c.itlb := rfl
@[simp] theorem Core.setAlloc_dtlb (c : Core) (a : Alloc) : (c.setAlloc a).dtlb = c.dtlb := rfl
@[simp] theorem Core.setAlloc_poison (c : Core) (a : Alloc) : (c.setAlloc a).poison = c.poison := rfl
@[simp] theorem Core.setAlloc_arr (c : Core) (a : Alloc) : (c.setAlloc a).arr = c.arr := rfl
@[simp] theorem Core.setAlloc_ir (c : Core) (a : Alloc) : (c.setAlloc a).ir = c.ir := rfl
@[simp] theorem Core.setAlloc_txq (c : Core) (a : Alloc) : (c.setAlloc a).txq = c.txq := rfl
@[simp] theorem Core.setAlloc_outq (c : Core) (a : Alloc) : (c.setAlloc a).outq = c.outq := rfl
@[simp] theorem Core.setAlloc_stalled (c : Core) (a : Alloc) : (c.setAlloc a).stalled = c.stalled := rfl
@[simp] theorem Core.setAlloc_preempt (c : Core) (a : Alloc) : (c.setAlloc a).preempt = c.preempt := rfl
@[simp] theorem Core.setAlloc_begun (c : Core) (a : Alloc) : (c.setAlloc a).begun = c.begun := rfl
@[simp] theorem Core.setAlloc_pushing (c : Core) (a : Alloc) : (c.setAlloc a).pushing = c.pushing := rfl
@[simp] theorem Core.dropLine_s (c : Core) (a : Nat) : (c.dropLine a).s = c.s := rfl
@[simp] theorem Core.dropLine_v (c : Core) (a : Nat) : (c.dropLine a).v = c.v := rfl
@[simp] theorem Core.dropLine_k (c : Core) (a : Nat) : (c.dropLine a).k = c.k := rfl
@[simp] theorem Core.dropLine_shadow (c : Core) (a : Nat) : (c.dropLine a).shadow = c.shadow := rfl
@[simp] theorem Core.dropLine_pc (c : Core) (a : Nat) : (c.dropLine a).pc = c.pc := rfl
@[simp] theorem Core.dropLine_slot (c : Core) (a : Nat) : (c.dropLine a).slot = c.slot := rfl
@[simp] theorem Core.dropLine_pfx (c : Core) (a : Nat) : (c.dropLine a).pfx = c.pfx := rfl
@[simp] theorem Core.dropLine_pfxPc (c : Core) (a : Nat) : (c.dropLine a).pfxPc = c.pfxPc := rfl
@[simp] theorem Core.dropLine_sys (c : Core) (a : Nat) : (c.dropLine a).sys = c.sys := rfl
@[simp] theorem Core.dropLine_frame (c : Core) (a : Nat) : (c.dropLine a).frame = c.frame := rfl
@[simp] theorem Core.dropLine_tx (c : Core) (a : Nat) : (c.dropLine a).tx = c.tx := rfl
@[simp] theorem Core.dropLine_strm (c : Core) (a : Nat) : (c.dropLine a).strm = c.strm := rfl
@[simp] theorem Core.dropLine_bank (c : Core) (a : Nat) : (c.dropLine a).bank = c.bank := rfl
@[simp] theorem Core.dropLine_run (c : Core) (a : Nat) : (c.dropLine a).run = c.run := rfl
@[simp] theorem Core.dropLine_current (c : Core) (a : Nat) : (c.dropLine a).current = c.current := rfl
@[simp] theorem Core.dropLine_coord (c : Core) (a : Nat) : (c.dropLine a).coord = c.coord := rfl
@[simp] theorem Core.dropLine_phasec (c : Core) (a : Nat) : (c.dropLine a).phasec = c.phasec := rfl
@[simp] theorem Core.dropLine_bwait (c : Core) (a : Nat) : (c.dropLine a).bwait = c.bwait := rfl
@[simp] theorem Core.dropLine_bgen (c : Core) (a : Nat) : (c.dropLine a).bgen = c.bgen := rfl
@[simp] theorem Core.dropLine_allocs (c : Core) (a : Nat) : (c.dropLine a).allocs = c.allocs := rfl
@[simp] theorem Core.dropLine_sb (c : Core) (a : Nat) : (c.dropLine a).sb = c.sb := rfl
@[simp] theorem Core.dropLine_loads (c : Core) (a : Nat) : (c.dropLine a).loads = c.loads := rfl
@[simp] theorem Core.dropLine_late (c : Core) (a : Nat) : (c.dropLine a).late = c.late := rfl
@[simp] theorem Core.dropLine_defer (c : Core) (a : Nat) : (c.dropLine a).defer = c.defer := rfl
@[simp] theorem Core.dropLine_relEp (c : Core) (a : Nat) : (c.dropLine a).relEp = c.relEp := rfl
@[simp] theorem Core.dropLine_acqEp (c : Core) (a : Nat) : (c.dropLine a).acqEp = c.acqEp := rfl
@[simp] theorem Core.dropLine_fullEp (c : Core) (a : Nat) : (c.dropLine a).fullEp = c.fullEp := rfl
@[simp] theorem Core.dropLine_rmw (c : Core) (a : Nat) : (c.dropLine a).rmw = c.rmw := rfl
@[simp] theorem Core.dropLine_itlb (c : Core) (a : Nat) : (c.dropLine a).itlb = c.itlb := rfl
@[simp] theorem Core.dropLine_dtlb (c : Core) (a : Nat) : (c.dropLine a).dtlb = c.dtlb := rfl
@[simp] theorem Core.dropLine_poison (c : Core) (a : Nat) : (c.dropLine a).poison = c.poison := rfl
@[simp] theorem Core.dropLine_arr (c : Core) (a : Nat) : (c.dropLine a).arr = c.arr := rfl
@[simp] theorem Core.dropLine_ir (c : Core) (a : Nat) : (c.dropLine a).ir = c.ir := rfl
@[simp] theorem Core.dropLine_txq (c : Core) (a : Nat) : (c.dropLine a).txq = c.txq := rfl
@[simp] theorem Core.dropLine_outq (c : Core) (a : Nat) : (c.dropLine a).outq = c.outq := rfl
@[simp] theorem Core.dropLine_stalled (c : Core) (a : Nat) : (c.dropLine a).stalled = c.stalled := rfl
@[simp] theorem Core.dropLine_preempt (c : Core) (a : Nat) : (c.dropLine a).preempt = c.preempt := rfl
@[simp] theorem Core.dropLine_begun (c : Core) (a : Nat) : (c.dropLine a).begun = c.begun := rfl
@[simp] theorem Core.dropLine_pushing (c : Core) (a : Nat) : (c.dropLine a).pushing = c.pushing := rfl
@[simp] theorem Core.freshen_s (c : Core) (b : Bounds) : (c.freshen b).s = c.s := rfl
@[simp] theorem Core.freshen_v (c : Core) (b : Bounds) : (c.freshen b).v = c.v := rfl
@[simp] theorem Core.freshen_k (c : Core) (b : Bounds) : (c.freshen b).k = c.k := rfl
@[simp] theorem Core.freshen_shadow (c : Core) (b : Bounds) : (c.freshen b).shadow = c.shadow := rfl
@[simp] theorem Core.freshen_pc (c : Core) (b : Bounds) : (c.freshen b).pc = c.pc := rfl
@[simp] theorem Core.freshen_slot (c : Core) (b : Bounds) : (c.freshen b).slot = c.slot := rfl
@[simp] theorem Core.freshen_pfx (c : Core) (b : Bounds) : (c.freshen b).pfx = c.pfx := rfl
@[simp] theorem Core.freshen_pfxPc (c : Core) (b : Bounds) : (c.freshen b).pfxPc = c.pfxPc := rfl
@[simp] theorem Core.freshen_sys (c : Core) (b : Bounds) : (c.freshen b).sys = c.sys := rfl
@[simp] theorem Core.freshen_frame (c : Core) (b : Bounds) : (c.freshen b).frame = c.frame := rfl
@[simp] theorem Core.freshen_tx (c : Core) (b : Bounds) : (c.freshen b).tx = c.tx := rfl
@[simp] theorem Core.freshen_strm (c : Core) (b : Bounds) : (c.freshen b).strm = c.strm := rfl
@[simp] theorem Core.freshen_bank (c : Core) (b : Bounds) : (c.freshen b).bank = c.bank := rfl
@[simp] theorem Core.freshen_run (c : Core) (b : Bounds) : (c.freshen b).run = c.run := rfl
@[simp] theorem Core.freshen_current (c : Core) (b : Bounds) : (c.freshen b).current = c.current := rfl
@[simp] theorem Core.freshen_coord (c : Core) (b : Bounds) : (c.freshen b).coord = c.coord := rfl
@[simp] theorem Core.freshen_phasec (c : Core) (b : Bounds) : (c.freshen b).phasec = c.phasec := rfl
@[simp] theorem Core.freshen_bwait (c : Core) (b : Bounds) : (c.freshen b).bwait = c.bwait := rfl
@[simp] theorem Core.freshen_bgen (c : Core) (b : Bounds) : (c.freshen b).bgen = c.bgen := rfl
@[simp] theorem Core.freshen_allocs (c : Core) (b : Bounds) : (c.freshen b).allocs = c.allocs := rfl
@[simp] theorem Core.freshen_sb (c : Core) (b : Bounds) : (c.freshen b).sb = c.sb := rfl
@[simp] theorem Core.freshen_loads (c : Core) (b : Bounds) : (c.freshen b).loads = c.loads := rfl
@[simp] theorem Core.freshen_l1i (c : Core) (b : Bounds) : (c.freshen b).l1i = c.l1i := rfl
@[simp] theorem Core.freshen_late (c : Core) (b : Bounds) : (c.freshen b).late = c.late := rfl
@[simp] theorem Core.freshen_defer (c : Core) (b : Bounds) : (c.freshen b).defer = c.defer := rfl
@[simp] theorem Core.freshen_relEp (c : Core) (b : Bounds) : (c.freshen b).relEp = c.relEp := rfl
@[simp] theorem Core.freshen_acqEp (c : Core) (b : Bounds) : (c.freshen b).acqEp = c.acqEp := rfl
@[simp] theorem Core.freshen_fullEp (c : Core) (b : Bounds) : (c.freshen b).fullEp = c.fullEp := rfl
@[simp] theorem Core.freshen_rmw (c : Core) (b : Bounds) : (c.freshen b).rmw = c.rmw := rfl
@[simp] theorem Core.freshen_itlb (c : Core) (b : Bounds) : (c.freshen b).itlb = c.itlb := rfl
@[simp] theorem Core.freshen_dtlb (c : Core) (b : Bounds) : (c.freshen b).dtlb = c.dtlb := rfl
@[simp] theorem Core.freshen_poison (c : Core) (b : Bounds) : (c.freshen b).poison = c.poison := rfl
@[simp] theorem Core.freshen_arr (c : Core) (b : Bounds) : (c.freshen b).arr = c.arr := rfl
@[simp] theorem Core.freshen_ir (c : Core) (b : Bounds) : (c.freshen b).ir = c.ir := rfl
@[simp] theorem Core.freshen_txq (c : Core) (b : Bounds) : (c.freshen b).txq = c.txq := rfl
@[simp] theorem Core.freshen_outq (c : Core) (b : Bounds) : (c.freshen b).outq = c.outq := rfl
@[simp] theorem Core.freshen_stalled (c : Core) (b : Bounds) : (c.freshen b).stalled = c.stalled := rfl
@[simp] theorem Core.freshen_preempt (c : Core) (b : Bounds) : (c.freshen b).preempt = c.preempt := rfl
@[simp] theorem Core.freshen_begun (c : Core) (b : Bounds) : (c.freshen b).begun = c.begun := rfl
@[simp] theorem Core.freshen_pushing (c : Core) (b : Bounds) : (c.freshen b).pushing = c.pushing := rfl
@[simp] theorem Core.learn_s (c : Core) (b : Bounds) : (c.learn b).s = c.s := rfl
@[simp] theorem Core.learn_v (c : Core) (b : Bounds) : (c.learn b).v = c.v := rfl
@[simp] theorem Core.learn_k (c : Core) (b : Bounds) : (c.learn b).k = c.k := rfl
@[simp] theorem Core.learn_shadow (c : Core) (b : Bounds) : (c.learn b).shadow = c.shadow := rfl
@[simp] theorem Core.learn_pc (c : Core) (b : Bounds) : (c.learn b).pc = c.pc := rfl
@[simp] theorem Core.learn_slot (c : Core) (b : Bounds) : (c.learn b).slot = c.slot := rfl
@[simp] theorem Core.learn_pfx (c : Core) (b : Bounds) : (c.learn b).pfx = c.pfx := rfl
@[simp] theorem Core.learn_pfxPc (c : Core) (b : Bounds) : (c.learn b).pfxPc = c.pfxPc := rfl
@[simp] theorem Core.learn_sys (c : Core) (b : Bounds) : (c.learn b).sys = c.sys := rfl
@[simp] theorem Core.learn_frame (c : Core) (b : Bounds) : (c.learn b).frame = c.frame := rfl
@[simp] theorem Core.learn_tx (c : Core) (b : Bounds) : (c.learn b).tx = c.tx := rfl
@[simp] theorem Core.learn_strm (c : Core) (b : Bounds) : (c.learn b).strm = c.strm := rfl
@[simp] theorem Core.learn_bank (c : Core) (b : Bounds) : (c.learn b).bank = c.bank := rfl
@[simp] theorem Core.learn_run (c : Core) (b : Bounds) : (c.learn b).run = c.run := rfl
@[simp] theorem Core.learn_current (c : Core) (b : Bounds) : (c.learn b).current = c.current := rfl
@[simp] theorem Core.learn_coord (c : Core) (b : Bounds) : (c.learn b).coord = c.coord := rfl
@[simp] theorem Core.learn_phasec (c : Core) (b : Bounds) : (c.learn b).phasec = c.phasec := rfl
@[simp] theorem Core.learn_bwait (c : Core) (b : Bounds) : (c.learn b).bwait = c.bwait := rfl
@[simp] theorem Core.learn_bgen (c : Core) (b : Bounds) : (c.learn b).bgen = c.bgen := rfl
@[simp] theorem Core.learn_allocs (c : Core) (b : Bounds) : (c.learn b).allocs = c.allocs := rfl
@[simp] theorem Core.learn_sb (c : Core) (b : Bounds) : (c.learn b).sb = c.sb := rfl
@[simp] theorem Core.learn_loads (c : Core) (b : Bounds) : (c.learn b).loads = c.loads := rfl
@[simp] theorem Core.learn_l1i (c : Core) (b : Bounds) : (c.learn b).l1i = c.l1i := rfl
@[simp] theorem Core.learn_late (c : Core) (b : Bounds) : (c.learn b).late = c.late := rfl
@[simp] theorem Core.learn_defer (c : Core) (b : Bounds) : (c.learn b).defer = c.defer := rfl
@[simp] theorem Core.learn_relEp (c : Core) (b : Bounds) : (c.learn b).relEp = c.relEp := rfl
@[simp] theorem Core.learn_acqEp (c : Core) (b : Bounds) : (c.learn b).acqEp = c.acqEp := rfl
@[simp] theorem Core.learn_fullEp (c : Core) (b : Bounds) : (c.learn b).fullEp = c.fullEp := rfl
@[simp] theorem Core.learn_rmw (c : Core) (b : Bounds) : (c.learn b).rmw = c.rmw := rfl
@[simp] theorem Core.learn_itlb (c : Core) (b : Bounds) : (c.learn b).itlb = c.itlb := rfl
@[simp] theorem Core.learn_dtlb (c : Core) (b : Bounds) : (c.learn b).dtlb = c.dtlb := rfl
@[simp] theorem Core.learn_poison (c : Core) (b : Bounds) : (c.learn b).poison = c.poison := rfl
@[simp] theorem Core.learn_arr (c : Core) (b : Bounds) : (c.learn b).arr = c.arr := rfl
@[simp] theorem Core.learn_ir (c : Core) (b : Bounds) : (c.learn b).ir = c.ir := rfl
@[simp] theorem Core.learn_txq (c : Core) (b : Bounds) : (c.learn b).txq = c.txq := rfl
@[simp] theorem Core.learn_outq (c : Core) (b : Bounds) : (c.learn b).outq = c.outq := rfl
@[simp] theorem Core.learn_stalled (c : Core) (b : Bounds) : (c.learn b).stalled = c.stalled := rfl
@[simp] theorem Core.learn_preempt (c : Core) (b : Bounds) : (c.learn b).preempt = c.preempt := rfl
@[simp] theorem Core.learn_begun (c : Core) (b : Bounds) : (c.learn b).begun = c.begun := rfl
@[simp] theorem Core.learn_pushing (c : Core) (b : Bounds) : (c.learn b).pushing = c.pushing := rfl

@[simp] theorem Core.sreg_zero (c : Core) : c.sreg 0 = 0 := rfl

/-- A register written reads back (R34); s0 reads 0 and discards writes. -/
theorem Core.sreg_setS_same (c : Core) {r : Nat} (x : Word) (h : r ≠ 0) : (c.setS r x).sreg r = x := by
  simp [Core.sreg, Core.setS, h]

theorem Core.sreg_setS_other (c : Core) {r q : Nat} (x : Word) (h : q ≠ r) : (c.setS r x).sreg q = c.sreg q := by
  unfold Core.sreg Core.setS
  split
  · rfl
  · split
    · rfl
    · simp [SMap.get_set_other _ _ _ h]

@[simp] theorem Core.vreg_setV_same (c : Core) (r : Nat) (x : Vec) : (c.setV r x).vreg r = x := SMap.get_set_same _ _ _ _
theorem Core.vreg_setV_other (c : Core) {r q : Nat} (x : Vec) (h : q ≠ r) : (c.setV r x).vreg q = c.vreg q := SMap.get_set_other _ _ _ h
@[simp] theorem Core.kreg_setK_same (c : Core) (r : Nat) (x : Word) : (c.setK r x).kreg r = x := SMap.get_set_same _ _ _ _
theorem Core.kreg_setK_other (c : Core) {r q : Nat} (x : Word) (h : q ≠ r) : (c.setK r x).kreg q = c.kreg q := SMap.get_set_other _ _ _ h

end Sys2Proof.Machine
end

