-- ==== Sys2Proof/Laws/Memory.lean ====
section
/-!
SUPPORT. Laws/Memory.lean: every operation on memory keeps its canonical form, and what a byte reads as after a write.
-/
set_option Elab.async false

namespace Sys2Proof.Machine

open Sys2Proof

/-! ### The canonical form -/

theorem wf_putBytes (m : SMap Byte) (l : List (Nat × Byte)) (h : Memory.wf m = true) : Memory.wf (putBytes m l) = true := by
  induction l generalizing m with
  | nil => exact h
  | cons p t ih => exact ih _ (SMap.wf_set _ _ h)

theorem State.reset_memOk : State.reset.MemOk := rfl

theorem State.write_memOk (s : State) (l : List (Nat × Byte)) (h : s.MemOk) : (s.write l).MemOk := wf_putBytes _ _ h

theorem State.wr_memOk (s : State) (a n x : Nat) (h : s.MemOk) : (s.wr a n x).MemOk := s.write_memOk _ h

theorem State.setSlotState_memOk (s : State) (i slot x : Nat) (h : s.MemOk) : (s.setSlotState i slot x).MemOk := wf_putBytes _ _ h

/-- Tracking a plain access changes no byte. -/
@[simp] theorem State.track_mem (s : State) (i launch phasec : Nat) (store report : Bool) (a : Nat) (va : Word) : (s.track i launch phasec store report a va).mem = s.mem := by
  unfold State.track
  dsimp only
  repeat' split
  all_goals rfl

theorem State.writeBy_memOk (s : State) (w g : Nat) (l : List (Nat × Byte)) (h : s.MemOk) : (s.writeBy w g l).MemOk := wf_putBytes _ _ h

theorem State.writeCmd_memOk (s : State) (c : Cmd) (l : List (Nat × Byte)) (h : s.MemOk) : (s.writeCmd c l).MemOk := wf_putBytes _ _ h

/-- A store performed at its home, or queued at a page under migration, keeps the canonical form. -/
theorem State.performEntry_memOk {s t : State} {i : Nat} {e : SbEntry} {sh : Bool} (h : s.MemOk) (p : s.performEntry i e sh = some t) : t.MemOk := by
  have co : ∀ (t : State) (f : Nat → Core → Core), t.MemOk → (t.mapCores f).MemOk := fun _ _ h => h
  have c1 : ∀ (t : State) (f : Core → Core), t.MemOk → (t.modCore i f).MemOk := fun _ _ h => h
  have pa : ∀ (t : State) (n : Nat) (f : Part → Part), t.MemOk → (t.modPart n f).MemOk := fun _ _ _ h => h
  have tr : ∀ (t : State) (l n : Nat) (a b : Bool) (k : Nat) (v : Word), t.MemOk → (t.track i l n a b k v).MemOk := by
    intro t l n a b k v h; unfold State.MemOk; rw [State.track_mem]; exact h
  have po : ∀ (t : State) (l : List Nat), t.MemOk → ({ t with mpoison := l } : State).MemOk := fun _ _ h => h
  unfold State.performEntry at p
  dsimp only at p
  split at p
  · split at p
    · cases p
    · cases p; exact h
  · have m := po _ (List.filter (fun u => !(e.clr.filter fun u => !(((s.sbOf i).filter fun x => decide (x.grp = e.grp) && x != e).any fun x => x.bytes.any fun b => unitOf b.1 == u)).contains u)
        (s.writeBy i e.grp e.bytes).mpoison) (s.writeBy_memOk i e.grp e.bytes h)
    have it : ∀ (b : Bool) (x y : State), x.MemOk → y.MemOk → (if b then x else y).MemOk := by
      intro b x y hx hy; cases b <;> assumption
    split at p
    · cases p
      exact it _ _ _ (pa _ _ _ (it _ _ _ (co _ _ m) (c1 _ _ m))) (it _ _ _ (co _ _ m) (c1 _ _ m))
    · cases p
      refine it _ _ _ (c1 _ _ (tr _ _ _ _ _ _ _ ?_)) (tr _ _ _ _ _ _ _ ?_)
      all_goals exact it _ _ _ (pa _ _ _ (it _ _ _ (co _ _ m) (c1 _ _ m))) (it _ _ _ (co _ _ m) (c1 _ _ m))

theorem State.performAll_memOk {i : Nat} {f : SbEntry → Bool} {n : Nat} : ∀ {s t : State} {j : Nat}, s.MemOk → s.performAll i f n j = some t → t.MemOk := by
  induction n with
  | zero => intro s t j h p; cases p; exact h
  | succ n ih =>
    intro s t j h p
    unfold State.performAll at p
    split at p
    · cases p; exact h
    · split at p
      · split at p
        · next q =>
          have m := State.performEntry_memOk h q
          exact ih (s := State.modCore _ i _) m p
        · cases p
      · exact ih h p

theorem State.performShared_memOk {cl n : Nat} : ∀ {s t : State}, s.MemOk → s.performShared cl n = some t → t.MemOk := by
  induction n with
  | zero => intro s t h p; cases p; exact h
  | succ n ih =>
    intro s t h p
    unfold State.performShared at p
    split at p
    · cases p; exact h
    · split at p
      · next q =>
        have m := State.performEntry_memOk h q
        exact ih (s := State.setCluster _ cl _) m p
      · cases p

theorem State.performSeen_memOk {s t : State} {i : Nat} {f : SbEntry → Bool} (h : s.MemOk) (p : s.performSeen i f = some t) : t.MemOk := by
  unfold State.performSeen at p
  obtain ⟨u, hu, p⟩ := Option.bind_eq_some_iff.1 p
  exact State.performAll_memOk (State.performShared_memOk h hu) p

theorem State.engWrite_memOk (s : State) (c : Cmd) (l : List (Nat × Byte)) (k va : Nat) (h : s.MemOk) : (s.engWrite c l k va).MemOk := by
  unfold State.MemOk State.engWrite
  rw [State.track_mem]
  exact s.writeCmd_memOk c l h

theorem State.engPut_memOk (s : State) (c : Cmd) (va n x : Nat) (h : s.MemOk) : (s.engPut c va n x).MemOk := by
  unfold State.engPut
  split
  · split
    all_goals first | exact s.engWrite_memOk _ _ _ _ h | exact s.writeCmd_memOk _ _ h
  · exact h

theorem State.performLocal_memOk (s : State) (i : Nat) (h : s.MemOk) : (s.performLocal i).MemOk := by
  unfold State.performLocal
  cases p : s.performAll i _ (s.core i).sb.length 0 with
  | none => exact h
  | some t => exact State.performAll_memOk h p

/-- Pushed items wait in the store buffer: no byte changes before they are performed (R231). -/
theorem State.pushOut_mem (s : State) (i : Nat) : (s.pushOut i).mem = s.mem := by
  have fold : ∀ (l : List (Nat × Nat × Vec)) (f : State → Nat × Nat × Vec → State) (_ : ∀ t x, (f t x).mem = t.mem) (t : State), (l.foldl f t).mem = t.mem := by
    intro l f hf
    induction l with
    | nil => intro t; rfl
    | cons x r ih => intro t; exact (ih _).trans (hf t x)
  unfold State.pushOut
  dsimp only
  split
  · rfl
  · rw [State.modCore_mem]
    apply fold
    intros; rfl

theorem State.mapFetch_memOk (s : State) (k va : Nat) (h : s.MemOk) : (s.mapFetch k va).MemOk := by
  have cl : ∀ (t : State) (c : Cluster), t.MemOk → (t.setCluster (clusterOf k) c).MemOk := fun _ _ h => h
  have co : ∀ (t : State) (f : Core → Core), t.MemOk → (t.modCore k f).MemOk := fun _ _ h => h
  have po : ∀ (t : State) (l : List Nat), t.MemOk → ({ t with mpoison := l } : State).MemOk := fun _ _ h => h
  have pa : ∀ (t : State) (p : Nat) (x : Part), t.MemOk → (t.setPart p x).MemOk := fun _ _ _ h => h
  unfold State.mapFetch
  split
  · exact h
  · exact cl _ _ (co _ _ (po _ _ (State.wr_memOk _ _ _ _ (State.wr_memOk _ _ _ _ (pa _ _ _ h)))))

theorem State.withFetchWord_memOk (s : State) (nbits w : Nat) (h : s.MemOk) : (s.withFetchWord nbits w).MemOk := by
  have put : ∀ (k : Nat) (t : State) (va x : Nat), t.MemOk → (match t.fetchPa k va with | .ok (a, _) => { t with mem := putBytes t.mem (at_ a 4 x) } | .error _ => t).MemOk := by
    intro k t va x ht
    split
    · exact wf_putBytes _ _ ht
    · exact ht
  unfold State.withFetchWord
  exact put _ _ _ _ (put _ _ _ _ (State.mapFetch_memOk _ _ _ (State.mapFetch_memOk _ _ _ h)))

/-! ### What a byte reads as -/

theorem get_putBytes_out (m : SMap Byte) (l : List (Nat × Byte)) (a : Nat) (h : ∀ p ∈ l, p.1 ≠ a) : Memory.get (putBytes m l) a = Memory.get m a := by
  induction l generalizing m with
  | nil => rfl
  | cons p t ih =>
    rw [putBytes, ih _ fun q hq => h q (List.mem_cons_of_mem _ hq)]
    exact SMap.get_set_far _ _ _ _ (h p List.mem_cons_self).symm

theorem get_putBytes_in (m : SMap Byte) (l : List (Nat × Byte)) (p : Nat × Byte) (h : p ∈ l) (u : l.Pairwise fun x y => x.1 ≠ y.1) : Memory.get (putBytes m l) p.1 = p.2 := by
  induction l generalizing m with
  | nil => cases h
  | cons q t ih =>
    rw [List.pairwise_cons] at u
    rw [putBytes]
    rcases List.mem_cons.1 h with rfl | h
    · rw [get_putBytes_out _ _ _ fun r hr => (u.1 r hr).symm, Memory.get, SMap.get_set_same]
    · exact ih _ h u.2

theorem State.byte_write_out (s : State) (l : List (Nat × Byte)) (a : Nat) (h : ∀ p ∈ l, p.1 ≠ a) : (s.write l).byte a = s.byte a := get_putBytes_out _ _ _ h

theorem State.byte_write_in (s : State) (l : List (Nat × Byte)) (p : Nat × Byte) (h : p ∈ l) (u : l.Pairwise fun x y => x.1 ≠ y.1) : (s.write l).byte p.1 = p.2 :=
  get_putBytes_in _ _ _ h u

@[simp] theorem length_bytesOf (n x : Nat) : (bytesOf n x).length = n := by
  induction n generalizing x with
  | zero => rfl
  | succ n ih => simp [bytesOf, ih]

@[simp] theorem length_at (a n x : Nat) : (at_ a n x).length = n := by simp [at_]

theorem mem_at {a n x : Nat} {p : Nat × Byte} : p ∈ at_ a n x ↔ ∃ j, j < n ∧ p.1 = a + j ∧ (bytesOf n x)[j]? = some p.2 := by
  simp only [at_, List.mem_mapIdx]
  constructor
  · rintro ⟨j, hj, rfl⟩
    exact ⟨j, by simpa using hj, rfl, List.getElem?_eq_getElem hj⟩
  · rintro ⟨j, hj, h, g⟩
    refine ⟨j, by simpa using hj, ?_⟩
    rw [List.getElem?_eq_getElem (by simpa using hj)] at g
    cases p; simp_all

theorem nodup_at (a n x : Nat) : (at_ a n x).Pairwise fun p q => p.1 ≠ q.1 := by
  rw [List.pairwise_iff_getElem]
  intro i j hi hj h
  simp only [at_, List.getElem_mapIdx]
  omega

/-- A write of n bytes at a leaves every other byte. -/
theorem State.byte_wr_out (s : State) (a n x b : Nat) (h : b < a ∨ a + n ≤ b) : (s.wr a n x).byte b = s.byte b := by
  refine s.byte_write_out _ _ fun p hp => ?_
  obtain ⟨j, hj, e, -⟩ := mem_at.1 hp
  omega

/-- Byte j of a written value. -/
theorem State.byte_wr_in (s : State) (a n x j : Nat) (h : j < n) : some ((s.wr a n x).byte (a + j)) = (bytesOf n x)[j]? := by
  obtain ⟨b, hb⟩ : ∃ b, (bytesOf n x)[j]? = some b := ⟨_, List.getElem?_eq_getElem (by simpa using h)⟩
  rw [hb]
  exact congrArg some (s.byte_write_in _ (a + j, b) (mem_at.2 ⟨j, h, rfl, hb⟩) (nodup_at _ _ _))

theorem ofBytes_bytesOf (n x : Nat) : ofBytes (bytesOf n x) = x % 2 ^ (8 * n) := by
  induction n generalizing x with
  | zero => simp [bytesOf, ofBytes, Nat.mod_one]
  | succ n ih =>
    rw [bytesOf, ofBytes, ih, BitVec.toNat_ofNat, show 8 * (n + 1) = 8 + 8 * n by ring, pow_add, Nat.mod_mul]
    norm_num

/-- Reading back what was written. -/
theorem State.rd_wr (s : State) (a n x : Nat) : (s.wr a n x).rd a n = x % 2 ^ (8 * n) := by
  rw [← ofBytes_bytesOf]
  unfold State.rd
  congr 1
  refine List.ext_getElem? fun j => ?_
  rcases Nat.lt_or_ge j n with h | h
  · rw [← s.byte_wr_in a n x j h]; simp [h]
  · rw [List.getElem?_eq_none (by simpa using h), List.getElem?_eq_none (by simpa using h)]

/-- A read away from what was written. -/
theorem State.rd_wr_out (s : State) (a n x b m : Nat) (h : b + m ≤ a ∨ a + n ≤ b) : (s.wr a n x).rd b m = s.rd b m := by
  unfold State.rd
  congr 1
  refine List.map_congr_left fun j hj => s.byte_wr_out a n x _ ?_
  have := List.mem_range.1 hj
  omega

end Sys2Proof.Machine
end

