-- ==== Sys2Proof/Laws/PerInstr.lean ====
section
/-!
SUPPORT. Laws/PerInstr.lean: statements made for each row of Instr, one lemma a constructor.
-/
set_option Elab.async false
set_option linter.unusedSimpArgs false
set_option linter.unreachableTactic false
set_option linter.unusedTactic false

namespace Sys2Proof.Laws.Encoding

open Sys2Proof Sys2Proof.Laws

/-- Decoding the words that encode gives a well-formed instruction gives it back (R28 to R37, R44, R50 to R52); an event row has no words. -/
def Statement (i : Instr) : Prop :=
  i.wf = true → match encode i with
    | [] => i.coded = false
    | [w0] => isLong w0 = false ∧ ∀ w1, decodeWords w0 w1 = .ok i
    | [w0, w1] => isLong w0 = true ∧ decodeWords w0 w1 = .ok i
    | _ => False

theorem page_a (x : Fields) (i : Instr) (hs : x.sel = 0) (h : decodeA x = some i) : isLong x.join = false ∧ ∀ w1, decodeWords x.join w1 = .ok i := by
  have hl : isLong x.join = false := by rw [isLong_fields, hs]; rfl
  refine ⟨hl, fun w1 => ?_⟩
  simp [decodeWords, hl, decodeShort, hs, h]

theorem page_b (x : Fields) (i : Instr) (hs : x.sel = 1) (h : decodeB x = .ok i) : isLong x.join = false ∧ ∀ w1, decodeWords x.join w1 = .ok i := by
  have hl : isLong x.join = false := by rw [isLong_fields, hs]; rfl
  refine ⟨hl, fun w1 => ?_⟩
  simp [decodeWords, hl, decodeShort, hs, h]

/-- Word 0 in pieces, and which decoder of word 1 takes it. -/
def LongBy (x : Long0) (w1 : IWord) (i : Instr) : LongGroup → Prop
  | .vec => ∃ fm, fmtOf x.m = some fm ∧ decodeV fm x (LR.split w1) (LM.split w1) = some i
  | .lm => x.m = 0 ∧ decodeLM x (LM.split w1) = some i
  | .atom => decodeAtom x (LM.split w1) = some i
  | .bank => decodeBank x (LR.split w1) = some i
  | .post => decodePost x (LR.split w1) = some i
  | .lr => x.m = 0 ∧ decodeLR x (LR.split w1) = some i
  | .li => x.m = 0 ∧ decodeLI x w1 = some i
  | .lrm => decodeLRM x (LR.split w1) = some i
  | .rpt => decodeRpt x w1 = some i
  | .none => False

theorem long (x : Long0) (w1 : IWord) (i : Instr) (g : LongGroup) (hs : x.sel = 3) (hg : longGroup x.op8.toNat = g) (h : LongBy x w1 i g) :
    isLong x.join = true ∧ decodeWords x.join w1 = .ok i := by
  have hl : isLong x.join = true := by rw [isLong_long0, hs]; rfl
  refine ⟨hl, ?_⟩
  cases g <;> simp only [LongBy] at h
  case vec => obtain ⟨fm, h1, h2⟩ := h; simp [decodeWords, hl, decodeLong, hg, h1, h2]
  all_goals simp [decodeWords, hl, decodeLong, hg, h]

theorem trap (code : BitVec 6) : Statement (.trap code) := by
  intro h
  refine page_a _ _ rfl ?_
  first | rfl | simp [decodeA, decodeSys, decodeFps, decodeMask, guardThen, Fields.immSI, Fields.immSB, Fields.immSL, Fields.immSJ]
theorem gong (a : Reg) : Statement (.gong a) := by
  intro h
  refine page_a _ _ rfl ?_
  first | rfl | simp [decodeA, decodeSys, decodeFps, decodeMask, guardThen, Fields.immSI, Fields.immSB, Fields.immSL, Fields.immSJ]
theorem gongRelease (a : Reg) : Statement (.gongRelease a) := by
  intro h
  refine page_a _ _ rfl ?_
  first | rfl | simp [decodeA, decodeSys, decodeFps, decodeMask, guardThen, Fields.immSI, Fields.immSB, Fields.immSL, Fields.immSJ]
theorem add (d : Reg) (a : Reg) (b : Reg) : Statement (.add d a b) := by
  intro h
  refine page_a _ _ rfl ?_
  first | rfl | simp [decodeA, decodeSys, decodeFps, decodeMask, guardThen, Fields.immSI, Fields.immSB, Fields.immSL, Fields.immSJ]
theorem sub (d : Reg) (a : Reg) (b : Reg) : Statement (.sub d a b) := by
  intro h
  refine page_a _ _ rfl ?_
  first | rfl | simp [decodeA, decodeSys, decodeFps, decodeMask, guardThen, Fields.immSI, Fields.immSB, Fields.immSL, Fields.immSJ]
theorem and (d : Reg) (a : Reg) (b : Reg) : Statement (.and d a b) := by
  intro h
  refine page_a _ _ rfl ?_
  first | rfl | simp [decodeA, decodeSys, decodeFps, decodeMask, guardThen, Fields.immSI, Fields.immSB, Fields.immSL, Fields.immSJ]
theorem or (d : Reg) (a : Reg) (b : Reg) : Statement (.or d a b) := by
  intro h
  refine page_a _ _ rfl ?_
  first | rfl | simp [decodeA, decodeSys, decodeFps, decodeMask, guardThen, Fields.immSI, Fields.immSB, Fields.immSL, Fields.immSJ]
theorem xor (d : Reg) (a : Reg) (b : Reg) : Statement (.xor d a b) := by
  intro h
  refine page_a _ _ rfl ?_
  first | rfl | simp [decodeA, decodeSys, decodeFps, decodeMask, guardThen, Fields.immSI, Fields.immSB, Fields.immSL, Fields.immSJ]
theorem andn (d : Reg) (a : Reg) (b : Reg) : Statement (.andn d a b) := by
  intro h
  refine page_a _ _ rfl ?_
  first | rfl | simp [decodeA, decodeSys, decodeFps, decodeMask, guardThen, Fields.immSI, Fields.immSB, Fields.immSL, Fields.immSJ]
theorem shl (d : Reg) (a : Reg) (b : Reg) : Statement (.shl d a b) := by
  intro h
  refine page_a _ _ rfl ?_
  first | rfl | simp [decodeA, decodeSys, decodeFps, decodeMask, guardThen, Fields.immSI, Fields.immSB, Fields.immSL, Fields.immSJ]
theorem shr (d : Reg) (a : Reg) (b : Reg) : Statement (.shr d a b) := by
  intro h
  refine page_a _ _ rfl ?_
  first | rfl | simp [decodeA, decodeSys, decodeFps, decodeMask, guardThen, Fields.immSI, Fields.immSB, Fields.immSL, Fields.immSJ]
theorem sra (d : Reg) (a : Reg) (b : Reg) : Statement (.sra d a b) := by
  intro h
  refine page_a _ _ rfl ?_
  first | rfl | simp [decodeA, decodeSys, decodeFps, decodeMask, guardThen, Fields.immSI, Fields.immSB, Fields.immSL, Fields.immSJ]
theorem rol (d : Reg) (a : Reg) (b : Reg) : Statement (.rol d a b) := by
  intro h
  refine page_a _ _ rfl ?_
  first | rfl | simp [decodeA, decodeSys, decodeFps, decodeMask, guardThen, Fields.immSI, Fields.immSB, Fields.immSL, Fields.immSJ]
theorem min (d : Reg) (a : Reg) (b : Reg) : Statement (.min d a b) := by
  intro h
  refine page_a _ _ rfl ?_
  first | rfl | simp [decodeA, decodeSys, decodeFps, decodeMask, guardThen, Fields.immSI, Fields.immSB, Fields.immSL, Fields.immSJ]
theorem max (d : Reg) (a : Reg) (b : Reg) : Statement (.max d a b) := by
  intro h
  refine page_a _ _ rfl ?_
  first | rfl | simp [decodeA, decodeSys, decodeFps, decodeMask, guardThen, Fields.immSI, Fields.immSB, Fields.immSL, Fields.immSJ]
theorem minu (d : Reg) (a : Reg) (b : Reg) : Statement (.minu d a b) := by
  intro h
  refine page_a _ _ rfl ?_
  first | rfl | simp [decodeA, decodeSys, decodeFps, decodeMask, guardThen, Fields.immSI, Fields.immSB, Fields.immSL, Fields.immSJ]
theorem maxu (d : Reg) (a : Reg) (b : Reg) : Statement (.maxu d a b) := by
  intro h
  refine page_a _ _ rfl ?_
  first | rfl | simp [decodeA, decodeSys, decodeFps, decodeMask, guardThen, Fields.immSI, Fields.immSB, Fields.immSL, Fields.immSJ]
theorem slt (d : Reg) (a : Reg) (b : Reg) : Statement (.slt d a b) := by
  intro h
  refine page_a _ _ rfl ?_
  first | rfl | simp [decodeA, decodeSys, decodeFps, decodeMask, guardThen, Fields.immSI, Fields.immSB, Fields.immSL, Fields.immSJ]
theorem sltu (d : Reg) (a : Reg) (b : Reg) : Statement (.sltu d a b) := by
  intro h
  refine page_a _ _ rfl ?_
  first | rfl | simp [decodeA, decodeSys, decodeFps, decodeMask, guardThen, Fields.immSI, Fields.immSB, Fields.immSL, Fields.immSJ]
theorem seq (d : Reg) (a : Reg) (b : Reg) : Statement (.seq d a b) := by
  intro h
  refine page_a _ _ rfl ?_
  first | rfl | simp [decodeA, decodeSys, decodeFps, decodeMask, guardThen, Fields.immSI, Fields.immSB, Fields.immSL, Fields.immSJ]
theorem mul (d : Reg) (a : Reg) (b : Reg) : Statement (.mul d a b) := by
  intro h
  refine page_a _ _ rfl ?_
  first | rfl | simp [decodeA, decodeSys, decodeFps, decodeMask, guardThen, Fields.immSI, Fields.immSB, Fields.immSL, Fields.immSJ]
theorem mulh (d : Reg) (a : Reg) (b : Reg) : Statement (.mulh d a b) := by
  intro h
  refine page_a _ _ rfl ?_
  first | rfl | simp [decodeA, decodeSys, decodeFps, decodeMask, guardThen, Fields.immSI, Fields.immSB, Fields.immSL, Fields.immSJ]
theorem mulhu (d : Reg) (a : Reg) (b : Reg) : Statement (.mulhu d a b) := by
  intro h
  refine page_a _ _ rfl ?_
  first | rfl | simp [decodeA, decodeSys, decodeFps, decodeMask, guardThen, Fields.immSI, Fields.immSB, Fields.immSL, Fields.immSJ]
theorem div (d : Reg) (a : Reg) (b : Reg) : Statement (.div d a b) := by
  intro h
  refine page_a _ _ rfl ?_
  first | rfl | simp [decodeA, decodeSys, decodeFps, decodeMask, guardThen, Fields.immSI, Fields.immSB, Fields.immSL, Fields.immSJ]
theorem divu (d : Reg) (a : Reg) (b : Reg) : Statement (.divu d a b) := by
  intro h
  refine page_a _ _ rfl ?_
  first | rfl | simp [decodeA, decodeSys, decodeFps, decodeMask, guardThen, Fields.immSI, Fields.immSB, Fields.immSL, Fields.immSJ]
theorem rem (d : Reg) (a : Reg) (b : Reg) : Statement (.rem d a b) := by
  intro h
  refine page_a _ _ rfl ?_
  first | rfl | simp [decodeA, decodeSys, decodeFps, decodeMask, guardThen, Fields.immSI, Fields.immSB, Fields.immSL, Fields.immSJ]
theorem remu (d : Reg) (a : Reg) (b : Reg) : Statement (.remu d a b) := by
  intro h
  refine page_a _ _ rfl ?_
  first | rfl | simp [decodeA, decodeSys, decodeFps, decodeMask, guardThen, Fields.immSI, Fields.immSB, Fields.immSL, Fields.immSJ]
theorem adds (d : Reg) (a : Reg) (b : Reg) : Statement (.adds d a b) := by
  intro h
  refine page_a _ _ rfl ?_
  first | rfl | simp [decodeA, decodeSys, decodeFps, decodeMask, guardThen, Fields.immSI, Fields.immSB, Fields.immSL, Fields.immSJ]
theorem subs (d : Reg) (a : Reg) (b : Reg) : Statement (.subs d a b) := by
  intro h
  refine page_a _ _ rfl ?_
  first | rfl | simp [decodeA, decodeSys, decodeFps, decodeMask, guardThen, Fields.immSI, Fields.immSB, Fields.immSL, Fields.immSJ]
theorem clz (d : Reg) (a : Reg) : Statement (.clz d a) := by
  intro h
  refine page_a _ _ rfl ?_
  first | rfl | simp [decodeA, decodeSys, decodeFps, decodeMask, guardThen, Fields.immSI, Fields.immSB, Fields.immSL, Fields.immSJ]
theorem ctz (d : Reg) (a : Reg) : Statement (.ctz d a) := by
  intro h
  refine page_a _ _ rfl ?_
  first | rfl | simp [decodeA, decodeSys, decodeFps, decodeMask, guardThen, Fields.immSI, Fields.immSB, Fields.immSL, Fields.immSJ]
theorem popc (d : Reg) (a : Reg) : Statement (.popc d a) := by
  intro h
  refine page_a _ _ rfl ?_
  first | rfl | simp [decodeA, decodeSys, decodeFps, decodeMask, guardThen, Fields.immSI, Fields.immSB, Fields.immSL, Fields.immSJ]
theorem bswap (d : Reg) (a : Reg) : Statement (.bswap d a) := by
  intro h
  refine page_a _ _ rfl ?_
  first | rfl | simp [decodeA, decodeSys, decodeFps, decodeMask, guardThen, Fields.immSI, Fields.immSB, Fields.immSL, Fields.immSJ]
theorem addi (d : Reg) (a : Reg) (imm : BitVec 12) : Statement (.addi d a imm) := by
  intro h
  refine page_a _ _ rfl ?_
  first | rfl | simp [decodeA, decodeSys, decodeFps, decodeMask, guardThen, Fields.immSI, Fields.immSB, Fields.immSL, Fields.immSJ]
theorem andi (d : Reg) (a : Reg) (imm : BitVec 12) : Statement (.andi d a imm) := by
  intro h
  refine page_a _ _ rfl ?_
  first | rfl | simp [decodeA, decodeSys, decodeFps, decodeMask, guardThen, Fields.immSI, Fields.immSB, Fields.immSL, Fields.immSJ]
theorem ori (d : Reg) (a : Reg) (imm : BitVec 12) : Statement (.ori d a imm) := by
  intro h
  refine page_a _ _ rfl ?_
  first | rfl | simp [decodeA, decodeSys, decodeFps, decodeMask, guardThen, Fields.immSI, Fields.immSB, Fields.immSL, Fields.immSJ]
theorem xori (d : Reg) (a : Reg) (imm : BitVec 12) : Statement (.xori d a imm) := by
  intro h
  refine page_a _ _ rfl ?_
  first | rfl | simp [decodeA, decodeSys, decodeFps, decodeMask, guardThen, Fields.immSI, Fields.immSB, Fields.immSL, Fields.immSJ]
theorem slti (d : Reg) (a : Reg) (imm : BitVec 12) : Statement (.slti d a imm) := by
  intro h
  refine page_a _ _ rfl ?_
  first | rfl | simp [decodeA, decodeSys, decodeFps, decodeMask, guardThen, Fields.immSI, Fields.immSB, Fields.immSL, Fields.immSJ]
theorem sltiu (d : Reg) (a : Reg) (imm : BitVec 12) : Statement (.sltiu d a imm) := by
  intro h
  refine page_a _ _ rfl ?_
  first | rfl | simp [decodeA, decodeSys, decodeFps, decodeMask, guardThen, Fields.immSI, Fields.immSB, Fields.immSL, Fields.immSJ]
theorem shli (d : Reg) (a : Reg) (imm : BitVec 12) : Statement (.shli d a imm) := by
  intro h
  refine page_a _ _ rfl ?_
  first | rfl | simp [decodeA, decodeSys, decodeFps, decodeMask, guardThen, Fields.immSI, Fields.immSB, Fields.immSL, Fields.immSJ]
theorem shri (d : Reg) (a : Reg) (imm : BitVec 12) : Statement (.shri d a imm) := by
  intro h
  refine page_a _ _ rfl ?_
  first | rfl | simp [decodeA, decodeSys, decodeFps, decodeMask, guardThen, Fields.immSI, Fields.immSB, Fields.immSL, Fields.immSJ]
theorem srai (d : Reg) (a : Reg) (imm : BitVec 12) : Statement (.srai d a imm) := by
  intro h
  refine page_a _ _ rfl ?_
  first | rfl | simp [decodeA, decodeSys, decodeFps, decodeMask, guardThen, Fields.immSI, Fields.immSB, Fields.immSL, Fields.immSJ]
theorem li (d : Reg) (imm : BitVec 18) : Statement (.li d imm) := by
  intro h
  refine page_a _ _ rfl ?_
  first | rfl | simp [decodeA, decodeSys, decodeFps, decodeMask, guardThen, Fields.immSI, Fields.immSB, Fields.immSL, Fields.immSJ]
theorem lui (d : Reg) (imm : BitVec 18) : Statement (.lui d imm) := by
  intro h
  refine page_a _ _ rfl ?_
  first | rfl | simp [decodeA, decodeSys, decodeFps, decodeMask, guardThen, Fields.immSI, Fields.immSB, Fields.immSL, Fields.immSJ]
theorem ldb (d : Reg) (a : Reg) (imm : BitVec 12) : Statement (.ldb d a imm) := by
  intro h
  refine page_a _ _ rfl ?_
  first | rfl | simp [decodeA, decodeSys, decodeFps, decodeMask, guardThen, Fields.immSI, Fields.immSB, Fields.immSL, Fields.immSJ]
theorem ldbu (d : Reg) (a : Reg) (imm : BitVec 12) : Statement (.ldbu d a imm) := by
  intro h
  refine page_a _ _ rfl ?_
  first | rfl | simp [decodeA, decodeSys, decodeFps, decodeMask, guardThen, Fields.immSI, Fields.immSB, Fields.immSL, Fields.immSJ]
theorem ldh (d : Reg) (a : Reg) (imm : BitVec 12) : Statement (.ldh d a imm) := by
  intro h
  refine page_a _ _ rfl ?_
  first | rfl | simp [decodeA, decodeSys, decodeFps, decodeMask, guardThen, Fields.immSI, Fields.immSB, Fields.immSL, Fields.immSJ]
theorem ldhu (d : Reg) (a : Reg) (imm : BitVec 12) : Statement (.ldhu d a imm) := by
  intro h
  refine page_a _ _ rfl ?_
  first | rfl | simp [decodeA, decodeSys, decodeFps, decodeMask, guardThen, Fields.immSI, Fields.immSB, Fields.immSL, Fields.immSJ]
theorem ldw (d : Reg) (a : Reg) (imm : BitVec 12) : Statement (.ldw d a imm) := by
  intro h
  refine page_a _ _ rfl ?_
  first | rfl | simp [decodeA, decodeSys, decodeFps, decodeMask, guardThen, Fields.immSI, Fields.immSB, Fields.immSL, Fields.immSJ]
theorem ldwu (d : Reg) (a : Reg) (imm : BitVec 12) : Statement (.ldwu d a imm) := by
  intro h
  refine page_a _ _ rfl ?_
  first | rfl | simp [decodeA, decodeSys, decodeFps, decodeMask, guardThen, Fields.immSI, Fields.immSB, Fields.immSL, Fields.immSJ]
theorem ldd (d : Reg) (a : Reg) (imm : BitVec 12) : Statement (.ldd d a imm) := by
  intro h
  refine page_a _ _ rfl ?_
  first | rfl | simp [decodeA, decodeSys, decodeFps, decodeMask, guardThen, Fields.immSI, Fields.immSB, Fields.immSL, Fields.immSJ]
theorem stb (b : Reg) (a : Reg) (imm : BitVec 12) : Statement (.stb b a imm) := by
  intro h
  refine page_a _ _ rfl ?_
  first | rfl | simp [decodeA, decodeSys, decodeFps, decodeMask, guardThen, Fields.immSI, Fields.immSB, Fields.immSL, Fields.immSJ]
theorem sth (b : Reg) (a : Reg) (imm : BitVec 12) : Statement (.sth b a imm) := by
  intro h
  refine page_a _ _ rfl ?_
  first | rfl | simp [decodeA, decodeSys, decodeFps, decodeMask, guardThen, Fields.immSI, Fields.immSB, Fields.immSL, Fields.immSJ]
theorem stw (b : Reg) (a : Reg) (imm : BitVec 12) : Statement (.stw b a imm) := by
  intro h
  refine page_a _ _ rfl ?_
  first | rfl | simp [decodeA, decodeSys, decodeFps, decodeMask, guardThen, Fields.immSI, Fields.immSB, Fields.immSL, Fields.immSJ]
theorem std (b : Reg) (a : Reg) (imm : BitVec 12) : Statement (.std b a imm) := by
  intro h
  refine page_a _ _ rfl ?_
  first | rfl | simp [decodeA, decodeSys, decodeFps, decodeMask, guardThen, Fields.immSI, Fields.immSB, Fields.immSL, Fields.immSJ]
theorem beq (a : Reg) (b : Reg) (off : BitVec 12) : Statement (.beq a b off) := by
  intro h
  refine page_a _ _ rfl ?_
  first | rfl | simp [decodeA, decodeSys, decodeFps, decodeMask, guardThen, Fields.immSI, Fields.immSB, Fields.immSL, Fields.immSJ]
theorem bne (a : Reg) (b : Reg) (off : BitVec 12) : Statement (.bne a b off) := by
  intro h
  refine page_a _ _ rfl ?_
  first | rfl | simp [decodeA, decodeSys, decodeFps, decodeMask, guardThen, Fields.immSI, Fields.immSB, Fields.immSL, Fields.immSJ]
theorem blt (a : Reg) (b : Reg) (off : BitVec 12) : Statement (.blt a b off) := by
  intro h
  refine page_a _ _ rfl ?_
  first | rfl | simp [decodeA, decodeSys, decodeFps, decodeMask, guardThen, Fields.immSI, Fields.immSB, Fields.immSL, Fields.immSJ]
theorem bge (a : Reg) (b : Reg) (off : BitVec 12) : Statement (.bge a b off) := by
  intro h
  refine page_a _ _ rfl ?_
  first | rfl | simp [decodeA, decodeSys, decodeFps, decodeMask, guardThen, Fields.immSI, Fields.immSB, Fields.immSL, Fields.immSJ]
theorem bltu (a : Reg) (b : Reg) (off : BitVec 12) : Statement (.bltu a b off) := by
  intro h
  refine page_a _ _ rfl ?_
  first | rfl | simp [decodeA, decodeSys, decodeFps, decodeMask, guardThen, Fields.immSI, Fields.immSB, Fields.immSL, Fields.immSJ]
theorem bgeu (a : Reg) (b : Reg) (off : BitVec 12) : Statement (.bgeu a b off) := by
  intro h
  refine page_a _ _ rfl ?_
  first | rfl | simp [decodeA, decodeSys, decodeFps, decodeMask, guardThen, Fields.immSI, Fields.immSB, Fields.immSL, Fields.immSJ]
theorem j (off : BitVec 24) : Statement (.j off) := by
  intro h
  refine page_a _ _ rfl ?_
  first | rfl | simp [decodeA, decodeSys, decodeFps, decodeMask, guardThen, Fields.immSI, Fields.immSB, Fields.immSL, Fields.immSJ]
theorem call (off : BitVec 24) : Statement (.call off) := by
  intro h
  refine page_a _ _ rfl ?_
  first | rfl | simp [decodeA, decodeSys, decodeFps, decodeMask, guardThen, Fields.immSI, Fields.immSB, Fields.immSL, Fields.immSJ]
theorem jr (d : Reg) (a : Reg) : Statement (.jr d a) := by
  intro h
  refine page_a _ _ rfl ?_
  first | rfl | simp [decodeA, decodeSys, decodeFps, decodeMask, guardThen, Fields.immSI, Fields.immSB, Fields.immSL, Fields.immSJ]
theorem bk (cond : MaskCond) (k : BitVec 3) (off : BitVec 18) : Statement (.bk cond k off) := by
  intro h
  refine page_a _ _ rfl ?_
  first | rfl | simp [decodeA, decodeSys, decodeFps, decodeMask, guardThen, Fields.immSI, Fields.immSB, Fields.immSL, Fields.immSJ]
theorem lea (d : Reg) (a : Reg) (b : Reg) (sh : BitVec 3) : Statement (.lea d a b sh) := by
  intro h
  refine page_a _ _ rfl ?_
  first | rfl | simp [decodeA, decodeSys, decodeFps, decodeMask, guardThen, Fields.immSI, Fields.immSB, Fields.immSL, Fields.immSJ]
theorem fadd (dbl : Bool) (d : Reg) (a : Reg) (b : Reg) : Statement (.fadd dbl d a b) := by
  intro h
  refine page_a _ _ rfl ?_
  first | rfl | simp [decodeA, decodeSys, decodeFps, decodeMask, guardThen, Fields.immSI, Fields.immSB, Fields.immSL, Fields.immSJ]
theorem fsub (dbl : Bool) (d : Reg) (a : Reg) (b : Reg) : Statement (.fsub dbl d a b) := by
  intro h
  refine page_a _ _ rfl ?_
  first | rfl | simp [decodeA, decodeSys, decodeFps, decodeMask, guardThen, Fields.immSI, Fields.immSB, Fields.immSL, Fields.immSJ]
theorem fmul (dbl : Bool) (d : Reg) (a : Reg) (b : Reg) : Statement (.fmul dbl d a b) := by
  intro h
  refine page_a _ _ rfl ?_
  first | rfl | simp [decodeA, decodeSys, decodeFps, decodeMask, guardThen, Fields.immSI, Fields.immSB, Fields.immSL, Fields.immSJ]
theorem fdiv (dbl : Bool) (d : Reg) (a : Reg) (b : Reg) : Statement (.fdiv dbl d a b) := by
  intro h
  refine page_a _ _ rfl ?_
  first | rfl | simp [decodeA, decodeSys, decodeFps, decodeMask, guardThen, Fields.immSI, Fields.immSB, Fields.immSL, Fields.immSJ]
theorem fsqrt (dbl : Bool) (d : Reg) (a : Reg) : Statement (.fsqrt dbl d a) := by
  intro h
  refine page_a _ _ rfl ?_
  first | rfl | simp [decodeA, decodeSys, decodeFps, decodeMask, guardThen, Fields.immSI, Fields.immSB, Fields.immSL, Fields.immSJ]
theorem fmin (dbl : Bool) (d : Reg) (a : Reg) (b : Reg) : Statement (.fmin dbl d a b) := by
  intro h
  refine page_a _ _ rfl ?_
  first | rfl | simp [decodeA, decodeSys, decodeFps, decodeMask, guardThen, Fields.immSI, Fields.immSB, Fields.immSL, Fields.immSJ]
theorem fmax (dbl : Bool) (d : Reg) (a : Reg) (b : Reg) : Statement (.fmax dbl d a b) := by
  intro h
  refine page_a _ _ rfl ?_
  first | rfl | simp [decodeA, decodeSys, decodeFps, decodeMask, guardThen, Fields.immSI, Fields.immSB, Fields.immSL, Fields.immSJ]
theorem feq (dbl : Bool) (d : Reg) (a : Reg) (b : Reg) : Statement (.feq dbl d a b) := by
  intro h
  refine page_a _ _ rfl ?_
  first | rfl | simp [decodeA, decodeSys, decodeFps, decodeMask, guardThen, Fields.immSI, Fields.immSB, Fields.immSL, Fields.immSJ]
theorem flt (dbl : Bool) (d : Reg) (a : Reg) (b : Reg) : Statement (.flt dbl d a b) := by
  intro h
  refine page_a _ _ rfl ?_
  first | rfl | simp [decodeA, decodeSys, decodeFps, decodeMask, guardThen, Fields.immSI, Fields.immSB, Fields.immSL, Fields.immSJ]
theorem fle (dbl : Bool) (d : Reg) (a : Reg) (b : Reg) : Statement (.fle dbl d a b) := by
  intro h
  refine page_a _ _ rfl ?_
  first | rfl | simp [decodeA, decodeSys, decodeFps, decodeMask, guardThen, Fields.immSI, Fields.immSB, Fields.immSL, Fields.immSJ]
theorem fcvt (dst : CvtKind) (src : CvtKind) (d : Reg) (a : Reg) : Statement (.fcvt dst src d a) := by
  intro h
  refine page_a _ _ rfl ?_
  first | rfl | simp [decodeA, decodeSys, decodeFps, decodeMask, guardThen, Fields.immSI, Fields.immSB, Fields.immSL, Fields.immSJ]
theorem sget (d : Reg) (num : BitVec 12) : Statement (.sget d num) := by
  intro h
  refine page_a _ _ rfl ?_
  first | rfl | simp [decodeA, decodeSys, decodeFps, decodeMask, guardThen, Fields.immSI, Fields.immSB, Fields.immSL, Fields.immSJ]
theorem sset (a : Reg) (num : BitVec 12) : Statement (.sset a num) := by
  intro h
  refine page_a _ _ rfl ?_
  first | rfl | simp [decodeA, decodeSys, decodeFps, decodeMask, guardThen, Fields.immSI, Fields.immSB, Fields.immSL, Fields.immSJ]
theorem time (d : Reg) : Statement (.time d) := by
  intro h
  refine page_a _ _ rfl ?_
  first | rfl | simp [decodeA, decodeSys, decodeFps, decodeMask, guardThen, Fields.immSI, Fields.immSB, Fields.immSL, Fields.immSJ]
theorem waitt (a : Reg) : Statement (.waitt a) := by
  intro h
  refine page_a _ _ rfl ?_
  first | rfl | simp [decodeA, decodeSys, decodeFps, decodeMask, guardThen, Fields.immSI, Fields.immSB, Fields.immSL, Fields.immSJ]
theorem carr (dev : Bool) (ch : BitVec 4) : Statement (.carr dev ch) := by
  intro h
  refine page_a _ _ rfl ?_
  first | rfl | simp [decodeA, decodeSys, decodeFps, decodeMask, guardThen, Fields.immSI, Fields.immSB, Fields.immSL, Fields.immSJ]
theorem cwait (dev : Bool) (ch : BitVec 4) : Statement (.cwait dev ch) := by
  intro h
  refine page_a _ _ rfl ?_
  first | rfl | simp [decodeA, decodeSys, decodeFps, decodeMask, guardThen, Fields.immSI, Fields.immSB, Fields.immSL, Fields.immSJ]
theorem take (nb : Bool) (d : Reg) : Statement (.take nb d) := by
  intro h
  refine page_a _ _ rfl ?_
  first | rfl | simp [decodeA, decodeSys, decodeFps, decodeMask, guardThen, Fields.immSI, Fields.immSB, Fields.immSL, Fields.immSJ]
theorem nexti (d : Reg) : Statement (.nexti d) := by
  intro h
  refine page_a _ _ rfl ?_
  first | rfl | simp [decodeA, decodeSys, decodeFps, decodeMask, guardThen, Fields.immSI, Fields.immSB, Fields.immSL, Fields.immSJ]
theorem waitc (loads : BitVec 6) (stores : BitVec 6) (copies : BitVec 6) (tiles : BitVec 6) : Statement (.waitc loads stores copies tiles) := by
  intro h
  refine page_a _ _ rfl ?_
  first | rfl | simp [decodeA, decodeSys, decodeFps, decodeMask, guardThen, Fields.immSI, Fields.immSB, Fields.immSL, Fields.immSJ]
theorem pend (d : Reg) (a : Reg) : Statement (.pend d a) := by
  intro h
  refine page_a _ _ rfl ?_
  first | rfl | simp [decodeA, decodeSys, decodeFps, decodeMask, guardThen, Fields.immSI, Fields.immSB, Fields.immSL, Fields.immSJ]
theorem ppoll (d : Reg) (a : Reg) : Statement (.ppoll d a) := by
  intro h
  refine page_a _ _ rfl ?_
  first | rfl | simp [decodeA, decodeSys, decodeFps, decodeMask, guardThen, Fields.immSI, Fields.immSB, Fields.immSL, Fields.immSJ]
theorem kand (d : Reg) (a : Reg) (b : Reg) : Statement (.kand d a b) := by
  intro h
  refine page_a _ _ rfl ?_
  first | rfl | simp [decodeA, decodeSys, decodeFps, decodeMask, guardThen, Fields.immSI, Fields.immSB, Fields.immSL, Fields.immSJ]
theorem kor (d : Reg) (a : Reg) (b : Reg) : Statement (.kor d a b) := by
  intro h
  refine page_a _ _ rfl ?_
  first | rfl | simp [decodeA, decodeSys, decodeFps, decodeMask, guardThen, Fields.immSI, Fields.immSB, Fields.immSL, Fields.immSJ]
theorem kxor (d : Reg) (a : Reg) (b : Reg) : Statement (.kxor d a b) := by
  intro h
  refine page_a _ _ rfl ?_
  first | rfl | simp [decodeA, decodeSys, decodeFps, decodeMask, guardThen, Fields.immSI, Fields.immSB, Fields.immSL, Fields.immSJ]
theorem knot (d : Reg) (a : Reg) : Statement (.knot d a) := by
  intro h
  refine page_a _ _ rfl ?_
  first | rfl | simp [decodeA, decodeSys, decodeFps, decodeMask, guardThen, Fields.immSI, Fields.immSB, Fields.immSL, Fields.immSJ]
theorem kpop (d : Reg) (a : Reg) : Statement (.kpop d a) := by
  intro h
  refine page_a _ _ rfl ?_
  first | rfl | simp [decodeA, decodeSys, decodeFps, decodeMask, guardThen, Fields.immSI, Fields.immSB, Fields.immSL, Fields.immSJ]
theorem kfirst (d : Reg) (a : Reg) : Statement (.kfirst d a) := by
  intro h
  refine page_a _ _ rfl ?_
  first | rfl | simp [decodeA, decodeSys, decodeFps, decodeMask, guardThen, Fields.immSI, Fields.immSB, Fields.immSL, Fields.immSJ]
theorem kmovs (d : Reg) (a : Reg) : Statement (.kmovs d a) := by
  intro h
  refine page_a _ _ rfl ?_
  first | rfl | simp [decodeA, decodeSys, decodeFps, decodeMask, guardThen, Fields.immSI, Fields.immSB, Fields.immSL, Fields.immSJ]
theorem kmovk (d : Reg) (a : Reg) : Statement (.kmovk d a) := by
  intro h
  refine page_a _ _ rfl ?_
  first | rfl | simp [decodeA, decodeSys, decodeFps, decodeMask, guardThen, Fields.immSI, Fields.immSB, Fields.immSL, Fields.immSJ]
theorem vadd (f : Fmt) (bc : Bool) (d : Reg) (a : Reg) (b : Reg) : Statement (.vadd f bc d a b) := by
  intro h
  refine page_b _ _ rfl ?_
  simp [decodeB, guardThen]
theorem vsub (f : Fmt) (bc : Bool) (d : Reg) (a : Reg) (b : Reg) : Statement (.vsub f bc d a b) := by
  intro h
  refine page_b _ _ rfl ?_
  simp [decodeB, guardThen]
theorem vmul (f : Fmt) (bc : Bool) (d : Reg) (a : Reg) (b : Reg) : Statement (.vmul f bc d a b) := by
  intro h
  refine page_b _ _ rfl ?_
  simp [decodeB, guardThen]
theorem vdiv (f : Fmt) (bc : Bool) (d : Reg) (a : Reg) (b : Reg) : Statement (.vdiv f bc d a b) := by
  intro h
  refine page_b _ _ rfl ?_
  simp [decodeB, guardThen]
theorem vmin (f : Fmt) (bc : Bool) (d : Reg) (a : Reg) (b : Reg) : Statement (.vmin f bc d a b) := by
  intro h
  refine page_b _ _ rfl ?_
  simp [decodeB, guardThen]
theorem vmax (f : Fmt) (bc : Bool) (d : Reg) (a : Reg) (b : Reg) : Statement (.vmax f bc d a b) := by
  intro h
  refine page_b _ _ rfl ?_
  simp [decodeB, guardThen]
theorem vabs (f : Fmt) (d : Reg) (a : Reg) : Statement (.vabs f d a) := by
  intro h
  refine page_b _ _ rfl ?_
  simp [decodeB, guardThen]
theorem vneg (f : Fmt) (d : Reg) (a : Reg) : Statement (.vneg f d a) := by
  intro h
  refine page_b _ _ rfl ?_
  simp [decodeB, guardThen]
theorem vsqrt (f : Fmt) (d : Reg) (a : Reg) : Statement (.vsqrt f d a) := by
  intro h
  refine page_b _ _ rfl ?_
  simp [decodeB, guardThen]
theorem vexp2 (f : Fmt) (d : Reg) (a : Reg) : Statement (.vexp2 f d a) := by
  intro h
  refine page_b _ _ rfl ?_
  simp [decodeB, guardThen]
theorem vlog2 (f : Fmt) (d : Reg) (a : Reg) : Statement (.vlog2 f d a) := by
  intro h
  refine page_b _ _ rfl ?_
  simp [decodeB, guardThen]
theorem vrcp (f : Fmt) (d : Reg) (a : Reg) : Statement (.vrcp f d a) := by
  intro h
  refine page_b _ _ rfl ?_
  simp [decodeB, guardThen]
theorem vrsq (f : Fmt) (d : Reg) (a : Reg) : Statement (.vrsq f d a) := by
  intro h
  refine page_b _ _ rfl ?_
  simp [decodeB, guardThen]
theorem vand (f : Fmt) (bc : Bool) (d : Reg) (a : Reg) (b : Reg) : Statement (.vand f bc d a b) := by
  intro h
  refine page_b _ _ rfl ?_
  simp [decodeB, guardThen]
theorem vor (f : Fmt) (bc : Bool) (d : Reg) (a : Reg) (b : Reg) : Statement (.vor f bc d a b) := by
  intro h
  refine page_b _ _ rfl ?_
  simp [decodeB, guardThen]
theorem vxor (f : Fmt) (bc : Bool) (d : Reg) (a : Reg) (b : Reg) : Statement (.vxor f bc d a b) := by
  intro h
  refine page_b _ _ rfl ?_
  simp [decodeB, guardThen]
theorem vshl (f : Fmt) (bc : Bool) (d : Reg) (a : Reg) (b : Reg) : Statement (.vshl f bc d a b) := by
  intro h
  refine page_b _ _ rfl ?_
  simp [decodeB, guardThen]
theorem vshr (f : Fmt) (bc : Bool) (d : Reg) (a : Reg) (b : Reg) : Statement (.vshr f bc d a b) := by
  intro h
  refine page_b _ _ rfl ?_
  simp [decodeB, guardThen]
theorem vsra (f : Fmt) (bc : Bool) (d : Reg) (a : Reg) (b : Reg) : Statement (.vsra f bc d a b) := by
  intro h
  refine page_b _ _ rfl ?_
  simp [decodeB, guardThen]
theorem vceq (f : Fmt) (bc : Bool) (d : Reg) (a : Reg) (b : Reg) : Statement (.vceq f bc d a b) := by
  intro h
  refine page_b _ _ rfl ?_
  simp [decodeB, guardThen]
theorem vclt (f : Fmt) (bc : Bool) (d : Reg) (a : Reg) (b : Reg) : Statement (.vclt f bc d a b) := by
  intro h
  refine page_b _ _ rfl ?_
  simp [decodeB, guardThen]
theorem vcle (f : Fmt) (bc : Bool) (d : Reg) (a : Reg) (b : Reg) : Statement (.vcle f bc d a b) := by
  intro h
  refine page_b _ _ rfl ?_
  simp [decodeB, guardThen]
theorem vcun (f : Fmt) (bc : Bool) (d : Reg) (a : Reg) (b : Reg) : Statement (.vcun f bc d a b) := by
  intro h
  refine page_b _ _ rfl ?_
  simp [decodeB, guardThen]
theorem vreds (f : Fmt) (d : Reg) (a : Reg) : Statement (.vreds f d a) := by
  intro h
  refine page_b _ _ rfl ?_
  simp [decodeB, guardThen]
theorem vredx (f : Fmt) (d : Reg) (a : Reg) : Statement (.vredx f d a) := by
  intro h
  refine page_b _ _ rfl ?_
  simp [decodeB, guardThen]
theorem vredn (f : Fmt) (d : Reg) (a : Reg) : Statement (.vredn f d a) := by
  intro h
  refine page_b _ _ rfl ?_
  simp [decodeB, guardThen]
theorem vscan (f : Fmt) (d : Reg) (a : Reg) : Statement (.vscan f d a) := by
  intro h
  refine page_b _ _ rfl ?_
  simp [decodeB, guardThen]
theorem vsort (f : Fmt) (dn : Bool) (d : Reg) : Statement (.vsort f dn d) := by
  intro h
  cases dn
  all_goals
    refine page_b _ _ rfl ?_
    simp [decodeB, guardThen]
theorem vmrg (f : Fmt) (dn : Bool) (d : Reg) (a : Reg) : Statement (.vmrg f dn d a) := by
  intro h
  cases dn
  all_goals
    refine page_b _ _ rfl ?_
    simp [decodeB, guardThen]
theorem vperm (f : Fmt) (d : Reg) (a : Reg) (b : Reg) : Statement (.vperm f d a b) := by
  intro h
  refine page_b _ _ rfl ?_
  simp [decodeB, guardThen]
theorem vbcast (f : Fmt) (d : Reg) (a : Reg) : Statement (.vbcast f d a) := by
  intro h
  refine page_b _ _ rfl ?_
  simp [decodeB, guardThen]
theorem vext (f : Fmt) (d : Reg) (a : Reg) (b : Reg) : Statement (.vext f d a b) := by
  intro h
  refine page_b _ _ rfl ?_
  simp [decodeB, guardThen]
theorem vins (f : Fmt) (d : Reg) (a : Reg) (b : Reg) : Statement (.vins f d a b) := by
  intro h
  refine page_b _ _ rfl ?_
  simp [decodeB, guardThen]
theorem viota (f : Fmt) (d : Reg) (a : Reg) : Statement (.viota f d a) := by
  intro h
  refine page_b _ _ rfl ?_
  simp [decodeB, guardThen]
theorem vrnd (f : Fmt) (d : Reg) (a : Reg) (b : Reg) : Statement (.vrnd f d a b) := by
  intro h
  refine page_b _ _ rfl ?_
  simp [decodeB, guardThen]
theorem vmov (f : Fmt) (d : Reg) (a : Reg) : Statement (.vmov f d a) := by
  intro h
  refine page_b _ _ rfl ?_
  simp [decodeB, guardThen]
theorem vclass (f : Fmt) (d : Reg) (a : Reg) : Statement (.vclass f d a) := by
  intro h
  refine page_b _ _ rfl ?_
  simp [decodeB, guardThen]
theorem vdot (f : Fmt) (bc : Bool) (d : Reg) (a : Reg) (b : Reg) : Statement (.vdot f bc d a b) := by
  intro h
  refine page_b _ _ rfl ?_
  simp [decodeB, guardThen]
theorem rnd (mode : RMode) (sat : Bool) : Statement (.rnd mode sat) := by
  intro h
  simp [encode, isLong, decodeWords, decodeShort, Fields.split, decodeP, guardThen]
theorem prd (zero : Bool) (inv : Bool) (k : BitVec 3) : Statement (.prd zero inv k) := by
  intro h
  simp [encode, isLong, decodeWords, decodeShort, Fields.split, decodeP, guardThen]
theorem ximm (imm : BitVec 26) : Statement (.ximm imm) := by
  intro h
  simp [encode, isLong, decodeWords, decodeShort, Fields.split, decodeP, guardThen]
theorem vfma (f : Fmt) (bcB : Bool) (bcC : Bool) (d : Reg) (a : Reg) (b : Reg) (c : Reg) : Statement (.vfma f bcB bcC d a b c) := by
  intro h
  refine long _ _ _ .vec rfl rfl ?_
  simp [LongBy, decodeV, guardThen, LM.op]
theorem vfms (f : Fmt) (bcB : Bool) (bcC : Bool) (d : Reg) (a : Reg) (b : Reg) (c : Reg) : Statement (.vfms f bcB bcC d a b c) := by
  intro h
  refine long _ _ _ .vec rfl rfl ?_
  simp [LongBy, decodeV, guardThen, LM.op]
theorem vfnma (f : Fmt) (bcB : Bool) (bcC : Bool) (d : Reg) (a : Reg) (b : Reg) (c : Reg) : Statement (.vfnma f bcB bcC d a b c) := by
  intro h
  refine long _ _ _ .vec rfl rfl ?_
  simp [LongBy, decodeV, guardThen, LM.op]
theorem vfnms (f : Fmt) (bcB : Bool) (bcC : Bool) (d : Reg) (a : Reg) (b : Reg) (c : Reg) : Statement (.vfnms f bcB bcC d a b c) := by
  intro h
  refine long _ _ _ .vec rfl rfl ?_
  simp [LongBy, decodeV, guardThen, LM.op]
theorem vsel (f : Fmt) (bcB : Bool) (k : BitVec 3) (d : Reg) (a : Reg) (b : Reg) : Statement (.vsel f bcB k d a b) := by
  intro h
  refine long _ _ _ .vec rfl rfl ?_
  simp [LongBy, decodeV, guardThen, LM.op]
theorem vcvt (src : Fmt) (dst : Fmt) (part : BitVec 4) (d : Reg) (a : Reg) : Statement (.vcvt src dst part d a) := by
  intro h
  refine long _ _ _ .vec rfl rfl ?_
  simp [LongBy, decodeV, guardThen, LM.op]
theorem vqnt (f : Fmt) (d : Reg) (a : Reg) : Statement (.vqnt f d a) := by
  intro h
  refine long _ _ _ .vec rfl rfl ?_
  simp [LongBy, decodeV, guardThen, LM.op]
theorem vdq (f : Fmt) (d : Reg) (a : Reg) : Statement (.vdq f d a) := by
  intro h
  refine long _ _ _ .vec rfl rfl ?_
  simp [LongBy, decodeV, guardThen, LM.op]
theorem vwscTo (f : Fmt) (d : Reg) (a : Reg) (c : Reg) : Statement (.vwscTo f d a c) := by
  intro h
  refine long _ _ _ .vec rfl rfl ?_
  simp [LongBy, decodeV, guardThen, LM.op]
theorem vwscFrom (f : Fmt) (d : Reg) (a : Reg) : Statement (.vwscFrom f d a) := by
  intro h
  refine long _ _ _ .vec rfl rfl ?_
  simp [LongBy, decodeV, guardThen, LM.op]
theorem vshuf (f : Fmt) (d : Reg) (a : Reg) (b : Reg) (c : Reg) : Statement (.vshuf f d a b c) := by
  intro h
  refine long _ _ _ .vec rfl rfl ?_
  simp [LongBy, decodeV, guardThen, LM.op]
theorem vld (f : Fmt) (d : Reg) (m : MemOp) : Statement (.vld f d m) := by
  intro h
  refine long _ _ _ .vec rfl rfl ?_
  simp [LongBy, decodeV, guardThen, LM.op]
theorem vst (f : Fmt) (d : Reg) (m : MemOp) : Statement (.vst f d m) := by
  intro h
  refine long _ _ _ .vec rfl rfl ?_
  simp [LongBy, decodeV, guardThen, LM.op]
theorem vlds (f : Fmt) (d : Reg) (m : MemOp) : Statement (.vlds f d m) := by
  intro h
  refine long _ _ _ .vec rfl rfl ?_
  simp [LongBy, decodeV, guardThen, LM.op]
theorem vsts (f : Fmt) (d : Reg) (m : MemOp) : Statement (.vsts f d m) := by
  intro h
  refine long _ _ _ .vec rfl rfl ?_
  simp [LongBy, decodeV, guardThen, LM.op]
theorem vgath (f : Fmt) (d : Reg) (m : MemOp) : Statement (.vgath f d m) := by
  intro h
  refine long _ _ _ .vec rfl rfl ?_
  simp [LongBy, decodeV, guardThen, LM.op]
theorem vscat (f : Fmt) (d : Reg) (m : MemOp) : Statement (.vscat f d m) := by
  intro h
  refine long _ _ _ .vec rfl rfl ?_
  simp [LongBy, decodeV, guardThen, LM.op]
theorem ldx (size : LdSize) (d : Reg) (m : MemOp) : Statement (.ldx size d m) := by
  intro h
  refine long _ _ _ .lm rfl rfl ?_
  simp [LongBy, decodeLM, guardThen, LM.op]
theorem stx (size : StSize) (d : Reg) (m : MemOp) : Statement (.stx size d m) := by
  intro h
  refine long _ _ _ .lm rfl rfl ?_
  simp [LongBy, decodeLM, guardThen, LM.op]
theorem ldi (size : LdSize) (d : Reg) (m : MemOp) : Statement (.ldi size d m) := by
  intro h
  refine long _ _ _ .lm rfl rfl ?_
  simp [LongBy, decodeLM, guardThen, LM.op]
theorem vldi (f : Fmt) (d : Reg) (m : MemOp) : Statement (.vldi f d m) := by
  intro h
  refine long _ _ _ .vec rfl rfl ?_
  simp [LongBy, decodeV, guardThen, LM.op]
theorem lds (size : LdSize) (acq : Bool) (scope : Scope) (d : Reg) (m : MemOp) : Statement (.lds size acq scope d m) := by
  intro h
  cases acq
  all_goals
    refine long _ _ _ .lm rfl rfl ?_
    simp [LongBy, decodeLM, guardThen, LM.op]
theorem sts (size : StSize) (rel : Bool) (scope : Scope) (d : Reg) (m : MemOp) : Statement (.sts size rel scope d m) := by
  intro h
  cases rel
  all_goals
    refine long _ _ _ .lm rfl rfl ?_
    simp [LongBy, decodeLM, guardThen, LM.op]
theorem phase (acq : Bool) (rel : Bool) (scope : Scope) : Statement (.phase acq rel scope) := by
  intro h
  refine long _ _ _ .lrm rfl rfl ?_
  simp_all [LongBy, decodeLRM, guardThen, LM.op, Instr.wf, Instr.limits]
theorem fence (acq : Bool) (rel : Bool) (scope : Scope) : Statement (.fence acq rel scope) := by
  intro h
  refine long _ _ _ .lrm rfl rfl ?_
  simp_all [LongBy, decodeLRM, guardThen, LM.op, Instr.wf, Instr.limits]
theorem atomSwap (size : StSize) (ord : Order) (scope : Scope) (d : Reg) (m : MemOp) : Statement (.atomSwap size ord scope d m) := by
  intro h
  refine long _ _ _ .atom rfl rfl ?_
  simp [LongBy, decodeAtom, guardThen, LM.op]
theorem atomCas (size : StSize) (ord : Order) (scope : Scope) (d : Reg) (m : MemOp) : Statement (.atomCas size ord scope d m) := by
  intro h
  refine long _ _ _ .atom rfl rfl ?_
  simp [LongBy, decodeAtom, guardThen, LM.op]
theorem atomAdd (size : StSize) (ord : Order) (scope : Scope) (d : Reg) (m : MemOp) : Statement (.atomAdd size ord scope d m) := by
  intro h
  refine long _ _ _ .atom rfl rfl ?_
  simp [LongBy, decodeAtom, guardThen, LM.op]
theorem atomAnd (size : StSize) (ord : Order) (scope : Scope) (d : Reg) (m : MemOp) : Statement (.atomAnd size ord scope d m) := by
  intro h
  refine long _ _ _ .atom rfl rfl ?_
  simp [LongBy, decodeAtom, guardThen, LM.op]
theorem atomOr (size : StSize) (ord : Order) (scope : Scope) (d : Reg) (m : MemOp) : Statement (.atomOr size ord scope d m) := by
  intro h
  refine long _ _ _ .atom rfl rfl ?_
  simp [LongBy, decodeAtom, guardThen, LM.op]
theorem atomXor (size : StSize) (ord : Order) (scope : Scope) (d : Reg) (m : MemOp) : Statement (.atomXor size ord scope d m) := by
  intro h
  refine long _ _ _ .atom rfl rfl ?_
  simp [LongBy, decodeAtom, guardThen, LM.op]
theorem atomMin (size : StSize) (ord : Order) (scope : Scope) (d : Reg) (m : MemOp) : Statement (.atomMin size ord scope d m) := by
  intro h
  refine long _ _ _ .atom rfl rfl ?_
  simp [LongBy, decodeAtom, guardThen, LM.op]
theorem atomMax (size : StSize) (ord : Order) (scope : Scope) (d : Reg) (m : MemOp) : Statement (.atomMax size ord scope d m) := by
  intro h
  refine long _ _ _ .atom rfl rfl ?_
  simp [LongBy, decodeAtom, guardThen, LM.op]
theorem atomMinu (size : StSize) (ord : Order) (scope : Scope) (d : Reg) (m : MemOp) : Statement (.atomMinu size ord scope d m) := by
  intro h
  refine long _ _ _ .atom rfl rfl ?_
  simp [LongBy, decodeAtom, guardThen, LM.op]
theorem atomMaxu (size : StSize) (ord : Order) (scope : Scope) (d : Reg) (m : MemOp) : Statement (.atomMaxu size ord scope d m) := by
  intro h
  refine long _ _ _ .atom rfl rfl ?_
  simp [LongBy, decodeAtom, guardThen, LM.op]
theorem atomFadd (dbl : Bool) (ord : Order) (scope : Scope) (d : Reg) (m : MemOp) : Statement (.atomFadd dbl ord scope d m) := by
  intro h
  cases dbl
  all_goals
    refine long _ _ _ .atom rfl rfl ?_
    simp [LongBy, decodeAtom, guardThen, LM.op]
theorem atomFmin (dbl : Bool) (ord : Order) (scope : Scope) (d : Reg) (m : MemOp) : Statement (.atomFmin dbl ord scope d m) := by
  intro h
  cases dbl
  all_goals
    refine long _ _ _ .atom rfl rfl ?_
    simp [LongBy, decodeAtom, guardThen, LM.op]
theorem atomFmax (dbl : Bool) (ord : Order) (scope : Scope) (d : Reg) (m : MemOp) : Statement (.atomFmax dbl ord scope d m) := by
  intro h
  cases dbl
  all_goals
    refine long _ _ _ .atom rfl rfl ?_
    simp [LongBy, decodeAtom, guardThen, LM.op]
theorem atomWs (ord : Order) (scope : Scope) (d : Reg) (m : MemOp) : Statement (.atomWs ord scope d m) := by
  intro h
  refine long _ _ _ .atom rfl rfl ?_
  simp [LongBy, decodeAtom, guardThen, LM.op]
theorem bankopAddF32 (d : Reg) (a : Reg) (b : Reg) (c : Reg) : Statement (.bankopAddF32 d a b c) := by
  intro h
  refine long _ _ _ .bank rfl rfl ?_
  simp [LongBy, decodeBank, guardThen, LM.op]
theorem bankopAddF64 (d : Reg) (a : Reg) (b : Reg) (c : Reg) : Statement (.bankopAddF64 d a b c) := by
  intro h
  refine long _ _ _ .bank rfl rfl ?_
  simp [LongBy, decodeBank, guardThen, LM.op]
theorem bankopAddI64 (d : Reg) (a : Reg) (b : Reg) (c : Reg) : Statement (.bankopAddI64 d a b c) := by
  intro h
  refine long _ _ _ .bank rfl rfl ?_
  simp [LongBy, decodeBank, guardThen, LM.op]
theorem bankopMinF32 (d : Reg) (a : Reg) (b : Reg) (c : Reg) : Statement (.bankopMinF32 d a b c) := by
  intro h
  refine long _ _ _ .bank rfl rfl ?_
  simp [LongBy, decodeBank, guardThen, LM.op]
theorem bankopMaxF32 (d : Reg) (a : Reg) (b : Reg) (c : Reg) : Statement (.bankopMaxF32 d a b c) := by
  intro h
  refine long _ _ _ .bank rfl rfl ?_
  simp [LongBy, decodeBank, guardThen, LM.op]
theorem bankopMinI64 (d : Reg) (a : Reg) (b : Reg) (c : Reg) : Statement (.bankopMinI64 d a b c) := by
  intro h
  refine long _ _ _ .bank rfl rfl ?_
  simp [LongBy, decodeBank, guardThen, LM.op]
theorem bankopMaxI64 (d : Reg) (a : Reg) (b : Reg) (c : Reg) : Statement (.bankopMaxI64 d a b c) := by
  intro h
  refine long _ _ _ .bank rfl rfl ?_
  simp [LongBy, decodeBank, guardThen, LM.op]
theorem bankopWs (d : Reg) (a : Reg) (b : Reg) (c : Reg) : Statement (.bankopWs d a b c) := by
  intro h
  refine long _ _ _ .bank rfl rfl ?_
  simp [LongBy, decodeBank, guardThen, LM.op]
theorem bari (d : Reg) (m : MemOp) : Statement (.bari d m) := by
  intro h
  refine long _ _ _ .lm rfl rfl ?_
  simp [LongBy, decodeLM, guardThen, LM.op]
theorem bara (d : Reg) (m : MemOp) : Statement (.bara d m) := by
  intro h
  refine long _ _ _ .lm rfl rfl ?_
  simp [LongBy, decodeLM, guardThen, LM.op]
theorem barw (d : Reg) (m : MemOp) : Statement (.barw d m) := by
  intro h
  refine long _ _ _ .lm rfl rfl ?_
  simp [LongBy, decodeLM, guardThen, LM.op]
theorem barx (d : Reg) (m : MemOp) : Statement (.barx d m) := by
  intro h
  refine long _ _ _ .lm rfl rfl ?_
  simp [LongBy, decodeLM, guardThen, LM.op]
theorem slotacq (d : Reg) (m : MemOp) : Statement (.slotacq d m) := by
  intro h
  refine long _ _ _ .lm rfl rfl ?_
  simp [LongBy, decodeLM, guardThen, LM.op]
theorem slotwait (d : Reg) (m : MemOp) : Statement (.slotwait d m) := by
  intro h
  refine long _ _ _ .lm rfl rfl ?_
  simp [LongBy, decodeLM, guardThen, LM.op]
theorem slotrel (d : Reg) (m : MemOp) : Statement (.slotrel d m) := by
  intro h
  refine long _ _ _ .lm rfl rfl ?_
  simp [LongBy, decodeLM, guardThen, LM.op]
theorem slotrelFull (d : Reg) (m : MemOp) : Statement (.slotrelFull d m) := by
  intro h
  refine long _ _ _ .lm rfl rfl ?_
  simp [LongBy, decodeLM, guardThen, LM.op]
theorem sbind (out : Bool) (d : Reg) (a : Reg) (b : Reg) : Statement (.sbind out d a b) := by
  intro h
  cases out
  all_goals
    refine long _ _ _ .lrm rfl rfl ?_
    rfl
theorem sdrain (d : Reg) : Statement (.sdrain d) := by
  intro h
  refine long _ _ _ .lr rfl rfl ?_
  simp [LongBy, decodeLR, guardThen, LM.op]
theorem pbind (d : Reg) (a : Reg) : Statement (.pbind d a) := by
  intro h
  refine long _ _ _ .lr rfl rfl ?_
  simp [LongBy, decodeLR, guardThen, LM.op]
theorem tlwait (tl : Reg) (a : Reg) (imm : IWord) : Statement (.tlwait tl a imm) := by
  intro h
  refine long _ _ _ .li rfl rfl ?_
  simp [LongBy, decodeLI, guardThen, LM.op]
theorem tlget (tl : Reg) (a : Reg) (imm : IWord) : Statement (.tlget tl a imm) := by
  intro h
  refine long _ _ _ .li rfl rfl ?_
  simp [LongBy, decodeLI, guardThen, LM.op]
theorem tlset (tl : Reg) (a : Reg) (imm : IWord) : Statement (.tlset tl a imm) := by
  intro h
  refine long _ _ _ .li rfl rfl ?_
  simp [LongBy, decodeLI, guardThen, LM.op]
theorem cmaskC (a : Reg) (ch : BitVec 4) : Statement (.cmaskC a ch) := by
  intro h
  refine long _ _ _ .lrm rfl rfl ?_
  simp [LongBy, decodeLRM, guardThen, LM.op]
theorem cmaskD (a : Reg) (ch : BitVec 4) : Statement (.cmaskD a ch) := by
  intro h
  refine long _ _ _ .lrm rfl rfl ?_
  simp [LongBy, decodeLRM, guardThen, LM.op]
theorem cmaskDc (a : Reg) (b : Reg) (ch : BitVec 4) : Statement (.cmaskDc a b ch) := by
  intro h
  refine long _ _ _ .lrm rfl rfl ?_
  simp [LongBy, decodeLRM, guardThen, LM.op]
theorem cpy (p : PostOp) : Statement (.cpy p) := by
  intro h
  refine long _ _ _ .post rfl rfl ?_
  simp [LongBy, decodePost, guardThen, LM.op]
theorem credAddF32 (p : PostOp) : Statement (.credAddF32 p) := by
  intro h
  refine long _ _ _ .post rfl rfl ?_
  simp [LongBy, decodePost, guardThen, LM.op]
theorem credAddF64 (p : PostOp) : Statement (.credAddF64 p) := by
  intro h
  refine long _ _ _ .post rfl rfl ?_
  simp [LongBy, decodePost, guardThen, LM.op]
theorem credAddI32 (p : PostOp) : Statement (.credAddI32 p) := by
  intro h
  refine long _ _ _ .post rfl rfl ?_
  simp [LongBy, decodePost, guardThen, LM.op]
theorem credMinF32 (p : PostOp) : Statement (.credMinF32 p) := by
  intro h
  refine long _ _ _ .post rfl rfl ?_
  simp [LongBy, decodePost, guardThen, LM.op]
theorem credMaxF32 (p : PostOp) : Statement (.credMaxF32 p) := by
  intro h
  refine long _ _ _ .post rfl rfl ?_
  simp [LongBy, decodePost, guardThen, LM.op]
theorem credMinI32 (p : PostOp) : Statement (.credMinI32 p) := by
  intro h
  refine long _ _ _ .post rfl rfl ?_
  simp [LongBy, decodePost, guardThen, LM.op]
theorem credMaxI32 (p : PostOp) : Statement (.credMaxI32 p) := by
  intro h
  refine long _ _ _ .post rfl rfl ?_
  simp [LongBy, decodePost, guardThen, LM.op]
theorem credWs (p : PostOp) : Statement (.credWs p) := by
  intro h
  refine long _ _ _ .post rfl rfl ?_
  simp [LongBy, decodePost, guardThen, LM.op]
theorem cflag (p : PostOp) (b : Reg) : Statement (.cflag p b) := by
  intro h
  refine long _ _ _ .post rfl rfl ?_
  simp [LongBy, decodePost, guardThen, LM.op]
theorem cflagAdd (p : PostOp) (b : Reg) : Statement (.cflagAdd p b) := by
  intro h
  refine long _ _ _ .post rfl rfl ?_
  simp [LongBy, decodePost, guardThen, LM.op]
theorem chase (p : PostOp) : Statement (.chase p) := by
  intro h
  refine long _ _ _ .post rfl rfl ?_
  simp [LongBy, decodePost, guardThen, LM.op]
theorem repart (p : PostOp) : Statement (.repart p) := by
  intro h
  refine long _ _ _ .post rfl rfl ?_
  simp [LongBy, decodePost, guardThen, LM.op]
theorem mxq (d : Reg) (a : Reg) : Statement (.mxq d a) := by
  intro h
  refine long _ _ _ .lr rfl rfl ?_
  simp [LongBy, decodeLR, guardThen, LM.op]
theorem mxz (d : Reg) (a : Reg) (imm : BitVec 17) : Statement (.mxz d a imm) := by
  intro h
  refine long _ _ _ .lr rfl rfl ?_
  simp [LongBy, decodeLR, guardThen, LM.op]
theorem mxzFree (d : Reg) : Statement (.mxzFree d) := by
  intro h
  refine long _ _ _ .lr rfl rfl ?_
  simp [LongBy, decodeLR, guardThen, LM.op]
theorem mxrd (free : Bool) (d : Reg) (a : Reg) (b : Reg) : Statement (.mxrd free d a b) := by
  intro h
  refine long _ _ _ .lr rfl rfl ?_
  simp [LongBy, decodeLR, guardThen, LM.op]
theorem mxwr (d : Reg) (a : Reg) (b : Reg) : Statement (.mxwr d a b) := by
  intro h
  refine long _ _ _ .lr rfl rfl ?_
  simp [LongBy, decodeLR, guardThen, LM.op]
theorem rcfg (d : Reg) (a : Reg) (b : Reg) (c : Reg) : Statement (.rcfg d a b c) := by
  intro h
  refine long _ _ _ .lr rfl rfl ?_
  simp [LongBy, decodeLR, guardThen, LM.op]
theorem rtab (d : Reg) (a : Reg) (b : Reg) (c : Reg) : Statement (.rtab d a b c) := by
  intro h
  refine long _ _ _ .lr rfl rfl ?_
  simp [LongBy, decodeLR, guardThen, LM.op]
theorem rstep (creg : Bool) (n : BitVec 4) (d : Reg) (a : Reg) (b : Reg) : Statement (.rstep creg n d a b) := by
  intro h
  refine long _ _ _ .lr rfl rfl ?_
  simp [LongBy, decodeLR, guardThen, LM.op]
theorem rgen (d : Reg) (a : Reg) : Statement (.rgen d a) := by
  intro h
  refine long _ _ _ .lr rfl rfl ?_
  simp [LongBy, decodeLR, guardThen, LM.op]
theorem launch (d : Reg) (a : Reg) : Statement (.launch d a) := by
  intro h
  refine long _ _ _ .lr rfl rfl ?_
  simp [LongBy, decodeLR, guardThen, LM.op]
theorem qpush (d : Reg) (a : Reg) (b : Reg) : Statement (.qpush d a b) := by
  intro h
  refine long _ _ _ .lr rfl rfl ?_
  simp [LongBy, decodeLR, guardThen, LM.op]
theorem lvget (tsrc : Bool) (slot : BitVec 4) (d : Reg) (b : Reg) : Statement (.lvget tsrc slot d b) := by
  intro h
  refine long _ _ _ .lr rfl rfl ?_
  simp [LongBy, decodeLR, guardThen, LM.op]
theorem lvset (d : Reg) (a : Reg) (b : Reg) (c : Reg) : Statement (.lvset d a b c) := by
  intro h
  refine long _ _ _ .lr rfl rfl ?_
  simp [LongBy, decodeLR, guardThen, LM.op]
theorem lvsetReseat (d : Reg) (a : Reg) (b : Reg) (c : Reg) : Statement (.lvsetReseat d a b c) := by
  intro h
  refine long _ _ _ .lr rfl rfl ?_
  simp [LongBy, decodeLR, guardThen, LM.op]
theorem rpt (csrc : Bool) (a : Reg) (count : BitVec 16) (bstr : BitVec 2) (astr : BitVec 2) (dstr : BitVec 2) (n1 : BitVec 4) : Statement (.rpt csrc a count bstr astr dstr n1) := by
  intro h
  refine long _ _ _ .rpt rfl rfl ?_
  simp [LongBy, decodeRpt, guardThen, LM.op]
theorem liw (d : Reg) (imm : IWord) : Statement (.liw d imm) := by
  intro h
  refine long _ _ _ .li rfl rfl ?_
  simp [LongBy, decodeLI, guardThen, LM.op]
theorem lihi (d : Reg) (imm : IWord) : Statement (.lihi d imm) := by
  intro h
  refine long _ _ _ .li rfl rfl ?_
  simp [LongBy, decodeLI, guardThen, LM.op]
theorem sel (d : Reg) (a : Reg) (b : Reg) (c : Reg) : Statement (.sel d a b c) := by
  intro h
  refine long _ _ _ .lr rfl rfl ?_
  simp [LongBy, decodeLR, guardThen, LM.op]
theorem madd (d : Reg) (a : Reg) (b : Reg) (c : Reg) : Statement (.madd d a b c) := by
  intro h
  refine long _ _ _ .lr rfl rfl ?_
  simp [LongBy, decodeLR, guardThen, LM.op]
theorem tlbiVa (scope : Scope) (a : Reg) : Statement (.tlbiVa scope a) := by
  intro h
  refine long _ _ _ .lrm rfl rfl ?_
  cases scope <;> first | rfl | simp [Instr.wf, Instr.limits] at h
theorem tlbiAll (scope : Scope) : Statement (.tlbiAll scope) := by
  intro h
  refine long _ _ _ .lrm rfl rfl ?_
  cases scope <;> first | rfl | simp [Instr.wf, Instr.limits] at h
theorem sresume (d : Reg) (a : Reg) : Statement (.sresume d a) := by
  intro h
  refine long _ _ _ .lrm rfl rfl ?_
  simp [LongBy, decodeLRM, guardThen, LM.op]
theorem sresumeAbandon (d : Reg) (a : Reg) : Statement (.sresumeAbandon d a) := by
  intro h
  refine long _ _ _ .lrm rfl rfl ?_
  simp [LongBy, decodeLRM, guardThen, LM.op]
theorem sresumeGet (d : Reg) (a : Reg) (b : Reg) : Statement (.sresumeGet d a b) := by
  intro h
  refine long _ _ _ .lrm rfl rfl ?_
  simp [LongBy, decodeLRM, guardThen, LM.op]
theorem sresumePut (d : Reg) (a : Reg) (b : Reg) (c : Reg) : Statement (.sresumePut d a b c) := by
  intro h
  refine long _ _ _ .lrm rfl rfl ?_
  simp [LongBy, decodeLRM, guardThen, LM.op]
theorem nop : Statement (.nop) := by
  intro h
  refine page_a _ _ rfl ?_
  first | rfl | simp [decodeA, decodeSys, decodeFps, decodeMask, guardThen, Fields.immSI, Fields.immSB, Fields.immSL, Fields.immSJ]
theorem endTask : Statement (.endTask) := by
  intro h
  refine page_a _ _ rfl ?_
  first | rfl | simp [decodeA, decodeSys, decodeFps, decodeMask, guardThen, Fields.immSI, Fields.immSB, Fields.immSL, Fields.immSJ]
theorem yield : Statement (.yield) := by
  intro h
  refine page_a _ _ rfl ?_
  first | rfl | simp [decodeA, decodeSys, decodeFps, decodeMask, guardThen, Fields.immSI, Fields.immSB, Fields.immSL, Fields.immSJ]
theorem uiret : Statement (.uiret) := by
  intro h
  refine page_a _ _ rfl ?_
  first | rfl | simp [decodeA, decodeSys, decodeFps, decodeMask, guardThen, Fields.immSI, Fields.immSB, Fields.immSL, Fields.immSJ]
theorem eret : Statement (.eret) := by
  intro h
  refine page_a _ _ rfl ?_
  first | rfl | simp [decodeA, decodeSys, decodeFps, decodeMask, guardThen, Fields.immSI, Fields.immSB, Fields.immSL, Fields.immSJ]
theorem park : Statement (.park) := by
  intro h
  refine page_a _ _ rfl ?_
  first | rfl | simp [decodeA, decodeSys, decodeFps, decodeMask, guardThen, Fields.immSI, Fields.immSB, Fields.immSL, Fields.immSJ]
theorem homeRetryGrant : Statement (.homeRetryGrant) := by intro _; rfl
theorem streamPrefetch : Statement (.streamPrefetch) := by intro _; rfl
theorem streamWriteOut : Statement (.streamWriteOut) := by intro _; rfl
theorem portWordDelivery : Statement (.portWordDelivery) := by intro _; rfl
theorem commandReleaseStart : Statement (.commandReleaseStart) := by intro _; rfl
theorem copyNotbeforeStart : Statement (.copyNotbeforeStart) := by intro _; rfl
theorem credRankContribution : Statement (.credRankContribution) := by intro _; rfl
theorem copyCommandComplete : Statement (.copyCommandComplete) := by intro _; rfl
theorem chaseStep : Statement (.chaseStep) := by intro _; rfl
theorem chaseResult : Statement (.chaseResult) := by intro _; rfl
theorem repartCollective : Statement (.repartCollective) := by intro _; rfl
theorem repartComplete : Statement (.repartComplete) := by intro _; rfl
theorem matrixBindGrant : Statement (.matrixBindGrant) := by intro _; rfl
theorem matrixOperationStart : Statement (.matrixOperationStart) := by intro _; rfl
theorem matrixRowGroup : Statement (.matrixRowGroup) := by intro _; rfl
theorem matrixResume : Statement (.matrixResume) := by intro _; rfl
theorem matrixComplete : Statement (.matrixComplete) := by intro _; rfl
theorem ruleHalfStep : Statement (.ruleHalfStep) := by intro _; rfl
theorem ruleResume : Statement (.ruleResume) := by intro _; rfl
theorem ruleAbandon : Statement (.ruleAbandon) := by intro _; rfl
theorem ruleCommandComplete : Statement (.ruleCommandComplete) := by intro _; rfl
theorem rptIteration : Statement (.rptIteration) := by intro _; rfl
theorem lresume : Statement (.lresume) := by intro _; rfl
theorem launchAbandon : Statement (.launchAbandon) := by intro _; rfl
theorem launchctlBadcmd : Statement (.launchctlBadcmd) := by intro _; rfl
theorem loadReturn : Statement (.loadReturn) := by intro _; rfl
theorem storePerformed : Statement (.storePerformed) := by intro _; rfl
theorem pageTableWalk : Statement (.pageTableWalk) := by intro _; rfl
theorem dconfReport : Statement (.dconfReport) := by intro _; rfl
theorem userInterruptEntry : Statement (.userInterruptEntry) := by intro _; rfl
theorem faultMessagePost : Statement (.faultMessagePost) := by intro _; rfl
theorem contextSave : Statement (.contextSave) := by intro _; rfl
theorem contextRestore : Statement (.contextRestore) := by intro _; rfl
theorem launchArrival : Statement (.launchArrival) := by intro _; rfl
theorem predicateRead : Statement (.predicateRead) := by intro _; rfl
theorem causalValidation : Statement (.causalValidation) := by intro _; rfl
theorem teamAdmission : Statement (.teamAdmission) := by intro _; rfl
theorem taskStart : Statement (.taskStart) := by intro _; rfl
theorem stealRequest : Statement (.stealRequest) := by intro _; rfl
theorem causalDispatch : Statement (.causalDispatch) := by intro _; rfl
theorem homeEligibilityTimeout : Statement (.homeEligibilityTimeout) := by intro _; rfl
theorem launchCompletion : Statement (.launchCompletion) := by intro _; rfl
theorem allocationRelease : Statement (.allocationRelease) := by intro _; rfl
theorem migrationHold : Statement (.migrationHold) := by intro _; rfl
theorem migrationRelease : Statement (.migrationRelease) := by intro _; rfl
theorem fabricCellArrival : Statement (.fabricCellArrival) := by intro _; rfl
theorem fabricSlot : Statement (.fabricSlot) := by intro _; rfl
theorem incarnAnnouncement : Statement (.incarnAnnouncement) := by intro _; rfl
theorem linkCrcRetry : Statement (.linkCrcRetry) := by intro _; rfl
theorem linkRetrain : Statement (.linkRetrain) := by intro _; rfl
theorem timeCounterTick : Statement (.timeCounterTick) := by intro _; rfl
theorem ptpSync : Statement (.ptpSync) := by intro _; rfl
theorem syncTimeout : Statement (.syncTimeout) := by intro _; rfl
theorem referencePulse : Statement (.referencePulse) := by intro _; rfl
theorem correctedError : Statement (.correctedError) := by intro _; rfl
theorem uncorrectableError : Statement (.uncorrectableError) := by intro _; rfl
theorem voltageDroop : Statement (.voltageDroop) := by intro _; rfl
theorem lifetimeRecordFlush : Statement (.lifetimeRecordFlush) := by intro _; rfl
theorem thermalInterval : Statement (.thermalInterval) := by intro _; rfl
theorem moduleReset : Statement (.moduleReset) := by intro _; rfl
theorem functionLevelReset : Statement (.functionLevelReset) := by intro _; rfl
theorem link1Reset : Statement (.link1Reset) := by intro _; rfl
theorem overTemperature : Statement (.overTemperature) := by intro _; rfl
theorem hostQueueTailWrite : Statement (.hostQueueTailWrite) := by intro _; rfl
theorem hostQueueControlWrite : Statement (.hostQueueControlWrite) := by intro _; rfl
theorem registerWrite : Statement (.registerWrite) := by intro _; rfl
theorem hostBar2Access : Statement (.hostBar2Access) := by intro _; rfl
theorem wrpcb : Statement (.wrpcb) := by intro _; rfl
theorem peeract : Statement (.peeract) := by intro _; rfl
theorem rdlife : Statement (.rdlife) := by intro _; rfl
theorem wrflow : Statement (.wrflow) := by intro _; rfl
theorem mgmtBadcmd : Statement (.mgmtBadcmd) := by intro _; rfl
theorem getVersion : Statement (.getVersion) := by intro _; rfl
theorem getCapabilities : Statement (.getCapabilities) := by intro _; rfl
theorem negotiateAlgorithms : Statement (.negotiateAlgorithms) := by intro _; rfl
theorem getDigests : Statement (.getDigests) := by intro _; rfl
theorem getCertificate : Statement (.getCertificate) := by intro _; rfl
theorem challenge : Statement (.challenge) := by intro _; rfl
theorem getMeasurements : Statement (.getMeasurements) := by intro _; rfl
theorem pldmMonitoring : Statement (.pldmMonitoring) := by intro _; rfl
theorem mctpRdlife : Statement (.mctpRdlife) := by intro _; rfl
theorem rdtime : Statement (.rdtime) := by intro _; rfl
theorem wrcfg : Statement (.wrcfg) := by intro _; rfl
theorem unassignedEncoding : Statement (.unassignedEncoding) := by intro _; rfl
theorem partitionReady : Statement (.partitionReady) := by intro _; rfl
theorem powerLoss : Statement (.powerLoss) := by intro _; rfl
theorem coolantAlarm : Statement (.coolantAlarm) := by intro _; rfl

end Sys2Proof.Laws.Encoding
end

