-- ==== Sys2Proof/Laws/Run.lean ====
section
/-!
SUPPORT. Laws/Run.lean: what the shared operations that run an instruction come to: the checks before the body, the end after it, operands.
-/
set_option Elab.async false

namespace Sys2Proof.Machine

open Sys2Proof

@[simp] theorem State.me_txq (s : State) : s.me.txq = [] := rfl
@[simp] theorem State.me_outq (s : State) : s.me.outq = [] := rfl
@[simp] theorem State.start_cur (s : State) : s.start.cur = s.cur := rfl
@[simp] theorem State.start_core (s : State) : s.start.core s.cur = s.me := by simp [State.start]
@[simp] theorem State.start_mem (s : State) : s.start.mem = s.mem := rfl
@[simp] theorem State.start_setCore (s : State) (c : Core) : s.start.setCore s.cur c = s.setCore s.cur c := by simp [State.start]
@[simp] theorem Core.advance_txq (c : Core) (n : Nat) : (c.advance n).txq = c.txq := by unfold Core.advance; split <;> rfl

/-- An instruction that is not legal traps before its body (R30). -/
theorem runCtl_trap {i : Instr} {body : Nat → State → M State} {s : State} {c : Cause} {v : Word}
    (h : (s.core s.cur).preTrap (s.feat s.cur) (s.isSup s.cur) i = some (c, v)) : runCtl i body s = .next (s.traps i c v) := by
  simp [runCtl, h, State.traps]

/-- A legal instruction comes to what its body comes to. -/
theorem runCtl_legal {i : Instr} {body : Nat → State → M State} {s : State} (h : s.Legal i) :
    runCtl i body s = settleOutcome i s.cur s (body s.cur s.start) := by
  simp [runCtl, State.Legal] at *
  simp [h, State.start, State.me]

theorem runCtl_ok {i : Instr} {body : Nat → State → M State} {s t : State} (h : s.Legal i) (b : body s.cur s.start = .ok t) :
    runCtl i body s = .next t := by rw [runCtl_legal h, b]; rfl

theorem runCtl_stall {i : Instr} {body : Nat → State → M State} {s : State} (h : s.Legal i) (b : body s.cur s.start = .error .stall) :
    runCtl i body s = .next s.waits := by rw [runCtl_legal h, b]; rfl

theorem runCtl_traps {i : Instr} {body : Nat → State → M State} {s : State} {c : Cause} {v : Word} (h : s.Legal i)
    (b : body s.cur s.start = .error (.trap c v)) : runCtl i body s = .next (s.traps i c v) := by rw [runCtl_legal h, b]; rfl

/-- An instruction that has pushed nothing adds no store (R231). -/
theorem State.pushOut_none {s : State} {k : Nat} (h : (s.core k).outq = []) : s.pushOut k = s := by simp [State.pushOut, h]

/-- The end of an instruction that sends and pushes nothing (R28, R40). -/
theorem State.retire_quiet {s : State} {k : Nat} (i : Instr) (h : (s.core k).txq = []) (o : (s.core k).outq = []) :
    s.retire k i = .ok (s.modCore k fun c => ({ c with txq := [] } : Core).advance i.len) := by
  simp only [State.retire, State.pushOut_none o, h]
  change Except.ok ((s.setCore k { s.core k with txq := [] }).modCore k fun c => c.advance i.len) = _
  rw [State.modCore_setCore]
  rfl

theorem runSeq_ok {i : Instr} {body : Nat → State → M State} {s t : State} (h : s.Legal i) (b : body s.cur s.start = .ok t)
    (q : (t.core s.cur).txq = []) (o : (t.core s.cur).outq = []) : runSeq i body s = .next (s.doneIn t i) :=
  runCtl_ok h (by simp only [b, bind, Except.bind]; exact State.retire_quiet i q o)

theorem runSeq_stall {i : Instr} {body : Nat → State → M State} {s : State} (h : s.Legal i) (b : body s.cur s.start = .error .stall) :
    runSeq i body s = .next s.waits := runCtl_stall h (by simp only [b, bind, Except.bind])

theorem runSeq_traps {i : Instr} {body : Nat → State → M State} {s : State} {c : Cause} {v : Word} (h : s.Legal i)
    (b : body s.cur s.start = .error (.trap c v)) : runSeq i body s = .next (s.traps i c v) := runCtl_traps h (by simp only [b, bind, Except.bind])

theorem State.doneIn_setCore (s : State) (c : Core) (i : Instr) : s.doneIn (s.setCore s.cur c) i = s.done i c := by
  simp [State.doneIn, State.done]

/-- An instruction that pushes nothing adds no store. -/
theorem State.doneOut_none {s : State} {c : Core} (i : Instr) (h : c.outq = []) : s.doneOut i c = s.done i c := by
  rw [State.doneOut, State.pushOut_none (by simpa using h), State.doneIn_setCore]

/-- Flags that none traps on are raised (R79). -/
theorem Core.raise_quiet {c : Core} (i : Instr) {fl : FFlags} (h : c.Quiet fl) : c.raise i fl = .ok (c.flagged i fl) := by
  unfold Core.Quiet at h
  simp [Core.raise, h, Core.flagged]

theorem Core.raise_none (c : Core) (i : Instr) (r : readsMode i = false) : c.raise i 0 = .ok c := by
  simp [Core.raise, r]

theorem runLocal_ok {i : Instr} {body : CoreBody} {s : State} {c : Core} {fl : FFlags} (h : s.Legal i) (b : body s.cur s.me = .ok (c, fl))
    (q : c.Quiet fl) (e : c.txq = []) (o : c.outq = []) : runLocal i body s = .next (s.done i (c.flagged i fl)) := by
  rw [← State.doneIn_setCore]
  refine runSeq_ok h ?_ (by simp [Core.flagged, e]) (by simp [Core.flagged, o])
  simp [Core.run1, b, bind, Except.bind, Core.raise_quiet i q]

theorem runLocal_plain {i : Instr} {body : CoreBody} {s : State} {c : Core} (h : s.Legal i) (b : body s.cur s.me = .ok (c, 0))
    (r : readsMode i = false) (e : c.txq = []) (o : c.outq = []) : runLocal i body s = .next (s.done i c) := by
  rw [← State.doneIn_setCore]
  refine runSeq_ok h ?_ (by simp [e]) (by simp [o])
  simp only [Core.run1, State.start_core, State.start_setCore, b, bind, Except.bind, Core.raise_none c i r]

/-! ### Operands -/

/-- Reading an operand sends nothing. -/
theorem Core.readS_txq {c c' : Core} {r : Reg} {x : Word} (h : c.readS r = .ok (x, c')) : c'.txq = c.txq := by
  unfold Core.readS at h
  simp only at h
  split at h
  · split at h
    · simp at h
    · split at h <;> simp at h; rw [h.2]
  · split at h <;> simp at h; rw [← h.2]; rfl

theorem Core.readV_txq {c c' : Core} {r : Reg} {x : Vec} (h : c.readV r = .ok (x, c')) : c'.txq = c.txq := by
  unfold Core.readV at h
  simp only at h
  split at h
  · split at h
    · simp at h
    · split at h <;> simp at h; rw [h.2]
  · split at h
    · simp at h
    · split at h <;> simp at h; rw [← h.2]; rfl

theorem Core.readVB_txq {c c' : Core} {bc : Bool} {w : Nat} {r : Reg} {x : Vec} (h : c.readVB bc w r = .ok (x, c')) : c'.txq = c.txq := by
  cases bc with
  | false => exact Core.readV_txq (by simpa [Core.readVB] using h)
  | true =>
    simp only [Core.readVB, bind, Except.bind] at h
    cases e : c.readS r with
    | error q => simp [e] at h
    | ok p => simp [e] at h; rw [← h.2]; exact Core.readS_txq e

@[simp] theorem Core.writeS_txq (c : Core) (r : Nat) (x : Word) : (c.writeS r x).txq = c.txq := by
  simp only [Core.writeS, Core.setS]; split <;> rfl

/-- Reading an operand pushes nothing. -/
theorem Core.readS_outq {c c' : Core} {r : Reg} {x : Word} (h : c.readS r = .ok (x, c')) : c'.outq = c.outq := by
  unfold Core.readS at h
  simp only at h
  split at h
  · split at h
    · simp at h
    · split at h <;> simp at h; rw [h.2]
  · split at h <;> simp at h; rw [← h.2]; rfl

theorem Core.readV_outq {c c' : Core} {r : Reg} {x : Vec} (h : c.readV r = .ok (x, c')) : c'.outq = c.outq := by
  unfold Core.readV at h
  simp only at h
  split at h
  · split at h
    · simp at h
    · split at h <;> simp at h; rw [h.2]
  · split at h
    · simp at h
    · split at h <;> simp at h; rw [← h.2]; rfl

theorem Core.readVB_outq {c c' : Core} {bc : Bool} {w : Nat} {r : Reg} {x : Vec} (h : c.readVB bc w r = .ok (x, c')) : c'.outq = c.outq := by
  cases bc with
  | false => exact Core.readV_outq (by simpa [Core.readVB] using h)
  | true =>
    simp only [Core.readVB, bind, Except.bind] at h
    cases e : c.readS r with
    | error q => simp [e] at h
    | ok p => simp [e] at h; rw [← h.2]; exact Core.readS_outq e

@[simp] theorem Core.writeS_outq (c : Core) (r : Nat) (x : Word) : (c.writeS r x).outq = c.outq := by
  simp only [Core.writeS, Core.setS]; split <;> rfl

/-- A register read (R34) that no outstanding load is still to write. -/
theorem Core.readS_reg {c : Core} {r : Reg} (h : r.toNat < 56) (q : c.pendingS r.toNat = false) (p : c.poison.s.contains r.toNat = false) :
    c.readS r = .ok (c.sreg r.toNat, c) := by
  simp at p
  simp [Core.readS, h, p, q]

/-- A read of a register that an outstanding load is still to write waits (R130). -/
theorem Core.readS_pending {c : Core} {r : Reg} (h : r.toNat < 56) (q : c.pendingS r.toNat = true) : c.readS r = .error .stall := by
  simp [Core.readS, h, q]

/-- A register written (R35). -/
theorem Core.putS_reg {c : Core} {i : Nat} {r : Reg} (x : Word) (h : r.toNat < 56) : c.putS i r x = .ok (c.writeS r.toNat x) := by
  simp [Core.putS, h]

theorem Core.putV_txq {c c' : Core} {r : Reg} {x : Vec} {m : Nat} {z : Bool} (h : c.putV r x m z = .ok c') : c'.txq = c.txq := by
  unfold Core.putV at h
  simp only at h
  split at h
  · split at h
    · simp at h
    · simp at h; rw [← h]; rfl
  · split at h
    · cases h
    · split at h
      · cases h
      · cases h; rfl

/-- A write to a vector register pushes nothing. -/
theorem Core.putV_outq {c c' : Core} {r : Reg} {x : Vec} {m : Nat} {z : Bool} (n : r.toNat < 32) (h : c.putV r x m z = .ok c') : c'.outq = c.outq := by
  unfold Core.putV at h
  simp only [n, ↓reduceIte] at h
  split at h
  · simp at h
  · simp at h; rw [← h]; rfl

/-- A write to a vector register that no outstanding load is still to write never stops. -/
theorem Core.putV_reg (c : Core) {r : Reg} (x : Vec) (m : Nat) (z : Bool) (h : r.toNat < 32) (q : c.pendingV r.toNat = false) : ∃ c', c.putV r x m z = .ok c' := by
  simp [Core.putV, h, q]

end Sys2Proof.Machine
end

