-- ==== Sys2Proof/Laws/Sync.lean ====
section
/-!
SUPPORT. Laws/Sync.lean: everything that a store's issue, a release, its publication and an acquire do (R130, R185 to R191), one lemma each.
-/
namespace Sys2Proof.Machine

open Sys2Proof

theorem stallUnless_ok {b : Bool} {u : Unit} (h : stallUnless b = .ok u) : b = true := by
  cases b
  · cases h
  · rfl

/-- A store that issues adds its pieces to the core's store buffer and takes the next group number; the core and the rest of the machine stay. -/
theorem State.issueStore_ok {s t : State} {i : Nat} {strong : Bool} {ps : List (List (Nat × Byte) × Word)} (h : s.issueStore i strong ps = .ok t) :
    (s.core i).stores < 64 ∧ (∀ p ∈ ps, ∀ b ∈ p.1, s.awaits i b.1 1 = false) ∧
      ∃ es : List SbEntry, t = s.tick.setCore i { s.core i with sb := (s.core i).sb ++ es } ∧ es.map (fun e => (e.bytes, e.va)) = ps ∧
        ∀ e ∈ es, e.grp = s.serial ∧ e.strong = strong ∧ e.after = if strong then (s.core i).relEp else 0 := by
  unfold State.issueStore at h
  dsimp only at h
  cases hb : stallUnless (decide ((s.core i).stores < 64) && !((ps.flatMap (·.1)).any fun p => s.awaits i p.1 1)) with
  | error e => rw [hb] at h; cases h
  | ok u =>
    rw [hb] at h
    have g := stallUnless_ok hb
    simp only [Bool.and_eq_true, decide_eq_true_eq, Bool.not_eq_true', List.any_eq_false, Bool.not_eq_true, List.mem_flatMap, forall_exists_index, and_imp] at g
    refine ⟨g.1, fun p hp b hb => g.2 b p hp hb, _, (Except.ok.inj h).symm, ?_, ?_⟩
    · simp [Function.comp_def]
    · simp only [List.mem_map, forall_exists_index, and_imp]
      rintro e p - rfl
      exact ⟨rfl, rfl, rfl⟩

/-- A release answers exactly where every earlier access is performed at its scope, and then publishes (R187). -/
theorem State.release_ok {s t : State} {i : Nat} {sc : Scope} : s.release i sc = .ok t ↔ s.released i sc = true ∧ t = s.publish i sc := by
  unfold State.release
  cases s.released i sc
  · exact Iff.intro (fun h => nomatch h) (fun h => nomatch h.1)
  · exact Iff.intro (fun h => ⟨rfl, (Except.ok.inj h).symm⟩) (fun h => by rw [h.2]; rfl)

/-- A release at core scope publishes nothing. -/
@[simp] theorem State.publish_core (s : State) (i : Nat) : s.publish i .core = s := rfl

/-- A release at device or system scope changes what has been published, and nothing else. -/
theorem State.publish_wide (s : State) (i : Nat) {sc : Scope} (h : sc = .device ∨ sc = .system) : ∃ cl p, s.publish i sc = { s with clusters := cl, pub := p } := by
  rcases h with rfl | rfl <;> exact ⟨_, _, rfl⟩

/-- What an acquire changes is the copies and the views of its own core. -/
theorem State.acquireAt_eq (s : State) (i : Nat) (sc : Scope) :
    s.acquireAt i sc = s ∨ ∃ b, s.acquireAt i sc = s.modCore i (Core.learn · b) ∨ s.acquireAt i sc = s.modCore i (Core.freshen · b) := by
  cases sc
  · exact .inl rfl
  · exact .inr ⟨_, .inl rfl⟩
  all_goals exact .inr ⟨_, .inr rfl⟩

/-- After an acquire, no copy and no view that the core keeps misses a write that the bounds cover (R187, R188). -/
theorem Core.learn_meets (c : Core) (b : Bounds) (l : L1Line) (h : l ∈ (c.learn b).l1d ∨ l ∈ (c.learn b).hview) : b.meets l = true := by
  rcases h with h | h <;> exact (List.mem_filter.1 h).2

/-- After an acquire at device scope or wider no copy is left, and no view that misses what the bounds cover (R187, R282). -/
theorem Core.freshen_meets (c : Core) (b : Bounds) : (c.freshen b).l1d = [] ∧ ∀ l ∈ (c.freshen b).hview, b.meets l = true :=
  ⟨rfl, fun _ h => (List.mem_filter.1 h).2⟩

end Sys2Proof.Machine
end

