-- ==== Sys2Proof/Tests/Slice0.lean ====
section
/-!
SUPPORT. Tests/Slice0.lean: the model's own tests, and for every statement with hypotheses a state and operands that meet them.
Expected values come from the spec's tables and examples or from hand calculation.
-/
set_option Elab.async false

namespace Sys2Proof.Tests

open Sys2Proof Sys2Proof.Machine

/-! ### Small states -/

/-- After reset, the supervisor core 0 changed by f. -/
def sup (f : Core → Core) : State := State.reset.modCore 0 f

/-- Launch 1 of partition 0: an independent launch without leases, its record all zero but for w0. -/
def launch (w0 : Word) (leases : List (Nat × Nat)) : Launch :=
  { id := 1, part := 0, record := w0 :: List.replicate 31 0, recPa := 0x4000, parent := 0, kids := [], issuerPrio := 3, st := .ready, leases := leases, gong := 0
    whole := none, returned := [], queue := [], qseq := 0, rule0 := 0, rule1 := 0, patches := [], frozen := false, lost := 0, abandoned := false, result := none }

/-- The allocation of launch 1 on a core: 4 units of local store at 0, save slot 0. -/
def alloc : Alloc :=
  { launch := 1, base := 0, units := 4, slot := 0, team := 0, trank := 0, csBase := 0, csBanks := [], csUnits := 4, ccBase := 0, ccBanks := [], ccUnits := 0, st := .running, current := true
    coord := 5, rb := 0, re := 0, bank := {} }

/-- A task of launch 1 runs on core 1, its core changed by f. -/
def task (f : Core → Core) : State :=
  { State.reset with cur := 1, launches := [launch 0 []] }.modCore 1 fun c => f { c with run := some 1, current := true, allocs := [alloc] }

/-- The outcome's state, or the state before it. -/
def ran (i : Instr) (s : State) : State := match exec i s with | .next t => t | _ => s

/-- A scalar register of the current core after an instruction. -/
def sOf (i : Instr) (s : State) (r : Nat) : Word := ((ran i s).core s.cur).sreg r

/-- s1 = x, s2 = y. -/
def two (x y : Word) : State := sup fun c => (c.writeS 1 x).writeS 2 y

/-! ### Scalar instructions -/

/-- -1 + 3 = 2 (R89). -/
theorem test_add_wraps : sOf (.add 3 1 2) (two 0xFFFFFFFFFFFFFFFF 3) 3 = 2 := by decide
/-- Saturation (R90). -/
theorem test_adds_saturates : sOf (.adds 3 1 2) (two 0x7FFFFFFFFFFFFFFF 1) 3 = 0x7FFFFFFFFFFFFFFF := by decide
/-- Shift amounts count modulo 64 (R89). -/
theorem test_shl_modulo : sOf (.shl 3 1 2) (two 1 65) 3 = 2 := by decide
theorem test_sra_sign : sOf (.sra 3 1 2) (two 0x8000000000000000 63) 3 = 0xFFFFFFFFFFFFFFFF := by decide
theorem test_rol : sOf (.rol 3 1 2) (two 0x8000000000000001 4) 3 = 0x18 := by decide
/-- The most negative number over -1, and division by 0 (R90). -/
theorem test_div_corner : sOf (.div 3 1 2) (two 0x8000000000000000 0xFFFFFFFFFFFFFFFF) 3 = 0x8000000000000000 := by decide
theorem test_div_zero : sOf (.div 3 1 2) (two 7 0) 3 = 0xFFFFFFFFFFFFFFFF := by decide
theorem test_rem_sign : sOf (.rem 3 1 2) (two 0xFFFFFFFFFFFFFFF9 2) 3 = 0xFFFFFFFFFFFFFFFF := by decide
theorem test_mulh : sOf (.mulh 3 1 2) (two 0xFFFFFFFFFFFFFFFF 0xFFFFFFFFFFFFFFFF) 3 = 0 := by decide
theorem test_mulhu : sOf (.mulhu 3 1 2) (two 0xFFFFFFFFFFFFFFFF 0xFFFFFFFFFFFFFFFF) 3 = 0xFFFFFFFFFFFFFFFE := by decide
theorem test_slt : sOf (.slt 3 1 2) (two 0xFFFFFFFFFFFFFFFF 0) 3 = 1 := by decide
theorem test_sltu : sOf (.sltu 3 1 2) (two 0xFFFFFFFFFFFFFFFF 0) 3 = 0 := by decide
theorem test_andn : sOf (.andn 3 1 2) (two 0xF 0x5) 3 = 0xA := by decide
/-- A count of 0 has 64 leading zeros (R91). -/
theorem test_clz_zero : sOf (.clz 3 1) (two 0 0) 3 = 64 := by decide
theorem test_ctz : sOf (.ctz 3 1) (two 0x50 0) 3 = 4 := by decide
theorem test_bswap : sOf (.bswap 3 1) (two 0x0102030405060708 0) 3 = 0x0807060504030201 := by decide
theorem test_addi_negative : sOf (.addi 3 1 0xFFF) (two 5 0) 3 = 4 := by decide
theorem test_sltiu : sOf (.sltiu 3 1 0xFFF) (two 5 0) 3 = 1 := by decide
theorem test_lui : sOf (.lui 3 1) (two 0 0) 3 = 0x40000 := by decide
theorem test_lihi : sOf (.lihi 3 0x12345678) (two 0 0) 3 = 0x1234567800000000 := by decide
theorem test_lea : sOf (.lea 3 1 2 3) (two 0x1000 2) 3 = 0x1010 := by decide
theorem test_sel : sOf (.sel 3 1 2 0) (two 7 9) 3 = 9 := by decide
/-- 1.0 + 2.0 = 3.0 in FP64, 1.5 · 1.5 = 2.25 in FP32 (R95). -/
theorem test_fadd : sOf (.fadd true 3 1 2) (two 0x3FF0000000000000 0x4000000000000000) 3 = 0x4008000000000000 := by decide
theorem test_fmul : sOf (.fmul false 3 1 2) (two 0x3FC00000 0x3FC00000) 3 = 0x40100000 := by decide
theorem test_fdiv_zero : ((ran (.fdiv false 3 1 2) (two 0x3F800000 0)).core 0).sreg 3 = 0x7F800000 := by decide
theorem test_fsqrt : sOf (.fsqrt true 3 1) (two 0x4010000000000000 0) 3 = 0x4000000000000000 := by decide
theorem test_fcvt_to_int : sOf (.fcvt .i64 .f64 3 1) (two 0x4008000000000000 0) 3 = 3 := by decide
theorem test_kpop : sOf (.kpop 3 1) (sup fun c => c.setK 1 0xF0F) 3 = 8 := by decide
/-- A trap on a supervisor core: EPC, ECAUSE, EVAL, and on at UCIVEC.VEC · 4 (R362). -/
theorem test_trap_entry :
    let t := (ran (.trap 9) (sup fun c => { c with pc := 0x40, sys := { c.sys with ucivec := 0x80 } })).core 0
    t.sys.epc = 0x40 ∧ t.sys.ecause = 0x0F ∧ t.sys.eval = 9 ∧ t.pc = 0x80 := by decide
theorem test_eret : ((ran .eret (sup fun c => { c with sys := { c.sys with epc := 0x1234 } })).core 0).pc = 0x1234 := by decide
/-- A slot first, then the target (R40). -/
theorem test_branch_slot :
    let t := (ran (.beq 1 2 5) (two 3 3)).core 0
    t.pc = 4 ∧ t.slot = some 20 := by decide
theorem test_call_links : let t := (ran (.call 0xFFFFFF) (sup fun c => { c with pc := 0x100 })).core 0
    t.sreg 55 = 0x108 ∧ t.slot = some 0xFC := by decide

theorem witness_ScalarBinaryResult : (two 1 2).Legal (.add 3 1 2) ∧ (two 1 2).me.readS 1 = .ok (1, (two 1 2).me) ∧ (two 1 2).me.readS 2 = .ok (2, (two 1 2).me) := by
  and_intros <;> exact rfl
theorem witness_ScalarUnaryResult : (two 1 2).Legal (.clz 3 1) ∧ (two 1 2).me.readS 1 = .ok (1, (two 1 2).me) := by and_intros <;> exact rfl
theorem witness_ScalarImmediateResult : (two 1 2).Legal (.shli 3 1 63) ∧ (two 1 2).Legal (.addi 3 1 0x800) := by and_intros <;> exact rfl
theorem witness_ConstantAndAddressResult : let s := two 1 2
    s.Legal (.li 3 0x20000) ∧ s.Legal (.lui 3 1) ∧ s.Legal (.liw 3 5) ∧ s.Legal (.lihi 3 5) ∧ s.Legal (.lea 3 1 2 7) ∧ s.Legal (.sel 3 1 2 0) ∧ s.Legal (.madd 3 1 2 0)
    ∧ s.me.readS 0 = .ok (0, s.me) := by and_intros <;> exact rfl
/-! ### Scalar statements, continued -/

/-- FPCTL with every enable set. -/
def enabled : State := sup fun c => { (c.writeS 1 0x3FF0000000000000).writeS 2 0 with sys := { c.sys with fpctl := 0x1F00 } }

theorem witness_ScalarFloatResult :
    ((two 1 2).Legal (.fadd true 3 1 2) ∧ (two 1 2).me.Quiet (fi64.add .rne false 0 (fi64.decode 1) (fi64.decode 2)).2) ∧
    ((two 1 2).Legal (.fsqrt false 3 1) ∧ (two 1 2).me.Quiet 0x7F) ∧ (two 1 2).Legal (.fcvt .i64 .f32 3 1) ∧
    (enabled.Legal (.fdiv true 3 1 2) ∧ ∃ x y c1 c2, enabled.me.readS 1 = .ok (x, c1) ∧ c1.readS 2 = .ok (y, c2) ∧
      ¬ enabled.me.Quiet (fi64.div .rne false 0 (fi64.decode (x.toNat % 2 ^ 64)) (fi64.decode (y.toNat % 2 ^ 64))).2) := by
  refine ⟨⟨rfl, rfl⟩, ⟨rfl, rfl⟩, rfl, rfl, _, _, _, _, rfl, rfl, ?_⟩
  unfold Core.Quiet; decide +kernel
/-- FPCTL with every enable set, s1 = -1.5 in FP64. -/
def enabledNeg : State := sup fun c => { c.writeS 1 0xBFF8000000000000 with sys := { c.sys with fpctl := 0x1F00 } }
theorem witness_ScalarFloatResult_traps :
    (enabledNeg.Legal (.fsqrt true 3 1) ∧ ∃ x c1, enabledNeg.me.readS 1 = .ok (x, c1) ∧
      ¬ enabledNeg.me.Quiet (fi64.sqrt enabledNeg.me.env.rm enabledNeg.me.env.sat (enabledNeg.me.env.g 0) (fi64.decode (x.toNat % 2 ^ 64))).2) ∧
    (enabledNeg.Legal (.fcvt .i64 .f64 3 1) ∧ ∃ x c1, enabledNeg.me.readS 1 = .ok (x, c1) ∧ ¬ enabledNeg.me.Quiet (fcvtOf .i64 .f64 enabledNeg.me.env x).2) := by
  refine ⟨⟨rfl, _, _, rfl, ?_⟩, rfl, _, _, rfl, ?_⟩ <;> (unfold Core.Quiet; decide +kernel)
theorem witness_MaskResult :
    let s := sup fun c => (c.setK 7 5).writeS 1 3
    s.Legal (.kand 1 7 0) ∧ s.me.readK 7 = .ok 5 ∧ s.Legal (.knot 1 7) ∧ s.Legal (.kpop 3 7) ∧ s.Legal (.kmovk 7 1) ∧ ∃ c, s.me.readS 1 = .ok (3, c) :=
  ⟨rfl, rfl, rfl, rfl, rfl, _, rfl⟩
/-- A load of n bytes at key k, left outstanding, into s[d], not taken yet. -/
def lateS (d n k : Nat) : LateLoad :=
  { id := 0, dst := .s d n false, parts := [⟨0, k, n, 0⟩], val := 0, bad := false, strong := false, launch := 0, phasec := 0, age := 0, told := [] }
/-- A port with one word, a poisoned register. -/
def portIn : State := sup fun c => { c.setRxp 7 { q := [⟨9, 0, 0, true, false⟩] } with poison := { s := [55] } }
theorem witness_ScalarOperandForms :
    portIn.me.late = [] ∧ (∃ l ∈ ({ late := [lateS 5 4 0] } : Core).late, ∃ n sg, l.dst = .s 5 n sg) ∧ portIn.me.poison.s.contains 0 = false ∧ portIn.me.poison.s.contains 55 = true ∧ (portIn.me.rxp (63 - 56)).q = ⟨9, 0, 0, true, false⟩ :: [] ∧
    (portIn.me.rxp (56 - 56)).q = [] := by
  refine ⟨?_, ⟨_, List.mem_singleton_self _, 4, false, rfl⟩, ?_, ?_, ?_, ?_⟩ <;> decide +kernel
/-- Port 0 has sent 16 words of a packet on port 1. -/
def portOut : State := sup fun c => c.setTxp 1 { pkt := some (16, 0) }
/-- The receive queue of port 0 of the core itself is full. -/
def portFull : State := sup fun c => c.setRxp 0 { q := List.replicate 16 ⟨0, 0, 0, true, false⟩ }
theorem witness_PortOperands :
    (portOut.Legal (.add 57 1 2) ∧ (∃ x y c1 c2, portOut.me.readS 1 = .ok (x, c1) ∧ c1.readS 2 = .ok (y, c2) ∧ 16 ≤ ((c2.txp 1).pkt.getD (0, 0)).1)) ∧
    (portOut.Legal (.add 56 1 2) ∧ ∃ t, (portOut.setCore 0 (portOut.me.setTxp 0 { pkt := some (1, 0) })).sendWords 0 [⟨0, 0, 5, false⟩]
      (portOut.setCore 0 (portOut.me.setTxp 0 { pkt := some (1, 0) })) = .ok t) ∧
    (portFull.setCore 0 (portFull.me.setTxp 0 { pkt := some (1, 0) })).sendWords 0 [⟨0, 0, 5, false⟩]
      (portFull.setCore 0 (portFull.me.setTxp 0 { pkt := some (1, 0) })) = .error .stall ∧
    (portOut.Legal (.add 3 63 2) ∧ ((portOut.core 0).rxp 7).q = []) :=
  ⟨⟨rfl, _, _, _, _, rfl, rfl, by decide +kernel⟩, ⟨rfl, _, rfl⟩, rfl, rfl, rfl⟩

/-- The page at 0 of the supervisor core is DEV at 0x10000, with every permission; 8 bytes x stand at 0. -/
def page0 (x : Nat) : State :=
  { sup (fun c => { c with itlb := [⟨0, 0, 0, 0x0100001F, 0⟩], dtlb := [⟨0, 0, 0, 0x0100001F, 0⟩] }) with mem := putBytes [] (at_ 0x10000 8 x) }

/-- A branch's slot at 4, the branch at 0. -/
def code (slot : Nat) : State := page0 (slot * 2 ^ 32)
theorem witness_CompareBranchResult :
    (two 3 3).Legal (.beq 1 2 5) ∧ Claims.SlotFree (two 3 3) ∧ (Claims.SlotFree (code 0)) ∧ (3 : Word) = 3 ∧ ¬ (3 : Word).toInt < (3 : Word).toInt ∧
    ∃ c1 c2, (two 3 3).me.readS 1 = .ok (3, c1) ∧ c1.readS 2 = .ok (3, c2) := by
  refine ⟨rfl, rfl, ?_, rfl, by decide +kernel, _, _, rfl, rfl⟩
  unfold Claims.SlotFree; decide +kernel
theorem witness_JumpResult :
    let s := two 8 6
    (s.Legal (.j 1) ∧ Claims.SlotFree s) ∧ s.Legal (.call 1) ∧ (s.Legal (.jr 0 1) ∧ (8 : Word).toNat % 4 = 0) ∧ (s.Legal (.jr 3 2) ∧ (6 : Word).toNat % 4 ≠ 0) ∧
    (s.Legal (.bk .all 7 0) ∧ ∃ m, s.me.readK 7 = .ok m) ∧
    (Claims.isBranch (.j 1) = true ∧ (code 2).start.badSlot 0 4 = true) ∧ (∃ w : IWord, (code 2).peek 0 4 = some w ∧ w.toNat % 4 = 2) ∧
    (∃ x, (code 0x04000000).peekInstr 0 4 = some x ∧ slotForbidden x = true) := by
  refine ⟨⟨rfl, rfl⟩, rfl, ⟨rfl, by decide +kernel⟩, ⟨rfl, by decide +kernel⟩, ⟨rfl, _, rfl⟩, ⟨rfl, by decide +kernel⟩, ⟨2, by decide +kernel, by decide +kernel⟩, .endTask, by decide +kernel, rfl⟩
theorem witness_NopAndModifierWords :
    let s := sup fun c => { c with slot := some 8 }
    let o := sup fun c => { c with pfx := [2, 6], ir := 2 }
    State.reset.Legal .nop ∧ (State.reset.core 0).slot = none ∧ (s.Legal .nop ∧ (s.core 0).slot = some 8) ∧
    ((State.reset.core 0).pfx.length < 2 ∧ ∀ w ∈ (State.reset.core 0).pfx, bits w.toNat 5 2 ≠ bits (State.reset.core 0).ir.toNat 5 2) ∧
    ((o.core 0).slot = none ∧ (o.core 0).pfx = 2 :: [6] ∧ ((o.core 0).pfx.length = 2 ∨ ∃ v ∈ (o.core 0).pfx, bits v.toNat 5 2 = bits (o.core 0).ir.toNat 5 2)) ∧
    (s.core 0).slot ≠ none := by
  refine ⟨rfl, rfl, ⟨rfl, rfl⟩, ⟨by decide, fun w h => (List.not_mem_nil h).elim⟩, ⟨rfl, rfl, .inl rfl⟩, by intro h; cases h⟩
theorem witness_ChecksBeforeBody :
    let c : Core := { pfx := [2] }
    ((task id).core 1).preTrap 0xFFFF ((task id).isSup 1) .eret = some (.priv, 0) ∧ (Instr.eret).coded = true ∧
    (Instr.add 3 1 2).wf = true ∧ missingFeat 0 (c.feats (.mxq 0 0)) = some 1 ∧
    (slotForbidden .endTask = true ∧ ({ slot := some 8 } : Core).slot ≠ none ∧ (Instr.endTask).wf = true ∧ missingFeat 0xFFFF (({ slot := some 8 } : Core).feats .endTask) = none) ∧
    (acceptsMods .nop c.mods = false ∧ c.pfx = 2 :: []) ∧
    (let s := task fun c => c.writeS 3 5
     (Instr.lvset 1 2 3 4).wf = true ∧ (Instr.lvsetReseat 1 2 3 4).wf = true ∧ missingFeat (s.feat 1) ((s.core 1).feats (.lvset 1 2 3 4)) = none ∧
      missingFeat (s.feat 1) ((s.core 1).feats (.lvsetReseat 1 2 3 4)) = none ∧ (∃ x y c1 c2, s.me.readS 2 = .ok (x, c1) ∧ c1.readS 3 = .ok (y, c2) ∧ y = 5) ∧ s.isSup 1 = false ∧
      (s.core 1).run.getD 0 = 1 ∧ s.running 1 = some (launch 0 []) ∧ 5 ∉ (launch 0 []).kids) := by
  refine ⟨?_, ?_, ?_, ?_, ?_, ?_, ?_, ?_, ?_, ?_, ⟨_, _, _, _, rfl, rfl, rfl⟩, ?_, ?_, ?_, ?_⟩ <;> decide +kernel
theorem witness_TrapTaken :
    (State.reset.isSup 0 = true ∧ ∀ p, p < 8 → ((State.reset.core 0).txp p).pkt = none) ∧ ((task id).isSup 1 = false ∧ ((task id).core 1).run = some 1 ∧ ((task id).core 1).alloc 1 = some alloc ∧ ((task id).core 1).anyPoison = false) := by
  decide +kernel
theorem witness_TrapReturnPrivilege :
    State.reset.Legal (.trap 63) ∧ State.reset.Legal .eret ∧
    ((Instr.sset 1 0x060).wf = true ∧ ((task id).core 1).badShift (.sset 1 0x060) = false ∧ missingFeat ((task id).feat 1) (((task id).core 1).feats (.sset 1 0x060)) = none ∧
      (task id).isSup 1 = false) := by
  refine ⟨rfl, rfl, ?_⟩; decide +kernel

/-! ### Vectors -/

/-- v2 and v3 with the FP32 lanes x and y, s1 and s2. -/
def vec (x y : Nat) : State :=
  sup fun c => ((c.setV 2 (BitVec.ofNat 512 (ofLanes 32 (List.replicate 16 x)))).setV 3 (BitVec.ofNat 512 (ofLanes 32 (List.replicate 16 y)))).writeS 1 5

/-- Lane i of v[r] of the current core after an instruction. -/
def vOf (i : Instr) (s : State) (r w n : Nat) : Nat := lane (((ran i s).core s.cur).vreg r) w n

/-- 1.0 + 2.0 in every lane (R111). -/
theorem test_vadd : vOf (.vadd .f32 false 1 2 3) (vec 0x3F800000 0x40000000) 1 32 15 = 0x40400000 := by decide +kernel
theorem test_vmin_int : vOf (.vmin .i32 false 1 2 3) (vec 0xFFFFFFFF 1) 1 32 0 = 0xFFFFFFFF := by decide +kernel
theorem test_vsra : vOf (.vsra .i8 true 1 2 1) (vec 0x8000F000 0) 1 8 1 = 0xFF := by decide +kernel
/-- 3.0 · 3.0 - 1.0 (R115). -/
theorem test_vfms : vOf (.vfms .f32 false false 1 2 2 3) (vec 0x40400000 0x3F800000) 1 32 7 = 0x41000000 := by decide +kernel
theorem test_vceq : ((ran (.vceq .f32 false 1 2 2) (vec 0x7FC00000 0)).core 0).kreg 1 = 0 := by decide +kernel
theorem test_viota : vOf (.viota .i32 1 1) (vec 0 0) 1 32 15 = 20 := by decide +kernel
theorem test_vext_sign : sOf (.vext .i8 4 2 0) (vec 0x80 0) 4 = 0xFFFFFFFFFFFFFF80 := by decide +kernel
/-- The sum of 16 lanes of 1.0 (R121). -/
theorem test_vreds : sOf (.vreds .f32 4 2) (vec 0x3F800000 0) 4 = 0x41800000 := by decide +kernel
theorem test_vcvt : vOf (.vcvt .f32 .i32 0 1 2) (vec 0x40400000 0) 1 32 3 = 3 := by decide +kernel
/-- The spec's example of R129: key 0x5EED, counter 0. -/
theorem test_vrnd : vOf (.vrnd .f32 7 20 21) (sup fun c => c.writeS 20 0x5EED) 7 32 0 = 0x3ED7817A := by decide +kernel
theorem test_vclass : vOf (.vclass .f32 1 2) (vec 0x80000000 0) 1 32 0 = 3 := by decide +kernel

theorem witness_VectorElementResult :
    let s := vec 0x3F800000 0x40000000
    (s.Legal (.vadd .f32 false 1 2 3) ∧ s.Legal (.vmul .f32 true 1 2 1) ∧ s.Legal (.vneg .f32 1 2) ∧ s.Legal (.vexp2 .f32 1 2) ∧ fmtInfo .f32 = some fi32 ∧
      s.Legal (.vdiv .f32 false 1 2 3) ∧ s.Legal (.vclass .f32 1 2)) ∧
    ∃ m z x y c1 c2 c', s.me.pred = .ok (m, z) ∧ s.me.readV 2 = .ok (x, c1) ∧ c1.readVB false 32 3 = .ok (y, c2) ∧ c2.putV 1 x m z = .ok c' ∧ s.me.Quiet 0x7F :=
  ⟨⟨rfl, rfl, rfl, rfl, rfl, rfl, rfl⟩, _, _, _, _, _, _, _, rfl, rfl, rfl, rfl, rfl⟩
/-- 1.0 over 0.0 in every lane, with every trap enabled (R80). -/
theorem witness_VectorTraps :
    let s := (vec 0x3F800000 0).modCore 0 fun c => { c with sys := { c.sys with fpctl := 0x1F00 } }
    s.Legal (.vdiv .f32 false 1 2 3) ∧ ∃ m z x y c1 c2, s.me.pred = .ok (m, z) ∧ s.me.readV 2 = .ok (x, c1) ∧ c1.readVB false 32 3 = .ok (y, c2) ∧
      ¬ s.me.Quiet (lanesOut 32 m fun i => fi32.div s.me.env.rm s.me.env.sat (s.me.env.g i) (fi32.decode (lane x 32 i)) (fi32.decode (lane y 32 i))).2 := by
  refine ⟨rfl, _, _, _, _, _, _, rfl, rfl, rfl, ?_⟩
  unfold Core.Quiet; decide +kernel
theorem witness_VectorCompareResult :
    let s := vec 0x3F800000 0x40000000
    s.Legal (.vclt .f32 false 1 2 3) ∧ ∃ m z x y c1 c2, s.me.pred = .ok (m, z) ∧ s.me.readV 2 = .ok (x, c1) ∧ c1.readVB false 32 3 = .ok (y, c2) :=
  ⟨rfl, _, _, _, _, _, _, rfl, rfl, rfl⟩
theorem witness_FusedAndSelectResult :
    let s := vec 0x3F800000 0x40000000
    s.Legal (.vfma .f32 false true 1 2 3 1) ∧ s.Legal (.vsel .f32 false 7 1 2 3) ∧
    ∃ m z x y w q c1 c2 c3, s.me.pred = .ok (m, z) ∧ s.me.readV 2 = .ok (x, c1) ∧ c1.readVB false 32 3 = .ok (y, c2) ∧ c2.readVB true 32 1 = .ok (w, c3) ∧ c2.readK 7 = .ok q :=
  ⟨rfl, rfl, _, _, _, _, _, _, _, _, _, rfl, rfl, rfl, rfl, rfl⟩
theorem witness_LaneMoveResult :
    let s := vec 0x3F800000 0x40000000
    s.Legal (.vshuf .f32 1 2 3 2) ∧ s.Legal (.vperm .i8 1 2 3) ∧ s.Legal (.vbcast .i8 1 1) ∧ s.Legal (.viota .i32 1 1) ∧ s.Legal (.vins .f32 1 1 0) ∧ s.Legal (.vext .f32 3 2 0) ∧
    ∃ m z x y t w u c1 c2 c3 c4 c5 c6, s.me.pred = .ok (m, z) ∧ s.me.readV 2 = .ok (x, c1) ∧ c1.readV 3 = .ok (y, c2) ∧ c2.readV 2 = .ok (t, c3) ∧ s.me.readS 1 = .ok (w, c4) ∧
      c4.readS 0 = .ok (u, c5) ∧ c1.readS 0 = .ok (u, c6) :=
  ⟨rfl, rfl, rfl, rfl, rfl, rfl, _, _, _, _, _, _, _, _, _, _, _, _, _, rfl, rfl, rfl, rfl, rfl, rfl, rfl⟩
theorem witness_CounterGenerator :
    let s := vec 0 0
    s.Legal (.vrnd .f32 1 1 1) ∧ s.Legal (.vrnd .i32 1 1 1) ∧ ∃ m z x y c1 c2, s.me.pred = .ok (m, z) ∧ s.me.readS 1 = .ok (x, c1) ∧ c1.readS 1 = .ok (y, c2) :=
  ⟨rfl, rfl, _, _, _, _, _, _, rfl, rfl, rfl⟩
/-- The FP4 numbers next to 1.25 are 1 and 1.5, those next to 7 are 6 and 8, whether or not the exponent is bounded below. -/
theorem witness_Rounding :
    (fiF4, 0x7, 0x2, none, none) ∈ Claims.formatTable ∧ Claims.num (fiF4.decode 0x7) = some 6 ∧ Claims.num (fiF4.decode 0x2) = some 1 ∧
    (∀ low, Claims.Neighbours fiF4 low 1 (5 / 4) (3 / 2) ∧ Claims.Neighbours fiF4 low 6 7 8) ∧
    Claims.exactly ⟨false, 5, -2, false⟩ = 5 / 4 ∧ Claims.chosen .rne 0 1 (5 / 4) (3 / 2) = 1 ∧ Claims.exactly ⟨false, 7, 0, false⟩ = 7 ∧ Claims.chosen .rne 0 6 7 8 = 8 ∧
    Claims.Precise fiF4 true 3 ∧ Claims.Precise fiF4 true 8 ∧ Claims.exactly ⟨false, 3, 0, false⟩ = 3 ∧ Claims.exactly ⟨false, 8, 0, false⟩ = 8 := by
  have pr (low : Bool) (m q : Int) (y : ℚ) (hm : |m| < 4) (hq : -1 ≤ q) (hy : y = (m : ℚ) * (2 : ℚ) ^ q) : Claims.Precise fiF4 low y :=
    ⟨m, q, hm, fun _ => hq, hy⟩
  have p1 (low : Bool) : Claims.Precise fiF4 low 1 := pr low 1 0 1 (by decide) (by decide) (by norm_num)
  have p3 (low : Bool) : Claims.Precise fiF4 low (3 / 2) := pr low 3 (-1) _ (by decide) (by decide) (by norm_num [zpow_neg])
  have p6 (low : Bool) : Claims.Precise fiF4 low 6 := pr low 3 1 6 (by decide) (by decide) (by norm_num)
  have p8 (low : Bool) : Claims.Precise fiF4 low 8 := pr low 1 3 8 (by decide) (by decide) (by norm_num)
  -- a number below 2^k steps of size 2^k is a multiple of 2^k, or small
  have key (k m q : Int) (hm : |m| < 4) : (∃ n : Int, (m : ℚ) * (2 : ℚ) ^ q = n * (2 : ℚ) ^ k) ∨ (m : ℚ) * (2 : ℚ) ^ q ≤ 3 * (2 : ℚ) ^ (k - 1) := by
    rcases le_or_gt k q with h | h
    · left
      obtain ⟨d, hd⟩ := Int.le.dest h
      refine ⟨m * 2 ^ d, ?_⟩
      rw [← hd, zpow_add₀ (by norm_num), zpow_natCast]
      push_cast; ring
    · right
      have h2 : (2 : ℚ) ^ q ≤ (2 : ℚ) ^ (k - 1) := zpow_le_zpow_right₀ (by norm_num) (by omega)
      have h0 : (0 : ℚ) < (2 : ℚ) ^ q := zpow_pos (by norm_num) q
      have hm3 : (m : ℚ) ≤ 3 := by
        have : m ≤ 3 := by have := (abs_lt.mp hm).2; omega
        exact_mod_cast this
      nlinarith
  refine ⟨by simp [Claims.formatTable], ?_, ?_, fun low => ⟨⟨p1 low, p3 low, by norm_num, by norm_num, ?_⟩, p6 low, p8 low, by norm_num, by norm_num, ?_⟩, ?_, ?_, ?_, ?_,
    pr true 3 0 3 (by decide) (by decide) (by norm_num), p8 true, ?_, ?_⟩
  case refine_3 =>
    rintro y ⟨m, q, hm, -, rfl⟩
    rcases key (-1) m q hm with ⟨n, hn⟩ | h
    · rw [hn]
      rcases le_or_gt n 2 with h | h
      · left
        have : (n : ℚ) ≤ 2 := by exact_mod_cast h
        norm_num [zpow_neg]; linarith
      · right
        have : (3 : ℚ) ≤ n := by exact_mod_cast h
        norm_num [zpow_neg]; linarith
    · left; norm_num at h; linarith
  case refine_4 =>
    rintro y ⟨m, q, hm, -, rfl⟩
    rcases key 1 m q hm with ⟨n, hn⟩ | h
    · rw [hn]
      rcases le_or_gt n 3 with h | h
      · left
        have : (n : ℚ) ≤ 3 := by exact_mod_cast h
        norm_num; linarith
      · right
        have : (4 : ℚ) ≤ n := by exact_mod_cast h
        norm_num; linarith
    · left; norm_num at h; linarith
  all_goals decide +kernel
/-- Blocks of 32 values: with a NaN, with an infinity, of numbers alone. -/
theorem witness_Quantising :
    let z := FVal.fin false 0 0
    (FVal.nan :: List.replicate 31 z).length = 32 ∧ (∃ x ∈ FVal.nan :: List.replicate 31 z, x = .nan) ∧
    (let l := FVal.inf true :: FVal.fin false 3 0 :: List.replicate 30 z
     l.length = 32 ∧ (∀ x ∈ l, x ≠ .nan) ∧ l[0]? = some (.inf true) ∧ l[1]? = some (.fin false 3 0) ∧ (l.filterMap Claims.num).all (fun y => decide (|y| ≤ 3)) = true) ∧
    (∀ x ∈ List.replicate 32 (FVal.inf false), Claims.num x = none) ∧ ((2 : ℚ) ^ (1 : Int) ≤ 3 ∧ (3 : ℚ) < 2 ^ ((1 : Int) + 1)) := by
  refine ⟨rfl, ⟨_, List.mem_cons_self .., rfl⟩, ⟨rfl, by decide, rfl, rfl, by decide +kernel⟩, ?_, by norm_num⟩
  intro x h; rw [List.eq_of_mem_replicate h]; rfl
/-- Two keys of each kind that R124 tells apart. -/
theorem witness_KeyOrder :
    fi32.decode 0x7FC00000 = .nan ∧ fi32.decode 0x3F800000 ≠ .nan ∧ Claims.num (fi32.decode 0x80000000) = some 0 ∧ fi32.decode 0xFF800000 = .inf true ∧ fi32.decode 0x7F800000 = .inf false := by
  decide +kernel
theorem witness_ReductionResult :
    let s := vec 0x3F800000 0x40000000
    s.Legal (.vreds .f32 4 2) ∧ s.Legal (.vreds .i8 4 2) ∧ s.Legal (.vredx .i32 4 2) ∧ s.Legal (.vredn .f16 4 2) ∧ s.Legal (.vscan .f32 1 2) ∧
    s.Legal (.vdot .i8 false 1 2 3) ∧ s.Legal (.vdot .bf16 false 1 2 3) ∧ fmtInfo .i8 = none ∧
    ∃ m z x y w c1 c2 c3, s.me.pred = .ok (m, z) ∧ s.me.readV 2 = .ok (x, c1) ∧ c1.readVB false 32 3 = .ok (y, c2) ∧ c2.readV 1 = .ok (w, c3) :=
  ⟨rfl, rfl, rfl, rfl, rfl, rfl, rfl, rfl, _, _, _, _, _, _, _, _, rfl, rfl, rfl, rfl⟩
/-- Lanes that are all equal form a sorted list, and every active lane of it is a largest one. -/
theorem witness_ReductionResult_max : ((activeLanes 32 (2 ^ 64 - 1) (0 : Vec)).filterMap id) ≠ [] ∧
    (∀ u ∈ (activeLanes 32 (2 ^ 64 - 1) (0 : Vec)).filterMap id, Claims.ival 32 u ≤ Claims.ival 32 0) ∧ (activeLanes 32 0 (0 : Vec)).filterMap id = [] := by
  decide +kernel
theorem witness_SortingResult :
    let s := vec 0x3F800000 0x40000000
    s.Legal (.vsort .f32 true 2) ∧ s.Legal (.vmrg .i32 false 2 4) ∧
    (Claims.entries 0 0).Pairwise (fun p q => keyBefore .i32 false q.1 p.1 = false) ∧
    ∃ m z x y u v c1 c2 c3 c4 c5 c6, s.me.pred = .ok (m, z) ∧ s.me.readV 2 = .ok (x, c1) ∧ c1.readV 3 = .ok (y, c2) ∧ c2.readV 4 = .ok (u, c3) ∧ c3.readV 5 = .ok (v, c4) ∧
      c4.putV 2 x m z = .ok c5 ∧ c5.putV 3 y m z = .ok c6 :=
  ⟨rfl, rfl, by decide +kernel, _, _, _, _, _, _, _, _, _, _, _, _, rfl, rfl, rfl, rfl, rfl, rfl, rfl⟩
theorem witness_ConversionResult :
    let s := vec 0x3F800000 0x40000000
    s.Legal (.vcvt .f32 .f16 1 1 2) ∧ s.Legal (.vcvt .f16 .f32 1 1 2) ∧ s.Legal (.vqnt .bx8e4 1 2) ∧ s.Legal (.vdq .bx8e4 4 2) ∧ s.Legal (.vwscTo .f32 1 2 3) ∧ s.Legal (.vwscFrom .f32 1 2) ∧
    ∃ m z x y c1 c2 c3 c4 c5, s.me.pred = .ok (m, z) ∧ s.me.readV 2 = .ok (x, c1) ∧ c1.readV 3 = .ok (y, c2) ∧ c1.putPart 1 x 3 m z = .ok c3 ∧ c1.putV 4 x m z = .ok c4 ∧ c4.putV 5 x m z = .ok c5 :=
  ⟨rfl, rfl, rfl, rfl, rfl, rfl, _, _, _, _, _, _, _, _, _, rfl, rfl, rfl, rfl, rfl, rfl⟩
/-- Streams: one input stream of one item whose buffer holds it, poison, nothing, and an output stream with a full buffer and one with room. -/
def streams (buf : List StrmItem) (out : Bool) : Core :=
  { strm := [(0, { bound := true, output := out, base := 0x00FFFF0000000000, desc := [2 ^ 38 + 1, 8], next := 0, buf := buf })], poison := { v := [(1, 0)] } }
theorem witness_VectorOperandForms :
    (∀ p ∈ (streams [] false).poison.v, p.1 ≠ 0) ∧ ((1, 0) ∈ (streams [] false).poison.v) ∧
    (((streams [] false).strmAt 1).bound = false) ∧
    (let q := (streams [] false).strmAt 0; q.bound = true ∧ q.output = false ∧ q.next < strmItems q.desc ∧ q.buf = []) ∧
    (let q := (streams [.bad 5] false).strmAt 0; q.next < strmItems q.desc ∧ q.buf = .bad 5 :: []) ∧
    (let q := (streams [.ok 5] false).strmAt 0; q.next < strmItems q.desc ∧ q.buf = .ok 5 :: []) ∧
    (let q := (streams [.ok 0, .ok 0, .ok 0, .ok 0] true).strmAt 0; q.bound = true ∧ q.output = true ∧ q.next < strmItems q.desc ∧ 4 ≤ q.buf.length) ∧
    (let q := (streams [] true).strmAt 0; q.bound = true ∧ q.output = true ∧ q.next < strmItems q.desc ∧ q.buf.length < 4) ∧
    (match ({} : Core).putV 1 (lanesOut 4 1 fun i => (i % 16, 0)).1 (laneBytes 1 4) true with | .ok _ => true | .error _ => false) = true ∧
    ∀ i, ((i % 16 : Nat), (0 : FFlags)).1 < 2 ^ 4 := by
  refine ⟨by decide +kernel, by decide +kernel, rfl, by decide +kernel, by decide +kernel, by decide +kernel, by decide +kernel, by decide +kernel, by decide +kernel, fun i => Nat.mod_lt _ (by decide)⟩

/-! ### Memory accesses -/

/-- s1 at offset x of the local store window, s2 at offset y of the scratchpad window; the supervisor core's. -/
def mem2 (x y : Nat) : State := sup fun c => ((c.writeS 1 (BitVec.ofNat 64 (lsWin + x))).writeS 2 (BitVec.ofNat 64 (cspWin + y))).writeS 3 7

/-- A store of these bytes in a store buffer, as the group 0. -/
def entry (bytes : List (Nat × Byte)) : SbEntry := { grp := 0, bytes := bytes, va := 0, launch := 0, phasec := 0, clr := [] }

/-- The bytes 80 81 ... at 0x100 of the local store (R104, R105). -/
def bytes8 : State := { mem2 0x100 0 with mem := putBytes [] (at_ (lsKey 0 0x100) 8 0x8786858483828180) }
theorem test_ldb_sign : sOf (.ldb 4 1 1) bytes8 4 = 0xFFFFFFFFFFFFFF81 := by decide +kernel
theorem test_ldwu : sOf (.ldwu 4 1 4) bytes8 4 = 0x87868584 := by decide +kernel
theorem test_std_buffers : let t := ran (.std 3 1 0) (mem2 0x100 0); t.byte (lsKey 0 0x100) = 0 ∧ t.loadByte 0 false (lsKey 0 0x100) = 7 := by decide +kernel
theorem test_misaligned : ((ran (.ldw 4 1 2) bytes8).core 0).sys.ecause = 6 := by decide +kernel
theorem test_lds : sOf (.lds .hu false .core 4 ⟨1, 0, 0, 2⟩) bytes8 4 = 0x8382 := by decide +kernel
/-- A strong store waits in the buffer, and its home has it once it is performed (R130, R190). -/
theorem test_sts : let t := ran (.sts .w false .core 3 ⟨2, 0, 0, 0⟩) (mem2 0 0x40)
    t.rd (cspKey 0 0x40) 4 = 0 ∧ (ran .storePerformed { t with arg := {} }).rd (cspKey 0 0x40) 4 = 7 := by decide +kernel
theorem test_vld : vOf (.vld .i8 1 ⟨1, 0, 0, 0⟩) bytes8 1 8 7 = 0x87 := by decide +kernel
/-- The old value returns, the sum stands at the home (R210). -/
theorem test_atom_add : let t := ran (.atomAdd .d .relaxed .core 3 ⟨1, 0, 0, 0⟩) bytes8
    (t.core 0).sreg 3 = 0x8786858483828180 ∧ t.rd (lsKey 0 0x100) 8 = 0x8786858483828187 := by decide +kernel

/-- The next plain load is to be left outstanding. -/
def deferring : State := (mem2 0x1FFF8 0x40).modCore 0 fun c => { c with defer := true }
theorem witness_ScalarAccessResult :
    let s := mem2 0x1FFF8 0
    (s.Legal (.ldd 4 1 0) ∧ ∃ ea c k e, Claims.loadOf s.me (.ldd 4 1 0) = some (.d, 4, .ok (ea, c)) ∧ ea.toNat % 8 = 0 ∧ Claims.Allowed (s.setCore 0 c) 0 .load ea 8 k e ∧
      c.loads < 32 ∧ s.granuleBusy k = false ∧ (s.setCore 0 c).awaits 0 k 8 = false ∧ c.defer = false) ∧
    (let s := deferring
     s.Legal (.ldd 4 1 0) ∧ ∃ ea c k e, Claims.loadOf s.me (.ldd 4 1 0) = some (.d, 4, .ok (ea, c)) ∧ ea.toNat % 8 = 0 ∧ Claims.Allowed (s.setCore 0 c) 0 .load ea 8 k e ∧
      c.loads < 32 ∧ s.granuleBusy k = false ∧ (s.setCore 0 c).awaits 0 k 8 = false ∧ c.defer = true ∧ s.poisoned k = false) ∧
    (s.Legal (.stx .b 3 ⟨1, 3, 0, 0⟩) ∧ ∃ ea c0 x c k e, Claims.storeOf s.me (.stx .b 3 ⟨1, 3, 0, 0⟩) = some (1, 3, .ok (ea, c0)) ∧ c0.readS 3 = .ok (x, c) ∧ ea.toNat % 1 = 0 ∧
      Claims.Allowed (s.setCore 0 c) 0 .store ea 1 k e ∧ c.stores < 64 ∧
      ∀ j, j < 1 → (s.setCore 0 c).awaits 0 (k + j) 1 = false) := by
  refine ⟨⟨rfl, _, _, _, none, rfl, by decide +kernel, ⟨by decide +kernel, rfl, rfl⟩, by decide, rfl, rfl, rfl⟩,
    ⟨rfl, _, _, _, none, rfl, by decide +kernel, ⟨by decide +kernel, rfl, rfl⟩, by decide, rfl, rfl, rfl, rfl⟩,
    rfl, _, _, _, _, _, none, rfl, rfl, by decide +kernel, ⟨by decide +kernel, rfl, rfl⟩, by decide, fun _ _ => rfl⟩
/-- A store of the core covers the unit at 0x100; its copy of the line at 0x200 holds a poisoned unit. -/
def covering : State :=
  { sup (fun c => { c with sb := [{ entry [] with clr := [unitOf (lsKey 0 0x100)] }], l1d := [{ la := lsKey 0 0x200, data := List.replicate 64 0, bad := [unitOf (lsKey 0 0x200)] }] }) with
    mpoison := [lsKey 0 0x100] }
/-- A store that is not performed yet. -/
def pending : State := sup fun c => { c with sb := [entry [(lsKey 0 0, 1)]] }
/-- The first byte beyond a local store, a misaligned address, an address beyond a task's allocation, poison. -/
theorem witness_AccessChecks :
    (let s := mem2 0x1FFFF 0; s.Legal (.ldh 4 1 1) ∧ s.chkItem1 0 (BitVec.ofNat 64 (lsWin + 0x20000)) 2 ≠ none) ∧
    (let s := mem2 0x1FFFE 0; s.Legal (.ldw 4 1 0) ∧ s.chkItem1 0 (BitVec.ofNat 64 (lsWin + 0x1FFFE)) 2 = none ∧ (lsWin + 0x1FFFE) % 4 ≠ 0) ∧
    ((task id).chkItem1 1 (BitVec.ofNat 64 (lsWin + 0x4000)) 4 = none ∧ (task id).chk34 1 .store (lsWin + 0x4000) = .error .lease) ∧
    ((task id).chk34 1 .store (lsWin + 0x3FFF) = .ok (lsKey 1 0x3FFF, none)) ∧
    (let s := { mem2 0x100 0 with mpoison := [lsKey 0 0x100] }; s.chk34 0 .load (lsWin + 0x100) = .ok (lsKey 0 0x100, none) ∧ s.meetsPoison 0 .load (lsKey 0 0x100) = true ∧
      (∀ e ∈ s.sbOf 0, unitOf (lsKey 0 0x100) ∉ e.clr) ∧ ∀ l ∈ (s.core 0).l1d, l.la ≠ lsKey 0 0x100 / 64 * 64) ∧
    (let s := covering
     (∃ e ∈ s.sbOf 0, unitOf (lsKey 0 0x100) ∈ e.clr) ∧ (∀ e ∈ s.sbOf 0, unitOf (lsKey 0 0x200) ∉ e.clr) ∧
      ∃ l, (s.core 0).l1d = l :: [] ∧ l.la = lsKey 0 0x200 / 64 * 64 ∧ s.meetsPoison 0 .load (lsKey 0 0x200) = true) := by
  refine ⟨⟨rfl, by decide +kernel⟩, ⟨rfl, by decide +kernel, by decide +kernel⟩, ⟨by decide +kernel, rfl⟩, rfl, ⟨rfl, by decide +kernel, by decide +kernel, by decide +kernel⟩,
    by decide +kernel, by decide +kernel, _, rfl, by decide +kernel, by decide +kernel⟩
/-- The translations: a page of another type, a PEER page, a permission that is missing, one that admits the access. -/
def tlb (w0 : Word) : State := sup fun c => { c with dtlb := [⟨0, 0, 0, w0, 0⟩] }
theorem witness_AccessChecks_pages :
    (State.reset.isSup 0 = true ∧ State.reset.lookup 0 false 0 = none) ∧
    (∃ e, (tlb 0x0110001F).lookup 0 false 0xFFFF = some e ∧ e.type = 4) ∧
    (∃ e, (tlb 0x01000013).lookup 0 false 0 = some e ∧ e.type ≠ 4 ∧ Access.load.allowed e = false) ∧
    (∃ e, (tlb 0x0108001F).lookup 0 false 0 = some e ∧ e.type = 2) ∧
    (∃ e, (tlb 0x0100001F).lookup 0 false 0 = some e ∧ e.type ≠ 4 ∧ e.type ≠ 2 ∧ Access.rmw.allowed e = true ∧ (tlb 0x0100001F).backed 0 e.type (e.pa 0) = true) ∧
    ((task id).isSup 1 = false ∧ (task id).leased 0 1 0 = false) := by
  refine ⟨⟨rfl, by decide +kernel⟩, ⟨⟨0, 0, 0, 0x0110001F, 0⟩, by decide +kernel, by decide +kernel⟩, ⟨⟨0, 0, 0, 0x01000013, 0⟩, by decide +kernel, by decide +kernel⟩,
    ⟨⟨0, 0, 0, 0x0108001F, 0⟩, by decide +kernel, by decide +kernel⟩, ⟨⟨0, 0, 0, 0x0100001F, 0⟩, by decide +kernel, by decide +kernel⟩, rfl, rfl⟩
theorem witness_VectorMemoryResult :
    let s := mem2 0x100 0
    (s.Legal (.vld .f32 1 ⟨1, 0, 0, 0⟩) ∧ s.Legal (.vldi .f32 1 ⟨1, 0, 0, 0⟩) ∧ s.Legal (.vlds .f32 1 ⟨1, 3, 0, 0⟩) ∧ s.Legal (.vgath .f32 1 ⟨1, 3, 0, 0⟩) ∧
      s.Legal (.vst .f32 1 ⟨1, 0, 0, 0⟩) ∧ s.Legal (.vsts .f32 1 ⟨1, 3, 0, 0⟩) ∧ s.Legal (.vscat .f32 1 ⟨1, 3, 0, 0⟩)) ∧
    (∃ m z x y v c1 c2 c3, s.me.pred = .ok (m, z) ∧ s.me.readS 1 = .ok (x, c1) ∧ c1.readS 0 = .ok (y, c2) ∧ c2.readV 1 = .ok (v, c3)) ∧
    (match s.checkLanes 0 .load (lanesDense 32 (2 ^ 64 - 1) (BitVec.ofNat 64 (lsWin + 0x100))) with
      | .ok (ps, s1) => (match s1.issueLoad 0 with
        | .ok s2 => (match s2.loadLanes 0 false ps with
          | .ok (xs, s3) => (match (s3.core 0).putV 1 0 0 true with | .ok _ => xs.length == 16 | .error _ => false)
          | .error _ => false)
        | .error _ => false)
      | .error _ => false) = true ∧
    (match s.checkLanes 0 .store (lanesStrided 32 (2 ^ 64 - 1) (BitVec.ofNat 64 (lsWin + 0x100)) 4) with
      | .ok (ps, s1) => decide ((s1.core 0).stores < 64) && (Claims.laneBytesOf 0 ps).all (fun p => !s1.awaits 0 p.1 1) | .error _ => false) = true ∧
    (let r := deferring
     r.Legal (.vld .f32 1 ⟨0, 0, 0, 0⟩) ∧ (match r.checkLanes 0 .load (lanesDense 32 0xFF (BitVec.ofNat 64 lsWin)) with
      | .ok (ps, s1) => (match s1.issueLoad 0 with
        | .ok s2 => (s2.core 0).defer && !(s2.core 0).pendingV 1 && s2.mayLeave 0 (ps.flatMap fun p => latePartsOf (p.1.i * p.1.n) p.2)
        | .error _ => false)
      | .error _ => false) = true) := by
  refine ⟨⟨rfl, rfl, rfl, rfl, rfl, rfl, rfl⟩, ⟨_, _, _, _, _, _, _, _, rfl, rfl, rfl, rfl⟩, by decide +kernel, by decide +kernel, rfl, by decide +kernel⟩
/-- A load of an aligned word and one of 8 bytes that cross a word boundary; where their bytes come from: the core's own later store, its copy, the home. -/
theorem witness_LoadedBytes :
    let s := covering
    (match s.loadLanes 0 false [(⟨0, BitVec.ofNat 64 lsWin, 4, false⟩, [(BitVec.ofNat 64 lsWin, lsKey 0 0, 4)])] with | .ok (xs, _) => xs.length == 1 | .error _ => false) = true ∧
    (match s.loadLanes 0 false [(⟨0, BitVec.ofNat 64 (lsWin + 4), 8, true⟩, [(BitVec.ofNat 64 (lsWin + 4), lsKey 0 4, 4), (BitVec.ofNat 64 (lsWin + 8), lsKey 0 8, 4)])] with
      | .ok (xs, _) => xs.length == 1 | .error _ => false) = true ∧
    (∃ l, (s.core 0).copyOf false (lsKey 0 0x200) = some l ∧ ∀ e ∈ s.sbOf 0, e.bytes = []) ∧ (∀ l ∈ (s.core 0).l1d, l.la ≠ lsKey 0 0x100 / 64 * 64) ∧
    pending.sbOf 0 = [] ++ entry [(lsKey 0 0, 1)] :: [] ∧ (entry [(lsKey 0 0, 1)]).bytes = [] ++ (lsKey 0 0, 1) :: [] := by
  refine ⟨by decide +kernel, by decide +kernel, ⟨_, rfl, by decide +kernel⟩, by decide +kernel, rfl, rfl⟩
/-- Page 0 is HOST, and the next load is to be left outstanding. -/
def relaxedHost : State := sup fun c => { c with defer := true, dtlb := [⟨0, 0, 0, BitVec.ofNat 64 (2 ^ 59 + 0xC001F), 0⟩] }
theorem witness_StrongAccessResult :
    let s := mem2 0x100 0x40
    let ea := BitVec.ofNat 64 (lsWin + 0x100)
    let r := relaxedHost
    (s.Legal (.lds .d true .device 4 ⟨1, 0, 0, 0⟩) ∧ s.Legal (.sts .d true .device 3 ⟨1, 0, 0, 0⟩) ∧ (∃ c, Claims.eaLong s.me ⟨1, 0, 0, 0⟩ = .ok (ea, c)) ∧ ea.toNat % 8 = 0 ∧
      s.me.defer = false) ∧
    (match s.checkBytes 0 .strongLoad ea 8 false with
      | .ok (ps, s1) => decide (ps = [(ea, lsKey 0 0x100, 8)]) && (match s1.settleStrong 0 true false (lsKey 0 0x100) 8 with
        | .ok s2 => !s2.granuleBusy (lsKey 0 0x100) && (match s2.issueLoad 0 with | .ok _ => true | .error _ => false)
        | .error _ => false)
      | .error _ => false) = true ∧
    (match s.checkBytes 0 .store ea 8 false with
      | .ok (ps, s1) => decide (ps = [(ea, lsKey 0 0x100, 8)]) && s1.released 0 .device && (s1.core 0).late.isEmpty && decide ((s1.core 0).stores < 64) &&
        (List.range 8).all (fun j => !s1.awaits 0 (lsKey 0 0x100 + j) 1)
      | .error _ => false) = true ∧
    (pending.Legal (.sts .d true .device 3 ⟨1, 0, 0, 0⟩) ∧ pending.released 0 .device = false) ∧
    (r.Legal (.lds .w false .core 4 ⟨0, 0, 0, 0⟩) ∧ (match r.checkBytes 0 .strongLoad 0 4 false with
      | .ok (ps, s1) => decide (ps = [(0, 2 ^ 51, 4)]) && (match s1.settleStrong 0 true false (2 ^ 51) 4 with
        | .ok s2 => !s2.granuleBusy (2 ^ 51) && (match s2.issueLoad 0 with | .ok s3 => (s3.core 0).defer && s3.mayLeave 0 [⟨0, 2 ^ 51, 4, 0⟩] | .error _ => false)
        | .error _ => false)
      | .error _ => false) = true ∧ typeOfPa (2 ^ 51) = some .host) ∧
    ((s.core 0).hview = [] ∧ s.sbOf 0 = [] ∧ (s.core 0).late = [] ∧ s.holds = [] ∧ s.hostMissed 0 (s.core 0).fullEp = false ∧ s.hostMissed 0 (s.core 0).relEp = false) := by
  refine ⟨⟨rfl, rfl, ⟨_, rfl⟩, by decide +kernel, rfl⟩, ?_, ?_, ⟨rfl, ?_⟩, ⟨rfl, ?_, ?_⟩, ?_⟩ <;> decide +kernel
theorem witness_PhaseAndFence :
    State.reset.Legal (.phase true true .system) ∧ State.reset.Legal (.fence true true .system) ∧ State.reset.start.released 0 .system = true ∧
    pending.Legal (.phase false true .device) ∧ pending.Legal (.fence false true .core) ∧ pending.start.released 0 .device = false ∧
    (clusterOf 0 = clusterOf 1 ∧ clusterOf 1 ≠ clusterOf 95) ∧
    (let s := covering
     (∃ l, (l ∈ (s.core 0).l1d ∨ l ∈ (s.core 0).hview) ∧ l.la = lsKey 0 0x200) ∧ (∀ l, l ∈ (s.core 0).l1d ∨ l ∈ (s.core 0).hview → l.la ≠ 0) ∧
     (((s.publish 1 .cluster).acquireAt 0 .cluster).core 0).l1d ≠ []) := by
  refine ⟨rfl, rfl, rfl, rfl, rfl, rfl, by decide, ⟨_, .inl (List.mem_singleton_self _), rfl⟩, ?_, by decide +kernel⟩
  rintro l (h | h)
  · rw [List.mem_singleton.1 h]; decide +kernel
  · cases h
/-- Core 0 takes an atomic of n bytes at ea, key k: whether the page is held. -/
def atHome (s : State) (ea : Word) (k0 n : Nat) : Option Bool :=
  match s.start.checkAtom 0 ea n (if n = 48 then 64 else n) false with
  | .ok (k, s1) => if k ≠ k0 ∨ s1.released 0 .core = false then none else match (if typeOfPa k ≠ some .ls then s1.publish 0 .core else s1).enterHome 0 k with
    | .ok s2 => match s2.settleStrong 0 true true k n with
      | .ok t => match (t.core 0).ea ⟨1, 0, 0, 0⟩ with
        | .ok (_, c) => (match c.readS 3, c.readV 3, c.putV 3 0 0 false with | .ok _, .ok _, .ok _ => some (t.holdAt (t.isSup 0) k).isSome | _, _, _ => none)
        | .error _ => none
      | .error _ => none
    | .error _ => none
  | .error _ => none
/-- The core has an atomic queued at a page under migration, or its old value. -/
def queued (old : Option Nat) : State := (mem2 0x100 0).modCore 0 fun c => { c with rmw := some (3, old) }
/-- Page 0 is DEV at 0x10000 and under migration; s1 = 8. -/
def heldPage : State :=
  { sup (fun c => { c.writeS 1 8 with dtlb := [⟨0, 0, 0, 0x0100001F, 0⟩] }) with holds := [⟨0x10000, 0x20000, 0x10000, []⟩] }
theorem witness_AtomicResult :
    let s := mem2 0x100 0
    (s.Legal (.atomAdd .d .acqrel .core 3 ⟨1, 0, 0, 0⟩) ∧ s.Legal (.atomCas .w .relaxed .core 4 ⟨1, 0, 0, 0⟩) ∧ s.Legal (.atomFadd true .relaxed .core 3 ⟨1, 0, 0, 0⟩) ∧
      s.Legal (.atomWs .acquire .core 3 ⟨1, 0, 0, 0⟩)) ∧
    (s.me.rmw = none ∧ atHome s (BitVec.ofNat 64 (lsWin + 0x100)) (lsKey 0 0x100) 8 = some false ∧ atHome s (BitVec.ofNat 64 (lsWin + 0x100)) (lsKey 0 0x100) 48 = some false) ∧
    (heldPage.Legal (.atomXor .d .acqrel .core 3 ⟨1, 0, 0, 0⟩) ∧ heldPage.me.rmw = none ∧ atHome heldPage 8 0x10008 8 = some true) ∧
    (queued none).me.rmw = some (3, none) ∧ (queued (some 9)).me.rmw = some (3, some 9) ∧ (queued none).Legal (.atomAdd .d .acqrel .core 3 ⟨1, 0, 0, 0⟩) := by
  refine ⟨⟨rfl, rfl, rfl, rfl⟩, ?_, ⟨rfl, ?_⟩, rfl, rfl, rfl⟩ <;> decide +kernel
/-- A reduction object of two members at 0x40 of the scratchpad; `arr` of them have contributed, rank 0 if any. -/
def bank (arr : Nat) (wait : Bool) : State :=
  let s := (sup fun c => ((c.writeS 1 (BitVec.ofNat 64 (cspWin + 0x40))).writeS 2 1))
  let s := { s with mem := putBytes [] (at_ (cspKey 0 0x40) 8 (2 ^ 32 + arr * 2 ^ 16)), reds := if arr = 0 then [] else [(cspKey 0 0x40, [0])] }
  s.modCore 0 fun c => { c with bwait := wait, bgen := if wait then 3 else 0 }
/-- What rank r's contribution comes to. -/
def kindOf : BankStep → Nat
  | .badRank _ => 0
  | .again => 1
  | .wait _ _ => 2
  | .done _ => 3
  | .poison _ => 4
/-- The contribution of rank 0 is poisoned. -/
def poisonedSlot : State := { bank 1 false with mpoison := [cspKey 0 0x40 + bankSlot 0 0] }
/-- The scratchpad page of the object is under migration. -/
def heldBank : State := { bank 0 false with holds := [⟨cspKey 0 0, cspKey 1 0, 0x1000, []⟩] }
/-- A supervisor's object lies in one piece. -/
theorem witness_Lays : Claims.Lays (bank 1 false) true (cspKey 0 0x40) (64 + 64 * 2) := by
  have h (k j : Nat) : (bank 1 false).place true k j = k + j := rfl
  refine ⟨fun j _ => h _ j, fun a j _ => ?_, fun a b _ _ e => ?_⟩
  · rw [h, h, h, Nat.add_assoc]
  · rw [h, h] at e; omega
theorem witness_BankopResult :
    let o := cspKey 0 0x40
    (kindOf ((bank 0 false).contribute true o 0 2 5) = 0 ∧ kindOf ((bank 1 false).contribute true o 0 0 5) = 1 ∧ kindOf ((bank 0 false).contribute true o 0 1 5) = 2 ∧
      kindOf ((bank 1 false).contribute true o 7 1 5) = 3 ∧
      (let t := (bank 1 false).write ((bank 1 false).objBytes true (o + bankSlot 0 1) 8 5)
       ∀ j, j < 2 → ∀ b, b < 1 → t.poisoned (t.place true o (bankSlot 0 j + 8 * b)) = false) ∧
      kindOf ((poisonedSlot).contribute true o 7 1 5) = 4 ∧ (poisonedSlot.write (poisonedSlot.objBytes true (o + bankSlot 0 1) 8 5)).poisoned (o + bankSlot 0 0) = true) ∧
    ((bank 0 false).Legal (.bankopAddF32 3 1 2 2) ∧ (bank 0 false).Legal (.bankopWs 3 1 2 3) ∧ (bank 0 false).me.bwait = false ∧
      ∃ ea r v w c1 c2 c3 c4, (bank 0 false).me.readS 1 = .ok (ea, c1) ∧ c1.readS 2 = .ok (r, c2) ∧ c2.readS 2 = .ok (v, c3) ∧ c2.readV 3 = .ok (w, c4)) ∧
    (match (bank 1 false).start.checkBank 0 (BitVec.ofNat 64 (cspWin + 0x40)) with
      | .ok (k, s1) => decide (k = o) && s1.released 0 (bankScope k) && !s1.heldAt k && (match (s1.publish 0 (bankScope k)).enterHome 0 k with
        | .ok s2 => (match s2.settle 0 k 64 with
          | .ok t => decide (kindOf (t.contribute true k 0 1 5) = 3) &&
            (match t.contribute true k 0 1 5 with | .done u => (List.range 6).all fun j => !u.wakeBanks.poisonSeen 0 (o + 8 + 8 * j) | _ => false)
          | .error _ => false)
        | .error _ => false)
      | .error _ => false) = true ∧
    ((bank 1 true).me.bwait = true ∧ (bank 1 true).start.reach 0 (cspWin + 0x40) = some o ∧
      bits ((bank 1 true).rd o 8) 15 12 ≠ (bank 1 true).me.bgen ∧ (bank 1 true).start.poisonSeen 0 (o + 8) = false ∧
      ({ bank 1 true with mpoison := [o + 8] } : State).start.poisonSeen 0 (o + 8) = true) ∧
    (heldBank.me.bwait = false ∧ (match heldBank.start.checkBank 0 (BitVec.ofNat 64 (cspWin + 0x40)) with | .ok (k, s1) => decide (k = o) && s1.heldAt k | .error _ => false) = true) := by
  refine ⟨by decide +kernel, ⟨rfl, rfl, rfl, _, _, _, _, _, _, _, _, rfl, rfl, rfl, rfl⟩, by decide +kernel, ⟨rfl, rfl, by decide +kernel, by decide +kernel, by decide +kernel⟩, rfl, by decide +kernel⟩

/-! ### Barriers, rings, streams, ports, timelines, carillon, interrupts, system registers -/

/-- A barrier object x (or a ring header) at 0x40 of the scratchpad, s1 its address, s2 = 1. -/
def bar (x : Nat) : State :=
  { sup (fun c => ((c.writeS 1 (BitVec.ofNat 64 (cspWin + 0x40))).writeS 2 1)) with mem := putBytes [] (at_ (cspKey 0 0x40) 16 x) }

/-- PEND counts down to 0: GEN advances and PEND is EXP again (R222, R223). -/
theorem test_bara_completes : let t := ran (.bara 3 ⟨1, 0, 0, 0⟩) (bar (1 * 2 ^ 24 + 5 * 2 ^ 4 + 15))
    (t.core 0).sreg 3 = 15 ∧ t.rd (cspKey 0 0x40) 8 = 5 * 2 ^ 24 + 5 * 2 ^ 4 := by decide +kernel
/-- An empty slot is taken: 0 to 1 (R226). -/
theorem test_slotacq : (ran (.slotacq 2 ⟨1, 0, 0, 0⟩) (bar (3 * 2 ^ 32 + 0x80 * 2 ^ 96))).rd (cspKey 0 0x84) 4 = 1 := by decide +kernel
theorem test_tlset : let t := (ran (.tlset 1 1 0) (two 9 0)).core 0; (t.tl 1).value = 9 ∧ (t.tl 1).issued = 9 := by decide +kernel
theorem test_sget_isaver : sOf (.sget 3 0x004) State.reset 3 = 0x0300 := by decide
/-- COREID of core 1: die 0, cluster 0, core 1 (R15). -/
theorem test_sget_coreid : sOf (.sget 3 0) (task id) 3 = 1 := by decide
theorem test_sset_fpctl_keeps_rm : ((ran (.sset 1 0x010) (two 0x1F06 0)).core 0).sys.fpctl = 0x1F00 := by decide
theorem test_waitt_waits : ((ran (.waitt 1) (two 1 0)).core 0).stalled = true := by decide
theorem test_carr_alone : (((ran (.carr false 2) ((sup id).setCluster 0 { chans := [(2, { members := [0] })] })).cluster 0).chans) = [(2, { members := [0], gen := true })] := by decide

/-- The current core's 16-byte object at 0x40 of the scratchpad passes its checks. -/
def atBank (s : State) (rel : Bool) : Bool :=
  match s.start.checkBar 0 (BitVec.ofNat 64 (cspWin + 0x40)) 16 16, (if rel then s.start.publish 0 .cluster else s.start).enterHome 0 (cspKey 0 0x40) with
  | .ok k, .ok s1 => decide (k = cspKey 0 0x40) && s.start.released 0 .cluster && (match s1.settle 0 k 16 with
    | .ok t => (match (t.core 0).ea ⟨1, 0, 0, 0⟩ with | .ok (_, c) => (match c.readS 2 with | .ok _ => true | .error _ => false) | .error _ => false)
    | .error _ => false)
  | _, _ => false
theorem witness_BarrierResult :
    let s := bar (2 ^ 24 + 3)
    (s.Legal (.bari 2 ⟨1, 0, 0, 0⟩) ∧ s.Legal (.bara 2 ⟨1, 0, 0, 0⟩) ∧ s.Legal (.barw 2 ⟨1, 0, 0, 0⟩) ∧ s.Legal (.barx 2 ⟨1, 0, 0, 0⟩)) ∧ atBank s true = true ∧ atBank s false = true ∧ atBank (bar 1) false = true ∧
    ((BarObj.ofNat (s.rd (cspKey 0 0x40) 16)).pend ≠ 0 ∧ (BarObj.ofNat ((bar 1).rd (cspKey 0 0x40) 16)).pend = 0 ∧ (BarObj.ofNat ((bar 1).rd (cspKey 0 0x40) 16)).gen = 1 % 16 ∧
      (BarObj.ofNat (s.rd (cspKey 0 0x40) 16)).gen ≠ 1 % 16) := by
  refine ⟨⟨rfl, rfl, rfl, rfl⟩, ?_, ?_, ?_, ?_⟩ <;> decide +kernel
/-- A confined allocation of three banks in cluster 0. -/
def confined : State := State.reset.setCluster 0 { cs := [⟨1, none, 0, 0x3000, [1, 4, 60]⟩] }
theorem witness_ObjectPlaces :
    (∀ a ∈ ((bar 0).cluster 0).cs, a.banks = []) ∧ typeOfPa (lsKey 0 0) ≠ some .csp ∧ ∃ a : CsAlloc, (confined.cluster 0).cs = a :: [] ∧ a.banks ≠ [] ∧ a.banks.Nodup ∧
      (∀ b ∈ a.banks, b < 64) ∧ 0x2FF0 + 15 < a.size ∧ ∀ y, y < a.size → csOff a.base a.banks y < 2 ^ 22 := by
  refine ⟨by decide, by decide, _, rfl, by decide, by decide, by decide, by decide, fun y h => ?_⟩
  have hb : ∀ i, i < 3 → [1, 4, 60].getD i 0 ≤ 60 := by decide
  have hy : y < 0x3000 := h
  have h3 := hb (y / 8 % 3) (Nat.mod_lt _ (by decide))
  show y / 8 / 3 * 512 + [1, 4, 60].getD (y / 8 % 3) 0 * 8 + y % 8 < 2 ^ 22
  omega
/-- A ring of 4 slots whose tags stand at 0x80; slot 1 has tag x. -/
def ring (x : Nat) : State := (bar (3 * 2 ^ 32 + 0x80 * 2 ^ 96)).wr (cspKey 0 0x84) 4 x
theorem witness_RingResult :
    let s := ring 2
    (s.Legal (.slotacq 2 ⟨1, 0, 0, 0⟩) ∧ s.Legal (.slotwait 2 ⟨1, 0, 0, 0⟩) ∧ s.Legal (.slotrel 2 ⟨1, 0, 0, 0⟩) ∧ s.Legal (.slotrelFull 2 ⟨1, 0, 0, 0⟩)) ∧ atBank s true = true ∧ atBank s false = true ∧
    (match s.checkBar 0 (BitVec.ofNat 64 (cspWin + bits (s.rd (cspKey 0 0x40 + 8) 8) 63 32 + 4 * (1 % (bits (s.rd (cspKey 0 0x40) 8) 43 32 + 1)))) 4 4 with
      | .ok k => decide (k = cspKey 0 0x84) && (match s.settle 0 k 4 with | .ok t => decide (t.rd k 4 % 4 = 2) | .error _ => false)
      | .error _ => false) = true ∧
    (ring 0).rd (cspKey 0 0x84) 4 % 4 = 0 := by
  refine ⟨⟨rfl, rfl, rfl, rfl⟩, ?_, ?_, ?_, ?_⟩ <;> decide +kernel
/-- A descriptor of one dimension, n items 64 bytes apart, at 0x200 of the local store; s1 the pattern's base, s2 the descriptor. -/
def desc (n : Nat) : State :=
  { sup (fun c => ((c.writeS 1 (BitVec.ofNat 64 lsWin)).writeS 2 (BitVec.ofNat 64 (lsWin + 0x200)))) with
    mem := putBytes [] (at_ (lsKey 0 0x200) 64 (2 ^ 38 + 1 + n * 2 ^ 64 + 64 * 2 ^ 192)) }
/-- What SBIND reads and checks. -/
def bound (s : State) : Option (List Word × Bool) :=
  match s.checkLanes 0 .load ((List.range 8).map fun j => ⟨j, BitVec.ofNat 64 (lsWin + 0x200 + 8 * j), 8, false⟩) with
  | .ok (ps, s1) => match s1.loadLanes 0 false ps with
    | .ok (xs, s2) =>
      let s3 := s2.watch 0 (ps.flatMap fun p => placesOf p.2)
      some (xs.map fun x => BitVec.ofNat 64 x.2.2, (match s3.checkPattern 0 (BitVec.ofNat 64 lsWin) (xs.map fun x => BitVec.ofNat 64 x.2.2) with | .ok _ => true | .error _ => false))
    | .error _ => none
  | .error _ => none
/-- A word of an item pushed to stream n, in the store buffer. -/
def itemWord (n k x : Nat) : SbEntry := { entry (at_ k 4 x) with out := false, strm := some n }
/-- Stream 0 is an output stream with a pushed item that is not written yet. -/
def pushed : State :=
  (desc 4).modCore 0 fun c => { c.setStrm 0 { bound := true, output := true, base := BitVec.ofNat 64 lsWin, desc := [0x4000000001, 4, 0, 64, 0], next := 1 } with sb := [itemWord 0 (lsKey 0 0) 9] }
/-- An instruction of core 0 has pushed the item 0 of stream 0. -/
def pushing : State := pushed.modCore 0 fun c => { c with sb := [], outq := [(0, 0, 7)] }
theorem witness_StreamBinding :
    ((desc 4).Legal (.sbind false 32 1 2) ∧ bound (desc 4) = some ([0x4000000001, 4, 0, 64, 0, 0, 0, 0], true) ∧ Claims.StreamDesc [0x4000000001, 4, 0, 64, 0, 0, 0, 0] ∧
      ((desc 4).me.strmAt 0).output = false) ∧
    (bound (desc 0) = some ([0x4000000001, 0, 0, 64, 0, 0, 0, 0], (bound (desc 0)).elim false (·.2)) ∧ ¬ Claims.StreamDesc [0x4000000001, 0, 0, 64, 0, 0, 0, 0]) ∧
    (pushed.Legal (.sbind false 33 1 2) ∧ bound pushed = some ([0x4000000001, 4, 0, 64, 0, 0, 0, 0], true) ∧ ∃ e, (pushed.core 0).sb = e :: [] ∧ e.strm ≠ none) ∧
    (pushing.core 0).outq = (0, 0, 7) :: [] ∧
    (Claims.StreamDesc [0x4000000001, 0x800, 0, 64, 0, 0, 0, 0] ∧ bound (desc 0x801) = some ([0x4000000001, 0x801, 0, 64, 0, 0, 0, 0], false)) ∧
    (State.reset.Legal (.sdrain 32) ∧ (State.reset.me.strmAt 0).output = false) ∧ (pushed.Legal (.sdrain 32) ∧ (pushed.me.strmAt 0).output = true ∧ pushed.me.pushedTo 0 ≠ 0) := by
  unfold Claims.StreamDesc
  refine ⟨⟨rfl, by decide +kernel, by decide +kernel, by decide +kernel⟩, ⟨by decide +kernel, by decide +kernel⟩,
    ⟨rfl, by decide +kernel, _, rfl, by decide +kernel⟩, rfl, ⟨by decide +kernel, by decide +kernel⟩, ⟨rfl, by decide +kernel⟩, rfl, by decide +kernel, by decide +kernel⟩
/-- A task whose launch has cluster 0; s1 names core 3 and its port 1. -/
def boundTask : State := { task (fun c => c.writeS 1 0x1003) with launches := [{ launch 0 [] with record := [0, 0, 0, 0, 1, 0, 0, 0] }] }
/-- Port 1 has sent 16 words of a packet; s1 is no port word. -/
def sent16 : State := sup fun c => (c.setTxp 1 { pkt := some (16, 0) }).writeS 1 0x8000
theorem witness_PortInstructions :
    (boundTask.Legal (.pbind 56 1) ∧ (0x1003 : Word).toNat < 2 ^ 15 ∧ coreOfId (0x1003 % 2 ^ 12) = some 3 ∧ boundTask.isSup 1 = false ∧
      (boundTask.launch 0 1).map (fun x => x.clusters.testBit (clusterOf 3)) = some true) ∧
    (coreOfId 0x20 = some 24 ∧ (boundTask.launch 0 1).map (fun x => x.clusters.testBit (clusterOf 24)) = some false) ∧
    (sent16.Legal (.pbind 56 1) ∧ 2 ^ 15 ≤ (0x8000 : Word).toNat) ∧ coreOfId 0xFFF = none ∧
    (sent16.Legal (.pend 57 1) ∧ 16 ≤ ((sent16.me.txp 1).pkt.getD (0, 0)).1) ∧
    (State.reset.Legal (.pend 56 0) ∧ ∃ t, (State.reset.setCore 0 (State.reset.me.setTxp 0 { pkt := none })).sendWords 0 [⟨0, 0, 0, true⟩]
      (State.reset.setCore 0 (State.reset.me.setTxp 0 { pkt := none })) = .ok t) ∧ State.reset.Legal (.ppoll 3 63) := by
  refine ⟨⟨rfl, by decide, by decide, rfl, by decide +kernel⟩, ⟨by decide, by decide +kernel⟩, ⟨rfl, by decide⟩, by decide, ⟨rfl, by decide⟩, ⟨rfl, _, rfl⟩, rfl⟩
/-- tl0 with one operation outstanding. -/
def tlBusy : State := sup fun c => c.setTl 0 { value := 4, issued := 5, out := [5] }
theorem witness_TimelineAndWaits :
    (tlBusy.Legal (.tlwait 0 0 4) ∧ 4 ≤ (tlBusy.me.tl 0).value.toNat ∧ (tlBusy.me.tl 0).value.toNat < 5) ∧ tlBusy.Legal (.tlget 3 1 2) ∧
    (tlBusy.Legal (.tlset 0 0 3) ∧ (tlBusy.me.tl 0).out ≠ [] ∧ (tlBusy.me.tl 1).out = []) ∧
    ((tlBusy.me.tl 0).issued.toNat < Claims.topNumber ∧ ({ issued := 0xFFFFFFFFFFFFFFFF } : Timeline).issued.toNat = Claims.topNumber) ∧
    2 ≤ ({ issued := 0xFFFFFFFFFFFFFFFF, out := [2 ^ 64 - 1, 2 ^ 64 - 1] } : Timeline).out.count (2 ^ 64 - 1) ∧ ((tlBusy.me.tl 0).out.Nodup ∧ ∀ m ∈ (tlBusy.me.tl 0).out, 1 ≤ m ∧ m ≤ (tlBusy.me.tl 0).issued.toNat) ∧
    (tlBusy.Legal (.waitc 0 0 63 0) ∧ ¬ (tlBusy.me.tl 0).out.length ≤ (0 : BitVec 6).toNat) ∧ tlBusy.Legal (.time 3) ∧
    (tlBusy.Legal (.waitt 0) ∧ (0 : Word).toNat ≤ tlBusy.time.toNat ∧ tlBusy.time.toNat < (1 : Word).toNat) := by
  refine ⟨⟨rfl, by decide, by decide⟩, rfl, ⟨rfl, by decide, by decide⟩, ⟨by decide, by decide⟩, by decide, by decide, ⟨rfl, by decide⟩, rfl, rfl, by decide, by decide⟩
/-- Channel 2 of cluster 0 with these members and arrivals; core 0's arrival is a. -/
def chan (m arrived : List Nat) (a : Nat) : State := (sup fun c => { c with arr := if a = 0 then [] else [(2, a)] }).setCluster 0 { chans := [(2, { members := m, arrived := arrived })] }
theorem witness_CarillonResult :
    ((chan [1] [] 0).Legal (.carr false 2) ∧ (chan [1] [] 0).Legal (.cwait false 2) ∧ 0 ∉ (chan [1] [] 0).start.members 0 false 2) ∧
    (0 ∈ (chan [0, 1] [0] 1).start.members 0 false 2 ∧ SMap.get 0 (chan [0, 1] [0] 1).me.arr 2 = 1 ∧ ((chan [0, 1] [0] 1).start.chan 0 false 2).gen = false) ∧
    (∀ j ∈ (chan [0, 1] [1] 0).start.members 0 false 2, j = 0 ∨ j ∈ ((chan [0, 1] [1] 0).start.chan 0 false 2).arrived) ∧
    (1 ∈ (chan [0, 1] [] 0).start.members 0 false 2 ∧ 1 ∉ ((chan [0, 1] [] 0).start.chan 0 false 2).arrived) ∧ SMap.get 0 (chan [0, 1] [] 2).me.arr 2 = 2 ∧
    (State.reset.Legal (.cmaskC 0 2) ∧ State.reset.Legal (.cmaskD 0 2) ∧ State.reset.Legal (.cmaskDc 0 0 2) ∧ ∃ c, State.reset.me.readS 0 = .ok (0, c)) := by
  refine ⟨⟨rfl, rfl, by decide⟩, by decide, by decide, by decide, by decide, rfl, rfl, rfl, _, rfl⟩
/-- Interrupts enabled with one completion event; in the handler. -/
def uci (inh : Bool) : State := task fun c => { c with sys := { c.sys with ucivec := if inh then 3 else 1 }, bank := { c.bank with uci := [⟨0, 7, 1⟩] } }
theorem witness_UserInterrupt :
    ({ uci false with arg := { core := 1 } }.uciReady 1 = true ∧ ((uci false).core 1).bank.uci = ⟨0, 7, 1⟩ :: []) ∧
    ((uci true).Legal .uiret ∧ (uci true).me.sys.ucivec.getLsbD 1 = true ∧ 53 ∉ (uci true).me.poison.s ∧ (uci true).me.late = []) ∧
    (∃ l ∈ [lateS 50 4 0], ∃ d n sg, l.dst = .s d n sg ∧ 48 ≤ d ∧ d < 54) ∧ ((uci false).Legal .uiret ∧ (uci false).me.sys.ucivec.getLsbD 1 = false) := by
  refine ⟨by decide, ⟨rfl, by decide, by decide, rfl⟩, ⟨_, List.mem_singleton_self _, 50, 4, false, rfl, by decide, by decide⟩, rfl, by decide⟩
theorem witness_SystemRegisterResult :
    let s := { sup (fun c => ({ c with sys := { c.sys with launchctl := 0x100000000 } }).writeS 1 0x1F05) with launches := [launch 0 []] }
    ((∀ p ∈ Claims.sgetTable s 0, (s.core 0).preTrap (s.feat 0) (s.isSup 0) (.sget 3 (BitVec.ofNat 12 p.1)) = none) ∧ s.Legal (.sget 3 0x051)) ∧
    ((∀ p ∈ Claims.ssetTable, (s.core 0).preTrap (s.feat 0) (s.isSup 0) (.sset 1 (BitVec.ofNat 12 p.1)) = none) ∧
      (∀ n ∈ Claims.readOnlyNumbers, (s.core 0).preTrap (s.feat 0) (s.isSup 0) (.sset 1 (BitVec.ofNat 12 n)) = none) ∧ s.Legal (.sset 1 0x010) ∧ s.Legal (.sset 1 0x051)) ∧
    (State.reset.launch 0 0 = none ∧ (s.launch 0 1).isSome = true ∧ (3 : Nat) ≤ (0x1F05 : Word).toNat % 16 ∧ ∃ c, s.me.readS 1 = .ok (0x1F05, c)) := by
  refine ⟨⟨by decide, rfl⟩, ⟨by decide, by decide, rfl, rfl⟩, rfl, rfl, by decide, _, rfl⟩

/-! ### Posting, launches, tasks, frames, the supervisor -/

/-- Copy-class commands out on tl0; s1 in the local store window, s2 in the scratchpad window; the member table of a block at s1 is the block. -/
def post (out : Nat) : State :=
  (sup fun c => (((c.writeS 1 (BitVec.ofNat 64 (lsWin + 0x200))).writeS 2 (BitVec.ofNat 64 (cspWin + 0x80))).setTl 0 { out := List.replicate out 1 }).setTl 2
    { out := List.replicate (out / 2) 1 }).wr (lsKey 0 0x208) 8 (lsWin + 0x200)
def op1 : PostOp := ⟨false, false, 3, 1⟩
/-- A CPY takes the next number of tl0 and s[D] receives it (R199, R240). -/
theorem test_cpy_number : let t := ran (.cpy op1) (post 0); (t.core 0).sreg 3 = 1 ∧ ((t.core 0).tl 0).issued = 1 ∧ t.cmds.length = 1 := by decide +kernel
theorem test_cpy_full : ((ran (.cpy op1) (post 32)).core 0).stalled = true := by decide +kernel
theorem test_nexti : let t := ran (.nexti 3) (task fun c => { c with sys := { c.sys with rangeb := 4, rangee := 5 } })
    (t.core 1).sreg 3 = 4 ∧ (t.core 1).sys.rangeb = 5 := by decide +kernel
theorem test_gong_release : ((ran (.gongRelease 1) { two 1 0 with launches := [{ launch 0 [] with gong := 2 }] }).launch 0 1).map (·.gong) = some 1 := by decide +kernel
theorem test_park_waits : ((ran .park State.reset).core 0).stalled = true := by decide +kernel
theorem test_rpt_stagger : staggerInstr (1, 0, 2) (.add 55 3 54) = some (.add 0 3 0) := by decide +kernel

/-- The packet of a CHASE at s1 can be read. -/
def packet (s : State) : Bool :=
  match s.snapshot 0 (BitVec.ofNat 64 (lsWin + 0x200)) 32 16 with
  | .ok (h, t) => (match t.snapshot 0 (BitVec.ofNat 64 (lsWin + 0x220)) (16 * (bits (ofBytes (h.take 8)) 34 32 + 1)) 16 with | .ok _ => true | .error _ => false)
  | .error _ => false
theorem witness_CopyPosting :
    let s := post 31
    (s.Legal (.cpy op1) ∧ s.Legal (.credWs op1) ∧ s.Legal (.cflag op1 2) ∧ s.Legal (.cflagAdd op1 2) ∧ s.Legal (.chase op1) ∧ s.Legal (.repart op1)) ∧
    ((post 32).Legal (.cpy op1) ∧ (post 32).Legal (.cflag op1 2) ∧ (post 32).Legal (.chase op1) ∧ (post 32).Legal (.repart op1)) ∧
    (Claims.CopyRoom s.me op1 ∧ ¬ Claims.CopyRoom (post 32).me op1 ∧ ∃ x y c c2, s.me.readS 1 = .ok (x, c) ∧ c.readS 2 = .ok (y, c2)) ∧
    ((match s.snapshot 0 (BitVec.ofNat 64 (lsWin + 0x200)) 192 64 with | .ok (b, _) => b.length == 192 | .error _ => false) = true ∧
      s.snapshot 0 (BitVec.ofNat 64 (lsWin + 0x220)) 192 64 = .error (.trap .align (BitVec.ofNat 64 (lsWin + 0x220)))) ∧
    (windowOf (lsWin + 0x200) = some (true, 0x200) ∧ packet s = true) ∧
    windowOf (cspWin + 0x80) = some (false, 0x80) ∧ (match readBlock 0 s (BitVec.ofNat 64 (lsWin + 0x200)) with | .ok (b, _) => b.length == 130 | .error _ => false) = true := by
  unfold Claims.CopyRoom
  refine ⟨⟨rfl, rfl, rfl, rfl, rfl, rfl⟩, ⟨rfl, rfl, rfl, rfl⟩, ⟨by decide +kernel, by decide +kernel, _, _, _, _, rfl, rfl⟩, ⟨by decide +kernel, rfl⟩, ⟨by decide +kernel, by decide +kernel⟩, by decide +kernel, by decide +kernel⟩
/-- A handle whose latest MXZ named one row of two columns. -/
def named : State := { post 30 with handles := [{ newHandle 0 0 5 with named := some (1, 2) }] }
theorem witness_TilePosting :
    let s := named
    let x := BitVec.ofNat 64 (cspWin + 0x80)
    (s.Legal (.mxq 3 2) ∧ s.Legal (.mxz 5 2 0) ∧ s.Legal (.mxz 5 0 0x1FFFF) ∧ s.Legal (.mxzFree 5) ∧ s.Legal (.mxrd true 5 2 0) ∧ s.Legal (.mxwr 5 2 0) ∧
      s.Legal (.rcfg 3 2 0 0) ∧ s.Legal (.rtab 3 2 0 0) ∧ s.Legal (.rstep false 4 3 2 0) ∧ s.Legal (.rstep true 0 3 2 0) ∧ s.Legal (.rgen 3 2)) ∧
    ((∀ j, j < 128 → s.chk1 0 (x.toNat + j) = none) ∧ x.toNat % 128 = 0 ∧ s.chk34 0 .load x.toNat = .ok (cspKey 0 0x80, none) ∧ typeOfPa (cspKey 0 0x80) = some .csp) ∧
    (Claims.TileRoom s.me ∧ ¬ Claims.TileRoom (post 32).me) ∧
    ((s.handle 0 0 6).named.getD (0, 0) = (0, 0) ∧ (s.handle 0 0 5).named = some (1, 2) ∧ s.chk1 0 x.toNat = none ∧
      (match s.checkTile 0 .store (moveWords x 0 1 2) with | .ok _ => true | .error _ => false) = true) ∧
    (∃ o, windowOf x.toNat = some (false, o) ∧ o < 2 ^ 22 ∧ x.toNat % 64 = 0 ∧ s.windowKey 0 false o = some (cspKey 0 0x80)) ∧ s.poisonSeen 0 (cspKey 0 0x80 + 16) = false := by
  unfold Claims.TileRoom
  refine ⟨⟨rfl, rfl, rfl, rfl, rfl, rfl, rfl, rfl, rfl, rfl, rfl⟩, ⟨by decide +kernel, by decide +kernel, rfl, by decide +kernel⟩, ⟨by decide +kernel, by decide +kernel⟩,
    ⟨by decide +kernel, by decide +kernel, by decide +kernel, by decide +kernel⟩, ⟨0x80, by decide +kernel, by decide, by decide +kernel, by decide +kernel⟩, by decide +kernel⟩

/-- A patch at level ln that retains versions from lo on, with these neighbours. -/
def patch (ln lo : Nat) (nb : List Nat) (claim : Bool) : Patch :=
  { ln := ln, lo := lo, step := 1, nnb := nb.length, head := 0, claim := claim, held := false, home := 0x7F, nb := nb, vp := [0x100, 0x200], since := none, far := false }
/-- A causal launch of two patches that are each other's neighbours; end level 9, two versions. -/
def causal (p q : Patch) : Launch := { launch 0x08000000 [] with patches := [p, q], rule0 := 2 ^ 48 + 2 * 2 ^ 32, rule1 := 9 }
/-- The task of patch 0 on core 1, with launch l. -/
def step0 (l : Launch) (f : Core → Core) : State := { task (fun c => f { c with coord := 0 }) with launches := [l] }
/-- A QUEUE launch of capacity 2 with these items, on cluster 0. -/
def queue (items : List Word) : Launch := { launch 0 [] with record := [0x10000000, 0, 0, 0, 1, 0, 0, 2], queue := items }
/-- A RANGE launch whose interval is still whole. -/
def range : Launch := { launch 0 [] with whole := some (3, 9) }
/-- Core 1 is at a YIELD, and launch 2 of its priority has work. -/
def yielding : State :=
  { task (fun c => { c with itlb := [⟨0, 0, 0, 0x0100001F, 0⟩] }) with
    launches := [launch 0 [(0, 0x10000)], { queue [7] with id := 2 }], mem := putBytes [] (at_ 0x10000 4 0x08000000) }
theorem witness_LaunchInstructions :
    let s := page0 0
    let ls : List (LaneAt × List (Word × Nat × Nat)) :=
      (List.range 32).map fun j => (⟨j, (0 : Word) + BitVec.ofNat 64 (8 * j), 8, false⟩, [((0 : Word) + BitVec.ofNat 64 (8 * j), 0x10000 + 8 * j, 8)])
    (s.Legal (.launch 3 0) ∧ s.chkItem1 0 0 256 = none ∧ s.chk34 0 .load 0 = .ok (0x10000, some ⟨0, 0, 0, 0x0100001F, 0⟩) ∧ windowOf 0 = none ∧
      typeOfPa 0x10000 = some .dev ∧ (∀ j, j < 32 → s.poisonPlain 0 (0x10000 + 8 * j) = false) ∧ s.start.released 0 .system = true ∧
      (match (s.start.publish 0 .system).loadLanes 0 false ls with | .ok (xs, _) => xs.length == 32 | .error _ => false) = true ∧
      (s.launches.filter fun l => decide (l.part = 0) && decide (l.prio = 0)).length < 64 ∧ s.heldAt (0x10000 + 248) = false ∧ s.me.l1d = []) ∧
    (pending.Legal (.launch 3 0) ∧ pending.Legal (.qpush 3 1 2) ∧ pending.start.released 0 .device = false ∧ pending.start.released 0 .system = false) ∧
    (let q := fun l : Launch => { two 1 5 with launches := [l] }
     (q (queue [])).Legal (.qpush 3 1 2) ∧ State.reset.launch 0 1 = none ∧ (launch 0 []).kind ≠ 2 ∧ (q (queue [])).launch 0 1 = some (queue []) ∧ (queue []).kind = 2 ∧
      (queue [1]).queue.length + (if (queue [1]).st = .arrived then (queue [1]).word 7 / 2 ^ 32 else 0) < (queue [1]).word 7 % 2 ^ 32 ∧
      (queue [1, 2]).word 7 % 2 ^ 32 ≤ (queue [1, 2]).queue.length + (if (queue [1, 2]).st = .arrived then (queue [1, 2]).word 7 / 2 ^ 32 else 0)) := by
  refine ⟨⟨rfl, ?_, rfl, ?_, ?_, ?_, ?_, ?_, ?_, ?_, rfl⟩, ⟨rfl, rfl, ?_, ?_⟩, rfl, rfl, ?_, rfl, ?_, ?_, ?_⟩ <;> decide +kernel
/-- The task of core 1 works on a QUEUE launch that is empty; another core is at a QPUSH to it, if `more`. -/
def drained (more : Bool) : State := (step0 (queue []) id).modCore 2 fun c => { c with pushing := if more then some 1 else none }
theorem witness_LaunchAndTaskInstructions :
    let s := task id
    (s.Legal .endTask ∧ s.isSup 1 = false ∧ s.start.running 1 = some (launch 0 []) ∧ (s.core 1).alloc 1 = some alloc ∧ (s.core 1).loads = 0 ∧ s.start.released 1 .device = true ∧ (launch 0 []).kind ≠ 1) ∧
    (let l := causal (patch 3 2 [1] true) (patch 3 3 [0] false)
     (step0 l id).start.running 1 = some l ∧ l.kind = 1 ∧ ((step0 l id).core 1).current = true ∧ l.patches[((step0 l id).core 1).coord.toNat]? = some (patch 3 2 [1] true) ∧
      l.levelBreach 0 = false ∧ (step0 l id).stoppedL l = false) ∧
    (causal (patch 3 2 [1] true) (patch 5 5 [0] false)).levelBreach 0 = true ∧
    (State.reset.Legal .yield ∧ State.reset.start.running 0 = none ∧ s.start.yieldTo 1 (launch 0 []) = none ∧ yielding.start.running 1 = some (launch 0 [(0, 0x10000)]) ∧
      yielding.start.yieldTo 1 (launch 0 [(0, 0x10000)]) = some ({ queue [7] with id := 2 }, 1)) ∧
    (let t := step0 range id
     let u := (t.start.publish 1 .device).finishTask 1 range
     t.Legal (.take false 4) ∧ t.start.running 1 = some range ∧ u.launch 0 1 = some range ∧ ((u.core 1).alloc 1).isSome = true ∧ (u.grab range 1 alloc).map (·.2) = some (3, 9)) ∧
    (let fin := fun more => ((drained more).start.publish 1 .device).finishTask 1 (queue [])
     (∀ m, (drained m).Legal (.take false 4) ∧ (drained m).start.running 1 = some (queue []) ∧ (fin m).launch 0 1 = some (queue []) ∧ ((fin m).core 1).alloc 1 ≠ none ∧
       ((fin m).grab (queue []) 1 alloc).isNone = true) ∧ (fin false).exhausted (queue []) = true ∧ (fin true).exhausted (queue []) = false) ∧
    (let n := task fun c => { c with sys := { c.sys with rangeb := 4, rangee := 5 } }
     n.Legal (.nexti 3) ∧ n.me.sys.rangeb.toNat < n.me.sys.rangee.toNat ∧ (launch 0 []).kind = 0 ∧ s.me.sys.rangee.toNat ≤ s.me.sys.rangeb.toNat) := by
  refine ⟨⟨rfl, rfl, rfl, rfl, rfl, rfl, by decide +kernel⟩, ⟨rfl, by decide +kernel, rfl, rfl, by decide +kernel, rfl⟩, by decide +kernel, ⟨rfl, rfl, by decide +kernel, rfl, by decide +kernel⟩,
    ⟨rfl, rfl, ?_, ?_, ?_⟩, ⟨fun m => ?_, ?_, ?_⟩, rfl, ?_, ?_, ?_⟩
  case refine_4 => cases m <;> exact ⟨rfl, rfl, by decide +kernel, by decide +kernel, by decide +kernel⟩
  all_goals decide +kernel
/-- The supervisor's registers: s1 = patch 0, s2 = launch 1, s3 = level z. -/
def lv (l : Launch) (z : Word) : State := { sup (fun c => ((c.writeS 1 0).writeS 2 1).writeS 3 z) with launches := [l] }
theorem witness_LevelInstructions :
    let l := causal (patch 3 2 [1] true) (patch 3 3 [0] false)
    let s := step0 l id
    (s.Legal (.lvget false 0 4 0) ∧ s.start.running 1 = some l ∧ l.kind = 1 ∧ s.me.current = true ∧ s.stoppedL l = false ∧ (l.lvget 0 0 none).isSome = true ∧ (l.lvget 0 8 none).isSome = true) ∧
    (State.reset.Legal (.lvget true 0 4 0) ∧ State.reset.start.running 0 = none) ∧
    (let l := causal (patch 3 2 [1] false) (patch 3 2 [0] false)
     let s := lv l 3
     s.Legal (.lvset 4 1 2 3) ∧ s.Legal (.lvsetReseat 4 1 2 3) ∧ s.start.released 0 .device = true ∧ s.isSup 0 = true ∧ State.reset.launch 0 1 = none ∧ s.launch 0 1 = some l ∧
      (launch 0 []).kind ≠ 1 ∧ l.patches[2]? = none ∧ l.patches[0]? = some (patch 3 2 [1] false) ∧ (patch 3 2 [1] true).claim = true ∧
      serialLe 3 2 = false ∧ (serialLe 2 3 = true ∧ serialLe 3 3 = true ∧ (3 + 2 ^ 32 - 2) % 2 ^ 32 % 1 = 0) ∧
      (l.endLevel + 2 ^ 32 - 3) % 2 ^ 32 + l.smax ≤ 2 ^ 31) ∧
    ((lv { causal (patch 3 2 [1] true) (patch 3 3 [0] false) with gong := 1 } 3).stoppedL { causal (patch 3 2 [1] true) (patch 3 3 [0] false) with gong := 1 } = true ∧
      ({ causal (patch 3 2 [1] true) (patch 3 3 [0] false) with patches := [] } : Launch).kind = 1) ∧
    (let l := causal (patch 3 2 [1] false) (patch 5 4 [0] false)
     (patch 3 2 [1] false).neighbours.filterMap (fun j => l.patches[j]?) = [patch 5 4 [0] false] ∧ serialLe (patch 5 4 [0] false).lo 3 = false) ∧
    (let far := 9 + 2 ^ 31
     let l := causal (patch far far [1] false) (patch far far [0] false)
     serialLe far far = true ∧ 2 ^ 31 < (l.endLevel + 2 ^ 32 - far) % 2 ^ 32 + l.smax ∧ serialLe l.endLevel far = false) := by
  refine ⟨⟨rfl, rfl, by decide +kernel, rfl, rfl, by decide +kernel, by decide +kernel⟩, ⟨rfl, rfl⟩, ⟨rfl, rfl, rfl, rfl, rfl, rfl, ?_, rfl, rfl, rfl, ?_, ?_, ?_⟩, ?_, ?_, ?_⟩ <;> decide +kernel

/-- The bytes of a frame of one instruction with word w at 8. -/
def frameAt (w : Nat) : State := { page0 0 with mem := putBytes [] (at_ 0x10008 4 w) }
/-- The core in a frame of the word w with n iterations left, FPCTL as given. -/
def inFrame (w n : Nat) (ctl : Word) : State := sup fun c => { c with frame := some [BitVec.ofNat 32 w], sys := { c.sys with rptstate := BitVec.ofNat 64 (2 ^ 63 + n), fpctl := ctl } }
/-- The word of an instruction. -/
def word (i : Instr) : Nat := ofBytes ((encodeBytes i).take 4)
theorem witness_RepeatFrames :
    let w := word (.add 3 1 2)
    let f := frameAt w
    (f.Legal (.rpt false 0 5 0 0 0 0) ∧ f.Legal (.rpt true 1 0 0 0 0 0) ∧ f.me.sys.rptstate.getLsbD 63 = false ∧
      (match f.start.capture 0 captureFuel 1 (f.me.pc + 8) [] with | .ok (ws, _) => decide (ws = [BitVec.ofNat 32 w]) | .error _ => false) = true ∧
      frameBad 2 (splitFrame [] [BitVec.ofNat 32 w]) = none ∧ (splitFrame [] [BitVec.ofNat 32 w]).length = 1) ∧
    (let s := inFrame w 2 0
     (s.core 0).frame = some [BitVec.ofNat 32 w] ∧ bits (s.core 0).sys.rptstate.toNat 31 0 = 2 ∧
      (match s.me.runFrame 0 (s.feat 0) true (0, 0, 0) 0 (splitFrame [] [BitVec.ofNat 32 w]) with | .ok c => decide (c.txq = [] ∧ c.sys.rptstate = (s.core 0).sys.rptstate) | .error _ => false) = true) ∧
    bits ((inFrame w 1 0).core 0).sys.rptstate.toNat 31 0 = 1 ∧
    (let e := inFrame (word (.vadd .f32 false 1 32 2)) 2 0
     (match e.me.runFrame 0 (e.feat 0) true (0, 0, 0) 0 (splitFrame [] [BitVec.ofNat 32 (word (.vadd .f32 false 1 32 2))]) with | .error (0, .trap .stream 0) => true | _ => false) = true) ∧
    (State.reset.Legal (.rpt true 1 0 0 0 0 0) ∧ (match State.reset.start.capture 0 captureFuel 1 (State.reset.me.pc + 8) [] with | .error (.prot, 8) => true | _ => false) = true) ∧
    (let w := word .endTask
     (match (frameAt w).start.capture 0 captureFuel 1 ((frameAt w).me.pc + 8) [] with | .ok (ws, _) => decide (ws = [BitVec.ofNat 32 w]) | .error _ => false) = true ∧
      (splitFrame [] [BitVec.ofNat 32 w]).length = 1 ∧ frameBad 2 (splitFrame [] [BitVec.ofNat 32 w]) = some 2) ∧
    (let g := (frameAt w).modCore 0 fun c => { c with sys := { c.sys with rptstate := BitVec.ofNat 64 (2 ^ 63 + 5) } }
     g.Legal (.rpt false 0 5 0 0 0 0) ∧ g.me.sys.rptstate.getLsbD 63 = true ∧ g.me.sys.epc = g.me.pc ∧ bits g.me.sys.rptstate.toNat 31 0 = 5 ∧ bits g.me.sys.rptstate.toNat 62 59 = 0 ∧
      (match g.start.capture 0 captureFuel 1 (g.me.pc + 8) [] with | .ok (ws, _) => decide (ws = [BitVec.ofNat 32 w]) | .error _ => false) = true) := by
  refine ⟨⟨rfl, rfl, ?_, ?_, ?_, ?_⟩, ⟨?_, ?_, ?_⟩, ?_, ?_, ⟨rfl, ?_⟩, ?_, rfl, ?_, ?_, ?_, ?_, ?_⟩ <;> decide +kernel

/-- Core 1 runs launch 1 while the supervisor core has the turn; s1 = x. -/
def watch (x : Word) : State := ({ task id with cur := 0 }).modCore 0 fun c => c.writeS 1 x
/-- The task of core 1 is parked in slot 0. -/
def parked : State := ((watch 1).modCore 0 fun c => c.writeS 2 8).modCore 1 fun _ => { allocs := [{ alloc with st := .parked }] }
theorem witness_SupervisorInstructions :
    (State.reset.Legal .park ∧ State.reset.poisonSeen 0 (lsKey 0 0x18000) = false ∧ State.reset.poisonSeen 0 (lsKey 0 0x18000 + 8) = false ∧
      Claims.little (fun j => State.reset.loadByte 0 false (lsKey 0 0x18000 + 0 + j)) 4 = 0 ∧ Claims.little (fun j => State.reset.loadByte 0 false (lsKey 0 0x18000 + 8 + j)) 4 = 0 ∧
      Claims.little (fun j => (State.reset.wr (lsKey 0 0x18000) 4 1).loadByte 0 false (lsKey 0 0x18000 + 0 + j)) 4 = 1) ∧
    (gongTarget 5 = some (some 5) ∧ (watch 5).gongCount 0 (some 5) = none ∧ gongTarget 0x100000000 = some none ∧ (watch 1).gongCount 0 none = some 0 ∧ (watch 1).Legal (.gong 1) ∧
      ((watch 1).core 0).begun = none ∧ ((watch 1).modCore 1 fun c => { c with slot := some 8 }).targetStopped 0 none = false ∧ State.reset.start.targetStopped 0 none = true) ∧
    ((watch 1).Legal (.gongRelease 1) ∧ ({ watch 1 with parts := [(0, { gong := 1 })] }).gongCount 0 none = some 1 ∧ (watch 1).start.released 0 .device = true ∧
      pending.Legal (.gongRelease 1) ∧ pending.start.released 0 .device = false) ∧
    ((watch 1).Legal (.tlbiVa .core 1) ∧ (watch 1).Legal (.tlbiAll .device) ∧ (watch 1).start.tlbiBusy 0 .device (watch 1).serial (fun _ => true) = false) ∧
    ((watch 1).parkedAt 0 1 = none ∧ parked.parkedAt 0 1 = some (1, { alloc with st := .parked }) ∧ (∀ k, k < 512 → parked.slotPoison 1 0 k = false) ∧ parked.Legal (.sresume 4 1) ∧
      parked.Legal (.sresumeAbandon 4 1) ∧ parked.Legal (.sresumeGet 4 1 2) ∧ parked.Legal (.sresumePut 4 1 2 3) ∧ slotMask 8 ≠ 0) := by
  refine ⟨⟨rfl, rfl, rfl, ?_, ?_, ?_⟩, ⟨?_, rfl, ?_, rfl, rfl, rfl, ?_, ?_⟩, ⟨rfl, rfl, rfl, rfl, ?_⟩, ⟨rfl, rfl, ?_⟩, ?_, ?_, fun _ _ => rfl, rfl, rfl, rfl, rfl, ?_⟩ <;> decide +kernel

/-! ### Posted commands at work -/

/-- Command 7 of core 0, of this kind, and the state in which it stands. -/
def cmd7 (kind : CmdKind) (a v : Word) (snap : List Byte) : Cmd := newCmd 7 0 0 0 0 0 true 0 1 kind a v 0 snap
def withCmd (c : Cmd) : State := { post 0 with cmds := [c], arg := { id := 7 } }
/-- A descriptor of one element of es bytes from the local store window at 0x100 to the scratchpad window at 0x40. -/
def desc1 (es w16 w19 : Nat) : List Byte :=
  ([lsWin + 0x100, cspWin + 0x40, es * 2 ^ 32 + 1, 1] ++ List.replicate 12 0 ++ [w16, 0, 0, w19, 0, 0, 0, 0]).flatMap (bytesOf 8)
/-- A group header of two members at 0x80 of the scratchpad. -/
def group : State := (withCmd (cmd7 (.cred 0) 0 0 (desc1 4 0 (cspWin + 0x80)))).wr (cspKey 0 0x80) 8 (2 ^ 32)
/-- Where an engine address lies. -/
def located : Except Cause Loc → Option Loc
  | .ok l => some l
  | .error _ => none
/-- The engine reaches this byte of the module, which is quiet. -/
def reaches (s : State) (c : Cmd) (acc : Access) (va k : Nat) : Bool :=
  decide (located (s.engAddr c acc va) = some (.here k)) && !s.heldAt k && !s.granuleBusy k && !s.poisoned k && decide (typeOfPa k ≠ some .host)
/-- The contribution of the command to the group at hdr is taken, its places not held. -/
def contributes (s : State) (c : Cmd) (hdr j : Nat) : Bool :=
  match s.rankPlaces c none with
  | .ok keys => keys.all (fun q => !s.heldAt q) && (match s.rankContribute hdr 0 (Desc.rank c.snap) 4 keys [j] (bytesOf 4 0) with | .took .. => true | _ => false)
  | .error _ => false

theorem witness_CopyEvents :
    (let c := { cmd7 .cpy 0 0 [] with release := true }
     let s := withCmd c
     s.cmd s.arg.id = some c ∧ (s.settleCmd c).isSome = true ∧ c.phase = .posted ∧ s.cmdHeld c = false ∧ c.after = [] ∧ (s.core c.core).late = [] ∧
      s.hostSeen .system c.core ((s.visible c.core).join (s.earlierHost c)) = true ∧ s.conflicts = []) ∧
    (let c := cmd7 .cpy 0 0 (desc1 4 (2 ^ 35) 0)
     let s := withCmd c
     s.cmd s.arg.id = some c ∧ (s.settleCmd c).isSome = true ∧ Claims.Free s c ∧ c.kind.isCopy = true ∧ Desc.tb c.snap = true ∧ c.timed = false ∧ ofBytes ((c.snap.drop 160).take 8) ≤ s.time.toNat) ∧
    (let c := cmd7 (.cflag true) (BitVec.ofNat 64 (cspWin + 0x40)) 5 []
     let s := withCmd c
     s.settleCmd c = some s ∧ Claims.Free s c ∧ c.a.toNat % 8 = 0 ∧ reaches s c .rmw c.a.toNat (cspKey 0 0x40) = true ∧ reaches s c .store c.a.toNat (cspKey 0 0x40) = true) ∧
    (let c := cmd7 .cpy 0 0 (desc1 8 0 0)
     let s := withCmd c
     s.settleCmd c = some s ∧ Claims.Free s c ∧ c.parts = [] ∧ c.pend = [] ∧ Claims.OneElement .cpy c.snap 8 (lsWin + 0x100) (cspWin + 0x40) ∧ reaches s c .load (lsWin + 0x100) (lsKey 0 0x100) = true ∧
      reaches s c .store (cspWin + 0x40) (cspKey 0 0x40) = true ∧ (lsWin + 0x100) % 8 = 0 ∧ (cspWin + 0x40) % 8 = 0) ∧
    (let c := cmd7 (.cred 5) 0 0 (desc1 4 0 0)
     let s := withCmd c
     s.settleCmd c = some s ∧ Claims.Free s c ∧ c.parts = [] ∧ c.pend = [] ∧ Claims.OneElement (.cred 5) c.snap 4 (lsWin + 0x100) (cspWin + 0x40) ∧ reaches s c .load (lsWin + 0x100) (lsKey 0 0x100) = true ∧
      reaches s c .rmw (cspWin + 0x40) (cspKey 0 0x40) = true) ∧
    (let c := cmd7 (.cred 0) 0 0 (desc1 4 0 (cspWin + 0x80))
     group.settleCmd c = some group ∧ Claims.Free group c ∧ Claims.OneElement (.cred 0) c.snap 4 (lsWin + 0x100) (cspWin + 0x40) ∧ ofBytes ((c.snap.drop 152).take 8) = cspWin + 0x80 ∧
      (cspWin + 0x80) % 64 = 0 ∧ reaches group c .load (lsWin + 0x100) (lsKey 0 0x100) = true ∧ reaches group c .rmw (cspWin + 0x40) (cspKey 0 0x40) = true ∧
      reaches group c .rmw (cspWin + 0x80) (cspKey 0 0x80) = true ∧ Desc.rank c.snap ≤ bits (group.rd (cspKey 0 0x80) 8) 43 32 ∧ contributes group c (cspKey 0 0x80) (cspKey 0 0x40) = true) := by
  unfold Claims.Free Claims.OneElement
  and_intros <;> decide +kernel

/-- A packet of one step: load 8 bytes, mask all, add 4; its result goes to 0 of the local store window. -/
def packet1 (op : Nat) : List Byte := ([0, 0, 0, 0, if op = 4 then 0 else 2 ^ 64 - 1, op * 2 ^ 32 + (if op = 4 then 0 else 4)].flatMap (bytesOf 8))
/-- Cluster 0 knows page 0 as device memory at 0x10000. -/
def mapped (c : Cmd) : State := (withCmd c).setCluster 0 { l2tlb := [⟨0, 0, 0, 0x0100001F, 0⟩] }
def valued : StepEnd → Bool
  | .val .. => true
  | .bad .. => false
/-- A block of one member: 2 items of 8 bytes at 0x100 of the local store window, key at 0, every load 1, room for 2 at 0x200; kept items at 0x300. -/
def block1 : List Byte :=
  ([0, cspWin, lsWin + 0x100, 2 * 2 ^ 32 + 8, 2 ^ 20, lsWin + 0x200, 2, lsWin + 0x300] ++ List.replicate 8 0).flatMap (bytesOf 8) ++ [0, 0]
/-- A block of two members, this module and module 5, of no items. -/
def block2 : List Byte :=
  ([2 ^ 16, cspWin, lsWin + 0x100, 8, 2 ^ 20, lsWin + 0x200, 2, lsWin + 0x300] ++ List.replicate 8 0).flatMap (bytesOf 8) ++ [0, 0, 5, 0]
/-- A member whose collective has the tag 7. -/
def member7 : RepMember := ⟨7, 1, 0, [], 8, 0, true, 0, 0, 2, none, []⟩
/-- Two items with keys 2 and 1: sorted they stand as 1, 2 (R268). -/
theorem test_repart_sorts :
    let c := cmd7 .repart (BitVec.ofNat 64 (lsWin + 0x1000)) 0 block1
    let s := ((withCmd c).wr (lsKey 0 0x100) 8 2).wr (lsKey 0 0x108) 8 1
    let t := ran .repartCollective s
    t.rd (lsKey 0 0x200) 8 = 1 ∧ t.rd (lsKey 0 0x208) 8 = 2 := by decide +kernel
/-- In two dimensions I interleaves the bits, the first coordinate first (R267). -/
theorem test_interleave : interleave [2, 1] = 9 ∧ hilbert [1, 0] = [1, 1] := by decide +kernel

theorem witness_ChainAndRepartEvents :
    (let c := { cmd7 .chase 0 0 (packet1 1) with phase := .running }
     let s := mapped c
     s.arg.q = false ∧ s.cmd s.arg.id = some c ∧ s.cmdHeld c = false ∧ located (s.engAddr c .load c.addr.toNat) = some (.here 0x10000) ∧
      s.chainBusy ((packetSteps c.snap).getD c.k 0) 0x10000 = false ∧ valued (s.chainStep ((packetSteps c.snap).getD c.k 0) 0 c.addr 0x10000) = true ∧
      c.k + 1 = (packetSteps c.snap).length ∧ c.k + 1 < (packetSteps (bytesOf 8 (2 ^ 32) ++ c.snap.drop 8 ++ List.replicate 16 0)).length) ∧
    (typeOfPa 0x10000 = some .dev ∧ State.reset.poisoned 0x10000 = false ∧ (BitVec.ofNat 128 (2 ^ 96)).extractLsb' 96 8 = 1#8 ∧ (BitVec.ofNat 128 (2 * 2 ^ 96)).extractLsb' 96 8 = 2#8 ∧
      (BitVec.ofNat 128 (4 * 2 ^ 96)).extractLsb' 96 8 = 4#8) ∧
    (let c := { cmd7 .chase 0 0 (packet1 1) with phase := .finished }
     let s := withCmd c
     s.cmd s.arg.id = some c ∧ s.cmdHeld c = false ∧ ((s.core 0).bankOf 0).map (·.serial) = some c.serial ∧ (ofBytes (c.snap.take 8)).testBit 31 = false ∧
      located (s.engAddr c .store lsWin) = some (.here (lsKey 0 0)) ∧ located (s.engAddr c .store (lsWin + 8)) = some (.here (lsKey 0 8))) ∧
    (let c := { cmd7 .chase 0 0 (bytesOf 8 0x1FFF8 ++ (packet1 1).drop 8) with phase := .finished, sup := false }
     let s := (withCmd c).modCore 0 fun k => { k with allocs := [{ alloc with launch := 0 }] }
     s.cmd s.arg.id = some c ∧ s.cmdHeld c = false ∧ (ofBytes (c.snap.take 8)).testBit 31 = false ∧ c.code = 0 ∧ located (s.engAddr c .store (lsWin + 0x1FFF8)) = none) ∧
    -- two members: module 5 is the other one, STALE or ACTIVE, and has posted
    (let c := cmd7 .repart 0 0 block2
     let s := withCmd c
     let t := { s with peers := [(5, { inc := 3, active := true })], arg := { s.arg with members := [{ member7 with tag := 0 }] } }
     (s.cmd s.arg.id = some c ∧ Claims.Free s c ∧ s.settleCmd c = some s ∧ blockOk s.cfg.chip.toNat c.snap = true ∧ s.tableOk c = true ∧ s.staleMember c = true) ∧
      t.cmd t.arg.id = some c ∧ Claims.Free t c ∧ t.settleCmd c = some t ∧ t.tableOk c = true ∧ t.staleMember c = false ∧ t.repartBusy c = false ∧ t.repAsk c = [] ∧
      t.arg.members.length = bits (ofBytes (c.snap.take 8)) 25 16 ∧ t.arg.members.filter (fun m => m.rank = 1) = [{ member7 with tag := 0 }]) ∧
    -- an item of rank 1 is due at place 0 of RECV
    (let d : RepDue := ⟨1, 0, 0, 0⟩
     let c := { cmd7 .repart (BitVec.ofNat 64 (lsWin + 0x1000)) 0 block2 with phase := .waiting, hops := 3, due := [d] }
     let s := withCmd c
     let va := ofBytes ((c.snap.drop 40).take 8) + d.pos * (ofBytes ((c.snap.drop 24).take 8) % 2 ^ 9)
     (s.cmds.find? fun c => c.kind == .repart && decide (ofBytes (c.snap.take 8) / 2 ^ 32 = 0) && decide (ofBytes ((c.snap.drop 130).take 2) = 5)) = some c ∧ s.cmdHeld c = false ∧ s.holds = [] ∧
      ofBytes ((c.snap.drop 24).take 8) % 2 ^ 9 = 8 ∧ va % 8 = 0 ∧ located (s.engAddr c .store va) = some (.here (lsKey 0 0x200))) ∧
    (let c := cmd7 .repart 0 0 block1
     let s := withCmd c
     s.cmd s.arg.id = some c ∧ Claims.Free s c ∧ s.settleCmd c = some s ∧ blockOk s.cfg.chip.toNat c.snap = true ∧ s.tableOk c = true ∧ s.staleMember c = false ∧ s.repAsk c = [] ∧ s.repartBusy c = false ∧
      s.arg.members.length = bits (ofBytes (c.snap.take 8)) 25 16 ∧ ∀ p, p < 1 → p = ofBytes (c.snap.take 8) % 2 ^ 10) ∧
    (∃ m ∈ [member7], m.tag ≠ ofBytes (block1.take 8) / 2 ^ 32) ∧
    (∀ code, code < 4 → ∀ ph ∈ [CmdPhase.finished, .waiting],
      let c := { cmd7 .repart (BitVec.ofNat 64 (lsWin + 0x1000)) 0 block1 with phase := ph, code := code, hops := 3, got := [(8, bytesOf 8 1 ++ bytesOf 8 2 ++ bytesOf 8 3)] }
      (withCmd c).cmd (withCmd c).arg.id = some c ∧ (withCmd c).cmdHeld c = false ∧ c.pend = [] ∧ c.due = [] ∧ c.acks = [] ∧ ∀ j, j < 4 → (withCmd c).vaBusy c true (c.a.toNat + 64 + 8 * j) = false) := by
  unfold Claims.Free
  and_intros <;> decide +kernel

/-- A record of opcode 1 (a dense product) in BF16: one row, one column, K = 1; A at 0x100 and B at 0x200 of the scratchpad window, handle 0. -/
def record : List Byte :=
  ([1 + 1 * 2 ^ 16 + 1 * 2 ^ 20 + 2 ^ 32 + 2 ^ 42, 0, 1, cspWin + 0x100, 0, 0, cspWin + 0x200] ++ List.replicate 9 0).flatMap (bytesOf 8)
/-- Handle 0 bound to region 0 of cluster 0, one row of one column. -/
def tiled (c : Cmd) : State := (withCmd c).bind (newHandle 0 0 0) 1 1 [(0, 0)]
/-- 2.0 at A and 3.0 at B. -/
def operands (c : Cmd) : State := ((tiled c).wr (cspKey 0 0x100) 2 0x4000).wr (cspKey 0 0x200) 2 0x4040
def mxq7 (p : CmdPhase) : Cmd := { cmd7 .mxq (BitVec.ofNat 64 cspWin) 0 record with phase := p, members := [memberOf 0] }
def words : Except MxStop (List (Nat × Nat × Nat) × Nat) → List (Nat × Nat × Nat)
  | .ok p => p.1
  | .error _ => []
def readOk : Except MxStop (List Byte) → Bool
  | .ok _ => true
  | .error _ => false
/-- A page under migration holds the row group. -/
def heldGroup : Except MxStop (List (Nat × Nat × Nat) × Nat) → Bool
  | .error .held => true
  | _ => false
/-- A task's command of launch 1, which reserves 4 regions of cluster 0. -/
def binding : State :=
  let c := { newCmd 7 1 1 0 0 0 false 2 1 (.mxz 0 1 1 false false) 0 0 0 [] with num := 1 }
  { task id with cmds := [c], arg := { id := 7 }, launches := [{ launch 0x04000000 [] with record := [0x04000000, 0, 0, 0, 1] }] }
/-- 2.0 · 3.0 added to a word of 0 is 6.0 (R145). -/
theorem test_matrix_product : ((ran .matrixRowGroup (operands (mxq7 .running))).accWord { newHandle 0 0 0 with rows := 1, cols := 1, regs := [(0, 0)] } 0 0) = 0x40C00000 := by decide +kernel

theorem witness_MatrixEvents :
    (let s := binding
     let c := newCmd 7 1 1 0 0 0 false 2 1 (.mxz 0 1 1 false false) 0 0 0 []
     let l := { launch 0x04000000 [] with record := [0x04000000, 0, 0, 0, 1] }
     s.cmd s.arg.id = some c ∧ s.cmdHeld c = false ∧ s.inTurn c 0 = true ∧ s.launch c.part c.launch = some l ∧ s.handles = [] ∧ l.bindHopeless c.core (blocks128 1) (blocks128 1) = false ∧
      s.regionsFor c.core l (blocks128 1) (blocks128 1) = some [(0, 0)] ∧ s.waitsBefore c s.serial = false) ∧
    (let c := cmd7 .mxq (BitVec.ofNat 64 cspWin) 0 []
     let s := withCmd c
     s.cmd s.arg.id = some c ∧ s.cmdHeld c = false ∧ s.settleCmd c = some s ∧ readOk (s.mxRead c c.a.toNat 128) = true) ∧
    (let c := mxq7 .started
     let s := tiled c
     let x := s.handle c.core c.launch 0
     s.cmd s.arg.id = some c ∧ Mx.acc c.snap = 0 ∧ s.inTurn c 0 = true ∧ s.depMet c = true ∧ mxCheck c.snap x c.num (s.feat c.core) = 0 ∧ Mx.opc c.snap ≠ 4 ∧ x.mb * x.nb = 1 ∧
      (memberOf (Mx.progress c.snap 0)).done = false) ∧
    (let c := { mxq7 .started with snap := record.take 96 ++ bytesOf 8 (2 ^ 31) ++ record.drop 104 }
     let s := tiled c
     let x := s.handle c.core c.launch 0
     s.cmd s.arg.id = some c ∧ Mx.acc c.snap = 0 ∧ s.inTurn c 0 = true ∧ s.depMet c = true ∧ mxCheck c.snap x c.num (s.feat c.core) = 0 ∧ Mx.opc c.snap ≠ 4 ∧ x.mb * x.nb = 1 ∧
      (memberOf (Mx.progress c.snap 0)).done = true) ∧
    (let c := { mxq7 .started with snap := List.replicate 128 0 }
     let s := tiled c
     s.cmd s.arg.id = some c ∧ Mx.acc c.snap = 0 ∧ s.inTurn c 0 = true ∧ mxCheck c.snap (s.handle c.core c.launch 0) c.num (s.feat c.core) ≠ 0) ∧
    (let c := cmd7 (.mxz 0 0 0 true false) 0 0 []
     let s := withCmd c
     s.cmd s.arg.id = some c ∧ s.cmdHeld c = false ∧ s.inTurn c 0 = true) ∧
    (let c := mxq7 .running
     let s := operands c
     let x := s.handle c.core c.launch 0
     s.cmd s.arg.id = some c ∧ c.members[s.arg.n]? = some ⟨false, 0, 0⟩ ∧ words (s.mxGroup c x 0 ⟨false, 0, 0⟩) = [(0, 0, 0x40C00000)] ∧
      ((⟨false, 0, 0⟩ : Member).next (x.rowGroups (s.arg.n / x.nb)) (mxOp c.snap x).nkb).done = true ∧ s.progressBusy c = false) ∧
    (let c := mxq7 .parked
     let s := operands c
     s.cmd s.arg.id = some c ∧ s.cmdHeld c = false ∧ c.members = [memberOf 0] ∧ heldGroup (s.mxGroup c (s.handle c.core c.launch (Mx.acc c.snap)) 0 (memberOf 0)) = false) ∧
    (let c := { mxq7 .running with sup := false }
     let s := { operands c with parts := [(0, { gong := 1 })] }
     s.cmd s.arg.id = some c ∧ s.cmdHeld c = true ∧ s.progressBusy c = false) ∧
    (let c := mxq7 .running
     let s := { operands c with holds := [⟨cspKey 0 0x100, 0, 64, []⟩] }
     s.cmd s.arg.id = some c ∧ c.members[s.arg.n]? = some ⟨false, 0, 0⟩ ∧ heldGroup (s.mxGroup c (s.handle c.core c.launch (Mx.acc c.snap)) 0 ⟨false, 0, 0⟩) = true) ∧
    (∀ read : Bool,
     let c := cmd7 (if read then .mxrd 0 1 1 true else .mxwr 0 1 1) (BitVec.ofNat 64 (cspWin + 0x80)) 0 []
     let s := tiled c
     let x := s.handle c.core c.launch 0
     s.cmd s.arg.id = some c ∧ s.cmdHeld c = false ∧ c.phase = .posted ∧ s.inTurn c 0 = true ∧ s.settleCmd c = some s ∧ x.refused = false ∧ x.bound = true ∧ x.rows = 1 ∧ x.cols = 1 ∧
      moveWords c.a c.v 1 1 = [(0, 0, cspWin + 0x80)] ∧ reaches s (c.atBlock 0) .store (cspWin + 0x80) (cspKey 0 0x80) = true ∧ reaches s (c.atBlock 0) .load (cspWin + 0x80) (cspKey 0 0x80) = true ∧
      typeOfPa (cspKey 0 0x80) = some .csp ∧ c.foreign (cspWin + 0x80) (cspKey 0 0x80) = false) ∧
    (let c := { cmd7 (.mxwr 0 1 1) 0 0 [] with phase := .finished }
     (withCmd c).cmd 7 = some c ∧ c.kind.isMatrix = true ∧ c.kind ≠ .mxq) ∧
    (∀ asks : Bool,
     let c := { mxq7 .finished with snap := record.set 1 (if asks then 0x20 else 0) }
     let s := tiled c
     s.cmd s.arg.id = some c ∧ s.cmdHeld c = false ∧ s.vaBusy c true (c.a.toNat + 80) = false ∧ (!c.snap.isEmpty && Mx.uci c.snap && (s.feat c.core).testBit 13) = asks ∧ s.uciFull c = false) := by
  and_intros <;> decide +kernel

/-- A tile of 16 by 16 cells of one bit, halo 1, five neighbours: buffers at 0x40 and 0x500, table of 32 entries at 0x980; REMAIN 2, BUSY, configured and with a table. -/
def tile (c : Cmd) : State :=
  (((withCmd c).wr (cspKey 0 0) 8 0x1000).wr (cspKey 0 8) 8 (1 + 0x14 * 2 ^ 16 + 0x26 * 2 ^ 32)).wr (cspKey 0 16) 8 (3 * 2 ^ 20 + 2 * 2 ^ 16 + 2 ^ 15)
/-- The descriptor's words that the tile of `tile` has, with CHEQ and HALF. -/
def words012 (cheq half : Bool) : List Nat :=
  [0x1000 + (if cheq then 2 ^ 19 else 0), 1 + 0x14 * 2 ^ 16 + 0x26 * 2 ^ 32, 3 * 2 ^ 20 + 2 * 2 ^ 16 + 2 ^ 15 + (if half then 2 ^ 23 else 0)]
def rstep7 (p : CmdPhase) : Cmd := { cmd7 .rstep (BitVec.ofNat 64 cspWin) 1 ((words012 false false).flatMap (bytesOf 8)) with phase := p, k := 1 }
def wordOk : Except MxStop Nat → Option Nat
  | .ok x => some x
  | .error _ => none
def rowsOk : Except MxStop (List Nat) → Bool
  | .ok _ => true
  | .error _ => false
theorem witness_RuleEvents :
    (∀ cheq half : Bool,
     let c := { rstep7 .running with snap := (words012 cheq half).flatMap (bytesOf 8) }
     let s := tile c
     let t := c.tile
     s.cmd s.arg.id = some c ∧ s.cmdHeld c = false ∧ s.taskAway c = false ∧ s.arg.q = false ∧ t.cheq = cheq ∧ c.w2.testBit 23 = half ∧ readOk (s.ruleRead c (cspVa t.tbl) t.tableLen) = true ∧
      rowsOk (s.tileRows c t t.buf0) = true ∧ t.radius ≤ t.dist 1 1 ∧ 1 < t.sw ∧ 1 < t.sh ∧ 1 ≤ t.b) ∧
    (let c := rstep7 .parked
     let s := withCmd c
     let t := tile c
     (s.cmd s.arg.id = some c ∧ s.cmdHeld c = false ∧ s.taskAway c = false ∧ s.ruleCmds c = [c] ∧ s.ruleBusy c = false) ∧
      t.cmd t.arg.id = some c ∧ t.cmdHeld c = false ∧ t.taskAway c = false ∧ t.ruleCmds c = [c] ∧ t.ruleBusy c = false ∧ (match t.loadTable c c.tile with | .ok _ => true | .error _ => false) = true) ∧
    -- an RSTEP begins: no tile, no table, too many generations, none, one
    (∀ x ∈ [(0, 1), (2 ^ 20, 1), (3 * 2 ^ 20, 2), (3 * 2 ^ 20, 0), (3 * 2 ^ 20, 1)],
     let c := { rstep7 .posted with v := BitVec.ofNat 64 x.2, snap := [] }
     let s := (tile c).wr (cspKey 0 16) 8 x.1
     let t := tileOf 0x1000 (1 + 0x14 * 2 ^ 16 + 0x26 * 2 ^ 32)
     s.cmd s.arg.id = some c ∧ s.cmdHeld c = false ∧ s.ruleTurn c = true ∧ s.settleCmd c = some s ∧ wordOk (s.descWord c 0) = some 0x1000 ∧
      wordOk (s.descWord c 1) = some (1 + 0x14 * 2 ^ 16 + 0x26 * 2 ^ 32) ∧ wordOk (s.descWord c 2) = some x.1 ∧ t.halo = 1 ∧ t.reach = 1 ∧
      (match s.loadTable c t with | .ok _ => true | .error _ => false) = true) ∧
    (let c := cmd7 .rcfg (BitVec.ofNat 64 cspWin) 0x1000 []
     let s := withCmd c
     s.cmd s.arg.id = some c ∧ s.ruleTurn c = true ∧ s.settleCmd c = some s) ∧
    (∀ bad : Bool,
     let c := { cmd7 .rtab (BitVec.ofNat 64 cspWin) (BitVec.ofNat 64 (cspWin + 0x8000)) [] with c := 32 }
     let s := (tile c).wr (cspKey 0 0x8000) 1 (if bad then 2 else 1)
     let x := tileOf 0x1000 (1 + 0x14 * 2 ^ 16 + 0x26 * 2 ^ 32)
     s.cmd s.arg.id = some c ∧ c.k = 0 ∧ s.ruleTurn c = true ∧ s.settleCmd c = some s ∧ wordOk (s.descWord c 0) = some 0x1000 ∧ wordOk (s.descWord c 1) = some (1 + 0x14 * 2 ^ 16 + 0x26 * 2 ^ 32) ∧
      wordOk (s.descWord c 2) = some (3 * 2 ^ 20 + 2 * 2 ^ 16 + 2 ^ 15) ∧ (3 * 2 ^ 20 + 2 * 2 ^ 16 + 2 ^ 15).testBit 20 = true ∧ x.tableLen = 32 ∧
      (match s.engRead c 8 c.v.toNat x.tableLen with | .ok b => b.all fun y => decide (y.toNat < 2 ^ x.b) | .error _ => bad) = !bad) ∧
    (let c := rstep7 .finished
     (tile c).cmd 7 = some c ∧ c.code ≠ 7 ∧ c.k = 1) ∧
    (∀ code, code < 8 →
     let c := { rstep7 .finished with k := 0, code := code }
     (tile c).cmd 7 = some c ∧ (tile c).cmdHeld c = false ∧ (wordOk ((tile c).descWord c 2)).isSome = true) ∧
    (let c := { cmd7 .rtab (BitVec.ofNat 64 cspWin) 1 [] with phase := .finished, code := 7 }
     (tile c).cmd 7 = some c ∧ (tile c).cmdHeld c = false ∧ c.kind.isRule = true ∧ c.k = 0 ∧ (wordOk ((tile c).descWord c 2)).isSome = true ∧
      ∀ y ∈ (tile c).ruleCmds c, y.phase ≠ .running ∧ (sameTask y c = true → c.id ≤ y.id)) ∧
    (let c := { rstep7 .finished with code := 7, k := 0 }
     (tile c).cmd 7 = some c ∧ ∀ y ∈ (tile c).ruleCmds c, y.phase ≠ .running ∧ (sameTask y c = true → c.id ≤ y.id)) ∧
    (let c := { rstep7 .running with sup := false }
     let s := { tile c with parts := [(0, { gong := 1 })] }
     s.cmd s.arg.id = some c ∧ s.cmdHeld c = true ∧ windowOf (c.a.toNat + 16) ≠ none ∧ windowOf (c.a.toNat + 24) ≠ none) ∧
    (let c := rstep7 .running
     wordOk ((tile c).descWord c 3) = some 0 ∧ located ((tile c).engAddr c .store (c.a.toNat + 16)) = some (.here (cspKey 0 16)) ∧
      located ((tile c).engAddr c .store (c.a.toNat + 24)) = some (.here (cspKey 0 16 + 8))) := by
  and_intros <;> decide +kernel
/-- An all-zero table turns a set cell off in the other buffer; CUR turns and COUNT counts (R166). -/
theorem test_rule_generation :
    let t := ran .ruleHalfStep ((tile (rstep7 .running)).wr (cspKey 0 (0x40 + 64)) 8 2)
    t.rd (cspKey 0 (0x500 + 64)) 8 = 0 ∧ t.rd (cspKey 0 16) 8 = 2 ^ 32 + 3 * 2 ^ 20 + 2 ^ 22 + 2 ^ 16 + 2 ^ 15 := by decide +kernel

/-! ### Tasks and launches at work -/

/-- Launch l with allocation a idle on core 1; the event acts on core 1, launch 1. -/
def idle (l : Launch) (a : Alloc) : State := { task (fun c => { c with run := none, allocs := [a] }) with launches := [l], arg := { core := 1, lid := 1 } }
/-- Core 2 works on indices 0 to 7 of launch 1. -/
def victims : State := (idle (launch 0 []) { alloc with st := .idle }).modCore 2 fun c =>
  { c with run := some 1, current := true, allocs := [{ alloc with trank := 1 }], sys := { c.sys with rangeb := 0, rangee := 8 } }
def fromTo (x : Option (State × Word × Word)) : Option (Word × Word) := x.map fun r => r.2
/-- A thief takes the upper half (R303): 4 to 7 of 0 to 7. -/
theorem test_steal_half : fromTo (victims.stealFrom (launch 0 []) 2) = some (4, 8) := by decide +kernel
/-- A task starts at ENTRY with the range in s1 and s2, ARG in s3 and the end of 2 units of local store in s54 (R298). -/
theorem test_task_start :
    let l := { launch 0x100000 [] with record := [0x100000, 0, 0x400, 77] }
    let c := (ran .taskStart (idle l { alloc with st := .assigned 3 9, rb := 3, re := 9 })).core 1
    c.pc = 0x400 ∧ c.sreg 1 = 3 ∧ c.sreg 2 = 9 ∧ c.sreg 3 = 77 ∧ c.sreg 54 = 0x00FFFF0000002000 := by decide +kernel

/-- Core 1 runs a task of launch 2, of a lower priority than launch 1, whose work core 2 holds. -/
def robbed : State :=
  let hi := launch 0x40000000 []
  { (victims.modCore 1 fun c => { c with run := some 2, current := true, allocs := [{ alloc with st := .idle }, { alloc with launch := 2, slot := 1, base := 4 }] }) with
    launches := [hi, { launch 0 [] with id := 2 }] }
theorem witness_TaskEvents :
    (let starts := fun (l : Launch) (a : Alloc) =>
      let s := idle l a
      decide (s.launch (s.partOf 1) 1 = some l) && decide ((s.core 1).alloc 1 = some a) && decide ((s.core 1).run = none) && !s.isSup 1 && !s.outranked 1 a && s.serving l
     starts (launch 0 []) { alloc with st := .assigned 3 9 } = true ∧ starts range { alloc with st := .idle } = true ∧ range.kind = 0 ∧ range.whole = some (3, 9) ∧
      starts (queue [7]) { alloc with st := .idle } = true ∧ (queue [7]).kind = 2 ∧
      (let l := causal { patch 3 2 [1] false with since := some 0 } (patch 3 2 [0] true)
       starts l { alloc with st := .idle } = true ∧ l.kind = 1 ∧ l.order.find? (l.eligible 0 1) = some 0 ∧ l.patches[0]? = some { patch 3 2 [1] false with since := some 0 })) ∧
    (∀ q : Bool, let l := launch 0 []
     let a := { alloc with st := .idle }
     let s := { victims with arg := { victims.arg with q := q, id := 2 } }
     s.launch (s.partOf 1) 1 = some l ∧ (s.core 1).alloc 1 = some a ∧ s.outranked 1 a = false ∧ s.serving l = true ∧ l.kind = 0 ∧ l.whole = none ∧ l.returned = [] ∧ (s.core 1).run = none ∧
      (if q then some s.arg.id else s.victim l 1 a) = some 2 ∧ fromTo (s.stealFrom l 2) = some (4, 8)) ∧
    (let l := launch 0x40000000 []
     let a := { alloc with st := .idle }
     robbed.launch (robbed.partOf 1) 1 = some l ∧ (robbed.core 1).alloc 1 = some a ∧ robbed.outranked 1 a = false ∧ robbed.serving l = true ∧ (robbed.core 1).run = some 2 ∧
      (robbed.core 1).alloc 2 = some { alloc with launch := 2, slot := 1, base := 4 } ∧ robbed.prioOf 1 { alloc with launch := 2, slot := 1, base := 4 } < l.prio ∧
      robbed.victim l 1 a = some 2 ∧ fromTo (robbed.stealFrom l 2) = some (4, 8)) ∧
    (∀ st ∈ [TaskSt.away, .ready], let a := { alloc with st := st }
     let s := (idle (launch 0 []) a).wr (lsKey 1 (slotOff 0) + 8) 8 2
     s.launch (s.partOf 1) 1 = some (launch 0 []) ∧ (s.core 1).alloc 1 = some a ∧ (s.core 1).run = none ∧ s.isSup 1 = false ∧ s.outranked 1 a = false ∧ s.hasWork 1 a = true ∧ (∀ n, n < 512 → s.slotPoison 1 0 n = false) ∧
      s.slotWord 1 0 1 = 2) ∧
    (∀ f ∈ [none, some []], let s := { task (fun c => { c with preempt := true, frame := f }) with arg := { core := 1 } }
     s.mustSave 1 = true ∧ (s.core 1).run = some 1 ∧ (s.core 1).alloc 1 = some alloc ∧ (s.core 1).anyPoison = false) := by
  and_intros <;> decide +kernel
/-- The page table of partition 0 at 0 maps page 0 to 0x10000 of device memory; the launch queue's ring at 0x10000 holds one slot. -/
def paged (l : Launch) (ws : List (Nat × Nat)) : State :=
  { State.reset with parts := [(0, { chain := true, hint0 := 1, hqbase := 0x10000, en := true, ready := true, tail := 1 })], launches := [l]
                     mem := putBytes [] ((at_ 0 8 0x0100001F) ++ ws.flatMap fun w => at_ (0x10000 + 8 * w.1) 8 w.2), arg := { lid := 1 } }
/-- A causal launch whose rule lies at 0 and its one patch at 0x80, no neighbours: two versions, end level 9. -/
def rules : Launch := { launch 0x08000000 [(0, 0x10000)] with record := [0x08000000, 0, 0, 0, 1, 0, 0x80, 0], st := .validating }
def validating : State :=
  paged rules [(0, 2 * 2 ^ 32), (1, 9), (16, 3 * 2 ^ 32 + 3), (17, 2 ^ 48 + 0x7F), (22, 0x1000), (23, 0x2000)]
/-- Launch 1 on cluster 1, teams of one core, nothing handed out. -/
def ready1 : Launch := { launch 0 [] with record := [0x00080000, 0, 0, 0, 2, 0, 0, 4], whole := some (0, 4) }
/-- The launch queue takes the slot: HEAD moves on, and the launch has the next LAUNCHID (R402). -/
theorem test_host_slot :
    let t := ran .launchArrival { paged (launch 0 []) [] with launches := [] }
    (t.prt 0).head = 1 ∧ t.launches.map (·.id) = [1] ∧ (t.prt 0).nextLid = 2 := by decide +kernel
/-- One patch of one valid causal launch is runnable at once (R316, R320). -/
theorem test_validation : ((ran .causalValidation validating).launch 0 1).map (fun l => (l.st, l.patches.map (·.since))) = some (.ready, [some 0]) := by decide +kernel

/-- Launch 2, like launch 1, which waits before it in the turn. -/
def behind : State := { paged { ready1 with st := .waiting } [] with launches := [{ ready1 with st := .waiting }, { ready1 with id := 2 }] }
/-- A causal launch whose rule is all zero. -/
def badRule : State := paged rules []
theorem witness_LaunchEvents :
    (let s := { paged (launch 0 []) [] with launches := [] }
     let p := s.prt 0
     s.arg.q = false ∧ s.arg.part < s.cfg.nparts ∧ p.en = true ∧ p.ready = true ∧ p.head ≠ p.tail ∧ (∀ j, j < 32 → s.poisoned (p.hqbase + 256 * (p.head % 2 ^ p.log2) + 8 * j) = false) ∧
      s.queueRoom 0 (bits (s.rd (p.hqbase + 256 * (p.head % 2 ^ p.log2)) 8) 31 30) = true ∧ s.heldAt (p.hqbase + 256 * (p.head % 2 ^ p.log2) + 248) = false ∧ s.launch 0 p.nextLid = none) ∧
    (let l := { launch 0 [] with st := .arrived }
     ({ paged l [] with arg := { lid := 1, q := true } }).launch 0 1 = some l ∧ l.result = none ∧ l.abandoned = false) ∧
    (let l := { launch 0x20000000 [] with st := .waiting }
     let s := paged l []
     s.launch 0 1 = some l ∧ l.cond = true ∧ l.pred = none ∧ ∀ i ∈ [l.word 9 % 2 ^ 32, l.word 9 / 2 ^ 32, l.word 10 % 2 ^ 32, l.word 10 / 2 ^ 32], s.predDone l i = true) ∧
    (let l := { launch 0 [] with st := .waiting, pred := some (some 0) }
     let s := paged l []
     s.launch 0 1 = some l ∧ l.abandoned = false ∧ l.result = none ∧ s.stoppedL l = false) ∧
    (let s := paged ready1 []
     s.launch 0 1 = some ready1 ∧ s.canAdmit ready1 0 = true ∧ s.launches = [ready1] ∧ (s.rota 0 ready1.prio).takeWhile (fun m => m.id ≠ 1) = []) ∧
    (let s := { behind with arg := { lid := 2 } }
     s.launch 0 2 = some { ready1 with id := 2 } ∧ s.canAdmit { ready1 with id := 2 } 0 = true ∧ (∀ m ∈ s.launches, m.prio = 0) ∧
      (∀ m ∈ (s.rota 0 0).takeWhile (fun m => m.id ≠ 2), ∀ u, u < m.nteams → s.canAdmit m u = false) ∧ ((s.rota 0 0).takeWhile fun m => m.id ≠ 2).length = 1) ∧
    (let l := { launch 0 [] with result := some (0x80, 0) }
     let s := paged l []
     s.launch 0 1 = some l ∧ s.completion l = some (0x80, 0) ∧ s.heldAt (l.recPa + 248) = false) ∧
    (let l := ready1
     let s := (paged l []).modCore 24 fun c => { c with allocs := [{ alloc with st := .ended }] }
     s.launch 0 1 = some l ∧ 0 < l.nteams ∧ s.stoppedL l = false ∧ l.teamCores 0 = [24] ∧ (s.core 24).alloc 1 = some { alloc with st := .ended } ∧ s.launchCmds l = []) ∧
    ((paged (launch 0 []) []).isSup 0 = true ∧ 3 ≤ (7 : Word).toNat % 16) ∧
    (validating.launch 0 1 = some rules ∧ rules.abandoned = false ∧ rules.result = none ∧ validating.stoppedL rules = false ∧ (validating.validate rules).2 = none) ∧
    (badRule.launch 0 1 = some rules ∧ badRule.stoppedL rules = false ∧ (badRule.validate rules).2 ≠ none ∧ badRule.schedPa 0 .store (rules.word 7 + 16) = some 0x10010 ∧ badRule.heldAt 0x10010 = false ∧
      (let s := { badRule with holds := [⟨0x10000, 0x20000, 0x10000, []⟩] }
       s.stoppedL rules = false ∧ (s.validate rules).2 ≠ none ∧ s.schedPa 0 .store (rules.word 7 + 16) = some 0x10010 ∧ s.heldAt 0x10010 = true)) ∧
    (let l := causal { patch 3 2 [1] false with since := some 0 } (patch 3 2 [0] true)
     let s := { paged l [] with time := 600000 }
     s.launch 0 1 = some l ∧ l.patches[s.arg.n]? = some { patch 3 2 [1] false with since := some 0 } ∧ 0 + 512000 ≤ s.time.toNat) ∧
    (let l := { launch 0 [] with frozen := true }
     let s := { paged l [] with arg := { lid := 1, w := 0x100000001 } }
     s.launch 0 1 = some l ∧ s.isSup 0 = true ∧ s.partOf 0 = 0 ∧ s.arg.w.toNat / 2 ^ 32 = 1 ∧ s.arg.w.toNat % 16 = 1 ∧ s.released 0 .device = true ∧ (0x100000002 : Word).toNat % 16 = 2) := by
  and_intros <;> decide +kernel

/-- The ring of a QUEUE launch lies at 0: nowhere, on a page, on a page under migration. -/
theorem witness_QueueRing :
    let l := queue []
    let s := { paged l [] with arg := {} }
    let place := l.word 6 + 8 * ((l.qseq + l.queue.length + (if l.st = .arrived then l.word 7 / 2 ^ 32 else 0)) % (l.word 7 % 2 ^ 32))
    ({ two 1 5 with launches := [l] } : State).schedPa 0 .store place = none ∧ s.schedPa 0 .store place = some 0x10000 ∧ s.heldAt 0x10000 = false ∧
    (let h := { s with holds := [⟨0x10000, 0x20000, 0x10000, []⟩] }
     h.schedPa 0 .store place = some 0x10000 ∧ h.heldAt 0x10000 = true) ∧ (s.launch 0 1 = some l ∧ s.start.released 0 .device = true) := by
  and_intros <;> decide +kernel

/-! ### Memory, the fabric, time, management, the host -/

/-- State with these arguments of the event. -/
def ev (x : Args) (f : State → State) : State := f { State.reset with arg := x }
/-- A held page at 0x10000, to go to 0x20000, with one store of one byte. -/
def heldByte : HeldStore := { core := 0, grp := 0, bytes := [(0x10004, 7)], clr := [], plain := true, va := 4, launch := 0, phasec := 0 }
def migrating : State := ev { addr := 0x10000 } fun s => { s with holds := [⟨0x10000, 0x20000, 0x10000, [heldByte]⟩] }
/-- A port word on its way from core 1 to port 3 of core 2, both of launch 1. -/
def onWire : State := { (task id).modCore 2 fun c => { c with run := some 1, allocs := [alloc] } with wires := [⟨1, 0, 2, 3, 1, 42, true, false⟩] }
def inStream : State := { (sup fun c => c.setStrm 0 { bound := true, base := BitVec.ofNat 64 lsWin, desc := [0x4000000001, 4, 0, 64, 0, 0, 0, 0] }) with mem := putBytes [] (at_ (lsKey 0 4) 4 0xAB) }
/-- Two words of the item 0 of the output stream 0 are in the store buffer. -/
def outStream : State := sup fun c =>
  { c.setStrm 0 { bound := true, output := true, base := BitVec.ofNat 64 lsWin, desc := [0x4000000001, 4, 0, 64, 0], next := 1 } with sb := [itemWord 0 (lsKey 0 0) 9, itemWord 0 (lsKey 0 4) 8] }
def message : FaultMsg := ⟨1, 7, 8, 0x40, 0, 0, 1, 0, 0, 0, 0, 0, 8⟩
def boxed : State := ev {} fun s => s.modPart 0 fun p => { p with outbox := [message] }
/-- The queued store lands at the new place (R350). -/
theorem test_migration : (ran .migrationRelease migrating).byte 0x20004 = 7 ∧ (ran .migrationRelease migrating).holds = [] := by decide +kernel
theorem test_port_delivery : ((ran .portWordDelivery onWire).rxOf 2 1 3).q.map (·.w) = [42] := by decide +kernel
theorem test_prefetch : (((ran .streamPrefetch inStream).core 0).strmAt 0).buf = [.ok (0xAB * 2 ^ 32)] := by decide +kernel
theorem test_write_out : (ran .streamWriteOut outStream).rd (lsKey 0 0) 8 = 8 * 2 ^ 32 + 9 := by decide +kernel
theorem test_message : let t := ran .faultMessagePost boxed
    t.rd (lsKey 0 0x18000) 4 = 1 ∧ (t.prt 0).outbox = [] := by decide +kernel

/-- A load of 4 bytes at 0x10000 to s4 is left outstanding. -/
def leftLoad : State := sup fun c => { c with loads := 1, late := [{ lateS 4 4 0x10000 with dst := .s 4 4 true }] }
/-- A load of 8 bytes at 0x10004 to the low lanes of v1 is left outstanding, in two words. -/
def leftVector : State := sup fun c => { c with loads := 1, late := [{ lateS 0 0 0 with dst := .v 1 0xFF false, parts := [⟨4, 0x10004, 4, 0⟩, ⟨8, 0x10008, 4, 4⟩] }] }
/-- An atomic of core 0 is queued at the held page. -/
def heldRmw : HeldStore := { heldByte with plain := false, rmw := some ⟨.add, 1, 3, 0⟩ }
def migratingRmw : State :=
  (ev { addr := 0x10000 } fun s => { s with holds := [⟨0x10000, 0x20000, 0x10000, [heldRmw]⟩] }).modCore 0 fun c => { c with rmw := some (0, none) }
theorem test_late_load : let t := ran .loadReturn (leftLoad.wr 0x10000 4 0xFFFFFFFE)
    (t.core 0).sreg 4 = 0xFFFFFFFFFFFFFFFE ∧ (t.core 0).late = [] := by decide +kernel
/-- One word of two has come; the register keeps its old value till the other comes (R196). -/
theorem test_late_word : let t := ran .loadReturn { leftVector.wr 0x10004 4 7 with arg := { addr := 0x10004 } }
    (t.core 0).vreg 1 = 0 ∧ ((ran .loadReturn { t with arg := {} }).core 0).vreg 1 = 7 := by decide +kernel
theorem test_held_atomic : let t := ran .migrationRelease migratingRmw
    (t.core 0).rmw = some (0, some 0) ∧ t.byte 0x20004 = 3 := by decide +kernel

theorem witness_MemoryEvents :
    (let s := sup fun c => { c with loads := 1 }
     (s.core 0).loads = 1 ∧ (s.core 0).late = [] ∧ s.arg.q = false ∧ s.arg.n = 0) ∧
    (leftLoad.arg.q = false ∧ leftLoad.arg.addr = 0 ∧ (leftLoad.core 0).late[leftLoad.arg.n]? = some { lateS 4 4 0x10000 with dst := .s 4 4 true } ∧ leftLoad.granuleBusy 0x10000 = false) ∧
    (let s := { leftVector with arg := { addr := 0x10004 } }
     s.arg.q = false ∧ ((s.core 0).late[s.arg.n]?).map (·.parts) = some [⟨4, 0x10004, 4, 0⟩, ⟨8, 0x10008, 4, 4⟩] ∧ 0x10004 / 8 = s.arg.addr / 8 ∧ 0x10008 / 8 ≠ s.arg.addr / 8 ∧ s.arg.addr ≠ 0 ∧
      s.granuleBusy 0x10004 = false) ∧
    (let s := sup fun c => { c with sb := [entry [(0x100, 5)]] }
     (s.core 0).sb[s.arg.n]? = some (entry [(0x100, 5)]) ∧ (s.cluster 0).sb = [] ∧ s.arg.q = false ∧ s.holds = [] ∧ s.mayPerform 0 ((s.core 0).sb.take s.arg.n) (entry [(0x100, 5)]) = true ∧ (entry [(0x100, 5)]).out = true) ∧
    (let s := { (sup fun c => { c with sb := [entry [(0x100, 5)], entry [(0x100, 6)]] }) with arg := { n := 1 } }
     (s.core 0).sb[s.arg.n]? = some (entry [(0x100, 6)]) ∧ s.arg.q = false ∧ s.mayPerform 0 ((s.core 0).sb.take s.arg.n) (entry [(0x100, 6)]) = false) ∧
    (∀ v : Bool, let s := { (sup fun c => { c with sys := { c.sys with dconf := if v then 0x8000000000000000 else 0 } }) with conflicts := [⟨0, true, 0x1040⟩] }
     s.conflicts = [⟨0, true, 0x1040⟩] ∧ (s.core 0).sys.dconf.toNat.testBit 63 = v) ∧
    windowOf (ev { addr := lsWin } id).arg.addr ≠ none ∧
    (let s := paged (launch 0 []) []
     s.arg.addr < 2 ^ 56 ∧ windowOf s.arg.addr = none ∧ s.walk 0 0 = .found ⟨0, 0, 0, 0x0100001F, 0⟩) ∧
    (let s := { State.reset with tickets := [⟨0, 0, 0x100, false⟩] }
     s.tickets = [⟨0, 0, 0x100, false⟩] ∧ s.heldAt 0x100 = false) ∧
    (let q := (inStream.core 0).strmAt 0
     let keys := inStream.strmKeys 0 q (q.next + q.buf.length)
     q.part = [] ∧ inStream.gonged 0 = false ∧ q.bound = true ∧ q.output = false ∧ q.buf.length < 4 ∧ q.next + q.buf.length < strmItems q.desc ∧ keys.length = 16 ∧
      (∀ x ∈ keys, inStream.poisonSeen 0 x = false) ∧
      (let p := { inStream with mpoison := [lsKey 0 8] }
       p.strmKeys 0 q 0 = keys ∧ keys[2]? = some (lsKey 0 8) ∧ p.poisonSeen 0 (lsKey 0 8) = true ∧ ∀ i, i < 2 → ∀ b ∈ keys[i]?, p.poisonSeen 0 b = false)) ∧
    (itemWord 0 (lsKey 0 0) 9 ∈ (outStream.core 0).sb ∧ (∀ y ∈ (outStream.core 0).sb, y.grp = (itemWord 0 (lsKey 0 0) 9).grp ∧ y.strm = some outStream.arg.n ∧ y.strong = false) ∧
      (outStream.cluster 0).sb = [] ∧ outStream.holds = []) ∧
    (onWire.wires[onWire.arg.n]? = some ⟨1, 0, 2, 3, 1, 42, true, false⟩ ∧ onWire.wires.take onWire.arg.n = [] ∧ ((onWire.core 2).bankOf 1).isSome = true ∧ (onWire.rxOf 2 1 3).q.length < 8) ∧
    (boxed.canPost 0 0 = some message) ∧
    (let s := ev { addr := 0x10000, addr2 := 0x20000, n := 0x10000 } id
     s.arg.n ≠ 0 ∧ s.arg.n % 2 ^ 16 = 0 ∧ s.arg.addr % 2 ^ 16 = 0 ∧ s.arg.addr2 % 2 ^ 16 = 0 ∧ typeOfPa s.arg.addr = some .dev ∧ typeOfPa (s.arg.addr + s.arg.n - 1) = some .dev ∧
      typeOfPa s.arg.addr2 = some .dev ∧ typeOfPa (s.arg.addr2 + s.arg.n - 1) = some .dev ∧ s.arg.addr + s.arg.n ≤ s.arg.addr2 ∧ s.holds = []) ∧
    (let h : Hold := ⟨0x10000, 0x20000, 0x10000, [heldByte]⟩
     migrating.holds = [h] ∧ h.old = migrating.arg.addr ∧ heldByte.eng = none ∧ heldByte.rmw = none ∧ h.old ≤ 0x10004 ∧ 0x10004 < h.old + h.len) ∧
    (let h : Hold := ⟨0x10000, 0x20000, 0x10000, [heldRmw]⟩
     migratingRmw.holds = [h] ∧ h.old = migratingRmw.arg.addr ∧ heldRmw.rmw = some ⟨.add, 1, 3, 0⟩ ∧ heldRmw.bytes.head? = some (0x10004, 7) ∧ heldRmw.core ≠ ncores ∧ heldRmw.eng = none ∧ typeOfPa 0x20004 ≠ some .csp ∧ migratingRmw.mpoison = [] ∧
      (migratingRmw.core heldRmw.core).rmw = some (heldRmw.grp, none)) := by
  and_intros <;> decide +kernel

/-- A cell of module 5, ACTIVE with incarnation 3; a window over page 0x10000 admits it, to write and to read. -/
def cellOf (k : CellKind) : Cell := { dstId := 0, dstInc := 1, srcId := 5, srcInc := 3, part := 0, flow := 0, cmd := 0, idx := 0, kind := k }
def arrives (k : CellKind) : State :=
  ev { cell := some (cellOf k) } fun s =>
    { s with peers := [(5, { inc := 3, active := true })], parts := [(0, { chain := true, niw := 1, iwbase := 0x20000, albase := 0x30000 })]
             mem := putBytes [] (at_ 0x20000 8 0x10000 ++ at_ 0x20008 8 0x10013 ++ at_ 0x30000 1 0x20) }
/-- Slot 0 of port 0 carries flow 7 of partition 0; one cell of it waits. -/
def slotted : State := ev {} fun s => { s with resv := [(0, 0x8007)], cells := [{ cellOf (.write 0 []) with flow := 7 }] }
/-- A copy waits for module 5. -/
def waitsFor : State := { withCmd { cmd7 .cpy 0 0 [] with phase := .waiting, pend := [(0, 5, [])] } with arg := { id := 5, n := 9 } }
theorem test_cell_write : let t := ran .fabricCellArrival (arrives (.write 0x10008 [0xAA, 0xBB]))
    t.rd 0x10008 2 = 0xBBAA ∧ t.cells.length = 1 := by decide +kernel
theorem test_incarnation : let t := ran .incarnAnnouncement waitsFor
    t.peers = [(5, { inc := 9, active := false })] ∧ t.cmds.map (·.code) = [4] := by decide +kernel
theorem witness_FabricEvents :
    (let s := arrives (.write 0x10008 [0xAA, 0xBB])
     s.arg.cell = some (cellOf (.write 0x10008 [0xAA, 0xBB])) ∧ s.cellValid (cellOf (.write 0x10008 [0xAA, 0xBB])) = true ∧ s.admitsAll 5 true 0x10008 2 = true ∧ s.heldIn 0x10008 2 = false ∧
      s.admitsAll 5 true 0x40000 2 = false) ∧
    (let s := arrives (.read 0x10008 4)
     s.cellValid (cellOf (.read 0x10008 4)) = true ∧ s.admitsAll 5 false 0x10008 4 = true ∧ s.holds = [] ∧ s.poisonIn 0x10008 4 = false) ∧
    (let s := slotted
     let now := s.time.toNat / 347
     let e := SMap.get 0 s.resv (s.arg.n * 64 + now % 64)
     s.arg.n < 18 ∧ SMap.get 0 s.slots s.arg.n ≤ now ∧ e.getLsbD 15 = true ∧ s.cells[0]? = some { cellOf (.write 0 []) with flow := 7 } ∧ s.cellHeld { cellOf (.write 0 []) with flow := 7 } = false ∧
      e.extractLsb' 0 8 = 7#8 ∧ bits e.toNat 14 12 = 0) ∧
    (let s := ev {} fun s => { s with cells := [cellOf (.write 0 [])] }
     let e := SMap.get 0 s.resv (s.arg.n * 64 + s.time.toNat / 347 % 64)
     e.getLsbD 15 = false ∧ s.arg.id = 0 ∧ s.cells[0]? = some (cellOf (.write 0 [])) ∧ (cellOf (.write 0 [])).flow = 0 ∧ s.cellHeld (cellOf (.write 0 [])) = false) ∧
    (let s := { slotted with slots := [(0, 1)] }
     s.time.toNat / 347 < SMap.get 0 s.slots s.arg.n) ∧
    (let s := ev { cell := some { cellOf .announce with srcInc := 4 } } fun s => { s with peers := [(5, { inc := 3, active := true })] }
     (5 : BitVec 10) ≠ s.cfg.chip ∧ (SMap.get {} s.peers 5).inc ≠ 4) ∧
    (waitsFor.arg.id < 2 ^ 10 ∧ waitsFor.arg.id ≠ waitsFor.cfg.chip.toNat ∧ (SMap.get {} waitsFor.peers waitsFor.arg.id).inc ≠ BitVec.ofNat 16 waitsFor.arg.n ∧
      waitsFor.cmds.all (fun c => c.kind == .cpy && decide (c.code ≠ 5) && c.pend.any fun p => p.2.1 == 5) = true) ∧ State.reset.arg.n < 20 := by
  and_intros <;> decide +kernel

/-- The 16th estimate in a row locks; one outside 5 ns unlocks (R404). -/
theorem test_lock : (ran .ptpSync (ev { i := 100 } fun s => { s with good := 15 })).locked = true ∧
    (ran .ptpSync (ev { i := -2000 } fun s => { s with good := 16, locked := true })).locked = false := by decide +kernel
theorem test_poison : let t := ran .uncorrectableError (ev { site := some (.memory (cspKey 0 0x48)) } id)
    t.poisoned (cspKey 0 0x4C) = true ∧ t.poisoned (cspKey 0 0x50) = false := by decide +kernel
theorem witness_TimeAndErrorEvents :
    State.reset.cfg.grandmaster = false ∧ (5 * 256 < (2000 : Int).natAbs ∧ (100 : Int).natAbs ≤ 5 * 256) ∧ siteIndex (.scalar 3 4) = some 3 ∧ siteIndex (.memory 0x100) = some 0x3000 ∧
    typeOfPa (cspKey 0 0x48) = some .csp ∧ ((3 : Nat) < 2304 ∧ 1 ≤ (4 : Nat) ∧ (4 : Nat) < 56) ∧ State.reset.arg.n < 6 ∧ State.reset.arg.data = [] ∧ State.reset.sensors.peaks = [25, 25, 25, 25, 25, 25] := by
  decide +kernel

/-- The command area of partition 0 holds command `cmd` with these three words. -/
def asks (cmd a b c : Nat) : State :=
  ev {} fun s => ((((s.wr (s.areaKey 0 0) 8 (cmd * 2 ^ 56 + 1)).wr (s.areaKey 0 1) 8 a).wr (s.areaKey 0 2) 8 b).wr (s.areaKey 0 3) 8 c).modPart 0 fun p => { p with asked := true }
theorem test_wrpcb : let t := ran .wrpcb (asks 1 3 0x1F 0x0F)
    (t.prt 0).hint0 = 0x0F ∧ t.areaWord 0 7 = 1 := by decide +kernel
theorem witness_ManagementEvents :
    (Claims.Asked (asks 1 3 0x1F 0x0F) 1 ∧ (asks 1 3 0x1F 0x0F).areaWord 0 1 = 3 ∧ (asks 1 3 0x1F 0x0F).areaWord 0 3 < 2 ^ 60) ∧
    (Claims.Asked (asks 1 9 0 0) 1 ∧ 7 < (asks 1 9 0 0).areaWord 0 1) ∧ (Claims.Asked (asks 2 5 0 0) 2 ∧ (asks 2 5 0 0).areaWord 0 1 < 2 ^ 10) ∧
    (Claims.Asked (asks 2 1024 0 0) 2 ∧ 2 ^ 10 ≤ (asks 2 1024 0 0).areaWord 0 1) ∧
    (Claims.Asked (asks 3 0 0 0) 3 ∧ ((asks 3 0 0 0).lifeRecord ((asks 3 0 0 0).areaWord 0 1)).map List.length = some 64) ∧
    (Claims.Asked (asks 4 1 0x10005 0) 4 ∧ 1 ≤ (asks 4 1 0x10005 0).areaWord 0 1 ∧ (asks 4 1 0x10005 0).areaWord 0 2 < 2 ^ 17 ∧ bits ((asks 4 1 0x10005 0).areaWord 0 2) 15 10 = 0) ∧
    Claims.Asked (asks 9 0 0 0) 9 ∧ State.reset.arg.q = false ∧ (State.reset.lifeRecord State.reset.arg.n).isSome = true ∧
    (let s := ev { q := true, lid := 4, id := 3, n := 2 } id
     s.arg.q = true ∧ s.arg.lid ∈ [1, 2, 4, 8] ∧ s.arg.id < 2 ^ 10 ∧ s.arg.n < 2 ^ 8) ∧
    (∀ x ∈ [(1, 3), (2, 1), (3, 1), (4, 2)], let s := { asks x.1 1 0 0 with mpoison := [(asks x.1 1 0 0).areaKey 0 x.2] }
     s.arg.part < s.cfg.nparts ∧ (s.prt 0).asked = true ∧ s.poisoned (s.areaKey 0 0) = false ∧ s.areaWord 0 0 / 2 ^ 56 = x.1 ∧ s.poisoned (s.areaKey 0 x.2) = true) ∧
    (State.reset.prt 0).asked = false := by
  unfold Claims.Asked
  and_intros <;> decide +kernel

/-- The host reaches byte 0x100 of device memory through BAR2. -/
def hostAt (x : Args) : State := ev { x with addr := 0x100 } id
theorem test_power_on : (State.reset.resetModule).incarn = 2 := by decide +kernel
/-- The host writes 8 bytes to a page under migration. -/
def hostHeld : State := { hostAt { id := 1, data := List.replicate 8 1 } with holds := [⟨0, 0x20000, 0x10000, []⟩] }
theorem witness_HostAndResetEvents :
    State.reset.arg.part < State.reset.cfg.nparts ∧ State.reset.hostWaits 0 hostBase = false ∧
    ((State.reset.arg.n % 2 ^ 32 + 2 ^ 32 - (State.reset.prt 0).head) % 2 ^ 32 ≤ 2 ^ (State.reset.prt 0).log2) ∧
    (let s := ev { n := 17 } id; 2 ^ (s.prt 0).log2 < (s.arg.n % 2 ^ 32 + 2 ^ 32 - (s.prt 0).head) % 2 ^ 32) ∧
    (let s := ev { addr := 0x020, w := 3 } id; s.arg.q = false ∧ s.arg.addr = 0x020) ∧ ((State.reset.prt 0).en = false ∧ State.reset.arg.addr = 0) ∧
    (let s := ev { q := true, addr := 0x040 } id; s.arg.q = true ∧ s.arg.addr = 0x040) ∧
    (let s := hostAt { n := 8 }
     (∀ j, j < 8 → typeOfPa (s.arg.addr + j) ≠ some .host ∧ s.bar2 s.arg.part (s.arg.addr + j) = some (0x100 + j)) ∧ s.holds = [] ∧
      (∀ j, j < 8 → s.poisoned (0x100 + j) = false) ∧ s.arg.n = 8 ∧ s.arg.addr % 8 = 0) ∧
    (let s := hostHeld
     let h : Hold := ⟨0, 0x20000, 0x10000, []⟩
     (∀ j, j < 8 → typeOfPa (s.arg.addr + j) ≠ some .host ∧ s.bar2 s.arg.part (s.arg.addr + j) = some (0x100 + j)) ∧ s.holds = [h] ∧ (∀ j, j < 8 → (h.place (0x100 + j)).isSome = true) ∧
      s.holdRoom h = true ∧ s.arg.id = 1 ∧ s.arg.data.length = 8) ∧
    (State.reset.arg.n < 4 ∧ (ev { n := 4 } id).arg.n = 4) ∧
    (State.reset.announced = false ∧ State.reset.arg.data = [] ∧ ({ State.reset with announced := true } : State).announced = true ∧ (ev { data := [7, 0x80] } id).arg.data = [7, 0x80] ∧
      (ev { data := [7, 0x80], addr := 1151 } id).arg.addr < 1152) := by
  and_intros <;> decide +kernel

/-! ### Decoding and stepping -/

theorem witness_DecodeEncode : (Instr.nop).coded = true ∧ (Instr.nop).wf = true := by decide
/-- The current core may step, at a page its TLB knows: word 0 is NOP. -/
theorem witness_StepRunsDecodedInstruction :
    let s := code 0
    s.agenda = [] ∧ s.powered = true ∧ s.runnable s.cur = true ∧ (s.core s.cur).stalled = false ∧ 0 < s.budget ∧ s.uciReady s.cur = false ∧ (s.core s.cur).frame = none ∧
    (s.core s.cur).pc.toNat % 4 = 0 ∧ (match s.fetchWord s.cur 0 with | .ok (w, _) => w == 0 | .error _ => false) = true ∧ decodeWords 0 0 = .ok .nop ∧
    (match State.reset.fetchPa 0 0 with | .ok _ => false | .error _ => true) = true ∧ (match decodeWords 0x38 0 with | .ok _ => false | .error _ => true) = true ∧
    (let w : IWord := BitVec.ofNat 32 (word (.liw 3 5))
     let l := page0 (ofBytes (encodeBytes (.liw 3 5)))
     w.toNat % 4 = 3 ∧ (match l.fetchWord 0 0 with | .ok (x, t) => x == w && (match t.fetchWord 0 4 with | .ok (y, _) => y == 5 | .error _ => false) | .error _ => false) = true ∧
      (match decodeWords w 5 with | .ok i => decide (i = .liw 3 5) | .error _ => false) = true ∧ (match decodeWords 0x2B 0 with | .ok _ => false | .error _ => true) = true) ∧
    (let o := sup fun c => { c with pc := 2 }
     o.agenda = [] ∧ o.powered = true ∧ o.runnable o.cur = true ∧ (o.core o.cur).stalled = false ∧ o.uciReady o.cur = false ∧ (o.core o.cur).frame = none ∧ (o.core o.cur).pc.toNat % 4 ≠ 0) := by
  refine ⟨rfl, rfl, ?_, ?_, ?_, ?_, ?_, ?_, ?_, rfl, ?_, ?_, ?_, ?_⟩ <;> decide +kernel
theorem witness_MemoryInvariant : State.reset.MemOk := by unfold State.MemOk; decide +kernel

/-! ### Decoding: a word of every row, its fields written from the tables of R31 to R33, R36 and R50 to R52 -/

/-- Two words stand for an instruction, and its encoding gives them back. -/
def reads (x : Nat × Nat × Instr) : Bool :=
  (match decodeWords (BitVec.ofNat 32 x.1) (BitVec.ofNat 32 x.2.1) with | .ok i => decide (i = x.2.2) | .error _ => false)
    && ofBytes ((encodeBytes x.2.2).take 4) == x.1 && (x.2.2.len == 4 || ofBytes ((encodeBytes x.2.2).drop 4) == x.2.1)
/-- Words of page A (R50). -/
def wordsA1 : List (Nat × Nat × Instr) :=
  [(0x00000000, 0, .nop), (0x04000000, 0, .endTask), (0x08000000, 0, .yield), (0x0C000000, 0, .uiret), (0x10000000, 0, .eret), (0x16500000, 0, .trap 37),
   (0x18058000, 0, .gong 22), (0x1C058000, 0, .gongRelease 22), (0x20000000, 0, .park), (0x01358504, 0, .add 5 22 19), (0x05358504, 0, .sub 5 22 19),
   (0x09358504, 0, .and 5 22 19), (0x0D358504, 0, .or 5 22 19), (0x11358504, 0, .xor 5 22 19), (0x15358504, 0, .andn 5 22 19), (0x19358504, 0, .shl 5 22 19),
   (0x1D358504, 0, .shr 5 22 19), (0x21358504, 0, .sra 5 22 19), (0x25358504, 0, .rol 5 22 19), (0x29358504, 0, .min 5 22 19), (0x2D358504, 0, .max 5 22 19),
   (0x31358504, 0, .minu 5 22 19), (0x35358504, 0, .maxu 5 22 19), (0x39358504, 0, .slt 5 22 19)]
theorem test_decode_A1 : wordsA1.all reads = true := by decide +kernel
/-- Words of page A (R50). -/
def wordsA2 : List (Nat × Nat × Instr) :=
  [(0x3D358504, 0, .sltu 5 22 19), (0x41358504, 0, .seq 5 22 19), (0x45358504, 0, .mul 5 22 19), (0x49358504, 0, .mulh 5 22 19), (0x4D358504, 0, .mulhu 5 22 19),
   (0x51358504, 0, .div 5 22 19), (0x55358504, 0, .divu 5 22 19), (0x59358504, 0, .rem 5 22 19), (0x5D358504, 0, .remu 5 22 19), (0x61358504, 0, .adds 5 22 19),
   (0x65358504, 0, .subs 5 22 19), (0x00058508, 0, .clz 5 22), (0x04058508, 0, .ctz 5 22), (0x08058508, 0, .popc 5 22), (0x0C058508, 0, .bswap 5 22),
   (0xAD35850C, 0, .addi 5 22 0xad3), (0xAD358510, 0, .andi 5 22 0xad3), (0xAD358514, 0, .ori 5 22 0xad3), (0xAD358518, 0, .xori 5 22 0xad3),
   (0xAD35851C, 0, .slti 5 22 0xad3), (0xAD358520, 0, .sltiu 5 22 0xad3), (0x03F58524, 0, .shli 5 22 0x3f), (0x03F58528, 0, .shri 5 22 0x3f),
   (0x03F5852C, 0, .srai 5 22 0x3f)]
theorem test_decode_A2 : wordsA2.all reads = true := by decide +kernel
/-- Words of page A (R50). -/
def wordsA3 : List (Nat × Nat × Instr) :=
  [(0xAAF04530, 0, .li 5 0x2ABC1), (0xAAF04534, 0, .lui 5 0x2ABC1), (0xAD358540, 0, .ldb 5 22 0xad3), (0xAD358544, 0, .ldbu 5 22 0xad3),
   (0xAD358548, 0, .ldh 5 22 0xad3), (0xAD35854C, 0, .ldhu 5 22 0xad3), (0xAD358550, 0, .ldw 5 22 0xad3), (0xAD358554, 0, .ldwu 5 22 0xad3),
   (0xAD358558, 0, .ldd 5 22 0xad3), (0xAD35935C, 0, .stb 19 22 0xad3), (0xAD359360, 0, .sth 19 22 0xad3), (0xAD359364, 0, .stw 19 22 0xad3),
   (0xAD359368, 0, .std 19 22 0xad3), (0xAD35936C, 0, .beq 22 19 0xad3), (0xAD359370, 0, .bne 22 19 0xad3), (0xAD359374, 0, .blt 22 19 0xad3),
   (0xAD359378, 0, .bge 22 19 0xad3), (0xAD35937C, 0, .bltu 22 19 0xad3), (0xAD359380, 0, .bgeu 22 19 0xad3), (0xABCDE184, 0, .j 0xABCDE1),
   (0xABCDE188, 0, .call 0xABCDE1), (0x0005858C, 0, .jr 5 22), (0xAAF05690, 0, .bk .all 6 0x2ABC1), (0x15358594, 0, .lea 5 22 19 5)]
theorem test_decode_A3 : wordsA3.all reads = true := by decide +kernel
/-- Words of page A (R50). -/
def wordsA4 : List (Nat × Nat × Instr) :=
  [(0x81358598, 0, .fadd true 5 22 19), (0x85358598, 0, .fsub true 5 22 19), (0x89358598, 0, .fmul true 5 22 19), (0x8D358598, 0, .fdiv true 5 22 19),
   (0x90058598, 0, .fsqrt true 5 22), (0x95358598, 0, .fmin true 5 22 19), (0x99358598, 0, .fmax true 5 22 19), (0x9D358598, 0, .feq true 5 22 19),
   (0xA1358598, 0, .flt true 5 22 19), (0xA5358598, 0, .fle true 5 22 19), (0xC405859C, 0, .fcvt .i64 .f64 5 22), (0x031005A0, 0, .sget 5 0x031),
   (0x010580A4, 0, .sset 22 0x010), (0x000005A8, 0, .time 5), (0x000580AC, 0, .waitt 22), (0x019000B0, 0, .carr true 9), (0x019000B4, 0, .cwait true 9),
   (0x040005B8, 0, .take true 5), (0x000005BC, 0, .nexti 5), (0x103081C0, 0, .waitc 1 2 3 4), (0x0005BBC4, 0, .pend 59 22), (0x000EC5C8, 0, .ppoll 5 59),
   (0x0060C5CC, 0, .kand 5 3 6), (0x0460C5CC, 0, .kor 5 3 6)]
theorem test_decode_A4 : wordsA4.all reads = true := by decide +kernel
/-- Words of page A (R50). -/
def wordsA5 : List (Nat × Nat × Instr) :=
  [(0x0860C5CC, 0, .kxor 5 3 6), (0x0C00C5CC, 0, .knot 5 3), (0x1000D5CC, 0, .kpop 21 3), (0x1400D5CC, 0, .kfirst 21 3), (0x180585CC, 0, .kmovs 5 22),
   (0x1C00D5CC, 0, .kmovk 21 3)]
theorem test_decode_A5 : wordsA5.all reads = true := by decide +kernel
/-- Words of page B (R51). -/
def wordsB1 : List (Nat × Nat × Instr) :=
  [(0x41358501, 0, .vadd .f32 true 5 22 19), (0x41358505, 0, .vsub .f32 true 5 22 19), (0x41358509, 0, .vmul .f32 true 5 22 19),
   (0x4135850D, 0, .vdiv .f32 true 5 22 19), (0x41358511, 0, .vmin .f32 true 5 22 19), (0x41358515, 0, .vmax .f32 true 5 22 19), (0x00058519, 0, .vabs .f32 5 22),
   (0x0005851D, 0, .vneg .f32 5 22), (0x00058521, 0, .vsqrt .f32 5 22), (0x00058525, 0, .vexp2 .f32 5 22), (0x00058529, 0, .vlog2 .f32 5 22),
   (0x0005852D, 0, .vrcp .f32 5 22), (0x00058531, 0, .vrsq .f32 5 22), (0x79358535, 0, .vand .i32 true 5 22 19), (0x79358539, 0, .vor .i32 true 5 22 19),
   (0x7935853D, 0, .vxor .i32 true 5 22 19), (0x79358541, 0, .vshl .i32 true 5 22 19), (0x79358545, 0, .vshr .i32 true 5 22 19),
   (0x79358549, 0, .vsra .i32 true 5 22 19), (0x4135834D, 0, .vceq .f32 true 3 22 19), (0x41358351, 0, .vclt .f32 true 3 22 19),
   (0x41358355, 0, .vcle .f32 true 3 22 19), (0x41358359, 0, .vcun .f32 true 3 22 19), (0x00058561, 0, .vreds .f32 5 22)]
theorem test_decode_B1 : wordsB1.all reads = true := by decide +kernel
/-- Words of page B (R51). -/
def wordsB2 : List (Nat × Nat × Instr) :=
  [(0x00058565, 0, .vredx .f32 5 22), (0x00058569, 0, .vredn .f32 5 22), (0x3805856D, 0, .vscan .i32 5 22), (0xB8000571, 0, .vsort .i32 true 5),
   (0xB8058575, 0, .vmrg .i32 true 5 22), (0x01358579, 0, .vperm .f32 5 22 19), (0x000A857D, 0, .vbcast .f32 5 42), (0x02A58581, 0, .vext .f32 5 22 42),
   (0x02A58585, 0, .vins .f32 5 22 42), (0x380A8589, 0, .viota .i32 5 42), (0x0135858D, 0, .vrnd .f32 5 22 19), (0x00058591, 0, .vmov .f32 5 22),
   (0x00058395, 0, .vclass .f32 3 22), (0x59358599, 0, .vdot .i8 true 5 22 19)]
theorem test_decode_B2 : wordsB2.all reads = true := by decide +kernel
/-- Words of prefix words (R36). -/
def wordsPrefix : List (Nat × Nat × Instr) :=
  [(0x000002C2, 0, .rnd .rup true), (0x00000546, 0, .prd true false 5), (0x8D159E0A, 0, .ximm 0x2345678)]
theorem test_decode_Prefix : wordsPrefix.all reads = true := by decide +kernel
/-- Words of long vector instructions (R115 to R120). -/
def wordsL : List (Nat × Nat × Instr) :=
  [(0xD4D61403, 0x0000008B, .vfma .f64 true false 5 22 19 11), (0xD4D61407, 0x0000006A, .vfms .f64 false true 5 22 19 42),
   (0xD4D6140B, 0x0000008B, .vfnma .f64 true false 5 22 19 11), (0xD4D6140F, 0x0000006A, .vfnms .f64 false true 5 22 19 42),
   (0x04D61413, 0x00000600, .vsel .f32 false 6 5 22 19), (0x00161417, 0x00001200, .vcvt .f32 .f16 1 5 22), (0x9016141B, 0, .vqnt .bx8e5 5 22),
   (0xA016141F, 0, .vdq .bx4 5 22), (0x10161423, 0x0000000B, .vwscTo .bf16 5 22 11), (0xD0161423, 0x00000100, .vwscFrom .f64 5 22),
   (0xE4D61427, 0x0000000B, .vshuf .i32 5 22 19 11)]
theorem test_decode_L : wordsL.all reads = true := by decide +kernel
/-- Words of long memory instructions (R105 to R109). -/
def wordsMem : List (Nat × Nat × Instr) :=
  [(0xE4D61443, 0xFFFF0002, .vld .i32 5 ⟨22, 19, 2, 0x3FFFC0⟩), (0xE4D61447, 0xFFFF0002, .vst .i32 5 ⟨22, 19, 2, 0x3FFFC0⟩),
   (0xE4D6144B, 0xFFFF0002, .vlds .i32 5 ⟨22, 19, 2, 0x3FFFC0⟩), (0xE4D6144F, 0xFFFF0002, .vsts .i32 5 ⟨22, 19, 2, 0x3FFFC0⟩),
   (0xE4D61453, 0xFFFF0002, .vgath .i32 5 ⟨22, 19, 2, 0x3FFFC0⟩), (0xE4D61457, 0xFFFF0002, .vscat .i32 5 ⟨22, 19, 2, 0x3FFFC0⟩),
   (0x04D6145B, 0xFFFF0202, .ldx .w 5 ⟨22, 19, 2, 0x3FFFC0⟩), (0x04D6145F, 0xFFFF0102, .stx .w 5 ⟨22, 19, 2, 0x3FFFC0⟩),
   (0x04D61463, 0xFFFF0082, .ldi .bu 5 ⟨22, 19, 2, 0x3FFFC0⟩), (0x64D61467, 0xFFFF0002, .vldi .i8 5 ⟨22, 19, 2, 0x3FFFC0⟩)]
theorem test_decode_Mem : wordsMem.all reads = true := by decide +kernel
/-- Words of synchronisation (R206 to R234). -/
def wordsSync1 : List (Nat × Nat × Instr) :=
  [(0x04D61483, 0xFFFF02AA, .lds .wu true .device 5 ⟨22, 19, 2, 0x3FFFC0⟩), (0x04D61487, 0xFFFF01BE, .sts .d true .system 5 ⟨22, 19, 2, 0x3FFFC0⟩),
   (0xE000008B, 0, .phase true true .device), (0x5000008F, 0, .fence false true .cluster),
   (0x04D61493, 0xFFFF0192, .atomSwap .d .acqrel .cluster 5 ⟨22, 19, 2, 0x3FFFC0⟩), (0x14D61493, 0xFFFF0192, .atomCas .d .acqrel .cluster 5 ⟨22, 19, 2, 0x3FFFC0⟩),
   (0x24D61493, 0xFFFF0192, .atomAdd .d .acqrel .cluster 5 ⟨22, 19, 2, 0x3FFFC0⟩), (0x34D61493, 0xFFFF0192, .atomAnd .d .acqrel .cluster 5 ⟨22, 19, 2, 0x3FFFC0⟩),
   (0x44D61493, 0xFFFF0192, .atomOr .d .acqrel .cluster 5 ⟨22, 19, 2, 0x3FFFC0⟩), (0x54D61493, 0xFFFF0192, .atomXor .d .acqrel .cluster 5 ⟨22, 19, 2, 0x3FFFC0⟩),
   (0x64D61493, 0xFFFF0192, .atomMin .d .acqrel .cluster 5 ⟨22, 19, 2, 0x3FFFC0⟩), (0x74D61493, 0xFFFF0192, .atomMax .d .acqrel .cluster 5 ⟨22, 19, 2, 0x3FFFC0⟩),
   (0x84D61493, 0xFFFF0192, .atomMinu .d .acqrel .cluster 5 ⟨22, 19, 2, 0x3FFFC0⟩), (0x94D61493, 0xFFFF0192, .atomMaxu .d .acqrel .cluster 5 ⟨22, 19, 2, 0x3FFFC0⟩),
   (0xA4D61493, 0xFFFF01A6, .atomFadd true .relaxed .device 5 ⟨22, 19, 2, 0x3FFFC0⟩), (0xB4D61493, 0xFFFF01A6, .atomFmin true .relaxed .device 5 ⟨22, 19, 2, 0x3FFFC0⟩),
   (0xC4D61493, 0xFFFF01A6, .atomFmax true .relaxed .device 5 ⟨22, 19, 2, 0x3FFFC0⟩), (0xD4D61493, 0xFFFF022E, .atomWs .release .device 5 ⟨22, 19, 2, 0x3FFFC0⟩),
   (0x04D61497, 0x0000000B, .bankopAddF32 5 22 19 11), (0x14D61497, 0x0000000B, .bankopAddF64 5 22 19 11), (0x24D61497, 0x0000000B, .bankopAddI64 5 22 19 11),
   (0x34D61497, 0x0000000B, .bankopMinF32 5 22 19 11), (0x44D61497, 0x0000000B, .bankopMaxF32 5 22 19 11), (0x54D61497, 0x0000000B, .bankopMinI64 5 22 19 11)]
theorem test_decode_Sync1 : wordsSync1.all reads = true := by decide +kernel
/-- Words of synchronisation (R206 to R234). -/
def wordsSync2 : List (Nat × Nat × Instr) :=
  [(0x64D61497, 0x0000000B, .bankopMaxI64 5 22 19 11), (0x74D61497, 0x0000000B, .bankopWs 5 22 19 11), (0x04D6149B, 0xFFFF0002, .bari 5 ⟨22, 19, 2, 0x3FFFC0⟩),
   (0x04D6149F, 0xFFFF0002, .bara 5 ⟨22, 19, 2, 0x3FFFC0⟩), (0x04D614A3, 0xFFFF0002, .barw 5 ⟨22, 19, 2, 0x3FFFC0⟩),
   (0x04D614A7, 0xFFFF0002, .barx 5 ⟨22, 19, 2, 0x3FFFC0⟩), (0x04D614AB, 0xFFFF0002, .slotacq 5 ⟨22, 19, 2, 0x3FFFC0⟩),
   (0x04D614AF, 0xFFFF0002, .slotwait 5 ⟨22, 19, 2, 0x3FFFC0⟩), (0x04D614B3, 0xFFFF0002, .slotrel 5 ⟨22, 19, 2, 0x3FFFC0⟩),
   (0x04D614B3, 0xFFFF0082, .slotrelFull 5 ⟨22, 19, 2, 0x3FFFC0⟩), (0x14D68CC3, 0, .sbind true 35 22 19), (0x00008CC7, 0, .sdrain 35), (0x0016ECCB, 0, .pbind 59 22),
   (0x001608CF, 0x12345678, .tlwait 2 22 0x12345678), (0x001608D3, 0x12345678, .tlget 2 22 0x12345678), (0x001608D7, 0x12345678, .tlset 2 22 0x12345678),
   (0x001600DB, 0x00000240, .cmaskC 22 9), (0x101600DB, 0x00000240, .cmaskD 22 9), (0x24D600DB, 0x00000240, .cmaskDc 22 19 9)]
theorem test_decode_Sync2 : wordsSync2.all reads = true := by decide +kernel
/-- Words of posting (R158 to R177, R240). -/
def wordsPost : List (Nat × Nat × Instr) :=
  [(0x80161503, 0x00000040, .cpy ⟨true, true, 5, 22⟩), (0x80161507, 0x00000040, .credAddF32 ⟨true, true, 5, 22⟩),
   (0x90161507, 0x00000040, .credAddF64 ⟨true, true, 5, 22⟩), (0xA0161507, 0x00000040, .credAddI32 ⟨true, true, 5, 22⟩),
   (0xB0161507, 0x00000040, .credMinF32 ⟨true, true, 5, 22⟩), (0xC0161507, 0x00000040, .credMaxF32 ⟨true, true, 5, 22⟩),
   (0xD0161507, 0x00000040, .credMinI32 ⟨true, true, 5, 22⟩), (0xE0161507, 0x00000040, .credMaxI32 ⟨true, true, 5, 22⟩),
   (0xF0161507, 0x00000040, .credWs ⟨true, true, 5, 22⟩), (0x84D6150B, 0x00000040, .cflag ⟨true, true, 5, 22⟩ 19),
   (0x94D6150B, 0x00000040, .cflagAdd ⟨true, true, 5, 22⟩ 19), (0x8016150F, 0x00000040, .chase ⟨true, true, 5, 22⟩),
   (0x80161513, 0x00000040, .repart ⟨true, true, 5, 22⟩), (0x00161517, 0, .mxq 5 22), (0x00001523, 0x006AF340, .mxz 5 0 0x1ABCD), (0x00001523, 0x00800000, .mxzFree 5),
   (0x04D6151B, 0x00000040, .mxrd true 5 22 19), (0x04D6151F, 0, .mxwr 5 22 19), (0x04D61527, 0x0000000B, .rcfg 5 22 19 11), (0x04D6152B, 0x0000000B, .rtab 5 22 19 11),
   (0x0016152F, 0x000001C0, .rstep false 7 5 22 0), (0x04D6152F, 0x00000400, .rstep true 0 5 22 19), (0x00161533, 0, .rgen 5 22)]
theorem test_decode_Post : wordsPost.all reads = true := by decide +kernel
/-- Words of launches, frames, constants, the supervisor. -/
def wordsSystem : List (Nat × Nat × Instr) :=
  [(0x00161543, 0, .launch 5 22), (0x04D61547, 0, .qpush 5 22 19), (0x04C0154B, 0x000004C0, .lvget true 3 5 19), (0x04D6154F, 0x0000000B, .lvset 5 22 19 11),
   (0x04D6154F, 0x0000004B, .lvsetReseat 5 22 19 11), (0x00001557, 0x89ABCDEF, .liw 5 0x89ABCDEF), (0x0000155B, 0x89ABCDEF, .lihi 5 0x89ABCDEF),
   (0x04D6155F, 0x0000000B, .sel 5 22 19 11), (0x04D61563, 0x0000000B, .madd 5 22 19 11), (0x00160183, 0x00000040, .tlbiVa .cluster 22),
   (0x10000183, 0x00000080, .tlbiAll .device), (0x00161587, 0, .sresume 5 22), (0x10161587, 0, .sresumeAbandon 5 22), (0x24D61587, 0, .sresumeGet 5 22 19),
   (0x34D61587, 0x0000000B, .sresumePut 5 22 19 11), (0x00000153, 0x02AF3795, .rpt false 0 0xABCD 3 2 1 5), (0x10160153, 0x00000395, .rpt true 22 0 3 2 1 5)]
theorem test_decode_System : wordsSystem.all reads = true := by decide +kernel
/-- Words of the words that the spec itself gives. -/
def wordsSpec : List (Nat × Nat × Instr) :=
  [(0x00108204, 0, .add 2 2 1), (0xFC407F70, 0, .bne 1 4 0xFFF), (0x00006157, 0x3E800000, .liw 24 0x3E800000), (0x00000302, 0, .rnd .rna true),
   (0x00811003, 0x00000003, .vfma .f32 false false 4 1 2 3), (0x00000153, 0x00001010, .rpt false 0 4 0 0 1 0), (0x02010A01, 0, .vadd .f32 false 10 4 32),
   (0x00061483, 0x00000328, .lds .d true .device 5 ⟨6, 0, 0, 0⟩), (0x00061C87, 0x000001AC, .sts .d true .device 7 ⟨6, 0, 0, 0⟩), (0x018580C3, 0, .sbind false 32 5 6),
   (0xE0400827, 0x00000005, .vshuf .i32 2 0 1 5), (0x00021017, 0x00000200, .vcvt .f32 .f16 0 4 2), (0x00031017, 0x00001200, .vcvt .f32 .f16 1 4 3)]
theorem test_decode_Spec : wordsSpec.all reads = true := by decide +kernel

/-! ### WellFormed: for each check a term that breaks it alone -/

/-- Operand classes (R34, R35): vector, mask, handle, timeline, groups, pairs, streams, ports. -/
def badOperands : List Instr :=
  [.vmov .f32 40 1, .vmov .f32 1 56, .kand 8 1 2, .kpop 1 9, .mxzFree 16, .tlwait 4 0 0, .atomCas .d .relaxed .device 55 ⟨1, 0, 0, 0⟩, .atomCas .d .relaxed .device 0 ⟨1, 0, 0, 0⟩,
   .sresumeGet 55 1 2, .lvget false 0 53 0, .vsort .f32 false 31, .vsort .f32 false 32, .vmrg .f32 false 1 31, .vqnt .bx4 1 31, .sbind false 31 1 2, .sdrain 40, .pbind 55 1, .pend 3 1, .ppoll 1 3,
   .vadd .f32 false 1 2 40, .vfma .f32 false true 1 40 2 60, .vgath .f32 1 ⟨1, 40, 0, 0⟩, .bankopWs 40 1 2 3, .atomWs .relaxed .device 41 ⟨1, 0, 0, 0⟩]
theorem test_illformed_operands : badOperands.all (fun i => !i.wf && i.limits) = true := by decide +kernel
/-- Formats and values that an entry does not accept (R89 to R129, R158 to R177, R208, R217, R323, R348). -/
def badLimits : List Instr :=
  [.vadd .e4 false 1 2 3, .vdiv .i32 false 1 2 3, .vabs .f4 1 2, .vsqrt .i8 1 2, .vexp2 .f64 1 2, .vrsq .f64 1 2, .vand .cb2 false 1 2 3, .vshl .f32 false 1 2 3, .vceq .i4 false 1 2 3,
   .vcun .i32 false 1 2 3, .vreds .e5 1 2, .vscan .i4 1 2, .vsort .f64 false 2, .vmrg .i8 false 2 4, .vperm .bx8e4 1 2 3, .vbcast .bxi8 1 2, .viota .f32 1 2, .vrnd .f64 1 2 3, .vclass .i8 1 2,
   .vdot .f32 false 1 2 3, .vfma .i32 false false 1 2 3 4, .vsel .bx4 false 1 1 2 3, .vcvt .f32 .f32 0 1 2, .vcvt .f32 .f16 2 1 2, .vcvt .bx4 .f32 0 1 2, .vqnt .cb2 1 2, .vdq .f32 2 1,
   .vwscTo .f64 1 2 3, .vwscFrom .bx4 1 2, .vshuf .i4 1 2 3 4, .vlds .i4 1 ⟨1, 2, 0, 0⟩, .vscat .i8 1 ⟨1, 2, 0, 0⟩, .fcvt .f64 .f64 1 2, .tlwait 0 1 1, .tlget 0 1 3, .tlset 0 1 4, .mxz 1 1 1,
   .rstep true 1 1 2 3, .rstep false 1 1 2 3, .lvget false 9 1 0, .lvget false 1 1 2, .rpt true 1 1 0 0 0 0, .rpt false 1 1 0 0 0 0, .tlbiVa .system 1, .tlbiAll .system, .phase false false .core,
   .fence false false .core, .sget 1 5, .sset 1 0x13]
theorem test_illformed_limits : badLimits.all (fun i => !i.wf && i.operands.all Operand.ok) = true := by decide +kernel
theorem test_illformed_row : Instr.unassignedEncoding.wf = false := by decide
/-- What R53 and R33 leave unassigned decodes to nothing: page A OP 0x0E, page B OP 0x17, long OP8 0x0A, prefix kind 3, scope 4, a reserved bit, format 0xF. -/
def refuses (x : Nat × Nat) : Bool := match decodeWords (BitVec.ofNat 32 x.1) (BitVec.ofNat 32 x.2) with | .ok _ => false | .error _ => true
theorem test_unassigned :
    [(0x38, 0), (0x5D, 0), (0x2B, 0), (0x0E, 0), (0x83, 0x240), (0x03, 0x80000000), (0x3C000001, 0), (0x68000004, 0), (0x10000000 + 8, 0), (0x43, 4)].map refuses
      = [true, true, true, true, true, true, true, true, true, true] := by decide +kernel

end Sys2Proof.Tests
end

section
namespace Sys2Proof.Machine
open Sys2Proof

/-!
PROOFS. Every step keeps the canonical form of memory (R14). Bytes are written by putBytes alone, which keeps the form, and a reset empties memory; so each function of the
model has one lemma here: it leaves memory (f_mem), it keeps the form (wf_f), or what it answers has the form (yields_f for a computation that may trap, stall or
wait, gives_f for an event that may not be enabled). simp puts these together along the text of each instruction (leads_exec…).
-/

/-! ### What a computation answers -/

/-- What a computation answers has the property P; where it stops and leaves a state to wait in (R350), the memory of that state is canonical. -/
def Yields {α : Type} (P : α → Prop) : M α → Prop
  | .ok a => P a
  | .error (.wait t) => Memory.wf t.mem
  | .error _ => True

/-- What an event answers, where it is enabled, has the property P. -/
def Gives {α : Type} (P : α → Prop) : Option α → Prop
  | some a => P a
  | none => True

/-- The state that an outcome answers has canonical memory. -/
def Leads : Host.Outcome State Fault Refusal → Prop
  | .next t => Memory.wf t.mem
  | _ => True

section
variable {α β : Type} {P : α → Prop} {Q : β → Prop}

@[simp] theorem yields_ok {a : α} : Yields P (.ok a) ↔ P a := Iff.rfl
@[simp] theorem yields_pure {a : α} : Yields P (pure a) ↔ P a := Iff.rfl
@[simp] theorem yields_trap {c : Cause} {v : Word} : Yields P (.error (.trap c v)) := trivial
@[simp] theorem yields_stall : Yields P (.error .stall) := trivial
@[simp] theorem yields_wait {t : State} : Yields P (.error (.wait t)) ↔ Memory.wf t.mem := Iff.rfl

@[simp ↓] theorem yields_bind {x : M α} {f : α → M β} : Yields Q (x >>= f) ↔ Yields (fun a => Yields Q (f a)) x := by
  rcases x with (_ | _ | _) | _ <;> exact Iff.rfl

@[simp ↓] theorem yields_ite {c : Prop} [Decidable c] {x y : M α} : Yields P (if c then x else y) ↔ (c → Yields P x) ∧ (¬c → Yields P y) := by
  split <;> simp [*]

/-- What comes after a computation may use what that computation answers. -/
theorem Yields.iff {r : M α} (h : Yields P r) {R : α → Prop} : Yields R r ↔ ∀ a, r = .ok a → P a → R a := by
  rcases r with (_ | _ | _) | a <;> simp_all [Yields]

theorem Yields.mono {r : M α} (h : Yields P r) {R : α → Prop} (i : ∀ a, P a → R a) : Yields R r := h.iff.2 fun a _ => i a

/-- After a computation that never waits in a state. -/
theorem Yields.plain {r : M α} (h : Yields (fun _ => True) r) {R : α → Prop} : Yields R r ↔ ∀ a, r = .ok a → R a := by simpa using h.iff (R := R)

@[simp ↓] theorem yields_trapIf {b : Bool} {c : Cause} {v : Word} {P : Unit → Prop} : Yields P (trapIf b c v) ↔ (b = false → P ()) := by
  cases b <;> simp [trapIf]
@[simp ↓] theorem yields_stallUnless {b : Bool} {P : Unit → Prop} : Yields P (stallUnless b) ↔ (b = true → P ()) := by
  cases b <;> simp [stallUnless]

@[simp] theorem gives_some {a : α} : Gives P (some a) ↔ P a := Iff.rfl
@[simp] theorem gives_none : Gives P none := trivial
@[simp ↓] theorem gives_map {o : Option α} {f : α → β} : Gives Q (o.map f) ↔ Gives (fun a => Q (f a)) o := by cases o <;> exact Iff.rfl
@[simp ↓] theorem gives_bind {o : Option α} {f : α → Option β} : Gives Q (o.bind f) ↔ Gives (fun a => Gives Q (f a)) o := by cases o <;> exact Iff.rfl
@[simp ↓] theorem gives_ite {c : Prop} [Decidable c] {x y : Option α} : Gives P (if c then x else y) ↔ (c → Gives P x) ∧ (¬c → Gives P y) := by
  split <;> simp [*]

@[simp] theorem leads_next {t : State} : Leads (.next t) ↔ Memory.wf t.mem := Iff.rfl
@[simp ↓] theorem leads_ite {c : Prop} [Decidable c] {x y : Host.Outcome State Fault Refusal} : Leads (if c then x else y) ↔ (c → Leads x) ∧ (¬c → Leads y) := by
  split <;> simp [*]

theorem Gives.of_eq {o : Option α} (h : Gives P o) {a : α} (e : o = some a) : P a := by subst e; exact h
theorem gives_iff {o : Option α} : Gives P o ↔ ∀ a, o = some a → P a := by cases o <;> simp
theorem Gives.mono {o : Option α} (h : Gives P o) {R : α → Prop} (i : ∀ a, P a → R a) : Gives R o := by
  cases o with
  | none => trivial
  | some a => exact i a h

end

/-! ### Branches and folds -/

@[simp] theorem State.ite_mem (c : Prop) [Decidable c] (s t : State) : (if c then s else t).mem = if c then s.mem else t.mem := apply_ite State.mem c s t
@[simp ↓] theorem State.wf_ite {c : Prop} [Decidable c] {s t : State} :
    Memory.wf (if c then s else t).mem ↔ (c → Memory.wf s.mem) ∧ (¬c → Memory.wf t.mem) := by
  split <;> simp [*]
@[simp] theorem wf_ite {c : Prop} [Decidable c] {m m' : SMap Byte} : Memory.wf (if c then m else m') ↔ (c → Memory.wf m) ∧ (¬c → Memory.wf m') := by
  split <;> simp [*]

theorem mem_foldl {γ : Type} (f : State → γ → State) (hf : ∀ s x, (f s x).mem = s.mem) (l : List γ) (s : State) : (l.foldl f s).mem = s.mem := by
  induction l generalizing s with
  | nil => rfl
  | cons x r ih => exact (ih _).trans (hf s x)

theorem wf_foldl {γ : Type} (f : State → γ → State) (hf : ∀ s x, Memory.wf s.mem → Memory.wf (f s x).mem) (l : List γ) {s : State} (h : Memory.wf s.mem) :
    Memory.wf (l.foldl f s).mem := by
  induction l generalizing s with
  | nil => exact h
  | cons x r ih => exact ih (hf s x h)

/-! ### Operations that leave memory -/

section
variable (s : State)

@[simp] theorem State.withdraw_mem (c) : (s.withdraw c).2.mem = s.mem := rfl
@[simp] theorem State.fill_mem (i f e) : (s.fill i f e).mem = s.mem := rfl
@[simp] theorem State.keep_mem (i f e) : (s.keep i f e).mem = s.mem := by cases e <;> rfl
@[simp] theorem State.fillLine_mem (i inv a) : (s.fillLine i inv a).mem = s.mem := by simp [State.fillLine]
@[simp] theorem State.trackLoad_mem (i l p x) : (s.trackLoad i l p x).mem = s.mem := mem_foldl _ (by simp) _ _
@[simp] theorem State.takeLate_mem (i l p) : (s.takeLate i l p).mem = s.mem := by
  simp only [State.takeLate, State.modCore_mem, State.trackLoad_mem]
  exact mem_foldl _ (fun s x => by split <;> simp) _ _
@[simp] theorem State.takeLates_mem (i) : (s.takeLates i).mem = s.mem := mem_foldl _ (by simp) _ _
@[simp] theorem State.takeAll_mem (p) : (s.takeAll p).mem = s.mem :=
  mem_foldl _ (fun _ _ => mem_foldl _ (fun _ _ => by split <;> simp) _ _) _ _
@[simp] theorem State.useTicket_mem (i a) : (s.useTicket i a).mem = s.mem := rfl
@[simp] theorem State.postFault_mem (p m) : (s.postFault p m).mem = s.mem := rfl
@[simp] theorem State.abandonRule_mem (i l n) : (s.abandonRule i l n).mem = s.mem := rfl
@[simp] theorem State.setRxOf_mem (d l p r) : (s.setRxOf d l p r).mem = s.mem := rfl
@[simp] theorem State.closePacket_mem (i p) : (s.closePacket i p).mem = s.mem := by
  fun_cases State.closePacket <;> simp +zetaDelta
@[simp] theorem State.closePackets_mem (i) : (s.closePackets i).mem = s.mem := mem_foldl _ (by simp) _ _

end

/-! ### Operations that write memory -/

section
variable {s : State} (h : Memory.wf s.mem)
include h

@[simp] theorem State.wf_writeBy (w g l) : Memory.wf (s.writeBy w g l).mem := wf_putBytes _ _ h
@[simp] theorem State.wf_write (l) : Memory.wf (s.write l).mem := wf_putBytes _ _ h
@[simp] theorem State.wf_wr (a n x) : Memory.wf (s.wr a n x).mem := wf_putBytes _ _ h
@[simp] theorem State.wf_schedWr (a n x) : Memory.wf (s.schedWr a n x).mem := by
  fun_cases State.schedWr <;> simp [h]
@[simp] theorem State.wf_writePatch (l k) : Memory.wf (s.writePatch l k).mem := by
  fun_cases State.writePatch <;> simp [h]
@[simp] theorem State.wf_setPatchBy (a l k p i) : Memory.wf (s.setPatchBy a l k p i).mem := by simp [State.setPatchBy, h]
@[simp] theorem State.wf_setPatch (l k p i) : Memory.wf (s.setPatch l k p i).mem := by simp [State.setPatch, h]
@[simp] theorem State.wf_unclaim (l k) : Memory.wf (s.unclaim l k).mem := by
  fun_cases State.unclaim <;> simp [h]
@[simp] theorem State.wf_dropTask (i a) : Memory.wf (s.dropTask i a).mem := by
  simp only [State.dropTask, State.modCore_mem]
  repeat' split
  all_goals simp [h]
@[simp] theorem State.wf_setSlotState (i n x) : Memory.wf (s.setSlotState i n x).mem := wf_putBytes _ _ h
@[simp] theorem State.wf_loseContext (i a pc) : Memory.wf (s.loseContext i a pc).mem := by simp [State.loseContext, h]
@[simp] theorem State.wf_performLocal (i) : Memory.wf (s.performLocal i).mem := s.performLocal_memOk i h
@[simp] theorem State.wf_saveContext (i n st pc o) : Memory.wf (s.saveContext i n st pc o).mem := by
  fun_cases State.saveContext <;> simp +zetaDelta [State.wf_performLocal h i]
@[simp] theorem State.wf_freeze (p l c) : Memory.wf (s.freeze p l c).mem := by
  fun_cases State.freeze <;> simp [h]
@[simp] theorem State.wf_takeTrap (i c v n) : Memory.wf (s.takeTrap i c v n).mem := by
  fun_cases State.takeTrap <;> simp +zetaDelta [h]

theorem State.gives_performEntry (i e b) : Gives (fun t => Memory.wf t.mem) (s.performEntry i e b) := gives_iff.2 fun _ => State.performEntry_memOk h
theorem State.gives_performSeen (i p) : Gives (fun t => Memory.wf t.mem) (s.performSeen i p) := gives_iff.2 fun _ => State.performSeen_memOk h

end

/-! ### Operands: a core alone never waits in a state -/

section
variable (c : Core) {P : Core → Prop} {PS : Word × Core → Prop} {PV : Vec × Core → Prop}

@[simp ↓] theorem Core.yields_readS (r) : Yields PS (c.readS r) ↔ ∀ a, c.readS r = .ok a → PS a := by
  apply Yields.plain
  fun_cases Core.readS <;> trivial
@[simp ↓] theorem Core.yields_readV (r) : Yields PV (c.readV r) ↔ ∀ a, c.readV r = .ok a → PV a := by
  apply Yields.plain
  fun_cases Core.readV <;> trivial
@[simp ↓] theorem Core.yields_readVB (bc w r) : Yields PV (c.readVB bc w r) ↔ ∀ a, c.readVB bc w r = .ok a → PV a := by
  apply Yields.plain
  cases bc <;> simp [Core.readVB]
@[simp ↓] theorem Core.yields_readK {P : Word → Prop} (r) : Yields P (c.readK r) ↔ ∀ a, c.readK r = .ok a → P a := by
  apply Yields.plain
  simp [Core.readK]
@[simp ↓] theorem Core.yields_send (i p x l) : Yields P (c.send i p x l) ↔ ∀ a, c.send i p x l = .ok a → P a := by
  apply Yields.plain
  simp [Core.send]
@[simp ↓] theorem Core.yields_putS (i r x) : Yields P (c.putS i r x) ↔ ∀ a, c.putS i r x = .ok a → P a := by
  apply Yields.plain
  simp [Core.putS]
@[simp ↓] theorem Core.yields_putV (r x m z) : Yields P (c.putV r x m z) ↔ ∀ a, c.putV r x m z = .ok a → P a := by
  apply Yields.plain
  fun_cases Core.putV <;> trivial
@[simp ↓] theorem Core.yields_pred {P : Nat × Bool → Prop} : Yields P c.pred ↔ ∀ a, c.pred = .ok a → P a := by
  apply Yields.plain
  fun_cases Core.pred <;> simp +zetaDelta
@[simp ↓] theorem Core.yields_raise (i f) : Yields P (c.raise i f) ↔ ∀ a, c.raise i f = .ok a → P a := by
  apply Yields.plain
  simp [Core.raise]
@[simp ↓] theorem Core.yields_gate {P : Unit → Prop} (f) : Yields P (c.gate f) ↔ ∀ a, c.gate f = .ok a → P a := by
  apply Yields.plain
  simp [Core.gate]
@[simp ↓] theorem Core.yields_ea (m) : Yields PS (c.ea m) ↔ ∀ a, c.ea m = .ok a → PS a := by
  apply Yields.plain
  simp [Core.ea]
end

/-! ### Computations on the whole state -/

section
variable {s : State} (h : Memory.wf s.mem) {Q : State → Prop} {QN : Nat × State → Prop}
include h

theorem State.gives_askTicket (i a) : Gives (fun t => Memory.wf t.mem) (s.askTicket i a) := by
  simp [State.askTicket, h]
@[simp ↓] theorem State.yields_plainLoad (i inv k n) :
    Yields QN (s.plainLoad i inv k n) ↔ ∀ p, s.plainLoad i inv k n = .ok p → Memory.wf p.2.mem → QN p := by
  apply Yields.iff
  simp [State.plainLoad, h]
@[simp ↓] theorem State.yields_issueLoad (i) : Yields Q (s.issueLoad i) ↔ ∀ t, s.issueLoad i = .ok t → Memory.wf t.mem → Q t := by
  apply Yields.iff
  simp [State.issueLoad, h]
@[simp ↓] theorem State.yields_issueStore (i b l) : Yields Q (s.issueStore i b l) ↔ ∀ t, s.issueStore i b l = .ok t → Memory.wf t.mem → Q t := by
  apply Yields.iff
  simp [State.issueStore, h]
@[simp ↓] theorem State.yields_release (i sc) : Yields Q (s.release i sc) ↔ ∀ t, s.release i sc = .ok t → Memory.wf t.mem → Q t := by
  apply Yields.iff
  simp [State.release, h]
@[simp ↓] theorem State.yields_settleIf (i p) : Yields Q (s.settleIf i p) ↔ ∀ t, s.settleIf i p = .ok t → Memory.wf t.mem → Q t := by
  apply Yields.iff
  fun_cases State.settleIf
  · exact State.performSeen_memOk h ‹_›
  · trivial
  · exact h
@[simp ↓] theorem State.yields_settle (i k n) : Yields Q (s.settle i k n) ↔ ∀ t, s.settle i k n = .ok t → Memory.wf t.mem → Q t := by
  apply Yields.iff
  simp +contextual [State.settle, h]
@[simp ↓] theorem State.yields_settleStrong (i l st k n) :
    Yields Q (s.settleStrong i l st k n) ↔ ∀ t, s.settleStrong i l st k n = .ok t → Memory.wf t.mem → Q t := by
  apply Yields.iff
  simp +contextual [State.settleStrong, h]
@[simp ↓] theorem State.yields_enterHome (i a) : Yields Q (s.enterHome i a) ↔ ∀ t, s.enterHome i a = .ok t → Memory.wf t.mem → Q t := by
  apply Yields.iff
  fun_cases State.enterHome
  · trivial
  · exact h
  · exact h
@[simp ↓] theorem State.yields_checkBytes {QL : List (Word × Nat × Nat) × State → Prop} (i acc va n m) :
    Yields QL (s.checkBytes i acc va n m) ↔ ∀ p, s.checkBytes i acc va n m = .ok p → Memory.wf p.2.mem → QL p := by
  apply Yields.iff
  fun_cases State.checkBytes <;> simp
  intro _
  split
  · trivial
  · split
    · trivial
    · simpa using wf_foldl _ (by simp +contextual) _ h
@[simp ↓] theorem State.yields_loadParts (i inv l) :
    Yields QN (s.loadParts i inv l) ↔ ∀ p, s.loadParts i inv l = .ok p → Memory.wf p.2.mem → QN p := by
  apply Yields.iff
  induction l generalizing s with
  | nil => simpa [State.loadParts]
  | cons p t ih => simp +contextual [State.loadParts, h, (ih _).iff]
end

/-! ### The words that an instruction sends -/

/-- The words of packets wait outside memory. -/
theorem State.yields_sendWords {s : State} (i l) {t : State} (h : Memory.wf t.mem) : Yields (fun u => Memory.wf u.mem) (s.sendWords i l t) := by
  induction l generalizing t with
  | nil => exact h
  | cons w r ih =>
    simp only [State.sendWords]
    split
    · exact ih h
    · split
      · exact ih h
      · split
        · trivial
        · exact ih h

/-! ### The end of an instruction -/

section
variable {s : State} (h : Memory.wf s.mem)
include h

theorem State.yields_retire (k i) : Yields (fun t => Memory.wf t.mem) (s.retire k i) := by
  simp only [State.retire, yields_bind]
  refine (State.yields_sendWords (s := (s.pushOut k).modCore k _) _ _ ?_).mono fun t ht => ?_
  · simpa [State.pushOut_mem] using h
  · simpa using ht

theorem leads_settleOutcome {i k} {r : M State} (hr : Yields (fun t => Memory.wf t.mem) r) : Leads (settleOutcome i k s r) := by
  fun_cases settleOutcome
  · exact hr
  · exact State.wf_takeTrap h _ _ _ _
  · exact h
  · exact hr

theorem leads_runCtl {i} {body : Nat → State → M State} (hb : ∀ k t, Memory.wf t.mem → Yields (fun t => Memory.wf t.mem) (body k t)) :
    Leads (runCtl i body s) := by
  fun_cases runCtl
  · exact State.wf_takeTrap h _ _ _ _
  · exact leads_settleOutcome h (hb _ _ h)

theorem leads_runSeq {i} {body : Nat → State → M State} (hb : ∀ k t, Memory.wf t.mem → Yields (fun t => Memory.wf t.mem) (body k t)) :
    Leads (runSeq i body s) :=
  leads_runCtl h fun k t ht => yields_bind.2 ((hb k t ht).mono fun _ hu => State.yields_retire hu k i)

theorem leads_runLocal {i} {body : CoreBody} (hb : ∀ k c, Yields (fun _ => True) (body k c)) : Leads (runLocal i body s) :=
  leads_runSeq h fun k t ht => by
    simpa [Core.run1, ht] using (hb k _).mono (by simp)

theorem leads_runEvent {f : Args → State → Option State} (hf : ∀ x, Gives (fun t => Memory.wf t.mem) (f x s)) : Leads (runEvent f s) := by
  unfold runEvent
  cases e : f s.arg s with
  | none => exact h
  | some t => exact (hf _).of_eq e
end
end Sys2Proof.Machine
end

section
namespace Sys2Proof.Machine
open Sys2Proof

/-! ### Fetching, the turn -/

theorem State.fetchWord_mem {s t : State} {i va w} (h : s.fetchWord i va = .ok (w, t)) : t.mem = s.mem := by
  unfold State.fetchWord at h
  split at h
  · cases h
  · cases h; rfl

theorem State.fetch_mem {s t : State} {i pc w j} (h : s.fetch i pc = .ok (w, j, t)) : t.mem = s.mem := by
  unfold State.fetch at h
  split at h
  · cases h
  cases e0 : s.fetchWord i pc with
  | error q => rw [e0] at h; cases h
  | ok p =>
    rw [e0] at h
    change (if isLong p.1 = true then _ else _) = _ at h
    split at h
    · cases e1 : p.2.fetchWord i (pc + 4) with
      | error q => rw [e1] at h; cases h
      | ok r => rw [e1] at h; cases h; exact (State.fetchWord_mem e1).trans (State.fetchWord_mem e0)
    · cases h; exact State.fetchWord_mem e0

@[simp] theorem State.rotate_mem (s : State) : s.rotate.mem = s.mem := rfl

/-! ### Plain accesses (R103 to R109) -/

theorem yields_addrImm (a imm) (c : Core) : Yields (fun _ => True) (addrImm a imm c) := by simp [addrImm]
theorem yields_addrDense (f p m) (c : Core) : Yields (fun _ => True) (addrDense f p m c) := by simp [addrDense]
theorem yields_addrStrided (f p m) (c : Core) : Yields (fun _ => True) (addrStrided f p m c) := by simp [addrStrided]
theorem yields_addrIndexed (f p m) (c : Core) : Yields (fun _ => True) (addrIndexed f p m c) := by simp [addrIndexed]
theorem yields_ea (m) (c : Core) : Yields (fun _ => True) (c.ea m) := by simp

@[simp] theorem State.watch_mem (s : State) (i l) : (s.watch i l).mem = s.mem := by simp [State.watch]
@[simp] theorem State.leave_mem (s : State) (i d b l) : (s.leave i d b l).mem = s.mem := rfl

section
variable {s : State} (h : Memory.wf s.mem)
include h

@[simp ↓] theorem State.yields_checkLanes {Q : List (LaneAt × List (Word × Nat × Nat)) × State → Prop} (i acc l) :
    Yields Q (s.checkLanes i acc l) ↔ ∀ p, s.checkLanes i acc l = .ok p → Memory.wf p.2.mem → Q p := by
  apply Yields.iff
  induction l generalizing s with
  | nil => exact h
  | cons p t ih => simp +contextual [State.checkLanes, h, (ih _).iff]
@[simp ↓] theorem State.yields_loadLanes {Q : List (Nat × Nat × Nat) × State → Prop} (i inv l) :
    Yields Q (s.loadLanes i inv l) ↔ ∀ p, s.loadLanes i inv l = .ok p → Memory.wf p.2.mem → Q p := by
  apply Yields.iff
  induction l generalizing s with
  | nil => exact h
  | cons p t ih => simp +contextual [State.loadLanes, h, (ih _).iff]

theorem leads_loadScalar {i z inv d} {addr : Core → M (Word × Core)} (ha : ∀ c, Yields (fun _ => True) (addr c)) : Leads (loadScalar i z inv d addr s) :=
  leads_runSeq h fun k t ht => by simp +contextual [(ha _).plain, ht]
theorem leads_storeScalar {i z b} {addr : Core → M (Word × Core)} (ha : ∀ c, Yields (fun _ => True) (addr c)) : Leads (storeScalar i z b addr s) :=
  leads_runSeq h fun k t ht => by simp +contextual [(ha _).plain, ht]
theorem leads_loadVector {i inv d} {addr : Nat → Core → M (List LaneAt × Core)} (ha : ∀ m c, Yields (fun _ => True) (addr m c)) :
    Leads (loadVector i inv d addr s) :=
  leads_runSeq h fun k t ht => by simp +contextual [(ha _ _).plain, ht]
theorem leads_storeVector {i d} {addr : Nat → Core → M (List LaneAt × Core)} (ha : ∀ m c, Yields (fun _ => True) (addr m c)) :
    Leads (storeVector i d addr s) :=
  leads_runSeq h fun k t ht => by simp +contextual [(ha _ _).plain, ht]
end

/-! ### Strong accesses -/
@[simp] theorem State.acquireIf_mem (s : State) (i a sc) : (s.acquireIf i a sc).mem = s.mem := by simp [State.acquireIf]
@[simp] theorem State.acquireFrom_mem (s : State) (i a sc k) : (s.acquireFrom i a sc k).mem = s.mem := by simp [State.acquireFrom]
@[simp] theorem State.wake_mem (s : State) (i) : (s.wake i).mem = s.mem := rfl

section
variable {s : State} (h : Memory.wf s.mem) {Q : State → Prop} {QN : Nat × State → Prop}
include h
@[simp ↓] theorem State.yields_releaseIf (i b sc) : Yields Q (s.releaseIf i b sc) ↔ ∀ t, s.releaseIf i b sc = .ok t → Memory.wf t.mem → Q t := by
  apply Yields.iff
  simp [State.releaseIf, h]
@[simp ↓] theorem State.yields_releaseTo (i b sc k) : Yields Q (s.releaseTo i b sc k) ↔ ∀ t, s.releaseTo i b sc k = .ok t → Memory.wf t.mem → Q t := by
  apply Yields.iff
  simp [State.releaseTo, h]
@[simp ↓] theorem State.yields_checkAtom (i ea n al b) : Yields QN (s.checkAtom i ea n al b) ↔ ∀ p, s.checkAtom i ea n al b = .ok p → Memory.wf p.2.mem → QN p := by
  apply Yields.iff
  fun_cases State.checkAtom <;> simp [h]
@[simp] theorem State.wf_rmwHome (i k r) : Memory.wf (s.rmwHome i k r).2.mem := by simp [State.rmwHome, h]
@[simp ↓] theorem State.yields_atomic (i ea al o sc r) :
    Yields QN (s.atomic i ea al o sc r) ↔ ∀ p, s.atomic i ea al o sc r = .ok p → Memory.wf p.2.mem → QN p := by
  apply Yields.iff
  fun_cases State.atomic
  · trivial
  · simp [h]
  · simp +contextual [h]
    intros
    split <;> simp [*]

theorem leads_atomScalar {i n op o sc d m} : Leads (atomScalar i n op o sc d m s) :=
  leads_runSeq h fun k t ht => by simp +contextual [ht]
theorem leads_execAtomWs {o sc d m} : Leads (execAtomWs o sc d m s) :=
  leads_runSeq h fun k t ht => by simp +contextual [ht, -Nat.reducePow]
theorem leads_execLds {z a sc d m} : Leads (execLds z a sc d m s) :=
  leads_runSeq h fun k t ht => by simp +contextual [ht]
theorem leads_execSts {z a sc d m} : Leads (execSts z a sc d m s) :=
  leads_runSeq h fun k t ht => by simp +contextual [ht]
theorem leads_execPhase {a r sc} : Leads (execPhase a r sc s) :=
  leads_runSeq h fun k t ht => by simp +contextual [ht]
theorem leads_execFence {a r sc} : Leads (execFence a r sc s) :=
  leads_runSeq h fun k t ht => by simp +contextual [ht]
theorem State.gives_loadPath (i a n) : Gives (fun t => Memory.wf t.mem) (s.loadPath i a n) := by
  fun_cases State.loadPath <;> simp [h]
theorem leads_execLoadReturn : Leads (execLoadReturn s) := 
  leads_runEvent h fun x => by
    dsimp only
    repeat' split
    all_goals simp [h]
    exact State.gives_loadPath h _ _ _
theorem State.gives_performNth (i n) : Gives (fun t => Memory.wf t.mem) (s.performNth i n) := by
  fun_cases State.performNth <;> simp
  all_goals exact State.gives_performEntry h _ _ _

end
end Sys2Proof.Machine
end

section
namespace Sys2Proof.Machine
open Sys2Proof

/-! ### The memory system's events, barriers, bank reductions (R130, R204, R214, R222 to R227, R350) -/

section
variable {s : State} (h : Memory.wf s.mem)
include h

theorem leads_execStorePerformed : Leads (execStorePerformed s) :=
  leads_runEvent h fun x => by
    dsimp only
    repeat' split
    · trivial
    · exact h
    · trivial
    · next t e => exact show Memory.wf t.mem from (State.gives_performNth h _ _).of_eq e
    · simp only [gives_bind, gives_iff (o := _[_]?)]
      intro e _
      repeat' split
      · exact State.gives_askTicket h _ _
      · trivial
      · trivial
theorem leads_execPageTableWalk : Leads (execPageTableWalk s) :=
  leads_runEvent h fun x => by
    repeat' split
    all_goals simp [h]
theorem leads_execDconfReport : Leads (execDconfReport s) :=
  leads_runEvent h fun x => by
    dsimp only
    split <;> simp [h]
theorem leads_execHomeRetryGrant : Leads (execHomeRetryGrant s) :=
  leads_runEvent h fun x => by
    dsimp only
    repeat' split
    all_goals simp [h]
end

/-! ### Barriers and rings (R222 to R227) -/

@[simp ↓] theorem State.yields_checkBar {s : State} {Q : Nat → Prop} (i ea al n) : Yields Q (s.checkBar i ea al n) ↔ ∀ k, s.checkBar i ea al n = .ok k → Q k := by
  apply Yields.plain
  fun_cases State.checkBar <;> trivial
@[simp] theorem State.wakeCluster_mem (s : State) (cl) : (s.wakeCluster cl).mem = s.mem := rfl

section
variable {s : State} (h : Memory.wf s.mem)
include h
@[simp] theorem State.wf_modBar (sup k f) : Memory.wf (s.modBar sup k f).mem := by simp [State.modBar, h]
@[simp] theorem State.wf_countDown (sup k b) : Memory.wf (s.countDown sup k b).mem := by
  rw [State.countDown, State.wakeCluster_mem]
  exact State.wf_modBar h _ _ _

theorem leads_barrier {i d m reads rel} {f : Nat → Nat → Word → State → M (State × Option Word)}
    (hf : ∀ k key v t, Memory.wf t.mem → Yields (fun p => Memory.wf p.1.mem) (f k key v t)) : Leads (barrier i d m reads rel f s) :=
  leads_runSeq h fun k t ht => by
    simp +contextual [ht, (hf _ _ _ _ _).iff]
    intro ea c e
    constructor
    all_goals
      intros
      split <;> simp [*]
theorem leads_execBari {d m} : Leads (execBari d m s) := leads_barrier h fun _ _ _ _ ht => State.wf_write ht _
theorem leads_execBara {d m} : Leads (execBara d m s) := leads_barrier h fun _ _ _ _ ht => by simp [ht]
theorem leads_execBarw {d m} : Leads (execBarw d m s) := leads_barrier h fun _ _ _ _ ht => by simp [ht]
theorem leads_execBarx {d m} : Leads (execBarx d m s) := leads_barrier h fun _ _ _ _ ht => by
  rw [yields_ok, State.wakeCluster_mem]
  exact State.wf_modBar ht _ _ _
theorem leads_ring {i d m rel acq f} : Leads (ring i d m rel acq f s) :=
  leads_runSeq h fun k t ht => by
    simp +contextual [ht]
    intros
    split <;> simp +contextual [*]
@[simp] theorem State.wf_countRing (key side n) : Memory.wf (s.countRing key side n).mem := by
  rw [State.countRing, State.wakeCluster_mem]
  exact State.wf_wr h _ _ _
end

/-! ### Reductions (R214) -/

@[simp] theorem State.wakeBanks_mem (s : State) : s.wakeBanks.mem = s.mem := rfl

/-- A contribution leaves canonical memory, whatever it comes to. -/
def BankStep.Leaves : BankStep → Prop
  | .badRank t | .wait t _ | .done t => Memory.wf t.mem
  | .again | .poison _ => True

section
variable {s : State} (h : Memory.wf s.mem) {QN : Nat × State → Prop}
include h
@[simp ↓] theorem State.yields_checkBank (i ea) : Yields QN (s.checkBank i ea) ↔ ∀ p, s.checkBank i ea = .ok p → Memory.wf p.2.mem → QN p := by
  apply Yields.iff
  fun_cases State.checkBank <;> simp [h]
@[simp ↓] theorem State.yields_collect (i obj m ea) : Yields QN (s.collect i obj m ea) ↔ ∀ p, s.collect i obj m ea = .ok p → Memory.wf p.2.mem → QN p := by
  apply Yields.iff
  fun_cases State.collect <;> simp [h]
theorem State.leaves_contribute (sup obj m r v) : (s.contribute sup obj m r v).Leaves := by
  fun_cases State.contribute <;> simp +zetaDelta [BankStep.Leaves, h, State.wf_write h]
theorem leads_bankop {i m a b} {value : Core → M (Nat × Core)} {put : Nat → Core → Nat → M Core} (hv : ∀ c, Yields (fun _ => True) (value c))
    (hp : ∀ k c x, Yields (fun _ => True) (put k c x)) : Leads (bankop i m a b value put s) :=
  leads_runSeq h fun k t ht => by
    simp +contextual [ht, (hv _).plain, -Nat.reducePow]
    intro ea c1 _ r c2 _ v c3 _
    constructor
    · intro _
      split <;> simp +contextual [ht, (hv _).plain, (hp _ _ _).plain]
    · intros
      rename_i u _ hu
      have hc := State.leaves_contribute hu (u.isSup k) ‹_› m r.toNat v
      split
      · trivial
      · trivial
      all_goals
        rename_i e
        rw [e] at hc
        simp +contextual [show Memory.wf _ from hc, (hv _).plain, (hp _ _ _).plain, -Nat.reducePow]
end
end Sys2Proof.Machine
end

section
namespace Sys2Proof.Machine
open Sys2Proof

/-! ### Timelines, channels, user interrupts, streams, ports -/

@[simp] theorem State.completeOp_mem (s : State) (i l n tl k f u x) : (s.completeOp i l n tl k f u x).mem = s.mem := rfl
@[simp] theorem State.setChan_mem (s : State) (i dev ch x) : (s.setChan i dev ch x).mem = s.mem := by simp [State.setChan]
@[simp] theorem State.wakeAll_mem (s : State) : s.wakeAll.mem = s.mem := rfl
@[simp] theorem State.clearChan_mem (s : State) (i dev ch) : (s.clearChan i dev ch).mem = s.mem := by simp [State.clearChan]
@[simp] theorem State.cmaskC_mem (s : State) (i ch m) : (s.cmaskC i ch m).mem = s.mem := by simp [State.cmaskC]
@[simp] theorem State.cmaskD_mem (s : State) (i ch m) : (s.cmaskD i ch m).mem = s.mem := by simp [State.cmaskD]
@[simp] theorem State.cmaskDc_mem (s : State) (i ch m) : (s.cmaskDc i ch m).mem = s.mem := by simp [State.cmaskDc]
@[simp] theorem State.takeUci_mem (s : State) (i) : (s.takeUci i).mem = s.mem := by
  fun_cases State.takeUci <;> simp

@[simp ↓] theorem State.yields_checkPattern {s : State} {Q : Unit → Prop} (i b w) : Yields Q (s.checkPattern i b w) ↔ ∀ k, s.checkPattern i b w = .ok k → Q k := by
  apply Yields.plain
  fun_cases State.checkPattern <;> simp
@[simp ↓] theorem Core.yields_drain {c : Core} {Q : Core → Prop} (n) : Yields Q (c.drain n) ↔ ∀ k, c.drain n = .ok k → Q k := by
  apply Yields.plain
  simp [Core.drain]

section
variable {s : State} (h : Memory.wf s.mem)
include h

theorem leads_execCarr {d c} : Leads (execCarr d c s) := leads_runSeq h fun k t ht => by simp +contextual [ht]
theorem leads_execCwait {d c} : Leads (execCwait d c s) := leads_runSeq h fun k t ht => by simp +contextual [ht]
theorem leads_execCmaskC {a c} : Leads (execCmaskC a c s) := leads_runSeq h fun k t ht => by simp +contextual [ht]
theorem leads_execCmaskD {a c} : Leads (execCmaskD a c s) := leads_runSeq h fun k t ht => by simp +contextual [ht]
theorem leads_execCmaskDc {a b c} : Leads (execCmaskDc a b c s) := leads_runSeq h fun k t ht => by simp +contextual [ht]
theorem leads_execWaitc {a b c d} : Leads (execWaitc a b c d s) := leads_runSeq h fun k t ht => by simp +contextual [ht]
theorem leads_execTlwait {a b c} : Leads (execTlwait a b c s) := leads_runSeq h fun k t ht => by simp +contextual [ht]
theorem leads_execTime {d} : Leads (execTime d s) := leads_runSeq h fun k t ht => by simp +contextual [ht]
theorem leads_execWaitt {d} : Leads (execWaitt d s) := leads_runSeq h fun k t ht => by simp +contextual [ht]
theorem leads_execUserInterruptEntry : Leads (execUserInterruptEntry s) := leads_runEvent h fun x => by simp [h]
theorem leads_execUiret : Leads (execUiret s) := leads_runCtl h fun k t ht => by simp [ht]
theorem leads_execSbind {o d a b} : Leads (execSbind o d a b s) := leads_runSeq h fun k t ht => by simp +contextual [ht]
theorem leads_execPbind {d a} : Leads (execPbind d a s) := leads_runSeq h fun k t ht => by simp +contextual [ht]
theorem leads_execStreamPrefetch : Leads (execStreamPrefetch s) := 
  leads_runEvent h fun x => by
    dsimp only
    repeat' split
    all_goals simp [h]
theorem State.gives_performAll (i p n j) : Gives (fun t => Memory.wf t.mem) (s.performAll i p n j) := gives_iff.2 fun _ => State.performAll_memOk h
theorem leads_execStreamWriteOut : Leads (execStreamWriteOut s) := 
  leads_runEvent h fun x => by
    dsimp only
    split
    · trivial
    · simp
      intros
      exact State.gives_performAll h _ _ _ _
theorem leads_execPortWordDelivery : Leads (execPortWordDelivery s) := 
  leads_runEvent h fun x => by
    dsimp only
    repeat' split
    all_goals simp [h]
end

/-! ### Tasks -/
@[simp] theorem State.press_mem (s : State) (i a) : (s.press i a).mem = s.mem := rfl
@[simp] theorem State.startAcquire_mem (s : State) (i l x) : (s.startAcquire i l x).mem = s.mem := by
  fun_cases State.startAcquire <;> simp +zetaDelta
@[simp] theorem State.settleHandles_mem (s : State) : s.settleHandles.mem = s.mem := 
  by
  refine mem_foldl _ (fun s x => ?_) _ _
  exact mem_foldl _ (by intros; rfl) _ _
@[simp] theorem State.endHandles_mem (s : State) (i l) : (s.endHandles i l).mem = s.mem := by simp [State.endHandles]
@[simp] theorem State.leaveTask_mem (s : State) (i st) : (s.leaveTask i st).mem = s.mem := rfl
@[simp] theorem State.bindChans_mem (s : State) (l t) : (s.bindChans l t).mem = s.mem := 
  mem_foldl _ (fun s x => by
    dsimp only
    repeat' split
    · rfl
    · simp
    · simp only [State.setChan_mem, State.cmaskDc_mem]
      exact mem_foldl _ (by simp) _ _) _ _

theorem State.gives_stealFrom {s : State} (l j) : Gives (fun p => p.1.mem = s.mem) (s.stealFrom l j) := by
  fun_cases State.stealFrom <;> simp +zetaDelta

section
variable {s : State} (h : Memory.wf s.mem)
include h

@[simp] theorem State.wf_reuseSlot (i n) : Memory.wf (s.reuseSlot i n).mem := by
  fun_cases State.reuseSlot <;> simp [h]
@[simp] theorem State.wf_admitTeam (l t) : Memory.wf (s.admitTeam l t).mem := by
  fun_cases State.admitTeam
  · exact h
  · exact wf_foldl _ (by intro _ _ ht; exact State.wf_reuseSlot ht _ _) _ (by simpa +zetaDelta using h)
theorem State.gives_grab (l i a) : Gives (fun p => Memory.wf p.1.mem) (s.grab l i a) := by
  fun_cases State.grab <;> try simp [h]
  exact (State.gives_stealFrom _ _).mono (by simp +contextual [h])
@[simp] theorem State.wf_startTask (i l a x y) : Memory.wf (s.startTask i l a x y).mem := by simp [State.startTask, h]
@[simp] theorem State.wf_commit (i l k) : Memory.wf (s.commit i l k).mem := by
  fun_cases State.commit <;> simp [h]
@[simp] theorem State.wf_finishTask (i l) : Memory.wf (s.finishTask i l).mem := by
  simp only [State.finishTask, State.wakeAll_mem, State.modCore_mem]
  split <;> simp [h]
@[simp ↓] theorem State.yields_finishChecks {Q : State → Prop} (i l) : Yields Q (s.finishChecks i l) ↔ ∀ t, s.finishChecks i l = .ok t → Memory.wf t.mem → Q t := by
  apply Yields.iff
  simp +contextual [State.finishChecks, h]

theorem leads_execEndTask : Leads (execEndTask s) :=
  leads_runCtl h fun k t ht => by
    simp
    intro _
    split <;> simp +contextual [ht]
theorem leads_execYield : Leads (execYield s) := leads_runSeq h fun k t ht => by
  rw [yields_ok]
  repeat' split
  · exact ht
  · exact ht
  · exact wf_foldl _ (by intro _ _ h; exact h) _ (State.wf_admitTeam ht _ _)
theorem leads_execTake {n d} : Leads (execTake n d s) :=
  leads_runCtl h fun k t ht => by
    simp
    intro _
    split
    · trivial
    · simp +contextual [ht]
      constructor
      all_goals
        intros
        split
        · split
          · next e =>
            have hg := (State.gives_grab (by simp [*]) _ _ _).of_eq e
            simp only [yields_bind, Core.yields_putS]
            intro c _
            exact State.yields_retire (by simpa using hg) _ _
          · simp +contextual [(State.yields_retire _ _ _).iff, *]
        · trivial
theorem leads_execNexti {d} : Leads (execNexti d s) := leads_runSeq h fun k t ht => by simp +contextual [ht]

end
end Sys2Proof.Machine
end

section
namespace Sys2Proof.Machine
open Sys2Proof

/-! ### Launches (R296 to R308) -/

@[simp] theorem State.catchPreds_mem (s : State) (p) : (s.catchPreds p).mem = s.mem := rfl
@[simp] theorem State.vet_mem (s : State) (l) : (s.vet l).mem = s.mem := rfl

section
variable {s : State} (h : Memory.wf s.mem)
include h
@[simp] theorem State.wf_enqueue (p w a u r) : Memory.wf (s.enqueue p w a u r).2.mem := by
  simp only [State.enqueue, State.catchPreds_mem]
  exact State.wf_wr h _ _ _
@[simp] theorem State.wf_ringPut (l x) : Memory.wf (s.ringPut l x).mem := by
  fun_cases State.ringPut <;> simp [h]

theorem leads_execLaunch {d a} : Leads (execLaunch d a s) :=
  leads_runSeq h fun k t ht => by
    simp
    intro _ c _
    split
    · trivial
    · simp
      intro _
      split
      · trivial
      · simp [ht]
        intro _ _ u _ hu
        split <;> simp +contextual [hu]
theorem leads_execQpush {d a b} : Leads (execQpush d a b s) :=
  leads_runSeq h fun k t ht => by
    simp
    intro x c _ item c' _
    have hr : Yields (fun u => Memory.wf u.mem) (t.release k .device) := by simp +contextual [ht]
    split
    · next u e =>
      rw [e] at hr
      have hu : Memory.wf u.mem := hr
      simp only [yields_ok, yields_bind, Core.yields_putS, State.setCore_mem]
      intro c'' _
      repeat' split
      all_goals simp [hu]
    · simp [ht]
theorem leads_execLaunchArrival : Leads (execLaunchArrival s) :=
  leads_runEvent h fun x => by
    dsimp only
    repeat' split
    all_goals simp [h]
theorem leads_execPredicateRead : Leads (execPredicateRead s) :=
  leads_runEvent h fun x => by
    repeat' split
    all_goals simp [h]
theorem leads_execTeamAdmission : Leads (execTeamAdmission s) :=
  leads_runEvent h fun x => by
    dsimp only
    repeat' split
    · trivial
    · trivial
    · refine wf_foldl _ (fun t i ht => ?_) _ (State.wf_admitTeam h _ _)
      repeat' split
      all_goals simp [ht]
theorem leads_execTaskStart : Leads (execTaskStart s) :=
  leads_runEvent h fun x => by
    dsimp only
    split
    · rw [gives_ite]
      refine ⟨fun _ => trivial, fun _ => ?_⟩
      rename_i a _ _ _
      cases a.st with
      | assigned =>
        rw [gives_some, State.wf_ite]
        exact ⟨fun _ => State.wf_startTask h _ _ _ _ _, fun _ => State.wf_startTask h _ _ _ _ _⟩
      | idle =>
        rw [gives_map]
        exact (State.gives_grab h _ _ _).mono fun p hp => State.wf_startTask hp _ _ _ _ _
      | _ => trivial
    · trivial
theorem leads_execStealRequest : Leads (execStealRequest s) :=
  leads_runEvent h fun x => by
    dsimp only
    repeat' split
    all_goals try trivial
    all_goals
      simp only [gives_map, State.press_mem, State.modCore_mem]
      exact (State.gives_stealFrom _ _).mono (by simp +contextual [h])
theorem leads_execCausalValidation : Leads (execCausalValidation s) :=
  leads_runEvent h fun x => by
    repeat' split
    all_goals simp [h]
theorem leads_execCausalDispatch : Leads (execCausalDispatch s) :=
  leads_runEvent h fun x => by
    dsimp only
    repeat' split
    all_goals try trivial
    next e _ _ _ => exact State.wf_startTask ((State.gives_grab h _ _ _).of_eq e) _ _ _ _ _
theorem leads_execHomeEligibilityTimeout : Leads (execHomeEligibilityTimeout s) :=
  leads_runEvent h fun x => by
    repeat' split
    all_goals simp [h]
theorem leads_execLvget {a b c d} : Leads (execLvget a b c d s) :=
  leads_runSeq h fun k t ht => by
    dsimp only
    cases a
    all_goals
      simp
      intros
      repeat' split
      all_goals simp [ht]
@[simp] theorem State.wf_lvset (p l i v r) : Memory.wf (s.lvset p l i v r).2.mem := by
  fun_cases State.lvset <;> simp [h]
theorem leads_lvsetInstr {i r d a b c} : Leads (lvsetInstr i r d a b c s) := by
  unfold lvsetInstr
  rw [leads_ite]
  constructor <;> intro _
  · exact State.wf_takeTrap h _ _ _ _
  · exact leads_runSeq h fun k t ht => by simp +contextual [ht]
@[simp] theorem State.wf_lresume (p l) : Memory.wf (s.lresume p l).2.mem := by
  fun_cases State.lresume <;> simp [h]
@[simp] theorem State.wf_abandonLaunch (p l) : Memory.wf (s.abandonLaunch p l).2.mem := by
  fun_cases State.abandonLaunch
  · exact h
  · simp only [State.wakeAll_mem]
    refine wf_foldl _ (fun t c ht => by simpa using ht) _ (wf_foldl _ (fun t p ht => ?_) _ (by simpa +zetaDelta using h))
    simp [ht]
@[simp] theorem State.wf_launchctl (i v) : Memory.wf (s.launchctl i v).mem := by
  unfold State.launchctl
  rw [State.modCore_mem]
  repeat' split
  all_goals simp [h]
theorem leads_execLresume : Leads (execLresume s) := leads_runEvent h fun x => by simp [h]
theorem leads_execLaunchAbandon : Leads (execLaunchAbandon s) := leads_runEvent h fun x => by simp [h]
theorem leads_execLaunchctlBadcmd : Leads (execLaunchctlBadcmd s) := leads_runEvent h fun x => by simp [h]
end

/-! ### Posted commands (R238 to R258) -/

@[simp] theorem State.post_mem (s : State) (i tl k a v z n r u) : (s.post i tl k a v z n r u).2.mem = s.mem := by
  simp [State.post]
@[simp] theorem State.keepEng_mem (s : State) (c v) : (s.keepEng c v).mem = s.mem := by
  fun_cases State.keepEng <;> simp
@[simp] theorem State.noteHost_mem (s : State) (c) : (s.noteHost c).mem = s.mem := by
  fun_cases State.noteHost <;> simp
@[simp] theorem State.finishCmd_mem (s : State) (c f m) : (s.finishCmd c f m).mem = s.mem := by
  simp [State.finishCmd]

section
variable {s : State} (h : Memory.wf s.mem)
include h
@[simp ↓] theorem State.yields_snapshot {Q : List Byte × State → Prop} (i v n a) : Yields Q (s.snapshot i v n a) ↔
    ∀ p, s.snapshot i v n a = .ok p → Memory.wf p.2.mem → Q p := by
  apply Yields.iff
  simp +contextual [State.snapshot, h]
theorem State.gives_settleCmd (c) : Gives (fun t => Memory.wf t.mem) (s.settleCmd c) := by
  simp only [State.settleCmd, gives_bind]
  split
  · exact (State.gives_performAll h _ _ _ _).mono (by simp +contextual)
  · exact (State.gives_performSeen h _ _).mono (by simp +contextual)
@[simp] theorem State.wf_writeCmd (c l) : Memory.wf (s.writeCmd c l).mem := wf_putBytes _ _ h
theorem State.gives_queueEng (c d k n i o v) : Gives (fun p => Memory.wf p.2.mem) (s.queueEng c d k n i o v) := by
  fun_cases State.queueEng
  · exact h
  · simpa using State.gives_askTicket h _ _
@[simp] theorem State.wf_engWrite (c l k v) : Memory.wf (s.engWrite c l k v).mem := by simp [State.engWrite, h]
@[simp] theorem State.wf_engPut (c v n x) : Memory.wf (s.engPut c v n x).mem := s.engPut_memOk c v n x h
end
end Sys2Proof.Machine
end

section
namespace Sys2Proof.Machine
open Sys2Proof

/-! ### Copies and reductions of ranks (R242 to R258) -/

theorem yields_readDesc {s : State} (h : Memory.wf s.mem) (k a) : Yields (fun p => Memory.wf p.2.mem) (readDesc k s a) := by
  simp +contextual [readDesc, h]

@[simp] theorem State.emit_mem (s : State) (x) : (s.emit x).mem = s.mem := rfl
@[simp] theorem State.hostThrough_mem (s : State) (c n) : (s.hostThrough c n).mem = s.mem := by simp [State.hostThrough]
@[simp] theorem State.trackRank_mem (s : State) (c d g k l) : (s.trackRank c d g k l).mem = s.mem := by
  have one (va : Nat → Nat) (l : List (Nat × Nat)) (t : State) :
      (l.foldl (fun t p => t.track c.core c.launch c.phasec true true p.1 (BitVec.ofNat 64 (va p.2))) t).mem = t.mem := mem_foldl _ (by simp) _ _
  simp only [State.trackRank]
  split <;> simp only [one]
@[simp] theorem State.gatherRank_mem (s : State) (c u) : (s.gatherRank c u).mem = s.mem := rfl
@[simp] theorem State.endChain_mem (s : State) (c x y v) : (s.endChain c x y v).mem = s.mem := rfl
@[simp] theorem State.endChainOpen_mem (s : State) (c x) : (s.endChainOpen c x).mem = s.mem := rfl
@[simp] theorem State.answerRepart_mem (s : State) (c i o p d) : (s.answerRepart c i o p d).mem = s.mem := by
  simp only [State.answerRepart, State.setCmd_mem]
  exact mem_foldl _ (by simp) _ _

/-- The contribution of a rank leaves canonical memory. -/
def RankStep.Leaves : RankStep → Prop
  | .took _ t => Memory.wf t.mem
  | _ => True

/-- A step of a chain leaves canonical memory. -/
def StepEnd.Leaves : StepEnd → Prop
  | .val _ t => Memory.wf t.mem
  | _ => True

theorem StepEnd.Leaves.of_eq {r : StepEnd} (h : r.Leaves) {x t} (e : r = .val x t) : Memory.wf t.mem := by subst e; exact h
theorem RankStep.Leaves.of_eq {r : RankStep} (h : r.Leaves) {g t} (e : r = .took g t) : Memory.wf t.mem := by subst e; exact h

section
variable {s : State} (h : Memory.wf s.mem)
include h

theorem leads_postCopy {i p k tl v} {read : Nat → State → Word → M (List Byte × State)}
    (hr : ∀ k t a, Memory.wf t.mem → Yields (fun p => Memory.wf p.2.mem) (read k t a)) : Leads (postCopy i p k tl v read s) :=
  leads_runSeq h fun k t ht => by
    simp
    intro a c _
    cases v <;> simp +contextual [ht, (hr _ _ _ _).iff]

@[simp] theorem State.wf_ringAt (b k n m) : Memory.wf (s.ringAt b k n m).mem := by
  fun_cases State.ringAt <;> simp [h]
@[simp] theorem State.wf_barAt (b k i) : Memory.wf (s.barAt b k i).mem := by simp [State.barAt, h]
@[simp] theorem State.wf_ringBytes (c n) : Memory.wf (s.ringBytes c n).mem := by
  fun_cases State.ringBytes <;> simp [h]
@[simp] theorem State.wf_countAt (c u i w) : Memory.wf (s.countAt c u i w).mem := by
  fun_cases State.countAt <;> simp [h]
@[simp] theorem State.wf_readsDone (c) : Memory.wf (s.readsDone c).2.mem := by
  fun_cases State.readsDone <;> simp [h]
@[simp] theorem State.wf_countObjects (c) : Memory.wf (s.countObjects c).mem := by simp [State.countObjects, h]
@[simp] theorem State.wf_finishCopy (c) : Memory.wf (s.finishCopy c).mem := by
  have (c : Cmd) : Memory.wf (if descOk c.kind c.snap then s.countObjects c else s).mem := by simp [h]
  rw [State.finishCopy, State.finishCmd_mem]
  exact State.wf_engPut (State.wf_engPut (this _) _ _ _ _) _ _ _ _
@[simp] theorem State.wf_closeCopy (c x y z) : Memory.wf (s.closeCopy c x y z).mem := by simp [State.closeCopy, h]
@[simp] theorem State.wf_moveUnit (c u) : Memory.wf (s.moveUnit c u).mem := by
  fun_cases State.moveUnit <;> simp [h]
theorem State.gives_copyUnit (c n) : Gives (fun t => Memory.wf t.mem) (s.copyUnit c n) := by
  fun_cases State.copyUnit <;> try trivial
  next e _ _ _ _ _ _ => exact State.wf_moveUnit ((State.gives_settleCmd h c).of_eq e) _ _
theorem State.gives_queueUnit (c u) : Gives (fun t => Memory.wf t.mem) (s.queueUnit c u) := by
  fun_cases State.queueUnit
  · simp only [gives_bind, gives_map]
    refine gives_iff.2 fun d _ => (State.gives_queueEng h _ _ _ _ _ _ _).mono ?_
    simp +contextual
  · trivial
theorem State.gives_runCopy (c) : Gives (fun t => Memory.wf t.mem) (s.runCopy c) := by
  unfold State.runCopy
  split
  · trivial
  next t e =>
  have ht := (State.gives_settleCmd h c).of_eq e
  rw [gives_ite]
  refine ⟨fun _ => State.wf_closeCopy ht _ _ _ _, fun _ => ?_⟩
  split
  · exact State.wf_closeCopy ht _ _ _ _
  extract_lets rs faults oks stale todo
  split
  · exact State.gives_queueUnit ht _ _
  rw [gives_ite]
  refine ⟨fun _ => trivial, fun _ => ?_⟩
  split
  extract_lets u v reqs
  have hu : Memory.wf u.mem := by simp +zetaDelta [ht]
  have hv : Memory.wf v.mem := wf_foldl _ (by simp +contextual) _ hu
  rw [gives_ite]
  exact ⟨fun _ => State.wf_closeCopy hv _ _ _ _, fun _ => State.wf_readsDone (by exact hv) _⟩
theorem State.gives_runFlag (c a) : Gives (fun t => Memory.wf t.mem) (s.runFlag c a) := by
  unfold State.runFlag
  split
  · trivial
  · next t e =>
    have ht := (State.gives_settleCmd h c).of_eq e
    dsimp only
    repeat' split
    all_goals simp [ht]
    exact (State.gives_queueEng ht _ _ _ _ _ _ _).mono (by simp +contextual)
theorem State.leaves_rankContribute (a m r e k d l) : (s.rankContribute a m r e k d l).Leaves := by
  fun_cases State.rankContribute <;> try trivial
  all_goals
    have hw := wf_foldl (fun t (p : Nat × Nat) => t.write (((l.drop (p.2 * e)).take e).mapIdx fun j b => (p.1 + j, b))) (by simp +contextual)
      (k.zip (List.range k.length)) h
  · exact State.wf_wr (wf_foldl _ (by simp +contextual) _ hw) _ _ _
  · exact State.wf_wr hw _ _ _
theorem leads_execCredRankContribution : Leads (execCredRankContribution s) :=
  leads_runEvent h fun x => by
    split
    · trivial
    · dsimp only
      rw [gives_ite]
      refine ⟨fun _ => trivial, fun _ => ?_⟩
      split
      · trivial
      · next t e =>
        have ht := (State.gives_settleCmd h _).of_eq e
        rw [gives_ite]
        refine ⟨fun _ => State.wf_closeCopy ht _ _ _ _, fun _ => ?_⟩
        split
        · exact State.wf_closeCopy ht _ _ _ _
        · split
          · exact State.wf_closeCopy ht _ _ _ _
          · rw [gives_ite]
            refine ⟨fun _ => State.wf_closeCopy ht _ _ _ _, fun _ => ?_⟩
            repeat' split
            all_goals try simp [ht]
            next e =>
            have hw := (State.leaves_rankContribute ht _ _ _ _ _ _ _).of_eq e
            exact State.wf_readsDone (by simpa using hw) _
theorem leads_execCommandReleaseStart : Leads (execCommandReleaseStart s) :=
  leads_runEvent h fun x => by
    dsimp only
    repeat' split
    all_goals simp
    exact State.gives_settleCmd h _
theorem leads_execCopyNotbeforeStart : Leads (execCopyNotbeforeStart s) :=
  leads_runEvent h fun x => by
    repeat' split
    all_goals simp [h]
theorem leads_execCopyCommandComplete : Leads (execCopyCommandComplete s) :=
  leads_runEvent h fun x => by
    split
    · trivial
    · simp [h]
      intros
      split
      · exact State.gives_runFlag h _ _
      · simp [State.gives_copyUnit h, State.gives_runCopy h]
theorem State.gives_deliver (c u w v) : Gives (fun t => Memory.wf t.mem) (s.deliver c u w v) := by
  have hm (c : Cmd) (k n d x : Nat) (y : Cmd) : Memory.wf (((s.engWrite c (s.applyUnit c k n x) k d).ringBytes c n).readsDone y).2.mem :=
    State.wf_readsDone (by simp [h]) y
  unfold State.deliver
  dsimp only
  repeat' split
  all_goals simp [h, hm]
  exact (State.gives_queueEng h _ _ _ _ _ _ _).mono (by simp +contextual)
theorem State.gives_answer (c i o p d) : Gives (fun t => Memory.wf t.mem) (s.answer c i o p d) := by
  unfold State.answer
  dsimp only
  repeat' split
  all_goals simp [h]
  exact State.gives_deliver h _ _ _ _
theorem yields_readPacket (k a) : Yields (fun p => Memory.wf p.2.mem) (readPacket k s a) := by
  simp +contextual [readPacket, h]
theorem State.leaves_chainStep (x o a p) : (s.chainStep x o a p).Leaves := by
  fun_cases State.chainStep <;> simp [StepEnd.Leaves, h]
theorem State.gives_originStep (c) : Gives (fun t => Memory.wf t.mem) (s.originStep c) := by
  unfold State.originStep
  dsimp only
  split
  · exact h
  · simp [h]
  · split
    · simp only [gives_map]
      exact (State.gives_queueEng h _ _ _ _ _ _ _).mono (by simp +contextual)
    · rw [gives_ite]
      refine ⟨fun _ => trivial, fun _ => ?_⟩
      split
      · exact h
      · next e =>
        simp [(State.leaves_chainStep h _ _ _ _).of_eq e]
theorem State.gives_servedStep (n c) : Gives (fun t => Memory.wf t.mem) (s.servedStep n c) := by
  fun_cases State.servedStep <;> try trivial
  all_goals
    next e _ =>
    have hw := (State.leaves_chainStep (s := { s with chains := s.chains.eraseIdx n }) h _ _ _ _).of_eq e
    exact hw
theorem leads_execChaseStep : Leads (execChaseStep s) :=
  leads_runEvent h fun x => by
    dsimp only
    repeat' split
    all_goals try trivial
    · exact State.gives_servedStep h _ _
    · exact State.gives_originStep h _
    · next e _ => exact State.gives_originStep ((State.gives_settleCmd h _).of_eq e) _
    · next t e _ => exact show Memory.wf t.mem from (State.gives_settleCmd h _).of_eq e
theorem leads_execChaseResult : Leads (execChaseResult s) :=
  leads_runEvent h fun x => by
    dsimp only
    repeat' split
    all_goals simp [h]

end
end Sys2Proof.Machine
end

section
namespace Sys2Proof.Machine
open Sys2Proof

/-! ### Repartitioning (R263 to R270) -/

theorem yields_readBlock {s : State} (h : Memory.wf s.mem) (k a) : Yields (fun p => Memory.wf p.2.mem) (readBlock k s a) := by
  simp +contextual [readBlock, h]

section
variable {s : State} (h : Memory.wf s.mem)
include h
@[simp] theorem State.wf_repStore (c v i d) : Memory.wf (s.repStore c v i d).2.mem := by
  refine List.foldlRecOn (motive := fun r : List (Nat × Sys2Proof.Cell) × State => Memory.wf r.2.mem) _ _ h fun r hr p _ => ?_
  dsimp only
  split <;> simp [hr]
omit h in
/-- Items put one after another leave canonical memory. -/
theorem State.wf_foldl_repStore (c : Cmd) (base isz tag : Nat) (l : List (RepItem × Nat)) {r : List (Nat × Sys2Proof.Cell) × State} (hr : Memory.wf r.2.mem) :
    Memory.wf (l.foldl (fun r p => let q := r.2.repStore c (base + p.2 * isz) (4 * (p.2 * isz) + tag) p.1.data; (r.1 ++ q.1.reverse, q.2)) r).2.mem :=
  List.foldlRecOn (motive := fun r : List (Nat × Sys2Proof.Cell) × State => Memory.wf r.2.mem) _ _ hr fun _ hr _ _ => State.wf_repStore hr _ _ _ _
@[simp] theorem State.wf_collective (c m) : Memory.wf (s.collective c m).2.mem := by
  fun_cases State.collective <;> try exact h
  next w u e _ _ _ _ =>
  have hw : Memory.wf (w, u).2.mem := by
    rw [← e]
    exact State.wf_foldl_repStore _ _ _ _ _ (State.wf_foldl_repStore _ _ _ _ _ h)
  exact hw
theorem leads_execRepartCollective : Leads (execRepartCollective s) :=
  leads_runEvent h fun x => by
    repeat' split
    all_goals try trivial
    all_goals
      have ht := (State.gives_settleCmd h _).of_eq ‹_›
      simp [ht]
theorem State.gives_takeItem (x t r i o d) : Gives (fun t => Memory.wf t.mem) (s.takeItem x t r i o d) := by
  unfold State.takeItem
  dsimp only
  repeat' split
  all_goals simp [h]
theorem leads_execRepartComplete : Leads (execRepartComplete s) :=
  leads_runEvent h fun x => by
    split
    · trivial
    · dsimp only
      rw [gives_ite]
      refine ⟨fun _ => trivial, fun _ => ?_⟩
      rw [gives_some, State.finishCmd_mem]
      exact State.wf_engPut (wf_foldl _ (by simp +contextual) _ (wf_foldl _ (by simp +contextual) _ h)) _ _ _ _
end

/-! ### The matrix engine -/
@[simp] theorem State.setHandle_mem (s : State) (x) : (s.setHandle x).mem = s.mem := rfl
@[simp] theorem State.setRegion_mem (s : State) (r x) : (s.setRegion r x).mem = s.mem := rfl
@[simp] theorem State.releaseHandle_mem (s : State) (x) : (s.releaseHandle x).mem = s.mem := mem_foldl _ (by simp) _ _
@[simp] theorem State.bind_mem (s : State) (x r c l) : (s.bind x r c l).mem = s.mem := mem_foldl _ (by simp) _ _
@[simp] theorem State.setAccWord_mem (s : State) (x m n v) : (s.setAccWord x m n v).mem = s.mem := by
  fun_cases State.setAccWord <;> simp
@[simp] theorem State.mxEnd_mem (s : State) (c x y z w) : (s.mxEnd c x y z w).mem = s.mem := rfl
@[simp] theorem State.askUci_mem (s : State) (c) : (s.askUci c).mem = s.mem := rfl
@[simp] theorem State.nameHandle_mem (s : State) (k h x) : (s.nameHandle k h x).mem = s.mem := rfl

section
variable {s : State} (h : Memory.wf s.mem) {Q : State → Prop} {QN : Nat × State → Prop}
include h
@[simp] theorem State.wf_writeProgress (c) : Memory.wf (s.writeProgress c).mem := wf_foldl _ (by simp +contextual) _ h
theorem State.gives_readRecord (c) : Gives (fun t => Memory.wf t.mem) (s.readRecord c) := by
  unfold State.readRecord
  split
  · trivial
  next t e =>
  have ht := (State.gives_settleCmd h c).of_eq e
  split <;> simp [ht]
theorem State.gives_startOp (c) : Gives (fun t => Memory.wf t.mem) (s.startOp c) := by
  fun_cases State.startOp <;> trivial
theorem State.gives_moveTile (c a r k b) : Gives (fun t => Memory.wf t.mem) (s.moveTile c a r k b) := by
  unfold State.moveTile
  extract_lets x ws free
  rw [gives_ite]
  refine ⟨fun _ => h, fun _ => ?_⟩
  split
  · trivial
  next t e =>
  have ht := (State.gives_settleCmd h c).of_eq e
  extract_lets place places bad good todo todo' t1 poison fails
  have h1 : Memory.wf t1.mem := wf_foldl _ (by simp +contextual) _ ht
  clear_value t1 fails poison bad
  rw [gives_ite, gives_ite]
  refine ⟨fun _ => trivial, fun _ => ⟨fun _ => ?_, fun _ => ?_⟩⟩
  · split <;> simp [h1]
  · split
    next u n e =>
    have hu : Memory.wf (u, n).1.mem :=
      e ▸ List.foldlRecOn (motive := fun p : State × Nat => Memory.wf p.1.mem) _ _ ht fun p hp w _ => by simpa using hp
    repeat' split
    all_goals simp [show Memory.wf u.mem from hu]
theorem State.gives_startMxz (c x r k f b) : Gives (fun t => Memory.wf t.mem) (s.startMxz c x r k f b) := by
  simp [State.startMxz, h]
theorem leads_execMatrixOperationStart : Leads (execMatrixOperationStart s) :=
  leads_runEvent h fun x => by
    repeat' split
    all_goals try trivial
    · exact State.gives_readRecord h _
    · exact State.gives_startOp h _
    · exact State.gives_startMxz h _ _ _ _ _ _
    · exact State.gives_moveTile h _ _ _ _ _
    · exact State.gives_moveTile h _ _ _ _ _
theorem leads_execMatrixBindGrant : Leads (execMatrixBindGrant s) :=
  leads_runEvent h fun x => by
    dsimp only
    repeat' split
    all_goals simp [h]
@[simp] theorem State.wf_parkMatrix (c) : Memory.wf (s.parkMatrix c).mem := by simp [State.parkMatrix, h]
theorem leads_execMatrixRowGroup : Leads (execMatrixRowGroup s) :=
  leads_runEvent h fun x => by
    dsimp only
    repeat' split
    all_goals try simp [h]
    all_goals rwa [mem_foldl _ (by simp)]
theorem leads_execMatrixResume : Leads (execMatrixResume s) :=
  leads_runEvent h fun x => by
    dsimp only
    split <;> simp [h]
theorem leads_execMatrixComplete : Leads (execMatrixComplete s) :=
  leads_runEvent h fun x => by
    dsimp only
    split
    · trivial
    · simp [h, State.wf_engPut h]
@[simp ↓] theorem State.yields_postTile (k c a v) : Yields QN (s.postTile k c a v) ↔ ∀ p, s.postTile k c a v = .ok p → Memory.wf p.2.mem → QN p := by
  apply Yields.iff
  simp [State.postTile, h]
theorem leads_execMxq {d a} : Leads (execMxq d a s) :=
  leads_runSeq h fun k t ht => by
    simp
    intros
    repeat' split
    all_goals simp +contextual [ht]
theorem leads_execMxz {d a i} : Leads (execMxz d a i s) :=
  leads_runSeq h fun k t ht => by simp +contextual [ht]
theorem leads_execMxzFree {d} : Leads (execMxzFree d s) :=
  leads_runSeq h fun k t ht => by simp +contextual [ht]
@[simp ↓] theorem State.yields_checkTile (k a l) : Yields Q (s.checkTile k a l) ↔ ∀ t, s.checkTile k a l = .ok t → Memory.wf t.mem → Q t := by
  apply Yields.iff
  induction l generalizing s with
  | nil => exact h
  | cons w r ih =>
    simp only [State.checkTile]
    split
    · simp
    · split
      · simp
      · simp +contextual [h, (ih _).iff]
theorem leads_moveInstr {i d a b c k f} : Leads (moveInstr i d a b c k f s) :=
  leads_runSeq h fun k t ht => by 
    simp +contextual [ht]
    intros
    split <;> simp +contextual [ht]
end
end Sys2Proof.Machine
end

section
namespace Sys2Proof.Machine
open Sys2Proof

/-! ### The rule engine -/

@[simp] theorem State.drawOpen_mem (s : State) (c t) : (s.drawOpen c t).mem = s.mem := by simp [State.drawOpen]
@[simp] theorem State.parkRule_mem (s : State) (c) : (s.parkRule c).mem = s.mem := by simp [State.parkRule]
@[simp] theorem State.ruleEnd_mem (s : State) (c n a) : (s.ruleEnd c n a).mem = s.mem := rfl
theorem State.yields_checkDesc (s : State) (k a) : Yields (fun _ => True) (s.checkDesc k a) := by
  fun_cases State.checkDesc <;> simp
theorem yields_readABC (a b c k) : Yields (fun _ => True) (readABC a b c k) := by simp [readABC]

section
variable {s : State} (h : Memory.wf s.mem)
include h
@[simp] theorem State.wf_cspPut (c o b) : Memory.wf (s.cspPut c o b).mem := State.wf_write h _
@[simp] theorem State.wf_putRows (c t b p r) : Memory.wf (s.putRows c t b p r).mem := wf_foldl _ (by simp +contextual) _ h
@[simp] theorem State.wf_putDesc (c k x) : Memory.wf (s.putDesc c k x).mem := State.wf_engPut h _ _ _ _
@[simp] theorem State.wf_putW2 (c w) : Memory.wf (s.putW2 c w).mem := by
  have hw := State.wf_putDesc h c 2 w
  fun_cases State.putW2 <;> simp [hw]
theorem State.gives_startRstep (c) : Gives (fun t => Memory.wf t.mem) (s.startRstep c) := by
  unfold State.startRstep
  split
  · trivial
  next t e =>
  have ht := (State.gives_settleCmd h c).of_eq e
  dsimp only
  split
  · trivial
  · simp [ht]
  · iterate 4 rw [gives_ite]; refine ⟨fun _ => by simp [ht], fun _ => ?_⟩
    split <;> simp [ht]
theorem State.gives_readAhead (c o) : Gives (fun t => Memory.wf t.mem) (s.readAhead c o) := by
  unfold State.readAhead
  dsimp only
  rw [gives_ite]
  refine ⟨fun _ => trivial, fun _ => ?_⟩
  split <;> simp [h]
theorem State.gives_ruleUnit (c) : Gives (fun t => Memory.wf t.mem) (s.ruleUnit c) := by
  fun_cases State.ruleUnit <;> simp +zetaDelta [h]
theorem leads_execRuleHalfStep : Leads (execRuleHalfStep s) :=
  leads_runEvent h fun x => by
    split
    · trivial
    · simp [h, State.gives_startRstep h, State.gives_readAhead h, State.gives_ruleUnit h]
theorem leads_execRuleResume : Leads (execRuleResume s) :=
  leads_runEvent h fun x => by
    split
    · trivial
    · rw [gives_ite]
      refine ⟨fun _ => trivial, fun _ => ?_⟩
      split <;> simp [h]
@[simp] theorem State.wf_putStatus (c) : Memory.wf (s.putStatus c).mem := by
  fun_cases State.putStatus <;> simp [h]
@[simp] theorem State.wf_ruleDone (c) : Memory.wf (s.ruleDone c).mem := by simp [State.ruleDone, h]
@[simp] theorem State.wf_runRcfg (c) : Memory.wf (s.runRcfg c).mem := by
  rw [State.runRcfg, State.finishCmd_mem]
  exact State.wf_putDesc (State.wf_putDesc (State.wf_putDesc (State.wf_putDesc h _ _ _) _ _ _) _ _ _) _ _ _
theorem State.gives_runRtab (c) : Gives (fun t => Memory.wf t.mem) (s.runRtab c) := by
  unfold State.runRtab
  extract_lets r u
  have hu : Memory.wf u.mem := by simpa [u] using h
  clear_value r u
  split
  · trivial
  · simp [h]
  · extract_lets t
    iterate 2 rw [gives_ite]; refine ⟨fun _ => by simp [h], fun _ => ?_⟩
    split
    · trivial
    · simp [h]
    · rw [gives_ite]
      refine ⟨fun _ => by simp [h], fun _ => ?_⟩
      rw [gives_some, State.finishCmd_mem]
      exact State.wf_putDesc (State.wf_putDesc (State.wf_cspPut hu _ _ _) _ _ _) _ _ _
theorem leads_execRuleCommandComplete : Leads (execRuleCommandComplete s) :=
  leads_runEvent h fun x => by
    split
    · trivial
    next c _ =>
    have hc := State.gives_settleCmd h c
    split
    · rw [gives_ite, gives_map]
      exact ⟨fun _ => hc.mono fun t ht => State.wf_runRcfg ht c, fun _ => trivial⟩
    · rw [gives_ite]
      refine ⟨fun _ => ?_, fun _ => trivial⟩
      split
      next t e => exact State.gives_runRtab (hc.of_eq e) c
      · trivial
    · simp [h]
    · trivial
theorem leads_execRuleAbandon : Leads (execRuleAbandon s) :=
  leads_runEvent h fun x => by split <;> simp [h]
theorem leads_postRule {i d kind ops} (ho : ∀ c, Yields (fun _ => True) (ops c)) : Leads (postRule i d kind ops s) :=
  leads_runSeq h fun k t ht => by
    rw [yields_bind, (ho _).plain]
    intro p _
    dsimp only
    rw [yields_bind, (State.yields_checkDesc _ _ _).plain]
    intros
    simp [ht]
theorem leads_execRcfg {d a b c} : Leads (execRcfg d a b c s) := leads_postRule h fun k => yields_readABC a b c k
theorem leads_execRtab {d a b c} : Leads (execRtab d a b c s) := leads_postRule h fun k => yields_readABC a b c k
theorem leads_execRstep {r n d a b} : Leads (execRstep r n d a b s) := leads_postRule h fun k => by simp
theorem leads_execRgen {d a} : Leads (execRgen d a s) :=
  leads_runSeq h fun k t ht => by simp [(State.yields_checkDesc _ _ _).plain, ht]
end
end Sys2Proof.Machine
end

section
namespace Sys2Proof.Machine
open Sys2Proof

/-! ### The supervisor's instructions (R362 to R366) -/

theorem Gives.getD {α : Type} {P : α → Prop} {o : Option α} (h : Gives P o) {d : α} (hd : P d) : P (o.getD d) := by cases o <;> assumption

@[simp] theorem State.setGong_mem (s : State) (p n t) : (s.setGong p n t).mem = s.mem := by fun_cases State.setGong <;> simp
@[simp] theorem State.dropTickets_mem (s : State) (p t) : (s.dropTickets p t).mem = s.mem := rfl
@[simp] theorem State.tlbiRemove_mem (s : State) (k sc p) : (s.tlbiRemove k sc p).mem = s.mem := by simp [State.tlbiRemove]
@[simp] theorem State.releaseLaunch_mem (s : State) (l) : (s.releaseLaunch l).mem = s.mem := rfl

section
variable {s : State} (h : Memory.wf s.mem)
include h
theorem leads_execTrap {c} : Leads (execTrap c s) := leads_runCtl h fun k t ht => by simp
theorem leads_execEret : Leads (execEret s) := leads_runCtl h fun k t ht => by simp [ht]
theorem leads_execPark : Leads (execPark s) := leads_runSeq h fun k t ht => by simp [ht]
@[simp] theorem State.wf_postRelease (m) : Memory.wf (s.postRelease m).mem := by simp [State.postRelease, h]
theorem leads_execFaultMessagePost : Leads (execFaultMessagePost s) :=
  leads_runEvent h fun x => by
    split
    · trivial
    · rw [gives_some, State.wake_mem, State.modPart_mem]
      exact State.wf_wr (State.wf_postRelease (State.wf_write h _) _) _ _ _
@[simp] theorem State.wf_parkTarget (p t) : Memory.wf (s.parkTarget p t).mem := wf_foldl _ (by simp +contextual) _ h
theorem leads_execGong {a} : Leads (execGong a s) :=
  leads_runSeq h fun k t ht => by
    simp only [yields_bind, Core.yields_readS]
    intros
    split
    · trivial
    · split <;> simp [ht]
theorem leads_execGongRelease {a} : Leads (execGongRelease a s) :=
  leads_runSeq h fun k t ht => by
    simp only [yields_bind, Core.yields_readS]
    intros
    split
    · trivial
    · split
      · simp [ht]
      · simp [ht]
      · rw [yields_bind, State.yields_release ht]
        intro u _ hu
        rw [yields_ok, State.wakeAll_mem]
        exact wf_foldl _ (by simp +contextual) _ (by simpa using hu)
theorem leads_tlbi {i sc a} : Leads (tlbi i sc a s) :=
  leads_runSeq h fun k t ht => by cases a <;> simp [ht]
theorem leads_sresumeForm {i d a b c f} (hf : ∀ u j al k z, Memory.wf u.mem → Memory.wf (f u j al k z).mem) : Leads (sresumeForm i d a b c f s) :=
  leads_runSeq h fun k t ht => by
    have hu (r : Core) : Memory.wf (t.setCore k r).mem := by simpa using ht
    cases b <;> cases c <;> simp
    all_goals
      intros
      split <;> simp [hf _ _ _ _ _ (hu _), ht]
theorem leads_execSresume {d a} : Leads (execSresume d a s) := leads_sresumeForm h (by simp +contextual)
theorem leads_execSresumeAbandon {d a} : Leads (execSresumeAbandon d a s) := leads_sresumeForm h (by simp +contextual)
theorem leads_execSresumeGet {d a b} : Leads (execSresumeGet d a b s) :=
  leads_runSeq h fun k t ht => by
    simp
    intros
    repeat' split
    all_goals simp [ht]
theorem leads_execSresumePut {d a b c} : Leads (execSresumePut d a b c s) := leads_sresumeForm h fun u j al k z hu => by simp [hu]

/-! ### Contexts, the end of a launch (R356, R306, R372) -/

theorem leads_execContextSave : Leads (execContextSave s) := leads_runEvent h fun x => by simp [h]
@[simp] theorem State.wf_restoreContext (i l a) : Memory.wf (s.restoreContext i l a).mem := by
  simp only [State.restoreContext]
  repeat' split
  all_goals simp [h]
theorem leads_execContextRestore : Leads (execContextRestore s) :=
  leads_runEvent h fun x => by
    dsimp only
    split <;> simp [h]
theorem leads_execLaunchCompletion : Leads (execLaunchCompletion s) :=
  leads_runEvent h fun x => by
    split
    · trivial
    · split
      · trivial
      · rw [gives_ite, gives_some, State.wakeAll_mem, State.catchPreds_mem]
        exact ⟨fun _ => trivial, fun _ => State.wf_wr (by simpa using wf_foldl _ (by simp +contextual) _ h) _ _ _⟩
theorem leads_execAllocationRelease : Leads (execAllocationRelease s) :=
  leads_runEvent h fun x => by
    split
    · trivial
    · rw [gives_ite, gives_some, State.wakeAll_mem, State.setCluster_mem, mem_foldl _ (by simp)]
      exact ⟨fun _ => trivial, fun _ => h⟩

/-! ### Migration (R350) -/

theorem leads_execMigrationHold : Leads (execMigrationHold s) := leads_runEvent h fun x => by simp [h]
@[simp] theorem State.wf_applyRmw (p q r) : Memory.wf (s.applyRmw p q r).mem := by
  unfold State.applyRmw
  extract_lets k reply
  have hr (u : State) (hu : Memory.wf u.mem) (d) : Memory.wf (reply u d).mem := hu
  have hm : Memory.wf (s.rmwHome q.core k r).2.mem := State.wf_rmwHome h _ _ _
  clear_value reply k
  repeat' split
  · exact hr _ h _
  · exact hr _ (by simp [h]) _
  · simp [h]
  next e =>
    rw [e] at hm
    simpa using hm
@[simp] theorem State.wf_applyEng (p q i j o) : Memory.wf (s.applyEng p q i j o).mem := by
  unfold State.applyEng
  split
  · exact h
  next c _ =>
  extract_lets k bad answer
  have ha (u : State) (hu : Memory.wf u.mem) (b) : Memory.wf (answer u b).mem := (State.gives_answer hu _ _ _ _ _).getD hu
  clear_value answer
  cases o with
  | flag add v => simp [ha, h]
  | cred m n x => simp [ha, h]
  | chase =>
    dsimp only
    split
    · simp [h]
    next e => simpa using (State.leaves_chainStep h _ _ _ _).of_eq e
@[simp] theorem State.wf_applyHeld (p q l) : Memory.wf (s.applyHeld p q l).2.mem := by
  unfold State.applyHeld
  split
  · simp [h]
  · simp [h]
  · dsimp only
    repeat' split
    all_goals simp [h]
omit h in
theorem State.wf_applyHelds {s : State} (h : Memory.wf s.mem) (p d l) : Memory.wf (s.applyHelds p d l).mem := by
  induction l generalizing s d with
  | nil => exact h
  | cons q r ih =>
    apply ih
    split <;> simp [h]
omit h in
@[simp] theorem State.movePage_mem (s : State) (p) : (s.movePage p).mem = s.mem := rfl
theorem leads_execMigrationRelease : Leads (execMigrationRelease s) :=
  leads_runEvent h fun x => by
    split
    · trivial
    · rw [gives_some, State.wakeAll_mem]
      exact State.wf_applyHelds (by simpa using h) _ _ _
end
end Sys2Proof.Machine
end

section
namespace Sys2Proof.Machine
open Sys2Proof

/-! ### The fabric (R254, R258, R352) -/

@[simp] theorem State.peerReset_mem (s : State) (n w c) : (s.peerReset n w c).mem = s.mem := by
  simp only [State.peerReset]
  repeat' split
  all_goals rfl
@[simp] theorem State.announce_mem (s : State) : s.announce.mem = s.mem := by simp [State.announce]
@[simp] theorem State.bump_mem (s : State) (i f m) : (s.bump i f m).mem = s.mem := rfl

section
variable {s : State} (h : Memory.wf s.mem)
include h
theorem State.gives_serveRank (x o a r e k d l) : Gives (fun t => Memory.wf t.mem) (s.serveRank x o a r e k d l) := by
  unfold State.serveRank
  dsimp only
  iterate 5 rw [gives_ite]; refine ⟨fun _ => h, fun _ => ?_⟩
  rw [gives_ite]
  refine ⟨fun _ => trivial, fun _ => ?_⟩
  split
  · trivial
  · exact h
  · exact h
  next e =>
    have ht := (State.leaves_rankContribute h _ _ _ _ _ _ _).of_eq e
    simp [ht]
theorem State.gives_servePart (x o a r e t) : Gives (fun t => Memory.wf t.mem) (s.servePart x o a r e t) := by
  unfold State.servePart
  extract_lets mate mates part all ps t
  rw [gives_ite]
  exact ⟨fun _ => h, fun _ => State.gives_serveRank (s := t) h _ _ _ _ _ _ _ _⟩
theorem State.gives_serve (x) : Gives (fun t => Memory.wf t.mem) (s.serve x) := by
  unfold State.serve
  extract_lets chip refuse
  have hr : Gives (fun t => Memory.wf t.mem) refuse := h
  clear_value refuse
  split
  · simp [hr, h]
  · simp [hr, h]
  · simp [hr, h]
  · exact State.gives_servePart h _ _ _ _ _ _
  · simp [hr, h]
  · repeat' split
    all_goals simp [h]
  · repeat' split
    all_goals simp [h]
  · split
    · exact State.gives_answer h _ _ _ _ _
    · exact h
  · exact State.gives_takeItem h _ _ _ _ _ _
  · simp [h]
  · exact h
theorem State.gives_learnPeer (n i) : Gives (fun t => Memory.wf t.mem) (s.learnPeer n i) := by
  simp only [State.learnPeer, gives_ite, gives_some, mem_foldl _ fun s c => State.peerReset_mem s _ _ c]
  exact ⟨fun _ => trivial, fun _ => h⟩
theorem leads_execIncarnAnnouncement : Leads (execIncarnAnnouncement s) := leads_runEvent h fun _ => State.gives_learnPeer h _ _
theorem leads_execFabricCellArrival : Leads (execFabricCellArrival s) :=
  leads_runEvent h fun x => by
    split
    · trivial
    · simp [State.gives_learnPeer h, State.gives_serve h]
theorem leads_execFabricSlot : Leads (execFabricSlot s) :=
  leads_runEvent h fun x => by
    rw [gives_ite]
    refine ⟨fun _ => trivial, fun _ => ?_⟩
    dsimp only
    repeat' split
    all_goals exact h
theorem leads_execLinkCrcRetry : Leads (execLinkCrcRetry s) := leads_runEvent h fun _ => h
theorem leads_execLinkRetrain : Leads (execLinkRetrain s) := leads_runEvent h fun x => by simp [h]
end

/-! ### Time, errors, lifetime records (R259, R367, R374) -/

@[simp] theorem State.addTime_mem (s : State) (n) : (s.addTime n).mem = s.mem := rfl
@[simp] theorem State.discipline_mem (s : State) (i n) : (s.discipline i n).mem = s.mem := by
  simp only [State.discipline]
  repeat' split
  all_goals rfl
@[simp] theorem State.poison_mem (s : State) (x) : (s.poison x).mem = s.mem := by
  unfold State.poison
  dsimp only
  repeat' split
  all_goals simp
@[simp] theorem State.sense_mem (s : State) (x) : (s.sense x).mem = s.mem := by simp [State.sense]
@[simp] theorem State.wrpcb_mem (s : State) (p k v m) : (s.wrpcb p k v m).2.mem = s.mem := by
  fun_cases State.wrpcb <;> simp
@[simp] theorem State.reply_mem (s : State) (p k d) : (s.reply p k d).mem = s.mem := rfl
@[simp] theorem State.signed_mem (s : State) (p k r m) : (s.signed p k r m).mem = s.mem := rfl

section
variable {s : State} (h : Memory.wf s.mem)
include h
theorem leads_execTimeCounterTick : Leads (execTimeCounterTick s) := leads_runEvent h fun _ => h
theorem leads_execPtpSync : Leads (execPtpSync s) := leads_runEvent h fun x => by simp [h]
theorem leads_execSyncTimeout : Leads (execSyncTimeout s) := leads_runEvent h fun _ => h
theorem leads_execReferencePulse : Leads (execReferencePulse s) := leads_runEvent h fun x => by simp [h]
theorem leads_execCorrectedError : Leads (execCorrectedError s) :=
  leads_runEvent h fun x => by cases x.site.bind siteIndex <;> [trivial; exact h]
theorem leads_execUncorrectableError : Leads (execUncorrectableError s) :=
  leads_runEvent h fun x => by cases x.site <;> simp [h]
theorem leads_execVoltageDroop : Leads (execVoltageDroop s) := leads_runEvent h fun x => by simp [h]
theorem leads_execLifetimeRecordFlush : Leads (execLifetimeRecordFlush s) := leads_runEvent h fun _ => h
theorem leads_execThermalInterval : Leads (execThermalInterval s) :=
  leads_runEvent h fun x => by simpa [mem_foldl _ (fun s d => State.bump_mem s _ _ _)] using h

/-! ### The management controller (R373, R355, R406) -/

theorem State.gives_serveMgmt (p n) {f} (hf : ∀ c, Gives (fun r => Memory.wf r.state.mem) (f c)) : Gives (fun t => Memory.wf t.mem) (s.serveMgmt p n f) := by
  simp only [State.serveMgmt, gives_ite, gives_map]
  refine ⟨fun _ => trivial, fun _ => (hf _).mono fun r hr => ?_⟩
  rw [State.wake_mem]
  refine State.wf_wr (State.wf_write ?_ _) _ _ _
  split
  · exact h
  · exact hr
theorem leads_execWrpcb : Leads (execWrpcb s) := leads_runEvent h fun x => State.gives_serveMgmt h _ _ fun c => by simp [h]
theorem leads_execPeeract : Leads (execPeeract s) := leads_runEvent h fun x => State.gives_serveMgmt h _ _ fun c => by simp [mgmtFail, h]
theorem leads_execRdlife : Leads (execRdlife s) :=
  leads_runEvent h fun x => State.gives_serveMgmt h _ _ fun c => by
    rw [gives_ite]
    refine ⟨fun _ => trivial, fun _ => ?_⟩
    split <;> exact h
theorem leads_execWrflow : Leads (execWrflow s) := leads_runEvent h fun x => State.gives_serveMgmt h _ _ fun c => by simp [mgmtFail, h]
theorem leads_execMgmtBadcmd : Leads (execMgmtBadcmd s) := leads_runEvent h fun x => State.gives_serveMgmt h _ _ fun c => by simp [mgmtFail, h]
theorem leads_execGetMeasurements : Leads (execGetMeasurements s) :=
  leads_runEvent h fun x => by
    dsimp only
    split <;> simp [h]
theorem leads_execPldmMonitoring : Leads (execPldmMonitoring s) := leads_runEvent h fun x => by simp [h]
theorem leads_execMctpRdlife : Leads (execMctpRdlife s) := leads_runEvent h fun _ => by split <;> exact h
theorem leads_execWrcfg : Leads (execWrcfg s) := leads_runEvent h fun x => by simp [h]
end
end Sys2Proof.Machine
end

section
namespace Sys2Proof.Machine
open Sys2Proof

/-! ### The host and resets (R400 to R405) -/

theorem wf_nil : Memory.wf ([] : SMap Byte) := rfl
@[simp] theorem State.resetModule_mem (s : State) : s.resetModule.mem = [] := rfl

section
variable {s : State} (h : Memory.wf s.mem)
include h
theorem leads_execHostQueueTailWrite : Leads (execHostQueueTailWrite s) := leads_runEvent h fun x => by simp [h]
theorem leads_execHostQueueControlWrite : Leads (execHostQueueControlWrite s) := leads_runEvent h fun x => by simp [h]
theorem leads_execRegisterWrite : Leads (execRegisterWrite s) :=
  leads_runEvent h fun x => by
    dsimp only
    iterate 3 rw [gives_ite]; refine ⟨fun _ => by simp [h], fun _ => ?_⟩
    split <;> exact h
theorem State.gives_hostWrite (p l) : Gives (fun t => Memory.wf t.mem) (s.hostWrite p l) := by
  simp only [State.hostWrite, gives_ite, gives_some, State.hostWrote_mem]
  exact ⟨fun _ => trivial, fun _ => State.wf_write (by simpa [mem_foldl _ (fun s q => State.queueAt_mem s q _)] using h) _⟩
theorem State.gives_hostAtomic (p k r) : Gives (fun t => Memory.wf t.mem) (s.hostAtomic p k r) := by
  simp only [State.hostAtomic, gives_ite]
  refine ⟨fun _ => trivial, fun _ => ?_⟩
  split <;> simp [h]
theorem leads_execHostBar2Access : Leads (execHostBar2Access s) :=
  leads_runEvent h fun x => by
    dsimp only
    rw [gives_ite]
    refine ⟨fun _ => trivial, fun _ => ?_⟩
    split <;> simp [h, State.gives_hostWrite h, State.gives_hostAtomic h]
theorem leads_execModuleReset : Leads (execModuleReset s) := leads_runEvent h fun x => by simp [wf_nil]
theorem leads_execFunctionLevelReset : Leads (execFunctionLevelReset s) :=
  leads_runEvent h fun x => by
    simp only [gives_ite, gives_some, State.modPart_mem]
    exact ⟨fun _ => trivial, fun _ => wf_foldl _ (by simp +contextual) _ h⟩
theorem leads_execLink1Reset : Leads (execLink1Reset s) := leads_runEvent h fun _ => h
theorem leads_execOverTemperature : Leads (execOverTemperature s) := leads_runEvent h fun x => by simp [wf_nil]
theorem leads_execPartitionReady : Leads (execPartitionReady s) := leads_runEvent h fun x => by simp [h]
theorem leads_execPowerLoss : Leads (execPowerLoss s) := leads_runEvent h fun _ => h

/-! ### Branches and modifier words (R36 to R41, R98 to R100) -/

theorem leads_runBranch {i f} (hf : ∀ k w c, Yields (fun _ => True) (f k w c)) : Leads (runBranch i f s) :=
  leads_runCtl h fun k t ht => by
    simp only [yields_bind, yields_trapIf, (hf _ _ _).plain]
    intro _ p _
    refine (State.yields_sendWords _ _ ?_).mono fun u hu => ?_ <;> simpa
theorem leads_branchIf {i a b off p} : Leads (runBranch i (branchIf a b off p) s) := leads_runBranch h fun k w c => by simp [branchIf]
theorem leads_execJr {d a} : Leads (execJr d a s) := leads_runBranch h fun k w c => by simp
theorem leads_execBk {m k o} : Leads (execBk m k o s) := leads_runBranch h fun _ w c => by simp
theorem leads_runPfx : Leads (runPfx s) := by simp [runPfx, h]
theorem leads_execUnassignedEncoding : Leads (execUnassignedEncoding s) := State.wf_takeTrap h _ _ _ _

/-! ### Repeat frames (R44 to R49) -/

omit h in
theorem State.capture_mem {k f n va l} {p : List IWord × State} (e : s.capture k f n va l = .ok p) : p.2.mem = s.mem := by
  fun_induction State.capture s k f n va l with
  | case1 s n va l => cases e; rfl
  | case2 s f va l => cases e; rfl
  | case3 => cases e
  | case4 s f n va l w t ew _ ih => exact (ih e).trans (State.fetchWord_mem ew)
  | case5 => cases e
  | case6 s f n va l w t ew _ _ w1 u e1 ih => exact (ih e).trans ((State.fetchWord_mem e1).trans (State.fetchWord_mem ew))
  | case7 s f n va l w t ew _ _ ih => exact (ih e).trans (State.fetchWord_mem ew)
theorem leads_execRpt {cs a n b1 b2 b3 n1} : Leads (execRpt cs a n b1 b2 b3 n1 s) :=
  leads_runCtl h fun k t ht => by
    dsimp only
    split
    · trivial
    next ws u e =>
    have hu : Memory.wf u.mem := (State.capture_mem e).symm ▸ ht
    split
    · trivial
    · simp [hu]
theorem leads_execRptIteration : Leads (execRptIteration s) := by
  unfold execRptIteration
  extract_lets k c r m t y trap wait
  split
  · exact h
  · have hw : Leads wait := by simpa [wait] using h
    have htrap (j q v) : Leads (trap j q v) := by simp [trap, h]
    clear_value wait trap
    split
    · exact htrap _ _ _
    · exact hw
    · exact hw
    next c' _ =>
      extract_lets c2 u
      have hu : Memory.wf u.mem := by simpa [u, State.pushOut_mem] using h
      have hs := State.yields_sendWords (s := u) k c'.txq hu
      split
      next e => simpa [e] using hs
      · exact hw

/-! ### System registers (R97) -/

theorem leads_execSget {d n} : Leads (execSget d n s) := leads_runSeq h fun k t ht => by simp +contextual [ht]
theorem leads_execSset {a n} : Leads (execSset a n s) := leads_runSeq h fun k t ht => by simp +contextual [ht]
end
end Sys2Proof.Machine
end

section
namespace Sys2Proof.Machine
open Sys2Proof

/-! ### Instructions that act on one core

Their bodies trap or stall, but never wait in a state of their own. -/

/-- A body that never answers a state to wait in. -/
def CoreBody.Plain (b : CoreBody) : Prop := ∀ k c, Yields (fun _ => True) (b k c)

theorem Core.yields_putPair (c : Core) (d l m z) : Yields (fun _ => True) (c.putPair d l m z) := by simp [Core.putPair, -Nat.reducePow]
theorem Core.yields_putPart (c : Core) (d x p m z) : Yields (fun _ => True) (c.putPart d x p m z) := by
  unfold Core.putPart
  simp only [yields_ite, yields_bind, Core.yields_putV, yields_ok, implies_true, and_self]

theorem plain_unS {d a f} : (unS d a f).Plain := fun k c => by simp [unS]
theorem plain_binS {d a b f} : (binS d a b f).Plain := fun k c => by simp [binS]
theorem plain_triS {d a b e f} : (triS d a b e f).Plain := fun k c => by simp [triS]
theorem plain_immS {d a i f} : (immS d a i f).Plain := fun k c => by simp [immS]
theorem plain_constS {d f} : (constS d f).Plain := fun k c => by simp [constS]
theorem plain_binK {d a b f} : (binK d a b f).Plain := fun k c => by simp [binK]
theorem plain_maskS {d a f} : (maskS d a f).Plain := fun k c => by simp [maskS]
theorem plain_bodyKnot {d a} : (bodyKnot d a).Plain := fun k c => by simp [bodyKnot]
theorem plain_bodyKmovk {d a} : (bodyKmovk d a).Plain := fun k c => by simp [bodyKmovk]

theorem plain_binF {x d a b f} : (binF x d a b f).Plain := fun k c => by simp [binF]
theorem plain_bodyFsqrt {x d a} : (bodyFsqrt x d a).Plain := fun k c => by simp [bodyFsqrt]
theorem plain_bodyFcvt {t s d a} : (bodyFcvt t s d a).Plain := fun k c => by simp [bodyFcvt]

theorem plain_vUn {f d a op} : (vUn f d a op).Plain := fun k c => by simp [vUn]
theorem plain_vBin {f bc d a b op} : (vBin f bc d a b op).Plain := fun k c => by simp [vBin]
theorem plain_vCmp {f bc d a b p q} : (vCmp f bc d a b p q).Plain := fun k c => by simp [vCmp]
theorem plain_vTri {f p q d a b e x y} : (vTri f p q d a b e x y).Plain := fun k c => by simp [vTri]
theorem plain_vExtreme {f m d a} : (vExtreme f m d a).Plain := fun k c => by cases hf : fmtInfo f <;> simp [vExtreme, hf]
theorem plain_bodyVreds {f d a} : (bodyVreds f d a).Plain := fun k c => by cases hf : fmtInfo f <;> simp [bodyVreds, hf]
theorem plain_bodyVscan {f d a} : (bodyVscan f d a).Plain := fun k c => by simp [bodyVscan]
theorem plain_bodyVdot {f bc d a b} : (bodyVdot f bc d a b).Plain := fun k c => by simp [bodyVdot]
theorem plain_bodyVsort {f n d} : (bodyVsort f n d).Plain := fun k c => by simp [bodyVsort, (Core.yields_putPair _ _ _ _ _).plain]
theorem plain_bodyVmrg {f n d a} : (bodyVmrg f n d a).Plain := fun k c => by simp [bodyVmrg, (Core.yields_putPair _ _ _ _ _).plain]
theorem plain_bodyVperm {f d a b} : (bodyVperm f d a b).Plain := fun k c => by simp [bodyVperm]
theorem plain_bodyVbcast {f d a} : (bodyVbcast f d a).Plain := fun k c => by simp [bodyVbcast]
theorem plain_bodyVext {f d a b} : (bodyVext f d a b).Plain := fun k c => by simp [bodyVext]
theorem plain_bodyVins {f d a b} : (bodyVins f d a b).Plain := fun k c => by simp [bodyVins]
theorem plain_bodyViota {f d a} : (bodyViota f d a).Plain := fun k c => by simp [bodyViota]
theorem plain_bodyVrnd {f d a b} : (bodyVrnd f d a b).Plain := fun k c => by simp [bodyVrnd]
theorem plain_bodyVsel {f q k d a b} : (bodyVsel f q k d a b).Plain := fun _ c => by simp [bodyVsel]
theorem plain_bodyVcvt {s t p d a} : (bodyVcvt s t p d a).Plain := fun k c => by simp [bodyVcvt, (Core.yields_putPart _ _ _ _ _ _).plain]
theorem plain_bodyVqnt {f d a} : (bodyVqnt f d a).Plain := fun k c => by simp [bodyVqnt]
theorem plain_bodyVdq {f d a} : (bodyVdq f d a).Plain := fun k c => by simp [bodyVdq]
theorem plain_bodyVwscTo {f d a e} : (bodyVwscTo f d a e).Plain := fun k c => by simp [bodyVwscTo, -Nat.reducePow]
theorem plain_bodyVwscFrom {f d a} : (bodyVwscFrom f d a).Plain := fun k c => by simp [bodyVwscFrom, -Nat.reducePow]
theorem plain_bodyVshuf {f d a b e} : (bodyVshuf f d a b e).Plain := fun k c => by simp [bodyVshuf]

theorem yields_bankS (e c) : Yields (fun _ => True) (bankS e c) := by simp [bankS]
theorem yields_bankS32 (e c) : Yields (fun _ => True) (bankS32 e c) := by simp [bankS32]
theorem yields_bankPutS (d k c x) : Yields (fun _ => True) (bankPutS d k c x) := by simp [bankPutS]

section
variable {s : State} (h : Memory.wf s.mem)
include h
theorem leads_postCopyDesc {i p k tl v} : Leads (postCopy i p k tl v readDesc s) := leads_postCopy h fun k _ a ht => yields_readDesc ht k a
theorem leads_execCflag {p b} : Leads (execCflag p b s) := leads_postCopy h fun _ _ _ ht => ht
theorem leads_execCflagAdd {p b} : Leads (execCflagAdd p b s) := leads_postCopy h fun _ _ _ ht => ht
theorem leads_execChase {p} : Leads (execChase p s) := leads_postCopy h fun k _ a ht => yields_readPacket ht k a
theorem leads_execRepart {p} : Leads (execRepart p s) := leads_postCopy h fun k _ a ht => yields_readBlock ht k a
theorem leads_bankopS {i m a b c d} : Leads (bankop i m a b (bankS c) (bankPutS d) s) := leads_bankop h (yields_bankS c) (yields_bankPutS d)
theorem leads_bankopS32 {i m a b c d} : Leads (bankop i m a b (bankS32 c) (bankPutS d) s) := leads_bankop h (yields_bankS32 c) (yields_bankPutS d)
theorem leads_execSlotacq {d m} : Leads (execSlotacq d m s) := leads_ring h
theorem leads_execSlotwait {d m} : Leads (execSlotwait d m s) := leads_ring h
theorem leads_execSlotrel {d m} : Leads (execSlotrel d m s) := leads_ring h
theorem leads_execSlotrelFull {d m} : Leads (execSlotrelFull d m s) := leads_ring h
theorem leads_execCpy {p} : Leads (execCpy p s) := leads_postCopyDesc h
theorem leads_execCredAddF32 {p} : Leads (execCredAddF32 p s) := leads_postCopyDesc h
theorem leads_execCredAddF64 {p} : Leads (execCredAddF64 p s) := leads_postCopyDesc h
theorem leads_execCredAddI32 {p} : Leads (execCredAddI32 p s) := leads_postCopyDesc h
theorem leads_execCredMinF32 {p} : Leads (execCredMinF32 p s) := leads_postCopyDesc h
theorem leads_execCredMaxF32 {p} : Leads (execCredMaxF32 p s) := leads_postCopyDesc h
theorem leads_execCredMinI32 {p} : Leads (execCredMinI32 p s) := leads_postCopyDesc h
theorem leads_execCredMaxI32 {p} : Leads (execCredMaxI32 p s) := leads_postCopyDesc h
theorem leads_execCredWs {p} : Leads (execCredWs p s) := leads_postCopyDesc h
theorem leads_execMxrd {free d a b} : Leads (execMxrd free d a b s) := leads_moveInstr h
theorem leads_execMxwr {d a b} : Leads (execMxwr d a b s) := leads_moveInstr h
theorem leads_execTlbiVa {scope a} : Leads (execTlbiVa scope a s) := leads_tlbi h
theorem leads_execTlbiAll {scope} : Leads (execTlbiAll scope s) := leads_tlbi h
theorem leads_execNop : Leads (execNop s) := leads_runSeq h fun _ _ ht => ht
theorem leads_execGetVersion : Leads (execGetVersion s) := leads_runEvent h fun _ => h
theorem leads_execGetCapabilities : Leads (execGetCapabilities s) := leads_runEvent h fun _ => h
theorem leads_execNegotiateAlgorithms : Leads (execNegotiateAlgorithms s) := leads_runEvent h fun _ => h
theorem leads_execGetDigests : Leads (execGetDigests s) := leads_runEvent h fun _ => h
theorem leads_execGetCertificate : Leads (execGetCertificate s) := leads_runEvent h fun _ => h
theorem leads_execChallenge : Leads (execChallenge s) := leads_runEvent h fun _ => h
theorem leads_execRdtime : Leads (execRdtime s) := leads_runEvent h fun _ => h
theorem leads_execCoolantAlarm : Leads (execCoolantAlarm s) := leads_runEvent h fun _ => h
theorem leads_execJ {o} : Leads (execJ o s) := leads_runBranch h fun _ _ _ => trivial
theorem leads_execCall {o} : Leads (execCall o s) := leads_runBranch h fun _ _ _ => trivial
theorem leads_execPend {d a} : Leads (execPend d a s) := leads_runLocal h fun k c => by simp
theorem leads_execPpoll {d a} : Leads (execPpoll d a s) := leads_runLocal h fun k c => by simp
theorem leads_execSdrain {d} : Leads (execSdrain d s) := leads_runLocal h fun k c => by simp
theorem leads_execTlget {t a i} : Leads (execTlget t a i s) := leads_runLocal h fun k c => by simp
theorem leads_execTlset {t a i} : Leads (execTlset t a i s) := leads_runLocal h fun k c => by simp
theorem leads_execBankopWs {d a b c} : Leads (execBankopWs d a b c s) :=
  leads_bankop h (fun k => by simp [-Nat.reducePow]) fun _ k x => by simp

end
end Sys2Proof.Machine
end

section
namespace Sys2Proof.Machine
open Sys2Proof

/-! ### Every instruction, every event, every step -/

section
variable {s : State} (h : Memory.wf s.mem)
include h

/-- Every instruction and every event leaves canonical memory. -/
theorem leads_exec (i : Instr) : Leads (exec i s) := by
  cases i
  case trap => exact leads_execTrap h
  case gong => exact leads_execGong h
  case gongRelease => exact leads_execGongRelease h
  case add | sub | and | or | xor | andn | shl | shr | sra | rol | min | max | minu | maxu | slt | sltu | seq | mul | mulh | mulhu | div | divu | rem
    | remu | adds | subs | lea => exact leads_runLocal h plain_binS
  case clz | ctz | popc | bswap => exact leads_runLocal h plain_unS
  case addi | andi | ori | xori | slti | sltiu | shli | shri | srai => exact leads_runLocal h plain_immS
  case li | lui | liw | lihi => exact leads_runLocal h plain_constS
  case ldb | ldbu | ldh | ldhu | ldw | ldwu | ldd => exact leads_loadScalar h (yields_addrImm _ _)
  case stb | sth | stw | std => exact leads_storeScalar h (yields_addrImm _ _)
  case beq | bne | blt | bge | bltu | bgeu => exact leads_branchIf h
  case j => exact leads_execJ h
  case call => exact leads_execCall h
  case jr => exact leads_execJr h
  case bk => exact leads_execBk h
  case fadd | fsub | fmul | fdiv | fmin | fmax | feq | flt | fle => exact leads_runLocal h plain_binF
  case fsqrt => exact leads_runLocal h plain_bodyFsqrt
  case fcvt => exact leads_runLocal h plain_bodyFcvt
  case sget => exact leads_execSget h
  case sset => exact leads_execSset h
  case time => exact leads_execTime h
  case waitt => exact leads_execWaitt h
  case carr => exact leads_execCarr h
  case cwait => exact leads_execCwait h
  case take => exact leads_execTake h
  case nexti => exact leads_execNexti h
  case waitc => exact leads_execWaitc h
  case pend => exact leads_execPend h
  case ppoll => exact leads_execPpoll h
  case kand | kor | kxor => exact leads_runLocal h plain_binK
  case knot => exact leads_runLocal h plain_bodyKnot
  case kpop | kfirst | kmovs => exact leads_runLocal h plain_maskS
  case kmovk => exact leads_runLocal h plain_bodyKmovk
  case vadd | vsub | vmul | vdiv | vmin | vmax | vand | vor | vxor | vshl | vshr | vsra => exact leads_runLocal h plain_vBin
  case vabs | vneg | vsqrt | vexp2 | vlog2 | vrcp | vrsq | vmov | vclass => exact leads_runLocal h plain_vUn
  case vceq | vclt | vcle | vcun => exact leads_runLocal h plain_vCmp
  case vreds => exact leads_runLocal h plain_bodyVreds
  case vredx | vredn => exact leads_runLocal h plain_vExtreme
  case vscan => exact leads_runLocal h plain_bodyVscan
  case vsort => exact leads_runLocal h plain_bodyVsort
  case vmrg => exact leads_runLocal h plain_bodyVmrg
  case vperm => exact leads_runLocal h plain_bodyVperm
  case vbcast => exact leads_runLocal h plain_bodyVbcast
  case vext => exact leads_runLocal h plain_bodyVext
  case vins => exact leads_runLocal h plain_bodyVins
  case viota => exact leads_runLocal h plain_bodyViota
  case vrnd => exact leads_runLocal h plain_bodyVrnd
  case vdot => exact leads_runLocal h plain_bodyVdot
  case rnd | prd | ximm => exact leads_runPfx h
  case vfma | vfms | vfnma | vfnms => exact leads_runLocal h plain_vTri
  case vsel => exact leads_runLocal h plain_bodyVsel
  case vcvt => exact leads_runLocal h plain_bodyVcvt
  case vqnt => exact leads_runLocal h plain_bodyVqnt
  case vdq => exact leads_runLocal h plain_bodyVdq
  case vwscTo => exact leads_runLocal h plain_bodyVwscTo
  case vwscFrom => exact leads_runLocal h plain_bodyVwscFrom
  case vshuf => exact leads_runLocal h plain_bodyVshuf
  case vld | vldi => exact leads_loadVector h (yields_addrDense _ _)
  case vst => exact leads_storeVector h (yields_addrDense _ _)
  case vlds => exact leads_loadVector h (yields_addrStrided _ _)
  case vsts => exact leads_storeVector h (yields_addrStrided _ _)
  case vgath => exact leads_loadVector h (yields_addrIndexed _ _)
  case vscat => exact leads_storeVector h (yields_addrIndexed _ _)
  case ldx | ldi => exact leads_loadScalar h (yields_ea _)
  case stx => exact leads_storeScalar h (yields_ea _)
  case lds => exact leads_execLds h
  case sts => exact leads_execSts h
  case phase => exact leads_execPhase h
  case fence => exact leads_execFence h
  case atomSwap | atomCas | atomAdd | atomAnd | atomOr | atomXor | atomMin | atomMax | atomMinu | atomMaxu | atomFadd | atomFmin | atomFmax => exact leads_atomScalar h
  case atomWs => exact leads_execAtomWs h
  case bankopAddF32 | bankopMinF32 | bankopMaxF32 => exact leads_bankopS32 h
  case bankopAddF64 | bankopAddI64 | bankopMinI64 | bankopMaxI64 => exact leads_bankopS h
  case bankopWs => exact leads_execBankopWs h
  case bari => exact leads_execBari h
  case bara => exact leads_execBara h
  case barw => exact leads_execBarw h
  case barx => exact leads_execBarx h
  case slotacq => exact leads_execSlotacq h
  case slotwait => exact leads_execSlotwait h
  case slotrel => exact leads_execSlotrel h
  case slotrelFull => exact leads_execSlotrelFull h
  case sbind => exact leads_execSbind h
  case sdrain => exact leads_execSdrain h
  case pbind => exact leads_execPbind h
  case tlwait => exact leads_execTlwait h
  case tlget => exact leads_execTlget h
  case tlset => exact leads_execTlset h
  case cmaskC => exact leads_execCmaskC h
  case cmaskD => exact leads_execCmaskD h
  case cmaskDc => exact leads_execCmaskDc h
  case cpy => exact leads_execCpy h
  case credAddF32 => exact leads_execCredAddF32 h
  case credAddF64 => exact leads_execCredAddF64 h
  case credAddI32 => exact leads_execCredAddI32 h
  case credMinF32 => exact leads_execCredMinF32 h
  case credMaxF32 => exact leads_execCredMaxF32 h
  case credMinI32 => exact leads_execCredMinI32 h
  case credMaxI32 => exact leads_execCredMaxI32 h
  case credWs => exact leads_execCredWs h
  case cflag => exact leads_execCflag h
  case cflagAdd => exact leads_execCflagAdd h
  case chase => exact leads_execChase h
  case repart => exact leads_execRepart h
  case mxq => exact leads_execMxq h
  case mxz => exact leads_execMxz h
  case mxzFree => exact leads_execMxzFree h
  case mxrd => exact leads_execMxrd h
  case mxwr => exact leads_execMxwr h
  case rcfg => exact leads_execRcfg h
  case rtab => exact leads_execRtab h
  case rstep => exact leads_execRstep h
  case rgen => exact leads_execRgen h
  case launch => exact leads_execLaunch h
  case qpush => exact leads_execQpush h
  case lvget => exact leads_execLvget h
  case lvset | lvsetReseat => exact leads_lvsetInstr h
  case rpt => exact leads_execRpt h
  case sel | madd => exact leads_runLocal h plain_triS
  case tlbiVa => exact leads_execTlbiVa h
  case tlbiAll => exact leads_execTlbiAll h
  case sresume => exact leads_execSresume h
  case sresumeAbandon => exact leads_execSresumeAbandon h
  case sresumeGet => exact leads_execSresumeGet h
  case sresumePut => exact leads_execSresumePut h
  case nop => exact leads_execNop h
  case endTask => exact leads_execEndTask h
  case yield => exact leads_execYield h
  case uiret => exact leads_execUiret h
  case eret => exact leads_execEret h
  case park => exact leads_execPark h
  case homeRetryGrant => exact leads_execHomeRetryGrant h
  case streamPrefetch => exact leads_execStreamPrefetch h
  case streamWriteOut => exact leads_execStreamWriteOut h
  case portWordDelivery => exact leads_execPortWordDelivery h
  case commandReleaseStart => exact leads_execCommandReleaseStart h
  case copyNotbeforeStart => exact leads_execCopyNotbeforeStart h
  case credRankContribution => exact leads_execCredRankContribution h
  case copyCommandComplete => exact leads_execCopyCommandComplete h
  case chaseStep => exact leads_execChaseStep h
  case chaseResult => exact leads_execChaseResult h
  case repartCollective => exact leads_execRepartCollective h
  case repartComplete => exact leads_execRepartComplete h
  case matrixBindGrant => exact leads_execMatrixBindGrant h
  case matrixOperationStart => exact leads_execMatrixOperationStart h
  case matrixRowGroup => exact leads_execMatrixRowGroup h
  case matrixResume => exact leads_execMatrixResume h
  case matrixComplete => exact leads_execMatrixComplete h
  case ruleHalfStep => exact leads_execRuleHalfStep h
  case ruleResume => exact leads_execRuleResume h
  case ruleAbandon => exact leads_execRuleAbandon h
  case ruleCommandComplete => exact leads_execRuleCommandComplete h
  case rptIteration => exact leads_execRptIteration h
  case lresume => exact leads_execLresume h
  case launchAbandon => exact leads_execLaunchAbandon h
  case launchctlBadcmd => exact leads_execLaunchctlBadcmd h
  case loadReturn => exact leads_execLoadReturn h
  case storePerformed => exact leads_execStorePerformed h
  case pageTableWalk => exact leads_execPageTableWalk h
  case dconfReport => exact leads_execDconfReport h
  case userInterruptEntry => exact leads_execUserInterruptEntry h
  case faultMessagePost => exact leads_execFaultMessagePost h
  case contextSave => exact leads_execContextSave h
  case contextRestore => exact leads_execContextRestore h
  case launchArrival => exact leads_execLaunchArrival h
  case predicateRead => exact leads_execPredicateRead h
  case causalValidation => exact leads_execCausalValidation h
  case teamAdmission => exact leads_execTeamAdmission h
  case taskStart => exact leads_execTaskStart h
  case stealRequest => exact leads_execStealRequest h
  case causalDispatch => exact leads_execCausalDispatch h
  case homeEligibilityTimeout => exact leads_execHomeEligibilityTimeout h
  case launchCompletion => exact leads_execLaunchCompletion h
  case allocationRelease => exact leads_execAllocationRelease h
  case migrationHold => exact leads_execMigrationHold h
  case migrationRelease => exact leads_execMigrationRelease h
  case fabricCellArrival => exact leads_execFabricCellArrival h
  case fabricSlot => exact leads_execFabricSlot h
  case incarnAnnouncement => exact leads_execIncarnAnnouncement h
  case linkCrcRetry => exact leads_execLinkCrcRetry h
  case linkRetrain => exact leads_execLinkRetrain h
  case timeCounterTick => exact leads_execTimeCounterTick h
  case ptpSync => exact leads_execPtpSync h
  case syncTimeout => exact leads_execSyncTimeout h
  case referencePulse => exact leads_execReferencePulse h
  case correctedError => exact leads_execCorrectedError h
  case uncorrectableError => exact leads_execUncorrectableError h
  case voltageDroop => exact leads_execVoltageDroop h
  case lifetimeRecordFlush => exact leads_execLifetimeRecordFlush h
  case thermalInterval => exact leads_execThermalInterval h
  case moduleReset => exact leads_execModuleReset h
  case functionLevelReset => exact leads_execFunctionLevelReset h
  case link1Reset => exact leads_execLink1Reset h
  case overTemperature => exact leads_execOverTemperature h
  case hostQueueTailWrite => exact leads_execHostQueueTailWrite h
  case hostQueueControlWrite => exact leads_execHostQueueControlWrite h
  case registerWrite => exact leads_execRegisterWrite h
  case hostBar2Access => exact leads_execHostBar2Access h
  case wrpcb => exact leads_execWrpcb h
  case peeract => exact leads_execPeeract h
  case rdlife => exact leads_execRdlife h
  case wrflow => exact leads_execWrflow h
  case mgmtBadcmd => exact leads_execMgmtBadcmd h
  case getVersion => exact leads_execGetVersion h
  case getCapabilities => exact leads_execGetCapabilities h
  case negotiateAlgorithms => exact leads_execNegotiateAlgorithms h
  case getDigests => exact leads_execGetDigests h
  case getCertificate => exact leads_execGetCertificate h
  case challenge => exact leads_execChallenge h
  case getMeasurements => exact leads_execGetMeasurements h
  case pldmMonitoring => exact leads_execPldmMonitoring h
  case mctpRdlife => exact leads_execMctpRdlife h
  case rdtime => exact leads_execRdtime h
  case wrcfg => exact leads_execWrcfg h
  case unassignedEncoding => exact leads_execUnassignedEncoding h
  case partitionReady => exact leads_execPartitionReady h
  case powerLoss => exact leads_execPowerLoss h
  case coolantAlarm => exact leads_execCoolantAlarm h

theorem leads_runCore (k) : Leads (s.runCore k) := by
  simp only [State.runCore, leads_ite]
  refine ⟨fun _ => leads_exec (s := { s with cur := k, arg := { core := k } }) h _, fun _ => ⟨fun _ => leads_exec (s := { s with cur := k }) h _, fun _ => ?_⟩⟩
  split
  · exact State.wf_takeTrap (s := { s with cur := k }) h _ _ _ _
  next t e =>
  have ht : Memory.wf t.mem := by
    rw [State.fetch_mem e]
    exact h
  exact leads_exec (by simpa using ht) _

theorem leads_act (a) : Leads (s.act a) := by
  cases a with
  | run k => simp [State.act, h, leads_runCore h]
  | event i x =>
    rw [State.act, leads_ite]
    exact ⟨fun _ => h, fun _ => leads_exec (s := { s with arg := x }) h i⟩

theorem leads_background : Leads s.background := by
  unfold State.background
  extract_lets t
  have ht : Memory.wf t.mem := by simpa [t] using h
  split
  next x _ => exact leads_exec (s := { t with arg := x }) ht _
  · exact ht

/-- A step leaves canonical memory. -/
theorem leads_step : Leads (step s) := by
  unfold step
  split
  next l _ =>
    rw [leads_ite]
    exact ⟨fun _ => leads_act (s := { s with agenda := l }) h _, fun _ => trivial⟩
  · rw [leads_ite, leads_ite]
    exact ⟨fun _ => trivial, fun _ => ⟨fun _ => leads_runCore (s := { s with budget := s.budget - 1 }) h _, fun _ => leads_background h⟩⟩
end

/-- Settles O59: every function that an instruction or an event is made of leaves the bytes of memory alone, or writes them through wf_putBytes; so
every instruction and every event keeps the canonical form, and with them the step. -/
theorem memoryInvariant : Obligations.MemoryInvariant := by
  intro s t hs e
  have hl : Leads (step s) := leads_step hs
  rwa [e] at hl
end Sys2Proof.Machine
end

section
namespace Sys2Proof.Machine
open Sys2Proof

/-! ### What the scalar entries of two sources compute (R89, R90) -/

theorem aluAdd_eq : aluAdd = fun a b => BitVec.ofNat 64 (a.toNat + b.toNat) := by
  funext a b
  simp [aluAdd, BitVec.ofNat_add]
theorem aluSub_eq : aluSub = fun a b => BitVec.ofInt 64 (a.toNat - b.toNat) := by
  funext a b
  rw [aluSub, BitVec.sub_eq_add_neg, Int.sub_eq_add_neg, BitVec.ofInt_add, BitVec.ofInt_neg]
  simp
theorem aluShl_eq : aluShl = fun a b => BitVec.ofNat 64 (a.toNat * 2 ^ (b.toNat % 64)) := by
  funext a b
  apply BitVec.eq_of_toNat_eq
  simp [aluShl, shamt, Nat.shiftLeft_eq]
theorem aluShr_eq : aluShr = fun a b => BitVec.ofNat 64 (a.toNat / 2 ^ (b.toNat % 64)) := by
  funext a b
  apply BitVec.eq_of_toNat_eq
  have hlt : a.toNat / 2 ^ (b.toNat % 64) < 2 ^ 64 := (Nat.div_le_self _ _).trans_lt a.isLt
  rw [BitVec.toNat_ofNat, Nat.mod_eq_of_lt hlt, aluShr, BitVec.toNat_ushiftRight, Nat.shiftRight_eq_div_pow, shamt]
theorem aluSra_eq : aluSra = fun a b => BitVec.ofInt 64 (a.toInt / 2 ^ (b.toNat % 64)) := by
  funext a b
  rw [← BitVec.ofInt_toInt (x := aluSra a b), aluSra, BitVec.toInt_sshiftRight, Int.shiftRight_eq_div_pow]
  rfl
theorem aluRol_eq : aluRol = fun a b => a.rotateLeft (b.toNat % 64) := by
  funext a b
  simp [aluRol, shamt, BitVec.rotateLeft, BitVec.rotateLeftAux]
theorem aluMin_eq : aluMin = fun a b => BitVec.ofInt 64 (min a.toInt b.toInt) := by
  funext a b
  unfold aluMin
  split <;> simp [*, min_def]
theorem aluMax_eq : aluMax = fun a b => BitVec.ofInt 64 (max a.toInt b.toInt) := by
  funext a b
  unfold aluMax
  split <;> simp [*, max_def]
theorem aluMinu_eq : aluMinu = fun a b => BitVec.ofNat 64 (min a.toNat b.toNat) := by
  funext a b
  unfold aluMinu
  split <;> simp [*, min_def]
theorem aluMaxu_eq : aluMaxu = fun a b => BitVec.ofNat 64 (max a.toNat b.toNat) := by
  funext a b
  unfold aluMaxu
  split <;> simp [*, max_def]
theorem aluMul_eq : aluMul = fun a b => BitVec.ofNat 64 (a.toNat * b.toNat) := by
  funext a b
  simp [aluMul, BitVec.ofNat_mul]
theorem aluDiv_eq : aluDiv = fun a b => if b = 0 then BitVec.ofInt 64 (-1) else BitVec.ofInt 64 (a.toInt.tdiv b.toInt) := by
  funext a b
  simp [aluDiv, wordOfInt, ← BitVec.toInt_inj]
theorem aluRem_eq : aluRem = fun a b => if b = 0 then a else BitVec.ofInt 64 (a.toInt.tmod b.toInt) := by
  funext a b
  simp [aluRem, wordOfInt, ← BitVec.toInt_inj, Int.tmod_def]
theorem aluRemu_eq : aluRemu = fun a b => if b = 0 then a else BitVec.ofNat 64 (a.toNat % b.toNat) := by
  funext a b
  rw [aluRemu, Nat.mod_def]
theorem aluDivu_eq : aluDivu = fun a b => if b = 0 then BitVec.ofNat 64 (2 ^ 64 - 1) else BitVec.ofNat 64 (a.toNat / b.toNat) := rfl
theorem aluMulh_eq : aluMulh = fun a b => BitVec.ofInt 64 (a.toInt * b.toInt / 2 ^ 64) := rfl
theorem aluAdds_eq : aluAdds = fun a b => BitVec.ofInt 64 (max (-(2 ^ 63)) (min (2 ^ 63 - 1) (a.toInt + b.toInt))) := by
  funext a b
  rw [min_comm]
  rfl
theorem aluSubs_eq : aluSubs = fun a b => BitVec.ofInt 64 (max (-(2 ^ 63)) (min (2 ^ 63 - 1) (a.toInt - b.toInt))) := by
  funext a b
  rw [min_comm]
  rfl

/-- The constructor's instruction puts f s[A] s[B] into s[D], as one word that no rounding mode bears on. -/
structure IsBinary (c : Reg → Reg → Reg → Instr) (f : Word → Word → Word) : Prop where
  exec_eq (d a b : Reg) (s : State) : exec (c d a b) s = runLocal (c d a b) (binS d a b f) s
  len_eq (d a b : Reg) : (c d a b).len = 4
  mode_eq (d a b : Reg) : readsMode (c d a b) = false

/-- The entries of two sources beside the function that the model runs for each. -/
def aluTable : List ((Reg → Reg → Reg → Instr) × (Word → Word → Word)) :=
  [(.add, aluAdd), (.sub, aluSub), (.and, aluAnd), (.or, aluOr), (.xor, aluXor), (.andn, aluAndn), (.shl, aluShl), (.shr, aluShr), (.sra, aluSra), (.rol, aluRol),
   (.min, aluMin), (.max, aluMax), (.minu, aluMinu), (.maxu, aluMaxu), (.slt, aluSlt), (.sltu, aluSltu), (.seq, aluSeq),
   (.mul, aluMul), (.mulh, aluMulh), (.mulhu, aluMulhu), (.div, aluDiv), (.divu, aluDivu), (.rem, aluRem), (.remu, aluRemu), (.adds, aluAdds), (.subs, aluSubs)]

theorem isBinary_aluTable : ∀ p ∈ aluTable, IsBinary p.1 p.2 := by
  simp only [aluTable, List.forall_mem_cons, List.not_mem_nil, false_implies, implies_true, and_true]
  and_intros <;> exact ⟨fun _ _ _ _ => rfl, fun _ _ _ => rfl, fun _ _ _ => rfl⟩

/-- The model's functions are those of the table of R89 and R90. -/
theorem aluTable_eq : aluTable = Claims.binaryTable := by
  simp only [aluTable, aluAdd_eq, aluSub_eq, aluShl_eq, aluShr_eq, aluSra_eq, aluRol_eq, aluMin_eq, aluMax_eq, aluMinu_eq, aluMaxu_eq, aluMul_eq, aluMulh_eq,
    aluDiv_eq, aluDivu_eq, aluRem_eq, aluRemu_eq, aluAdds_eq, aluSubs_eq]
  rfl

theorem isBinary_of_mem {p} (h : p ∈ Claims.binaryTable) : IsBinary p.1 p.2 := isBinary_aluTable p (aluTable_eq ▸ h)

/-! ### The end of an instruction on one core -/

theorem runLocal_traps {i : Instr} {body : CoreBody} {s : State} {c : Cause} {v : Word} (h : s.Legal i) (b : body s.cur s.me = .error (.trap c v)) :
    runLocal i body s = .next (s.traps i c v) :=
  runSeq_traps h (by simp [Core.run1, b, bind, Except.bind])

theorem runLocal_stall {i : Instr} {body : CoreBody} {s : State} (h : s.Legal i) (b : body s.cur s.me = .error .stall) : runLocal i body s = .next s.waits :=
  runSeq_stall h (by simp [Core.run1, b, bind, Except.bind])

/-- An instruction that pushes nothing and raises no flag ends as its words find room. -/
theorem runLocal_sends {i : Instr} {body : CoreBody} {s : State} {c : Core} (h : s.Legal i) (b : body s.cur s.me = .ok (c, 0))
    (r : readsMode i = false) (o : c.outq = []) {u : State} (hu : s.setCore s.cur { c with txq := [] } = u) :
    runLocal i body s = settleOutcome i s.cur s (do
      let t ← u.sendWords s.cur c.txq u
      .ok (t.modCore s.cur fun c => c.advance i.len)) := by
  subst hu
  have hp : (s.setCore s.cur c).pushOut s.cur = s.setCore s.cur c := State.pushOut_none (by simpa using o)
  rw [runLocal, runSeq, runCtl_legal h]
  simp only [State.start_core, State.start_setCore, Core.run1, b, bind, Except.bind, Core.raise_none c i r, State.retire, hp, State.core_setCore_same,
    State.modCore_setCore]

/-! ### Ports (R8, R35, R234) -/

/-- An empty queue as a source has no word to give (R35). -/
theorem Core.readS_empty {c : Core} {r : Reg} (h : 56 ≤ r.toNat) (e : (c.rxp (r.toNat - 56)).q = []) : c.readS r = .error .stall := by
  simp [Core.readS, show ¬ r.toNat < 56 by omega, e]

theorem Core.putS_port {c : Core} {i : Nat} {r : Reg} {x : Word} (h : 56 ≤ r.toNat) : c.putS i r x = c.send i (r.toNat - 56) x false := by
  simp [Core.putS, show ¬ r.toNat < 56 by omega]

/-- The core after one more word of the packet at a port, which then goes to the packet's destination (R234). -/
def Core.packed (c : Core) (i p : Nat) : Core :=
  c.setTxp p { c.txp p with pkt := some (((c.txp p).pkt.getD (0, sendWord i p (c.txp p))).1 + 1, ((c.txp p).pkt.getD (0, sendWord i p (c.txp p))).2) }

theorem Core.send_full {c : Core} {i p : Nat} {x : Word} {l : Bool} (h : 16 ≤ ((c.txp p).pkt.getD (0, sendWord i p (c.txp p))).1) :
    c.send i p x l = .error (.trap .portlen (BitVec.ofNat 64 p)) := if_pos h

theorem Core.send_word {c : Core} {i p : Nat} {x : Word} (h : ((c.txp p).pkt.getD (0, sendWord i p (c.txp p))).1 < 16) :
    c.send i p x false = .ok { c.packed i p with txq := c.txq ++ [⟨p, ((c.txp p).pkt.getD (0, sendWord i p (c.txp p))).2, x, false⟩] } := if_neg h.not_ge

theorem binS_eq {d a b : Reg} {f : Word → Word → Word} {k : Nat} {c c1 c2 : Core} {x y : Word} (ha : c.readS a = .ok (x, c1)) (hb : c1.readS b = .ok (y, c2)) :
    binS d a b f k c = (do .ok (← c2.putS k d (f x y), 0)) := by
  simp [binS, ha, hb, bind, Except.bind]

/-- A port as destination (R35, R234): a packet of 16 words takes no more, another word goes under way where its destination has room, and waits else. -/
theorem exec_binary_port {i : Reg → Reg → Reg → Instr} {f : Word → Word → Word} (hi : IsBinary i f) {s : State} {d a b : Reg} {x y : Word} {c1 c2 : Core}
    (h : s.Legal (i d a b)) (ha : s.me.readS a = .ok (x, c1)) (hb : c1.readS b = .ok (y, c2)) (hd : 56 ≤ d.toNat) :
    let q := d.toNat - 56
    let n := ((c2.txp q).pkt.getD (0, sendWord s.cur q (c2.txp q))).1
    let dst := ((c2.txp q).pkt.getD (0, sendWord s.cur q (c2.txp q))).2
    let u := s.setCore s.cur (c2.packed s.cur q)
    (16 ≤ n → exec (i d a b) s = .next (s.traps (i d a b) .portlen (BitVec.ofNat 64 q))) ∧
    (∀ t, n < 16 → u.sendWords s.cur [⟨q, dst, f x y, false⟩] u = .ok t → exec (i d a b) s = .next (t.modCore s.cur fun c => c.advance 4)) ∧
    (n < 16 → u.sendWords s.cur [⟨q, dst, f x y, false⟩] u = .error .stall → exec (i d a b) s = .next s.waits) := by
  intro q n dst u
  have htx : c2.txq = [] := by rw [Core.readS_txq hb, Core.readS_txq ha, State.me_txq]
  have hout : c2.outq = [] := by rw [Core.readS_outq hb, Core.readS_outq ha, State.me_outq]
  have body : binS d a b f s.cur s.me = (do .ok (← c2.send s.cur q (f x y) false, 0)) := by rw [binS_eq ha hb, Core.putS_port hd]
  have word (hn : n < 16) : exec (i d a b) s = settleOutcome (i d a b) s.cur s (do
      let t ← u.sendWords s.cur [⟨q, dst, f x y, false⟩] u
      .ok (t.modCore s.cur fun c => c.advance 4)) := by
    rw [Core.send_word hn, htx] at body
    have hu : s.setCore s.cur { c2.packed s.cur q with txq := [] } = u := by rw [← htx]; rfl
    rw [hi.exec_eq, runLocal_sends h body (hi.mode_eq d a b) hout hu, hi.len_eq]
    rfl
  refine ⟨fun hn => ?_, fun t hn hs => ?_, fun hn hs => ?_⟩
  · rw [hi.exec_eq]
    refine runLocal_traps h ?_
    rw [body, Core.send_full hn]
    rfl
  · rw [word hn, hs]
    rfl
  · rw [word hn, hs]
    rfl

/-- Settles O8, for a port as destination by exec_binary_port. -/
theorem portOperands : Obligations.PortOperands := by
  constructor
  · intro p hp s d a b x y c1 c2 h ha hb hd
    exact exec_binary_port (isBinary_of_mem hp) h ha hb hd
  · intro p hp s d a b h ha he
    have hr : s.me.readS a = .error .stall := Core.readS_empty ha he
    rw [(isBinary_of_mem hp).exec_eq]
    exact runLocal_stall h (by simp [binS, hr, bind, Except.bind])

end Sys2Proof.Machine
end

section
namespace Sys2Proof.Machine
open Sys2Proof

/-! ### What reset leaves (R403) -/

/-- Byte j of a number, little-endian. -/
theorem bytesOf_eq (n x : Nat) : bytesOf n x = (List.range n).map fun j => BitVec.ofNat 8 (x / 256 ^ j) := by
  induction n generalizing x with
  | zero => rfl
  | succ n ih => simp [bytesOf, ih, List.range_succ_eq_map, Nat.pow_succ', Nat.div_div_eq_div_mul]

theorem coreId_lt {i : Nat} (h : i < ncores) : coreId i < 2 ^ 16 := by
  simp only [coreId, ncores] at *
  omega

/-- A save slot that nothing has written: COREID, and zeroes above it (R358). -/
theorem memDefault_slot {i slot o : Nat} (hi : i < ncores) (hs : slot < 2) (ho : o < 0x1000) :
    memDefault (lsKey i (slotOff slot) + o) = BitVec.ofNat 8 (coreId i / 256 ^ o) := by
  obtain ⟨off, core, inSlot, pos⟩ : (lsKey i (slotOff slot) + o - lsBase) % 2 ^ 17 = slotOff slot + o ∧ (lsKey i (slotOff slot) + o - lsBase) / 2 ^ 17 = i ∧
      (lsBase ≤ lsKey i (slotOff slot) + o ∧ 0x1E000 ≤ slotOff slot + o) ∧ (slotOff slot + o) % 0x1000 = o := by
    simp only [lsKey, slotOff]
    omega
  simp only [memDefault, off, core, inSlot, pos, true_and]
  split
  · rfl
  next h2 =>
    have small : coreId i < 256 ^ o := calc
      coreId i < 256 ^ 2 := coreId_lt hi
      _ ≤ 256 ^ o := Nat.pow_le_pow_right (by decide) (by omega)
    exact congrArg (BitVec.ofNat 8) (Nat.div_eq_of_lt small).symm

/-- Word 0 of a save slot after reset (R358). -/
theorem State.reset_slotWord {i slot : Nat} (hi : i < ncores) (hs : slot < 2) : State.reset.slotWord i slot 0 = coreId i := by
  have bytes : (List.range 8).map (fun j => State.reset.byte (lsKey i (slotOff slot) + j)) = bytesOf 8 (coreId i) := by
    rw [bytesOf_eq]
    exact List.map_congr_left fun j hj => memDefault_slot hi hs (by have := List.mem_range.1 hj; omega)
  calc State.reset.slotWord i slot 0
    _ = ofBytes (bytesOf 8 (coreId i)) := congrArg ofBytes bytes
    _ = coreId i % 2 ^ 64 := ofBytes_bytesOf 8 _
    _ = coreId i := Nat.mod_eq_of_lt ((coreId_lt hi).trans (by decide))

theorem State.reset_sreg (n : Nat) : (State.reset.core 0).sreg n = 0 := ite_self _

/-- Settles O60: the fields are those that State.reset writes down or leaves at their defaults, and a save slot reads as memDefault_slot says. -/
theorem resetState : Obligations.ResetState :=
  ⟨State.reset_memOk, rfl, rfl, rfl, rfl, rfl, rfl, rfl, rfl, rfl, State.reset_sreg, fun _ _ => rfl, rfl, rfl, rfl, rfl,
    fun _ hi => ⟨State.reset_slotWord hi (by decide), State.reset_slotWord hi (by decide)⟩⟩

end Sys2Proof.Machine
end

section
namespace Sys2Proof.Laws.Encoding
open Sys2Proof Sys2Proof.Laws

/-! ### Decoding the bytes of an instruction (R28 to R37, R44, R50 to R53) -/

/-- Every row's words decode to it: the rows in the order of the opcode table. -/
theorem statement (i : Instr) : Statement i :=
  i.casesOn (motive := Statement)
    trap gong gongRelease add sub and or xor andn shl shr sra rol min max minu maxu slt sltu seq mul mulh mulhu div divu rem remu adds subs clz ctz popc bswap
    addi andi ori xori slti sltiu shli shri srai li lui ldb ldbu ldh ldhu ldw ldwu ldd stb sth stw std beq bne blt bge bltu bgeu j call jr bk lea fadd fsub fmul
    fdiv fsqrt fmin fmax feq flt fle fcvt sget sset time waitt carr cwait take nexti waitc pend ppoll kand kor kxor knot kpop kfirst kmovs kmovk vadd vsub vmul
    vdiv vmin vmax vabs vneg vsqrt vexp2 vlog2 vrcp vrsq vand vor vxor vshl vshr vsra vceq vclt vcle vcun vreds vredx vredn vscan vsort vmrg vperm vbcast vext
    vins viota vrnd vmov vclass vdot rnd prd ximm vfma vfms vfnma vfnms vsel vcvt vqnt vdq vwscTo vwscFrom vshuf vld vst vlds vsts vgath vscat ldx stx ldi vldi
    lds sts phase fence atomSwap atomCas atomAdd atomAnd atomOr atomXor atomMin atomMax atomMinu atomMaxu atomFadd atomFmin atomFmax atomWs bankopAddF32
    bankopAddF64 bankopAddI64 bankopMinF32 bankopMaxF32 bankopMinI64 bankopMaxI64 bankopWs bari bara barw barx slotacq slotwait slotrel slotrelFull sbind sdrain
    pbind tlwait tlget tlset cmaskC cmaskD cmaskDc cpy credAddF32 credAddF64 credAddI32 credMinF32 credMaxF32 credMinI32 credMaxI32 credWs cflag cflagAdd chase
    repart mxq mxz mxzFree mxrd mxwr rcfg rtab rstep rgen launch qpush lvget lvset lvsetReseat rpt liw lihi sel madd tlbiVa tlbiAll sresume sresumeAbandon
    sresumeGet sresumePut nop endTask yield uiret eret park homeRetryGrant streamPrefetch streamWriteOut portWordDelivery commandReleaseStart copyNotbeforeStart
    credRankContribution copyCommandComplete chaseStep chaseResult repartCollective repartComplete matrixBindGrant matrixOperationStart matrixRowGroup
    matrixResume matrixComplete ruleHalfStep ruleResume ruleAbandon ruleCommandComplete rptIteration lresume launchAbandon launchctlBadcmd loadReturn
    storePerformed pageTableWalk dconfReport userInterruptEntry faultMessagePost contextSave contextRestore launchArrival predicateRead causalValidation
    teamAdmission taskStart stealRequest causalDispatch homeEligibilityTimeout launchCompletion allocationRelease migrationHold migrationRelease
    fabricCellArrival fabricSlot incarnAnnouncement linkCrcRetry linkRetrain timeCounterTick ptpSync syncTimeout referencePulse correctedError
    uncorrectableError voltageDroop lifetimeRecordFlush thermalInterval moduleReset functionLevelReset link1Reset overTemperature hostQueueTailWrite
    hostQueueControlWrite registerWrite hostBar2Access wrpcb peeract rdlife wrflow mgmtBadcmd getVersion getCapabilities negotiateAlgorithms getDigests
    getCertificate challenge getMeasurements pldmMonitoring mctpRdlife rdtime wrcfg unassignedEncoding partitionReady powerLoss coolantAlarm

/-- The bytes of a word, put together, are the word (R2). -/
@[simp] theorem wordOfBytes_bytesOfWord (w : IWord) : wordOfBytes (w.extractLsb' 0 8) (w.extractLsb' 8 8) (w.extractLsb' 16 8) (w.extractLsb' 24 8) = w := by
  rw [wordOfBytes, BitVec.extractLsb'_append_extractLsb'_eq_extractLsb' (show 24 = 16 + 8 from rfl),
    BitVec.extractLsb'_append_extractLsb'_eq_extractLsb' (show 16 = 8 + 8 from rfl), BitVec.extractLsb'_append_extractLsb'_eq_extractLsb' (show 8 = 0 + 8 from rfl)]
  exact extract_all w

theorem bytesOfWord_length (w : IWord) : (bytesOfWord w).length = 4 := rfl

theorem encodeBytes_length (i : Instr) : (encodeBytes i).length = i.len := by
  simp [encodeBytes, Instr.len, List.length_flatMap, bytesOfWord_length, Nat.mul_comm]

/-- A short word is decoded without what follows it (R28). -/
theorem decode_short {w0 : IWord} {i : Instr} (l : isLong w0 = false) (d : ∀ w1, decodeWords w0 w1 = .ok i) (rest : List Byte) :
    decode (bytesOfWord w0 ++ rest) = .ok (i, 4) := by
  have d0 : decodeShort w0 = .ok i := by simpa [decodeWords, l] using d 0
  simp [bytesOfWord, decode, l, d0, Except.map]

/-- A long instruction is decoded from its two words (R28). -/
theorem decode_long {w0 w1 : IWord} {i : Instr} (l : isLong w0 = true) (d : decodeWords w0 w1 = .ok i) (rest : List Byte) :
    decode (bytesOfWord w0 ++ bytesOfWord w1 ++ rest) = .ok (i, 8) := by
  have d1 : decodeLong w0 w1 = .ok i := by simpa [decodeWords, l] using d
  simp [bytesOfWord, decode, l, d1, Except.map]

/-- Settles O57, by the statement of each row: its words are none, a short one, or a long pair. -/
theorem decodeEncode : Obligations.DecodeEncode := by
  intro i rest coded wf
  refine ⟨?_, encodeBytes_length i⟩
  have words := statement i wf
  unfold encodeBytes Instr.len
  match e : encode i with
  | [] =>
    rw [e] at words
    rw [words] at coded
    cases coded
  | [w0] =>
    rw [e] at words
    obtain ⟨l, d⟩ := words
    simpa using decode_short l d rest
  | [w0, w1] =>
    rw [e] at words
    obtain ⟨l, d⟩ := words
    simpa using decode_long l d rest
  | _ :: _ :: _ :: _ =>
    rw [e] at words
    exact words.elim

end Sys2Proof.Laws.Encoding
end

section
namespace Sys2Proof.Machine
open Sys2Proof

/-! ### Words written out (R31, R32, R50 to R52) -/

/-- Settles O56: the words are closed terms, which the decoder evaluates. -/
theorem decodeWords_written : Obligations.DecodeWords := by
  unfold Obligations.DecodeWords
  and_intros <;> rfl

/-! ### A step at the program counter (R28, R30 item 1) -/

/-- A word is long where its two lowest bits are set (R28). -/
theorem isLong_iff (w : IWord) : isLong w = true ↔ w.toNat % 4 = 3 := by
  simp [isLong, ← BitVec.toNat_inj]

theorem isLong_eq_false (w : IWord) : isLong w = false ↔ w.toNat % 4 ≠ 3 := by
  rw [Ne, ← isLong_iff, Bool.not_eq_true]

/-- The instruction that two words stand for, the row UNASSIGNED_ENCODING where no row has them (R53). -/
def rowOf (w0 w1 : IWord) : Instr := match decodeWords w0 w1 with | .ok x => x | .error _ => .unassignedEncoding

theorem rowOf_ok {w0 w1 : IWord} {i : Instr} (h : decodeWords w0 w1 = .ok i) : rowOf w0 w1 = i := by simp [rowOf, h]
theorem rowOf_error {w0 w1 : IWord} {e : Reject} (h : decodeWords w0 w1 = .error e) : rowOf w0 w1 = .unassignedEncoding := by simp [rowOf, h]

section
variable {s t u : State} {i : Nat} {pc : Word} {w0 w1 : IWord}

/-- A resumed pc that is no word address (R378). -/
theorem State.fetch_align (h : pc.toNat % 4 ≠ 0) : s.fetch i pc = .error (.align, pc) := by
  simp [State.fetch, h, Bind.bind, Except.bind]

theorem State.fetchWord_fault {c : Cause} (h : s.fetchPa i pc.toNat = .error c) : s.fetchWord i pc = .error (c, pc) := by
  simp [State.fetchWord, h]

theorem State.fetch_fault {q : Cause × Word} (a : pc.toNat % 4 = 0) (h : s.fetchWord i pc = .error q) : s.fetch i pc = .error q := by
  simp [State.fetch, a, h, Bind.bind, Except.bind]

theorem State.fetch_short (a : pc.toNat % 4 = 0) (h : s.fetchWord i pc = .ok (w0, t)) (l : w0.toNat % 4 ≠ 3) : s.fetch i pc = .ok (w0, rowOf w0 0, t) := by
  simp [State.fetch, a, h, (isLong_eq_false w0).2 l, Bind.bind, Except.bind, rowOf] <;> rfl

theorem State.fetch_long (a : pc.toNat % 4 = 0) (h : s.fetchWord i pc = .ok (w0, t)) (l : w0.toNat % 4 = 3) (h1 : t.fetchWord i (pc + 4) = .ok (w1, u)) :
    s.fetch i pc = .ok (w0, rowOf w0 w1, u) := by
  change t.fetchWord i (pc + 4#64) = _ at h1
  simp [State.fetch, a, h, (isLong_iff w0).2 l, h1, Bind.bind, Except.bind, rowOf] <;> rfl

/-- The turn of a core without an interrupt or a frame: a fault of its fetch is its trap. -/
theorem State.runCore_fault {c : Cause} {v : Word} (hu : s.uciReady s.cur = false) (hf : (s.core s.cur).frame = none)
    (h : s.fetch s.cur (s.core s.cur).pc = .error (c, v)) : s.runCore s.cur = .next (s.takeTrap s.cur c v ((s.core s.cur).pc + 4)) := by
  simp [State.runCore, hu, hf, h]

/-- The turn of a core without an interrupt or a frame: what it fetches is executed, with word 0 in hand. -/
theorem State.runCore_ok {x : Instr} (hu : s.uciReady s.cur = false) (hf : (s.core s.cur).frame = none)
    (h : s.fetch s.cur (s.core s.cur).pc = .ok (w0, x, t)) : s.runCore s.cur = exec x (t.modCore s.cur fun c => { c with ir := w0 }) := by
  simp [State.runCore, hu, hf, h]

/-- A step without an act is the turn of the current core where it runs and does not wait (log entry 1). -/
theorem step_runCore (ha : s.agenda = []) (hp : s.powered = true) (hr : s.runnable s.cur = true) (hw : (s.core s.cur).stalled = false) (hb : 0 < s.budget) :
    step s = ({ s with budget := s.budget - 1 } : State).runCore s.cur := by
  simp [step, ha, hp, hr, hw, hb]
end

/-- Settles O58: the step is the core's turn, which comes to what its fetch comes to. -/
theorem stepRunsDecodedInstruction : Obligations.StepRunsDecodedInstruction := by
  intro s ha hp hr hw hb hu hf s' pc
  have faults {c v} (h : s'.fetch s.cur pc = .error (c, v)) : step s = .next (s'.takeTrap s.cur c v (pc + 4)) :=
    (step_runCore ha hp hr hw hb).trans (State.runCore_fault (s := s') hu hf h)
  have runs {w0 x t} (h : s'.fetch s.cur pc = .ok (w0, x, t)) : step s = exec x (t.modCore s.cur fun c => { c with ir := w0 }) :=
    (step_runCore ha hp hr hw hb).trans (State.runCore_ok (s := s') hu hf h)
  refine ⟨fun hpc => ?_, fun hpc => ⟨fun q hq => ?_, fun w0 t h0 => ⟨fun l i hi => ?_, fun l e he => ?_, fun l w1 u h1 => ⟨fun i hi => ?_, fun e he => ?_⟩⟩⟩⟩
  · exact faults (State.fetch_align hpc)
  · exact faults (State.fetch_fault hpc (State.fetchWord_fault hq))
  · exact runs (rowOf_ok hi ▸ State.fetch_short hpc h0 l)
  · exact runs (rowOf_error he ▸ State.fetch_short hpc h0 l)
  · exact runs (rowOf_ok hi ▸ State.fetch_long hpc h0 l h1)
  · exact runs (rowOf_error he ▸ State.fetch_long hpc h0 l h1)

end Sys2Proof.Machine
end

section
namespace Sys2Proof.Machine
open Sys2Proof

/-! ### Scalar operand fields (R34, R35) -/

section
variable {c : Core} {r : Reg} {n : Nat}

/-- The load is to write s[n] (R130). -/
def LateLoad.toS (l : LateLoad) (n : Nat) : Bool := match l.dst with | .s d _ _ => d == n | _ => false

/-- The load without its destination, where it was to write s[n]: a later write of s[n] stands (R369). -/
def LateLoad.cut (l : LateLoad) (n : Nat) : LateLoad := if l.toS n then { l with dst := .none } else l

theorem LateLoad.toS_iff (l : LateLoad) : l.toS n = true ↔ ∃ m sg, l.dst = .s n m sg := by
  cases h : l.dst <;> simp [LateLoad.toS, h]

theorem LateLoad.cut_toS (l : LateLoad) (m : Nat) : (l.cut n).toS m = (decide (m ≠ n) && l.toS m) := by
  cases h : l.dst with
  | s d _ _ => grind [LateLoad.cut, LateLoad.toS]
  | _ => simp [LateLoad.cut, LateLoad.toS, h]

theorem Core.pendingS_eq (c : Core) (n : Nat) : c.pendingS n = (n != 0 && c.late.any (·.toS n)) := rfl
theorem Core.writeS_late (c : Core) (n : Nat) (x : Word) : (c.writeS n x).late = c.late.map (·.cut n) := rfl

theorem Core.pendingS_iff : c.pendingS n = true ↔ n ≠ 0 ∧ ∃ l ∈ c.late, ∃ m sg, l.dst = .s n m sg := by
  simp [Core.pendingS_eq, LateLoad.toS_iff]

theorem Core.pendingS_eq_false (h : ∀ l ∈ c.late, ∀ m sg, l.dst ≠ .s n m sg) : c.pendingS n = false := by
  rw [← Bool.not_eq_true, Core.pendingS_iff]
  rintro ⟨-, l, hl, m, sg, e⟩
  exact h l hl m sg e

@[simp] theorem Core.pendingS_zero : c.pendingS 0 = false := rfl

/-- A poisoned register as a source (R369), EVAL its class and code (R370). -/
theorem Core.readS_poisoned (h : r.toNat < 56) (q : c.pendingS r.toNat = false) (p : c.poison.s.contains r.toNat = true) :
    c.readS r = .error (.trap .memue (poisonVal 0 r.toNat)) := by
  simp at p
  simp [Core.readS, h, p, q]

/-- A port as a source gives the oldest word of its queue, which it removes (R34). -/
theorem Core.readS_port {w : RxWord} {t : List RxWord} (h : 56 ≤ r.toNat) (e : (c.rxp (r.toNat - 56)).q = w :: t) :
    c.readS r = .ok (w.w, c.setRxp (r.toNat - 56) { c.rxp (r.toNat - 56) with q := t }) := by
  simp [Core.readS, h.not_gt, e]

end

section
variable (c : Core) (n : Nat) (x : Word)

theorem Core.writeS_sreg_same (h : n ≠ 0) : (c.writeS n x).sreg n = x := c.sreg_setS_same x h
theorem Core.writeS_sreg_other {m : Nat} (h : m ≠ n) : (c.writeS n x).sreg m = c.sreg m := c.sreg_setS_other x h

/-- A write of the whole register clears its poison (R369). -/
theorem Core.writeS_clean : (c.writeS n x).poison.s.contains n = false := by
  simp [Core.writeS]

/-- Which registers wait after a write: no load that is still outstanding writes s[n] any more (R369). -/
theorem Core.writeS_pendingS (m : Nat) : (c.writeS n x).pendingS m = (decide (m ≠ n) && c.pendingS m) := by
  simp [Core.pendingS_eq, Core.writeS_late, Function.comp_def, LateLoad.cut_toS, ← List.and_any_distrib_left, Bool.and_left_comm]

end

/-- Settles O7, a clause for each form of a source and for each part of the core that a write reaches. -/
theorem scalarOperandForms : Obligations.ScalarOperandForms := by
  constructor
  · intro c r
    refine ⟨?_, fun h n ⟨l, hl, w⟩ => ?_, fun h l p => ?_, fun h l p => ?_, fun h e => ?_, fun w t h e => ?_⟩
    · rintro rfl p
      exact Core.readS_reg (by decide) rfl p
    · exact Core.readS_pending h (Core.pendingS_iff.2 ⟨by simpa [← BitVec.toNat_inj] using n, l, hl, w⟩)
    · exact Core.readS_reg h (Core.pendingS_eq_false l) p
    · simpa [poisonVal] using Core.readS_poisoned h (Core.pendingS_eq_false l) p
    · exact Core.readS_empty h e
    · exact Core.readS_port h e
  · intro c n x
    refine ⟨rfl, Core.writeS_sreg_same c n x, fun m => Core.writeS_sreg_other c n x, Core.writeS_clean c n x, ?_, fun m h => ?_, ?_⟩
    · simp [Core.writeS_pendingS]
    · simp [Core.writeS_pendingS, h]
    · simp only [Core.writeS, Core.setS]
      split <;> rfl

end Sys2Proof.Machine
end

section
namespace Sys2Proof.Machine
open Sys2Proof

/-! ### NOP and modifier words (R28, R36 to R41, R101) -/

/-- Control passes on to the next instruction where the core stands in no slot (R28). -/
theorem Core.advance_next {c : Core} (h : c.slot = none) (n : Nat) :
    c.advance n = { c with pc := c.pc + BitVec.ofNat 64 n, pfx := [], stalled := false, late := c.later } := by
  simp [Core.advance, h]

/-- Control passes from a delay slot to where its branch goes (R40). -/
theorem Core.advance_slot {c : Core} {t : Word} (h : c.slot = some t) (n : Nat) :
    c.advance n = { c with pc := t, slot := none, pfx := [], stalled := false, late := c.later } := by
  simp [Core.advance, h]

theorem State.done_core (s : State) (i : Instr) (c : Core) : (s.done i c).core s.cur = ({ c with txq := [] } : Core).advance i.len :=
  State.core_setCore_same _ _ _

theorem exec_nop {s : State} (h : s.Legal .nop) : exec .nop s = .next (s.done .nop s.me) := by
  rw [← State.doneIn_setCore]
  exact runSeq_ok (body := fun _ s => .ok s) (t := s.start) h rfl (by simp) (by simp)

/-- The rows RND, PRD and XIMM, each a modifier word (R36). -/
def isModifier : Instr → Bool
  | .rnd .. | .prd .. | .ximm _ => true
  | _ => false

theorem isModifier_cases {i : Instr} (h : isModifier i = true) : (∃ m t, i = .rnd m t) ∨ (∃ z v k, i = .prd z v k) ∨ ∃ x, i = .ximm x := by
  unfold isModifier at h
  split at h
  · exact .inl ⟨_, _, rfl⟩
  · exact .inr (.inl ⟨_, _, _, rfl⟩)
  · exact .inr (.inr ⟨_, rfl⟩)
  · cases h

theorem exec_modifier {i : Instr} (h : isModifier i = true) (s : State) : exec i s = runPfx s := by
  obtain ⟨m, t, rfl⟩ | ⟨z, v, k, rfl⟩ | ⟨x, rfl⟩ := isModifier_cases h <;> rfl

section
variable {s : State}

/-- A modifier word in a slot (R41). -/
theorem runPfx_slot (h : (s.core s.cur).slot ≠ none) : runPfx s = .next (s.takeTrap s.cur .dslot (s.core s.cur).pc ((s.core s.cur).pc + 4)) := by
  simp [runPfx, Option.isSome_iff_ne_none, h]

/-- A modifier word after a chain that it can join (R36, R38). -/
theorem runPfx_joins (h : (s.core s.cur).slot = none) (n : (s.core s.cur).pfx.length < 2)
    (k : ∀ w ∈ (s.core s.cur).pfx, pfxKind w ≠ pfxKind (s.core s.cur).ir) :
    runPfx s = .next (s.setCore s.cur { s.core s.cur with
      pfx := (s.core s.cur).pfx ++ [(s.core s.cur).ir], pfxPc := if (s.core s.cur).pfx = [] then (s.core s.cur).pc else (s.core s.cur).pfxPc
      pc := (s.core s.cur).pc + 4, stalled := false }) := by
  have fits : ¬ (2 ≤ (s.core s.cur).pfx.length ∨ ∃ w ∈ (s.core s.cur).pfx, pfxKind w = pfxKind (s.core s.cur).ir) := by
    rintro (l | ⟨w, hw, e⟩)
    · omega
    · exact k w hw e
  simp [runPfx, h, fits]

/-- A second modifier word of a kind, or a third word, orphans the chain (R38). -/
theorem runPfx_orphan {w : IWord} {t : List IWord} (h : (s.core s.cur).slot = none) (p : (s.core s.cur).pfx = w :: t)
    (o : 2 ≤ (s.core s.cur).pfx.length ∨ ∃ v ∈ (s.core s.cur).pfx, pfxKind v = pfxKind (s.core s.cur).ir) :
    runPfx s = .next (s.takeTrap s.cur .orphan (BitVec.ofNat 64 w.toNat) ((s.core s.cur).pc + 4)) := by
  have first : (s.core s.cur).pfx.head? = some w := by rw [p, List.head?_cons]
  simp [runPfx, h, o, first]
end

/-- Settles O11: NOP ends an instruction that has changed nothing, and the three rows of modifier words come to runPfx. -/
theorem nopAndModifierWords : Obligations.NopAndModifierWords := by
  constructor
  · intro s h
    refine ⟨exec_nop h, fun n => ?_, fun t n => ?_, fun a => rfl⟩
    · rw [State.done_core, Core.advance_next (by exact n)]
      rfl
    · rw [State.done_core, Core.advance_slot (by exact n)]
      exact ⟨rfl, rfl⟩
  · intro s i h c
    rw [exec_modifier h]
    exact ⟨runPfx_joins, fun w t hs hp ho => runPfx_orphan hs hp (ho.imp_left Eq.ge), runPfx_slot⟩

end Sys2Proof.Machine
end

section
namespace Sys2Proof.Machine
open Sys2Proof

/-! ### The checks before a body (R30, R39, R59) -/

/-- The meaning f of i is a body after the checks of R30 items 2 to 5. -/
def Checked (i : Instr) (f : State → Host.Outcome State Fault Refusal) : Prop := ∃ body, f = runCtl i body

theorem Checked.traps {i : Instr} {f : State → Host.Outcome State Fault Refusal} (h : Checked i f) {s : State} {c : Cause} {v : Word}
    (p : (s.core s.cur).preTrap (s.feat s.cur) (s.isSup s.cur) i = some (c, v)) : f s = .next (s.traps i c v) := by
  obtain ⟨body, rfl⟩ := h
  exact runCtl_trap p

section
variable {i : Instr}

theorem checked_runCtl {body} : Checked i (runCtl i body) := ⟨body, rfl⟩
theorem checked_runSeq {body} : Checked i (runSeq i body) := ⟨fun k s => do (← body k s).retire k i, rfl⟩
theorem checked_runLocal {body} : Checked i (runLocal i body) := checked_runSeq (body := fun k s => do .ok (s.setCore k (← (s.core k).run1 i k body)))
theorem checked_runBranch {f} : Checked i (runBranch i f) := by
  unfold runBranch
  exact checked_runCtl
theorem checked_loadScalar {z inv d addr} : Checked i (loadScalar i z inv d addr) := checked_runSeq
theorem checked_storeScalar {z b addr} : Checked i (storeScalar i z b addr) := checked_runSeq
theorem checked_loadVector {inv d addr} : Checked i (loadVector i inv d addr) := checked_runSeq
theorem checked_storeVector {d addr} : Checked i (storeVector i d addr) := checked_runSeq
theorem checked_atomScalar {n op o sc d m} : Checked i (atomScalar i n op o sc d m) := checked_runSeq
theorem checked_bankop {m a b value put} : Checked i (bankop i m a b value put) := checked_runSeq
theorem checked_barrier {d m reads rel f} : Checked i (barrier i d m reads rel f) := checked_runSeq
theorem checked_ring {d m rel acq f} : Checked i (ring i d m rel acq f) := checked_runSeq
theorem checked_postCopy {p k tl v read} : Checked i (postCopy i p k tl v read) := checked_runSeq
theorem checked_moveInstr {d a b acc kind free} : Checked i (moveInstr i d a b acc kind free) := checked_runSeq
theorem checked_postRule {d kind ops} : Checked i (postRule i d kind ops) := checked_runSeq
theorem checked_tlbi {sc a} : Checked i (tlbi i sc a) := checked_runSeq
theorem checked_sresumeForm {d a b c f} : Checked i (sresumeForm i d a b c f) := checked_runSeq
end

/-- The two forms of LVSET, whose PRIV depends on their operands (R331). -/
def isLvset : Instr → Bool
  | .lvset .. | .lvsetReseat .. => true
  | _ => false

/-- Every instruction but a modifier word and LVSET is a body after the checks. -/
theorem checked_exec (i : Instr) (c : i.coded = true) (m : isModifier i = false) (l : isLvset i = false) : Checked i (exec i) := by
  cases i
  case rnd | prd | ximm => cases m
  case lvset | lvsetReseat => cases l
  case trap | take | rpt | endTask | uiret | eret => unfold exec; dsimp only; exact checked_runCtl
  case gong | gongRelease | sget | sset | time | waitt | carr | cwait | nexti | waitc | lds | sts | phase | fence | atomWs | sbind | pbind | tlwait | cmaskC
    | cmaskD | cmaskDc | mxq | mxz | mxzFree | rgen | launch | qpush | lvget | sresumeGet | nop | yield | park => unfold exec; dsimp only; exact checked_runSeq
  case add | sub | and | or | xor | andn | shl | shr | sra | rol | min | max | minu | maxu | slt | sltu | seq | mul | mulh | mulhu | div | divu | rem | remu
    | adds | subs | clz | ctz | popc | bswap | addi | andi | ori | xori | slti | sltiu | shli | shri | srai | li | lui | lea | fadd | fsub | fmul | fdiv
    | fsqrt | fmin | fmax | feq | flt | fle | fcvt | pend | ppoll | kand | kor | kxor | knot | kpop | kfirst | kmovs | kmovk | vadd | vsub | vmul | vdiv
    | vmin | vmax | vabs | vneg | vsqrt | vexp2 | vlog2 | vrcp | vrsq | vand | vor | vxor | vshl | vshr | vsra | vceq | vclt | vcle | vcun | vreds | vredx
    | vredn | vscan | vsort | vmrg | vperm | vbcast | vext | vins | viota | vrnd | vmov | vclass | vdot | vfma | vfms | vfnma | vfnms | vsel | vcvt | vqnt
    | vdq | vwscTo | vwscFrom | vshuf | sdrain | tlget | tlset | liw | lihi | sel | madd => unfold exec; dsimp only; exact checked_runLocal
  case ldb | ldbu | ldh | ldhu | ldw | ldwu | ldd | ldx | ldi => unfold exec; dsimp only; exact checked_loadScalar
  case stb | sth | stw | std | stx => unfold exec; dsimp only; exact checked_storeScalar
  case beq | bne | blt | bge | bltu | bgeu | j | call | jr | bk => unfold exec; dsimp only; exact checked_runBranch
  case vld | vlds | vgath | vldi => unfold exec; dsimp only; exact checked_loadVector
  case vst | vsts | vscat => unfold exec; dsimp only; exact checked_storeVector
  case atomSwap | atomCas | atomAdd | atomAnd | atomOr | atomXor | atomMin | atomMax | atomMinu | atomMaxu | atomFadd | atomFmin | atomFmax => unfold exec; dsimp only; exact checked_atomScalar
  case bankopAddF32 | bankopAddF64 | bankopAddI64 | bankopMinF32 | bankopMaxF32 | bankopMinI64 | bankopMaxI64 | bankopWs => unfold exec; dsimp only; exact checked_bankop
  case bari | bara | barw | barx => unfold exec; dsimp only; exact checked_barrier
  case slotacq | slotwait | slotrel | slotrelFull => unfold exec; dsimp only; exact checked_ring
  case cpy | credAddF32 | credAddF64 | credAddI32 | credMinF32 | credMaxF32 | credMinI32 | credMaxI32 | credWs | cflag | cflagAdd | chase | repart => unfold exec; dsimp only; exact checked_postCopy
  case mxrd | mxwr => unfold exec; dsimp only; exact checked_moveInstr
  case rcfg | rtab | rstep => unfold exec; dsimp only; exact checked_postRule
  case tlbiVa | tlbiAll => unfold exec; dsimp only; exact checked_tlbi
  case sresume | sresumeAbandon | sresumePut => unfold exec; dsimp only; exact checked_sresumeForm
  all_goals cases c

/-! ### The order of the checks (R30) -/

section
variable {c : Core} {feat : Nat} {sup : Bool} {i : Instr}

theorem Core.preTrap_illop (h : i.wf = false ∨ c.badShift i = true) : c.preTrap feat sup i = some (.illop, c.word0) := by
  have bad : (!i.wf || c.badShift i) = true := by simpa using h
  exact if_pos bad

section
variable (w : i.wf = true) (b : c.badShift i = false)
include w b

theorem Core.preTrap_feature {n : Nat} (f : missingFeat feat (c.feats i) = some n) : c.preTrap feat sup i = some (.feature, BitVec.ofNat 64 n) := by
  simp [Core.preTrap, w, b, f]

variable (f : missingFeat feat (c.feats i) = none)
include f

/-- A legal form whose features are there is judged by its privilege, its slot and its modifier words. -/
theorem Core.preTrap_rest : c.preTrap feat sup i =
    if privileged i && !sup then some (.priv, c.word0)
    else if c.slot.isSome && slotForbidden i then some (.dslot, c.pc)
    else if !acceptsMods i c.mods then some (.orphan, BitVec.ofNat 64 ((c.pfx.headD 0).toNat))
    else none := by
  simp [Core.preTrap, w, b, f]

theorem Core.preTrap_priv (p : privileged i = true) (u : sup = false) : c.preTrap feat sup i = some (.priv, c.word0) := by
  simp [Core.preTrap_rest w b f, p, u]

variable (p : privileged i = true → sup = true)
include p

theorem Core.preTrap_slot (s : c.slot ≠ none) (d : slotForbidden i = true) : c.preTrap feat sup i = some (.dslot, c.pc) := by
  have free : ¬ ((privileged i && !sup) = true) := by simpa using p
  simp [Core.preTrap_rest w b f, free, Option.isSome_iff_ne_none, s, d]

theorem Core.preTrap_orphan {x : IWord} {t : List IWord} (s : c.slot = none ∨ slotForbidden i = false) (k : c.pfx = x :: t) (a : acceptsMods i c.mods = false) :
    c.preTrap feat sup i = some (.orphan, BitVec.ofNat 64 x.toNat) := by
  have free : ¬ ((privileged i && !sup) = true) := by simpa using p
  have fit : ¬ ((c.slot.isSome && slotForbidden i) = true) := by rcases s with s | s <;> simp [s]
  have first : c.pfx.head? = some x := by rw [k, List.head?_cons]
  simp [Core.preTrap_rest w b f, free, fit, a, first]

end
end

/-! ### LVSET (R331) -/

theorem isLvset_cases {i : Instr} (l : isLvset i = true) : ∃ d a b c, i = .lvset d a b c ∨ i = .lvsetReseat d a b c := by
  unfold isLvset at l
  split at l
  · exact ⟨_, _, _, _, .inl rfl⟩
  · exact ⟨_, _, _, _, .inr rfl⟩
  · cases l

/-- Neither form of LVSET is a shift by an immediate or reserved to the supervisor. -/
theorem isLvset_plain {i : Instr} (l : isLvset i = true) (c : Core) : c.badShift i = false ∧ privileged i = false := by
  obtain ⟨_, _, _, _, rfl | rfl⟩ := isLvset_cases l <;> exact ⟨rfl, rfl⟩

/-- What stops LVSET as an illegal form or for a feature comes before its own PRIV (R30). -/
def lvsetEarly (p : Option (Cause × Word)) : Bool := match p with | some (.illop, _) | some (.feature, _) => true | _ => false

theorem lvsetInstr_eq (i : Instr) (r : Bool) (d a b c : Reg) (s : State) : ∃ body, lvsetInstr i r d a b c s =
    if !lvsetEarly ((s.core s.cur).preTrap (s.feat s.cur) (s.isSup s.cur) i) && s.lvsetForeign s.cur a b then .next (s.traps i .priv (s.core s.cur).word0)
    else runSeq i body s := ⟨_, rfl⟩

section
variable {i : Instr} {r : Bool} {d a b c : Reg} {s : State}

theorem lvsetInstr_early {q : Cause} {v : Word} (p : (s.core s.cur).preTrap (s.feat s.cur) (s.isSup s.cur) i = some (q, v)) (e : q = .illop ∨ q = .feature) :
    lvsetInstr i r d a b c s = .next (s.traps i q v) := by
  obtain ⟨body, eq⟩ := lvsetInstr_eq i r d a b c s
  have early : lvsetEarly (some (q, v)) = true := by rcases e with rfl | rfl <;> rfl
  simp only [eq, p, early, Bool.not_true, Bool.false_and, Bool.false_eq_true, ↓reduceIte]
  exact checked_runSeq.traps p

theorem lvsetInstr_foreign (l : isLvset i = true) (w : i.wf = true) (f : missingFeat (s.feat s.cur) ((s.core s.cur).feats i) = none)
    (h : s.lvsetForeign s.cur a b = true) : lvsetInstr i r d a b c s = .next (s.traps i .priv (s.core s.cur).word0) := by
  obtain ⟨body, eq⟩ := lvsetInstr_eq i r d a b c s
  obtain ⟨shift, user⟩ := isLvset_plain l (s.core s.cur)
  have late : lvsetEarly ((s.core s.cur).preTrap (s.feat s.cur) (s.isSup s.cur) i) = false := by
    rw [Core.preTrap_rest w shift f, user]
    split_ifs <;> rfl
  simp [eq, late, h]

/-- A user's target is foreign where it is neither its own launch nor one that this submitted (R331). -/
theorem State.lvsetForeign_of {x y : Word} {c1 c2 : Core} (ha : s.me.readS a = .ok (x, c1)) (hb : c1.readS b = .ok (y, c2)) (u : s.isSup s.cur = false)
    (own : s.lvsetTarget s.cur y ≠ (s.core s.cur).run.getD 0) (kids : ∀ l, s.running s.cur = some l → s.lvsetTarget s.cur y ∉ l.kids) :
    s.lvsetForeign s.cur a b = true := by
  change (s.hand s.cur).readS a = _ at ha
  cases h : s.running s.cur with
  | none => simp [State.lvsetForeign, ha, hb, u, own, h]
  | some l => simp [State.lvsetForeign, ha, hb, u, own, h, kids l h]
end

/-- Settles O12: an instruction is a body after the checks but for the forms of LVSET, which add their own; the last clause is preTrap branch by branch. -/
theorem checksBeforeBody : Obligations.ChecksBeforeBody := by
  refine ⟨fun s i c v coded mod own p => ?_, fun s reseat d a b e x y c1 c2 => ?_, fun c feat sup i => ?_⟩
  · have plain : isModifier i = false := by
      rw [← Bool.not_eq_true]
      intro m
      obtain ⟨_, _, rfl⟩ | ⟨_, _, _, rfl⟩ | ⟨_, rfl⟩ := isModifier_cases m <;> cases mod
    cases l : isLvset i with
    | false => exact (checked_exec i coded plain l).traps p
    | true =>
      obtain ⟨d, a, b, e, rfl | rfl⟩ := isLvset_cases l
      · exact lvsetInstr_early p (own.resolve_left Bool.false_ne_true)
      · exact lvsetInstr_early p (own.resolve_left Bool.false_ne_true)
  · intro i w f ha hb u id own kids
    have foreign := State.lvsetForeign_of ha hb u own kids
    cases reseat
    · exact lvsetInstr_foreign rfl w f foreign
    · exact lvsetInstr_foreign rfl w f foreign
  · intro w
    exact ⟨Core.preTrap_illop, fun _ wf b f => Core.preTrap_feature wf b f, Core.preTrap_priv, Core.preTrap_slot,
      fun _ _ wf b f p s k a => Core.preTrap_orphan wf b f p s k a⟩

end Sys2Proof.Machine
end

section
namespace Sys2Proof.Machine
open Sys2Proof

/-! ### System registers (R55, R56, R73, R97, R330) -/

theorem bit_eq_testBit (x i : Nat) : bit x i = x.testBit i := by
  simp [bit, Nat.testBit_eq_decide_div_mod_eq, Nat.shiftRight_eq_div_pow]

/-- An instruction that starts has changed no system register. -/
theorem State.start_sysReg (s : State) (n : Nat) : s.start.sysReg s.cur n = s.sysReg s.cur n := by
  have y : (s.start.core s.cur).sys = (s.core s.cur).sys := by rw [State.start_core]; rfl
  have l : s.start.readLaunchctl s.cur = s.readLaunchctl s.cur := by
    simp only [State.readLaunchctl, y]
    rfl
  simp only [State.sysReg, y, l]
  rfl

/-- SGET of any number (R97). -/
theorem exec_sget {s : State} {d : Reg} {n : BitVec 12} (h : s.Legal (.sget d n)) (hd : d.toNat < 56) :
    exec (.sget d n) s = .next (s.done (.sget d n) (s.me.writeS d.toNat (s.sysReg s.cur n.toNat))) := by
  change execSget d n s = _
  rw [← State.doneIn_setCore]
  refine runSeq_ok h ?_ (by simp) (by simp)
  simp only [State.start_core, State.start_sysReg, Core.putS_reg _ hd, State.start_setCore, bind, Except.bind]

/-- What SGET reads is the table of R55 and R56. -/
theorem sysReg_sgetTable (s : State) (i : Nat) : ∀ p ∈ Claims.sgetTable s i, s.sysReg i (BitVec.ofNat 12 p.1).toNat = p.2 := by
  simp only [Claims.sgetTable, BitVec.zeroExtend, ← BitVec.ofNat_toNat, List.forall_mem_cons, List.not_mem_nil, false_implies, implies_true, and_true]
  and_intros <;> rfl

/-- LAUNCHCTL as SGET reads it: FROZEN and RUNNING of its launch are live (R330). -/
theorem readLaunchctl_none {s : State} {i : Nat} (h : s.launch (s.partOf i) ((s.core i).sys.launchctl.toNat / 2 ^ 32) = none) :
    s.readLaunchctl i = (s.core i).sys.launchctl := by
  simp only [State.readLaunchctl, h, BitVec.ofNat_toNat, BitVec.setWidth_eq]

theorem readLaunchctl_some {s : State} {i : Nat} {l : Launch} (h : s.launch (s.partOf i) ((s.core i).sys.launchctl.toNat / 2 ^ 32) = some l) :
    s.readLaunchctl i = (s.core i).sys.launchctl + (if l.frozen then 0x100 else 0) + (if ∃ p ∈ l.patches, p.claim = true ∧ p.held = false then 0x200 else 0) := by
  have running : (l.patches.any fun p => p.claim && !p.held) = decide (∃ p ∈ l.patches, p.claim = true ∧ p.held = false) := by
    rw [Bool.eq_iff_iff, List.any_eq_true, decide_eq_true_iff]
    simp only [Bool.and_eq_true, Bool.not_eq_true']
  simp only [State.readLaunchctl, h, running, BitVec.ofNat_add, BitVec.ofNat_toNat, BitVec.setWidth_eq]
  congr 1
  · cases l.frozen <;> rfl
  · split <;> simp [*, b2n]

/-- A CMD of 0 or of 3 to 15 sets LID and STATUS (R330). -/
theorem State.launchctl_status (s : State) (i : Nat) {x : Word} (h : x.toNat % 16 = 0 ∨ 3 ≤ x.toNat % 16) :
    s.launchctl i x = s.modCore i fun c => { c with sys := { c.sys with
      launchctl := BitVec.ofNat 64 (x.toNat / 2 ^ 32 * 2 ^ 32 + (if x.toNat % 16 = 0 then 0 else 3 * 2 ^ 16)) } } := by
  have lid : x.toNat / 2 ^ 32 % 2 ^ 32 = x.toNat / 2 ^ 32 := Nat.mod_eq_of_lt (Nat.div_lt_of_lt_mul x.isLt)
  rcases h with h | h
  · simp only [State.launchctl, h, launchctlWord, lid, ↓reduceIte, Nat.zero_mul]
  · have n0 : x.toNat % 16 ≠ 0 := by omega
    unfold State.launchctl
    split
    · omega
    · omega
    · omega
    · simp only [launchctlWord, lid, n0, ↓reduceIte]

section
variable {s : State} {a : Reg} {n : BitVec 12} {x : Word} {c : Core} (r : s.me.readS a = .ok (x, c))
include r

/-- SSET of any number but LAUNCHCTL's (R97). -/
theorem exec_sset (h : s.Legal (.sset a n)) (hn : n.toNat ≠ 0x051) :
    exec (.sset a n) s = .next (s.done (.sset a n) { c with sys := c.sys.set (s.feat s.cur) n.toNat x }) := by
  change execSset a n s = _
  have q : c.txq = [] := by rw [Core.readS_txq r, State.me_txq]
  have o : c.outq = [] := by rw [Core.readS_outq r, State.me_outq]
  rw [← State.doneIn_setCore]
  refine runSeq_ok h ?_ (by simpa using q) (by simpa using o)
  simp only [State.start_core, r, bind, Except.bind, hn, ↓reduceIte, State.start_setCore]
  rfl

/-- SSET of LAUNCHCTL with a CMD of 0 or of 3 to 15 (R330). -/
theorem exec_sset_launchctl (h : s.Legal (.sset a 0x051)) (hx : x.toNat % 16 = 0 ∨ 3 ≤ x.toNat % 16) :
    exec (.sset a 0x051) s = .next (s.done (.sset a 0x051) { c with sys := { c.sys with
      launchctl := BitVec.ofNat 64 (x.toNat / 2 ^ 32 * 2 ^ 32 + (if x.toNat % 16 = 0 then 0 else 3 * 2 ^ 16)) } }) := by
  change execSset a 0x051 s = _
  have q : c.txq = [] := by rw [Core.readS_txq r, State.me_txq]
  have o : c.outq = [] := by rw [Core.readS_outq r, State.me_outq]
  have n1 : x.toNat % 16 ≠ 1 := by omega
  rw [← State.doneIn_setCore]
  refine runSeq_ok h ?_ (by simpa using q) (by simpa using o)
  simp only [State.start_core, r, bind, Except.bind, n1, ↓reduceIte, State.start_setCore, State.launchctl_status _ _ hx, State.modCore_setCore]
  rfl
end

/-! ### What SSET writes (R55, R73) -/

theorem ssetTable_number : ∀ p ∈ Claims.ssetTable, (BitVec.ofNat 12 p.1).toNat ≠ 0x051 := by decide
theorem readOnly_number : ∀ n ∈ Claims.readOnlyNumbers, (BitVec.ofNat 12 n).toNat ≠ 0x051 := by decide

/-- The entries of R55's table: the register's own bits are written, those it keeps stay, the rest become 0. -/
theorem set_ssetTable (y : Sys) (feat : Nat) (x : Word) :
    ∀ p ∈ Claims.ssetTable, y.set feat (BitVec.ofNat 12 p.1).toNat x = p.2.2.2.2 y ((p.2.2.2.1 y &&& p.2.2.1) ||| (x &&& p.2.1)) := by
  have all : x &&& 0xFFFFFFFFFFFFFFFF = x := BitVec.and_allOnes
  have own (old w : Word) : (old &&& 0) ||| w = w := by simp
  simp only [Claims.ssetTable, List.forall_mem_cons, List.not_mem_nil, false_implies, implies_true, and_true, all, own]
  and_intros <;> rfl

theorem set_readOnly (y : Sys) (feat : Nat) (x : Word) : ∀ n ∈ Claims.readOnlyNumbers, y.set feat (BitVec.ofNat 12 n).toNat x = y := by
  simp only [Claims.readOnlyNumbers, List.forall_mem_cons, List.not_mem_nil, false_implies, implies_true, and_true]
  and_intros <;> rfl

/-- FPCTL: an illegal RM leaves RM as it was (R73). -/
theorem fpctlWrite_eq (feat : Nat) (old x : Word) :
    fpctlWrite feat old x = merge old x (if x.toNat % 8 < 5 ∨ (x.toNat % 8 = 5 ∧ feat.testBit 9 = true) then 0x1F07 else 0x1F00) := by
  have illegal : (decide (x.toNat % 8 ≥ 6) || (x.toNat % 8 == 5 && !bit feat 9)) = true ↔ ¬ (x.toNat % 8 < 5 ∨ (x.toNat % 8 = 5 ∧ feat.testBit 9 = true)) := by
    rw [bit_eq_testBit]
    cases feat.testBit 9 <;> simp <;> omega
  simp only [fpctlWrite, illegal, ite_not]
  exact (apply_ite (merge old x) _ _ _).symm

/-- Settles O38: an SGET or SSET of the table is exec_sget or exec_sset at its number; LAUNCHCTL has lemmas of its own. -/
theorem systemRegisterResult : Obligations.SystemRegisterResult := by
  refine ⟨fun s d hd => ⟨fun p hp h => ?_, fun h => ⟨fun hl => ?_, fun l hl => ?_⟩⟩, fun s a x c r => ⟨fun p hp h => ?_, fun h => ?_, fun n hn h => ?_, fun h hx => ?_⟩⟩
  · rw [exec_sget h hd, sysReg_sgetTable s s.cur p hp]
  · rw [exec_sget h hd]
    exact congrArg (fun w => Host.Outcome.next (s.done _ (s.me.writeS d.toNat w))) (readLaunchctl_none hl)
  · rw [exec_sget h hd]
    exact congrArg (fun w => Host.Outcome.next (s.done _ (s.me.writeS d.toNat w))) (readLaunchctl_some hl)
  · rw [exec_sset r h (ssetTable_number p hp), set_ssetTable c.sys (s.feat s.cur) x p hp]
  · rw [exec_sset r h (by decide)]
    change _ = Host.Outcome.next (s.done _ { c with sys := { c.sys with fpctl := merge c.sys.fpctl x _ } })
    rw [← fpctlWrite_eq]
    rfl
  · rw [exec_sset r h (readOnly_number n hn), set_readOnly c.sys (s.feat s.cur) x n hn]
  · exact exec_sset_launchctl r h hx

end Sys2Proof.Machine
end

section
namespace Sys2Proof.Machine
open Sys2Proof

/-! ### RPT (R44, R45, R48, R49) -/

/-- Reading an operand leaves the pc. -/
theorem Core.readS_pc {c c' : Core} {r : Reg} {x : Word} (h : c.readS r = .ok (x, c')) : c'.pc = c.pc := by
  unfold Core.readS at h
  simp only at h
  split at h
  · split at h
    · simp at h
    · split at h <;> simp at h; rw [h.2]
  · split at h <;> simp at h; rw [← h.2]; rfl

/-- The core at the RPT whose frame of the given words is entered, RPTSTATE reading st (R45, R48). -/
def Core.enterFrame (c : Core) (ws : List IWord) (st : Nat) : Core :=
  { c with frame := some ws, pfx := [], stalled := false, sys := { c.sys with rptstate := BitVec.ofNat 64 st } }

/-- RPTSTATE of a frame that has run nothing yet (R48). -/
def rptBegins (b1 a1 d1 : BitVec 2) (n1 : BitVec 4) (cnt : Nat) : Nat :=
  2 ^ 63 + n1.toNat * 2 ^ 59 + d1.toNat * 2 ^ 57 + a1.toNat * 2 ^ 55 + b1.toNat * 2 ^ 53 + cnt

section
variable {s t : State} {csrc : Bool} {a : Reg} {count : BitVec 16} {b1 a1 d1 : BitVec 2} {n1 : BitVec 4} {ws : List IWord}
  (h : s.Legal (.rpt csrc a count b1 a1 d1 n1))
include h

section
variable (new : (bit s.me.sys.rptstate.toNat 63 && s.me.sys.epc == s.me.pc) = false)
include new

/-- A fetch fault of the capture (R45). -/
theorem exec_rpt_fault {q : Cause} {v : Word} (cap : s.start.capture s.cur captureFuel (n1.toNat + 1) (s.me.pc + 8) [] = .error (q, v)) :
    exec (.rpt csrc a count b1 a1 d1 n1) s = .next (s.traps (.rpt csrc a count b1 a1 d1 n1) q v) := by
  change execRpt csrc a count b1 a1 d1 n1 s = _
  refine runCtl_traps h ?_
  simp only [State.start_core, new, cap, Bool.false_eq_true, ↓reduceIte]

variable (cap : s.start.capture s.cur captureFuel (n1.toNat + 1) (s.me.pc + 8) [] = .ok (ws, t)) (len : (splitFrame [] ws).length = n1.toNat + 1)
include cap len

/-- A word that no frame holds (R45). -/
theorem exec_rpt_bad {o : Nat} (bad : frameBad 2 (splitFrame [] ws) = some o) :
    exec (.rpt csrc a count b1 a1 d1 n1) s = .next (s.traps (.rpt csrc a count b1 a1 d1 n1) .rptbad (BitVec.ofNat 64 o)) := by
  change execRpt csrc a count b1 a1 d1 n1 s = _
  refine runCtl_traps h ?_
  simp only [State.start_core, new, cap, len, bad, Bool.false_eq_true, ↓reduceIte]

/-- The count of a captured frame decides whether it is entered or left behind (R44, R49). -/
theorem exec_rpt_counted (good : frameBad 2 (splitFrame [] ws) = none) {c : Core} {cnt : Nat}
    (num : if csrc then ∃ x, s.me.readS a = .ok (x, c) ∧ cnt = x.toNat % 2 ^ 32 else c = s.me ∧ cnt = count.toNat) :
    let c' : Core := { c with itlb := (t.core s.cur).itlb }
    exec (.rpt csrc a count b1 a1 d1 n1) s = .next (t.setCore s.cur
      (if cnt = 0 then { c'.leaveFrame ws with sys := c.sys } else c'.enterFrame ws (rptBegins b1 a1 d1 n1 cnt))) := by
  change execRpt csrc a count b1 a1 d1 n1 s = _
  refine runCtl_ok h ?_
  simp only [State.start_core, new, cap, len, good, Bool.false_eq_true, ↓reduceIte]
  cases csrc with
  | false =>
    obtain ⟨rfl, rfl⟩ := num
    simp only [Bool.false_eq_true, ↓reduceIte, Bind.bind, Except.bind, State.modCore_setCore]
    split <;> rfl
  | true =>
    obtain ⟨x, read, rfl⟩ := num
    simp only [read, ↓reduceIte, Bind.bind, Except.bind, State.modCore_setCore]
    split <;> rfl

end

/-- At EPC with ACTIVE = 1 the frame that RPTSTATE describes goes on (R48). -/
theorem exec_rpt_again (again : (bit s.me.sys.rptstate.toNat 63 && s.me.sys.epc == s.me.pc) = true)
    (count0 : bits s.me.sys.rptstate.toNat 31 0 ≠ 0)
    (cap : s.start.capture s.cur captureFuel (bits s.me.sys.rptstate.toNat 62 59 + 1) (s.me.pc + 8) [] = .ok (ws, t))
    (good : frameBad 2 (splitFrame [] ws) = none) (len : (splitFrame [] ws).length = bits s.me.sys.rptstate.toNat 62 59 + 1) :
    exec (.rpt csrc a count b1 a1 d1 n1) s = .next (t.setCore s.cur
      (({ s.me with itlb := (t.core s.cur).itlb } : Core).enterFrame ws s.me.sys.rptstate.toNat)) := by
  change execRpt csrc a count b1 a1 d1 n1 s = _
  refine runCtl_ok h ?_
  simp only [State.start_core, again, cap, len, good, count0, ↓reduceIte, Bind.bind, Except.bind, State.modCore_setCore]
  rfl
end

/-! ### Iterations (R46 to R49) -/

/-! RPTSTATE's count (its low half) and iteration number (bits 47 to 40) after a write of either. -/

theorem setBits_lo (x y : Nat) : setBits x 31 0 y % 2 ^ 32 = y % 2 ^ 32 := by
  simp only [setBits, bits, Nat.shiftRight_eq_div_pow]
  omega

theorem bits_mid_setBits_lo (x y : Nat) : bits (setBits x 31 0 y) 47 40 = bits x 47 40 := by
  simp only [setBits, bits, Nat.shiftRight_eq_div_pow]
  omega

theorem bits_mid_setBits (x y : Nat) : bits (setBits x 47 40 y) 47 40 = y % 2 ^ 8 := by
  simp only [setBits, bits, Nat.shiftRight_eq_div_pow]
  omega

theorem bits_mid_mod (x : Nat) : bits (x % 2 ^ 64) 47 40 = bits x 47 40 := by
  simp only [bits, Nat.shiftRight_eq_div_pow]
  omega

theorem bits_lo (x : Nat) : bits x 31 0 = x % 2 ^ 32 := by simp [bits]

/-- RPTSTATE after an iteration that is not the last: one iteration fewer, the iteration number one higher (R48). -/
def rptNext (r : Nat) : Nat := setBits (setBits r 47 40 ((bits r 47 40 + 1) % 224)) 31 0 (bits r 31 0 - 1)

theorem rptNext_count (r : Nat) : (BitVec.ofNat 64 (rptNext r)).toNat % 2 ^ 32 = r % 2 ^ 32 - 1 := by
  rw [BitVec.toNat_ofNat, Nat.mod_mod_of_dvd _ (by decide : 2 ^ 32 ∣ 2 ^ 64), rptNext, setBits_lo, bits_lo]
  omega

theorem rptNext_iteration (r : Nat) : bits (BitVec.ofNat 64 (rptNext r)).toNat 47 40 = (bits r 47 40 + 1) % 224 := by
  rw [BitVec.toNat_ofNat, bits_mid_mod, rptNext, bits_mid_setBits_lo, bits_mid_setBits]
  omega

/-- A core whose frame goes on at RPTSTATE w (R48). Stated for any w, so that comparing cores never evaluates the arithmetic of `rptNext`. -/
def Core.frameAt (c : Core) (w : Word) : Core := { c with stalled := false, sys := { c.sys with rptstate := w } }

@[simp] theorem Core.frameAt_pc (c : Core) (w : Word) : (c.frameAt w).pc = c.pc := rfl
@[simp] theorem Core.frameAt_frame (c : Core) (w : Word) : (c.frameAt w).frame = c.frame := rfl
@[simp] theorem Core.frameAt_rptstate (c : Core) (w : Word) : (c.frameAt w).sys.rptstate = w := rfl
@[simp] theorem Core.leaveFrame_pc (c : Core) (ws : List IWord) : (c.leaveFrame ws).pc = c.pc + BitVec.ofNat 64 (8 + 4 * ws.length) := rfl
@[simp] theorem Core.leaveFrame_frame (c : Core) (ws : List IWord) : (c.leaveFrame ws).frame = none := rfl
@[simp] theorem Core.leaveFrame_rptstate (c : Core) (ws : List IWord) : (c.leaveFrame ws).sys.rptstate = 0 := rfl

/-- An iteration counts; the last one leaves the frame behind (R48, R49). -/
theorem Core.endIteration_eq (c : Core) (ws : List IWord) :
    c.endIteration ws = if bits c.sys.rptstate.toNat 31 0 - 1 = 0 then (c.frameAt (BitVec.ofNat 64 (rptNext c.sys.rptstate.toNat))).leaveFrame ws
      else c.frameAt (BitVec.ofNat 64 (rptNext c.sys.rptstate.toNat)) := rfl

theorem Core.endIteration_more (c : Core) (ws : List IWord) (h : 1 < bits c.sys.rptstate.toNat 31 0) :
    c.endIteration ws = c.frameAt (BitVec.ofNat 64 (rptNext c.sys.rptstate.toNat)) := by
  rw [Core.endIteration_eq, if_neg (by omega)]

theorem Core.endIteration_last (c : Core) (ws : List IWord) (h : bits c.sys.rptstate.toNat 31 0 = 1) :
    c.endIteration ws = (c.frameAt (BitVec.ofNat 64 (rptNext c.sys.rptstate.toNat))).leaveFrame ws := by
  rw [Core.endIteration_eq, if_pos (by omega)]

/-- An iteration's end keeps the registers. -/
theorem Core.endIteration_regs (c : Core) (ws : List IWord) : (c.endIteration ws).s = c.s ∧ (c.endIteration ws).v = c.v ∧ (c.endIteration ws).k = c.k := by
  have ends : ∃ w, c.endIteration ws = (c.frameAt w).leaveFrame ws ∨ c.endIteration ws = c.frameAt w := ⟨_, ite_eq_or_eq _ _ _⟩
  obtain ⟨w, e | e⟩ := ends
  · rw [e]
    exact ⟨rfl, rfl, rfl⟩
  · rw [e]
    exact ⟨rfl, rfl, rfl⟩

/-- A core but for its store buffer and what it has pushed. -/
def Core.unpushed (c : Core) : Core := { c with sb := [], outq := [] }

/-- What a core has pushed joins its store buffer; nothing else of the core changes (R231). -/
theorem State.pushOut_core (s : State) (i : Nat) : ((s.pushOut i).core i).unpushed = (s.core i).unpushed := by
  unfold State.pushOut
  dsimp only
  split
  · rfl
  · rw [State.core_modCore_same]
    refine List.foldlRecOn (motive := fun t : State => (t.core i).unpushed = (s.core i).unpushed) _ _ rfl fun t ht q _ => ?_
    rw [State.core_modCore_same]
    exact ht

/-- A core set down with its sends taken is the same core once its pushes have joined its stores. -/
theorem State.pushOut_setCore (s : State) (i : Nat) (c : Core) :
    let u := ((s.setCore i { c with txq := [] }).pushOut i).core i
    u.s = c.s ∧ u.v = c.v ∧ u.k = c.k ∧ u.pc = c.pc ∧ u.frame = c.frame ∧ u.sys = c.sys := by
  have h := State.pushOut_core (s.setCore i { c with txq := [] }) i
  rw [State.core_setCore_same] at h
  exact ⟨(congrArg Core.s h :), (congrArg Core.v h :), (congrArg Core.k h :), (congrArg Core.pc h :), (congrArg Core.frame h :), (congrArg Core.sys h :)⟩

/-- The moves of the D, A and B fields in the current core's next iteration (R46). -/
def State.moves (s : State) : Nat × Nat × Nat :=
  let r := (s.core s.cur).sys.rptstate.toNat
  (bits r 47 40 * strideOf (bits r 58 57), bits r 47 40 * strideOf (bits r 56 55), bits r 47 40 * strideOf (bits r 54 53))

section
variable {s : State} {ws : List IWord} (f : (s.core s.cur).frame = some ws)
include f

/-- A trap in an iteration leaves no effect of it (R47). -/
theorem exec_rptIteration_trap {j : Nat} {q : Cause} {v : Word}
    (run : s.me.runFrame s.cur (s.feat s.cur) (s.isSup s.cur) s.moves 0 (splitFrame [] ws) = .error (j, .trap q v)) :
    exec .rptIteration s = .next ((s.setCore s.cur { s.core s.cur with
      frame := none, sys := { (s.core s.cur).sys with rptstate := BitVec.ofNat 64 (setBits (s.core s.cur).sys.rptstate.toNat 51 48 j) } }).takeTrap
        s.cur q v ((s.core s.cur).pc + 8)) := by
  change execRptIteration s = _
  simp only [State.moves, State.me] at run
  simp only [execRptIteration, f, run]

variable {c : Core} (run : s.me.runFrame s.cur (s.feat s.cur) (s.isSup s.cur) s.moves 0 (splitFrame [] ws) = .ok c) (quiet : c.txq = [])
include run quiet

/-- An iteration that sends nothing commits what its captured instructions make of the core (R46, R48). -/
theorem exec_rptIteration_commits : exec .rptIteration s = .next ((s.setCore s.cur { c.endIteration ws with txq := [] }).pushOut s.cur) := by
  change execRptIteration s = _
  simp only [State.moves, State.me] at run
  simp only [execRptIteration, f, run, quiet, State.sendWords]

/-- The core after an iteration is the one its captured instructions made, at that iteration's end. -/
theorem exec_rptIteration_core : ∃ t, exec .rptIteration s = .next t ∧ (t.core s.cur).s = c.s ∧ (t.core s.cur).v = c.v ∧ (t.core s.cur).k = c.k ∧
    (t.core s.cur).pc = (c.endIteration ws).pc ∧ (t.core s.cur).frame = (c.endIteration ws).frame ∧ (t.core s.cur).sys = (c.endIteration ws).sys := by
  obtain ⟨es, ev, ek⟩ := c.endIteration_regs ws
  obtain ⟨hs, hv, hk, rest⟩ := State.pushOut_setCore s s.cur (c.endIteration ws)
  exact ⟨_, exec_rptIteration_commits f run quiet, hs.trans es, hv.trans ev, hk.trans ek, rest⟩

end

/-- A scalar field that is no port code moves among the 56 registers (R46). -/
theorem stagS_toNat {r : Reg} (h : r.toNat < 56) (t : Nat) : (stagS r t).toNat = (r.toNat + t) % 56 := by
  simp only [stagS, h, ↓reduceIte, BitVec.toNat_ofNat]
  omega

theorem rpt_new_iff {c : Core} : (bit c.sys.rptstate.toNat 63 && c.sys.epc == c.pc) = false ↔ c.sys.rptstate.getLsbD 63 = false ∨ c.sys.epc ≠ c.pc := by
  rw [bit_eq_testBit, Bool.and_eq_false_iff, beq_eq_false_iff_ne]
  rfl

/-- Settles O43: RPT by exec_rpt_counted and exec_rpt_again, an iteration by exec_rptIteration_commits and what its end makes of RPTSTATE. -/
theorem repeatFrames : Obligations.RepeatFrames := by
  refine ⟨?new, ?again, ?iteration, ?stagger⟩
  case new =>
    intro s csrc a count b1 a1 d1 n1 c cnt ws t i h new
    replace new := rpt_new_iff.mpr new
    refine ⟨fun q v cap => exec_rpt_fault h new cap, fun cap len => ⟨fun o bad => exec_rpt_bad h new cap len bad, fun good num => ?_⟩⟩
    have pc : c.pc = s.me.pc := by
      cases csrc with
      | false => exact congrArg Core.pc num.1
      | true => obtain ⟨x, read, -⟩ := num; exact Core.readS_pc read
    refine ⟨_, exec_rpt_counted h new cap len good num, ?_⟩
    rw [State.core_setCore_same]
    by_cases zero : cnt = 0
    · rw [if_pos zero, ← pc]
      exact ⟨fun _ => rfl, rfl, State.capture_mem cap, fun n => absurd zero n, fun _ => ⟨rfl, rfl, rfl⟩⟩
    · rw [if_neg zero, ← pc]
      exact ⟨fun _ => rfl, rfl, State.capture_mem cap, fun _ => ⟨rfl, rfl, rfl⟩, fun z => absurd z zero⟩
  case again =>
    intro s csrc a count b1 a1 d1 n1 ws t i r h active epc count0 cap good len
    have again : (bit s.me.sys.rptstate.toNat 63 && s.me.sys.epc == s.me.pc) = true := by
      rw [bit_eq_testBit, epc, beq_self_eq_true, Bool.and_true]
      exact active
    refine ⟨_, exec_rpt_again h again count0 cap good len, ?_⟩
    rw [State.core_setCore_same]
    refine ⟨rfl, ?_, rfl, State.capture_mem cap, fun _ => rfl⟩
    simp only [Core.enterFrame, BitVec.ofNat_toNat, BitVec.setWidth_eq]
  case iteration =>
    intro s ws f c r m moved
    refine ⟨fun c' run quiet state => ?_, fun j q v run => exec_rptIteration_trap f run⟩
    obtain ⟨t, runs, hs, hv, hk, hpc, hframe, hsys⟩ := exec_rptIteration_core f run quiet
    refine ⟨t, runs, fun n => by rw [Core.sreg, Core.sreg, hs], hv, hk, fun more => ?_, fun last => ?_⟩
    · rw [hframe, hpc, hsys, Core.endIteration_more c' ws (by rwa [state]), Core.frameAt_frame, Core.frameAt_pc, Core.frameAt_rptstate, state]
      exact ⟨rfl, rfl, rptNext_count r, rptNext_iteration r⟩
    · rw [hframe, hpc, hsys, Core.endIteration_last c' ws (by rwa [state]), Core.leaveFrame_frame, Core.leaveFrame_pc, Core.frameAt_pc,
        Core.leaveFrame_rptstate]
      exact ⟨rfl, rfl, rfl⟩
  case stagger =>
    intro m d a b hd ha hb
    exact ⟨_, _, _, rfl, stagS_toNat hd _, stagS_toNat ha _, stagS_toNat hb _⟩

end Sys2Proof.Machine
end

section
namespace Sys2Proof.Machine
open Sys2Proof

/-! ### Scalar entries on one core (R34, R35) -/

/-- The core c of the current instruction, when that has read operands and done no more: nothing is sent or pushed yet, and the system registers stand. -/
def State.Ready (s : State) (c : Core) : Prop := c.txq = [] ∧ c.outq = [] ∧ c.sys = s.me.sys

theorem Core.readS_sys {c c' : Core} {r : Reg} {x : Word} (h : c.readS r = .ok (x, c')) : c'.sys = c.sys := by
  unfold Core.readS at h
  simp only at h
  split at h
  · split at h
    · simp at h
    · split at h <;> simp at h; rw [h.2]
  · split at h <;> simp at h; rw [← h.2]; rfl

theorem State.me_ready (s : State) : s.Ready s.me := ⟨rfl, rfl, rfl⟩
theorem State.Ready.readS {s : State} {c c' : Core} {r : Reg} {x : Word} (o : s.Ready c) (h : c.readS r = .ok (x, c')) : s.Ready c' :=
  ⟨(Core.readS_txq h).trans o.1, (Core.readS_outq h).trans o.2.1, (Core.readS_sys h).trans o.2.2⟩

theorem unS_eq {d a : Reg} {f : Word → Word} {k : Nat} {c c1 : Core} {x : Word} (ha : c.readS a = .ok (x, c1)) : unS d a f k c = (do .ok (← c1.putS k d (f x), 0)) := by
  simp [unS, ha, bind, Except.bind]

theorem triS_eq {d a b e : Reg} {f : Word → Word → Word → Word} {k : Nat} {c c1 c2 c3 : Core} {x y z : Word} (ha : c.readS a = .ok (x, c1))
    (hb : c1.readS b = .ok (y, c2)) (he : c2.readS e = .ok (z, c3)) : triS d a b e f k c = (do .ok (← c3.putS k d (f x y z), 0)) := by
  simp [triS, ha, hb, he, bind, Except.bind]

section
variable {i : Instr} {s : State} {d : Reg} (h : s.Legal i) (r : readsMode i = false) (hd : d.toNat < 56)
include h r hd

/-- An instruction whose body writes the scalar register s[D] over a core that has only read operands, and draws nothing, ends with that write. -/
theorem runLocal_writes {body : CoreBody} {x : Word} {c : Core} (b : body s.cur s.me = (do .ok (← c.putS s.cur d x, 0))) (o : s.Ready c) :
    runLocal i body s = .next (s.done i (c.writeS d.toNat x)) :=
  runLocal_plain h (by rw [b, Core.putS_reg x hd]; rfl) r (by simpa using o.1) (by simpa using o.2.1)

theorem runLocal_constS {f : Core → Word} : runLocal i (constS d f) s = .next (s.done i (s.me.writeS d.toNat (f s.me))) :=
  runLocal_writes h r hd rfl s.me_ready

variable {a b e : Reg} {x y z : Word} {c1 c2 c3 : Core} (ha : s.me.readS a = .ok (x, c1))
include ha

theorem runLocal_unS {f : Word → Word} : runLocal i (unS d a f) s = .next (s.done i (c1.writeS d.toNat (f x))) :=
  runLocal_writes h r hd (unS_eq ha) (s.me_ready.readS ha)

variable (hb : c1.readS b = .ok (y, c2))
include hb

theorem runLocal_binS {f : Word → Word → Word} : runLocal i (binS d a b f) s = .next (s.done i (c2.writeS d.toNat (f x y))) :=
  runLocal_writes h r hd (binS_eq ha hb) ((s.me_ready.readS ha).readS hb)

theorem runLocal_triS {f : Word → Word → Word → Word} (he : c2.readS e = .ok (z, c3)) :
    runLocal i (triS d a b e f) s = .next (s.done i (c3.writeS d.toNat (f x y z))) :=
  runLocal_writes h r hd (triS_eq ha hb he) (((s.me_ready.readS ha).readS hb).readS he)
end

/-- Settles O1: an entry of the table is a binS of its function; the word is evaluated by the decoder. -/
theorem scalarBinaryResult : Obligations.ScalarBinaryResult := by
  refine ⟨fun p hp s d a b x y c1 c2 h ha hb hd => ?_, fun _ => rfl⟩
  rw [(isBinary_of_mem hp).exec_eq]
  exact runLocal_binS h ((isBinary_of_mem hp).mode_eq d a b) hd ha hb

end Sys2Proof.Machine
end

section
namespace Sys2Proof.Machine
open Sys2Proof

/-! ### What the scalar entries of one source compute (R91) -/

theorem bitLen_le {x n : Nat} : bitLen x ≤ n ↔ x < 2 ^ n := by
  unfold bitLen
  split
  next h => simp [h]
  next h => rw [← Nat.log2_lt h, Nat.succ_le_iff]

theorem lt_bitLen {x n : Nat} : n < bitLen x ↔ 2 ^ n ≤ x := by
  rw [← not_iff_not, not_lt, not_le, bitLen_le]

/-- The leading zeros from bit n - 1 down are those above the highest bit set. -/
theorem leading_eq {x n : Nat} (h : x < 2 ^ n) : Claims.leading x n = n - bitLen x := by
  induction n with
  | zero => simp [Claims.leading]
  | succ n ih =>
    rw [Claims.leading]
    split
    next b => exact (Nat.sub_eq_zero_of_le (lt_bitLen.2 (Nat.ge_two_pow_of_testBit b))).symm
    next b =>
      have small : x < 2 ^ n := Nat.lt_of_testBit n (by simpa using b) (by simp) fun j hj => by
        rw [Nat.testBit_two_pow_of_ne (by omega), Nat.testBit_lt_two_pow (h.trans_le (Nat.pow_le_pow_right (by decide) hj))]
      have := bitLen_le.2 small
      rw [ih small]
      omega

/-- The trailing zeros counted from bit i up are those of the number shifted down by i. -/
theorem trailing_eq (x i n : Nat) : Claims.trailing x i n = lowBit n (x / 2 ^ i) := by
  induction n generalizing i with
  | zero => rfl
  | succ n ih => simp [Claims.trailing, lowBit, ih, Nat.testBit_eq_decide_div_mod_eq, Nat.div_div_eq_div_mul, Nat.pow_succ]

theorem popCount_eq (n x : Nat) : popCount n x = (List.range n).countP fun i => x.testBit i := by
  induction n generalizing x with
  | zero => rfl
  | succ n ih =>
    rw [popCount, ih, List.range_succ_eq_map, List.countP_cons, List.countP_map, Nat.add_comm]
    congr 1
    · exact List.countP_congr fun i _ => by simp [Nat.testBit_succ]
    · rcases Nat.mod_two_eq_zero_or_one x with e | e <;> simp [Nat.testBit_zero, e]

theorem aluClz_eq : aluClz = fun a => BitVec.ofNat 64 (Claims.leading a.toNat 64) := by
  funext a
  rw [leading_eq a.isLt]
  rfl
theorem aluCtz_eq : aluCtz = fun a => BitVec.ofNat 64 (Claims.trailing a.toNat 0 64) := by
  funext a
  rw [trailing_eq, Nat.pow_zero, Nat.div_one]
  rfl
theorem aluPopc_eq : aluPopc = fun a => BitVec.ofNat 64 ((List.range 64).countP fun i => a.toNat.testBit i) := by
  funext a
  rw [← popCount_eq]
  rfl
theorem append_toNat {n m : Nat} (x : BitVec n) (y : BitVec m) : (x ++ y).toNat = x.toNat * 2 ^ m + y.toNat := by
  rw [BitVec.toNat_append, ← Nat.shiftLeft_add_eq_or_of_lt y.isLt, Nat.shiftLeft_eq]

/-- Eight bytes put together, the last one lowest, are their little-endian number. -/
theorem ofBytes_append (b0 b1 b2 b3 b4 b5 b6 b7 : Byte) :
    (b0 ++ b1 ++ b2 ++ b3 ++ b4 ++ b5 ++ b6 ++ b7).toNat = ofBytes [b7, b6, b5, b4, b3, b2, b1, b0] := by
  simp only [append_toNat, ofBytes]
  omega

theorem aluBswap_eq : aluBswap = fun a => a.extractLsb' 0 8 ++ a.extractLsb' 8 8 ++ a.extractLsb' 16 8 ++ a.extractLsb' 24 8 ++ a.extractLsb' 32 8 ++
    a.extractLsb' 40 8 ++ a.extractLsb' 48 8 ++ a.extractLsb' 56 8 := by
  funext a
  have bytes : bytesOf 8 a.toNat = [a.extractLsb' 0 8, a.extractLsb' 8 8, a.extractLsb' 16 8, a.extractLsb' 24 8, a.extractLsb' 32 8, a.extractLsb' 40 8,
      a.extractLsb' 48 8, a.extractLsb' 56 8] := by
    simp only [bytesOf, Nat.div_div_eq_div_mul, BitVec.extractLsb', Nat.shiftRight_eq_div_pow]
    norm_num
  rw [aluBswap, bytes]
  exact BitVec.eq_of_toNat_eq ((BitVec.toNat_ofNat _ _).trans ((Nat.mod_eq_of_lt (ofBytes_append .. ▸ BitVec.isLt _)).trans (ofBytes_append ..).symm))

/-- The constructor's instruction puts f s[A] into s[D], and no rounding mode bears on it. -/
structure IsUnary (c : Reg → Reg → Instr) (f : Word → Word) : Prop where
  exec_eq (d a : Reg) (s : State) : exec (c d a) s = runLocal (c d a) (unS d a f) s
  mode_eq (d a : Reg) : readsMode (c d a) = false

theorem isUnary_of_mem : ∀ p ∈ Claims.unaryTable, IsUnary p.1 p.2 := by
  simp only [Claims.unaryTable, ← aluClz_eq, ← aluCtz_eq, ← aluPopc_eq, ← aluBswap_eq, List.forall_mem_cons, List.not_mem_nil, false_implies, implies_true, and_true]
  and_intros <;> exact ⟨fun _ _ _ => rfl, fun _ _ => rfl⟩

/-- A word of page A that no row has (R53). -/
theorem decodeWords_unassigned (x : Fields) (w1 : IWord) (hs : x.sel = 0) (h : decodeA x = none) : decodeWords x.join w1 = .error .unassigned := by
  have short : isLong x.join = false := by rw [Laws.isLong_fields, hs]; rfl
  simp [decodeWords, short, decodeShort, hs, h]

/-- F from 4 to 63 of the group of R91. -/
theorem decodeA_unary_unassigned {f b a d : Reg} (h : 4 ≤ f.toNat) : decodeA ⟨f, b, a, d, 2, 0⟩ = none := by
  change (match f.toNat with | 0 => _ | 1 => _ | 2 => _ | 3 => _ | _ => none) = none
  split
  case h_5 => rfl
  all_goals omega

/-- Settles O2: an entry of the table is a unS of its function; the encodings and the unassigned F are decodeA's. -/
theorem scalarUnaryResult : Obligations.ScalarUnaryResult := by
  refine ⟨fun p hp s d a x c1 h ha hd => ?_, ?_, fun f b a d w1 h => ?_, fun s => rfl⟩
  · rw [(isUnary_of_mem p hp).exec_eq]
    exact runLocal_unS h ((isUnary_of_mem p hp).mode_eq d a) hd ha
  · intro a d w1 word
    have row (f : Reg) (i : Instr) (h : decodeA ⟨f, 0, a, d, 2, 0⟩ = some i) : decodeWords (word f) w1 = .ok i := (Laws.Encoding.page_a ⟨f, 0, a, d, 2, 0⟩ i rfl h).2 w1
    exact ⟨row 0 _ rfl, row 1 _ rfl, row 2 _ rfl, row 3 _ rfl⟩
  · exact ⟨_, decodeWords_unassigned ⟨f, b, a, d, 2, 0⟩ w1 rfl (decodeA_unary_unassigned h)⟩

end Sys2Proof.Machine
end

section
namespace Sys2Proof.Machine
open Sys2Proof

/-! ### Immediates (R37, R92, R93) -/

/-- The low n bits as two's complement are the integer of an n-bit vector (R7). -/
theorem sext_eq (x n : Nat) : sext x n = (BitVec.ofNat n x).toInt := by
  rcases n with _ | n
  · simp [sext, Subsingleton.elim (BitVec.ofNat 0 x) 0]
  · have half : x % 2 ^ (n + 1) < 2 ^ n ↔ 2 * (x % 2 ^ (n + 1)) < 2 ^ (n + 1) := by rw [pow_succ]; omega
    simp only [sext, BitVec.toInt_eq_toNat_cond, BitVec.toNat_ofNat, Nat.add_sub_cancel, half]
    simp

theorem sext_toNat {n : Nat} (x : BitVec n) : sext x.toNat n = x.toInt := by
  rw [sext_eq, BitVec.ofNat_toNat, BitVec.setWidth_eq]

theorem Core.imm12_eq (c : Core) (imm : BitVec 12) : c.imm12 imm = Claims.imm12 c imm := by
  unfold Core.imm12 Claims.imm12
  split <;> exact sext_toNat _

theorem Core.imm18_eq (c : Core) (imm : BitVec 18) : c.imm18 imm = Claims.imm18 c imm := by
  unfold Core.imm18 Claims.imm18
  split <;> exact sext_toNat _

theorem toInt_range {n : Nat} (x : BitVec n) (h : n ≤ 38) : -(2 ^ 37) ≤ x.toInt ∧ x.toInt < 2 ^ 37 := by
  have small : (2 : ℤ) ^ n ≤ 2 ^ 38 := pow_le_pow_right₀ (by decide) h
  have lo := BitVec.le_two_mul_toInt (x := x)
  have hi := BitVec.two_mul_toInt_lt (x := x)
  omega

/-- An immediate fits in 38 bits (R37). -/
theorem imm12_range (c : Core) (imm : BitVec 12) : -(2 ^ 37) ≤ Claims.imm12 c imm ∧ Claims.imm12 c imm < 2 ^ 37 := by
  unfold Claims.imm12
  split <;> exact toInt_range _ (by decide)

/-- What a legal instruction is: a legal form, its shift immediate from 0 to 63 (R30 item 2). -/
theorem State.Legal.form {s : State} {i : Instr} (h : s.Legal i) : i.wf = true ∧ s.me.badShift i = false := by
  have good : ¬ (i.wf = false ∨ (s.core s.cur).badShift i = true) := fun bad => by
    rw [State.Legal, Core.preTrap_illop bad] at h
    cases h
  rw [not_or, Bool.not_eq_false, Bool.not_eq_true] at good
  exact good

/-! ### What the immediate entries compute (R92) -/

section
variable {m : Int}

theorem wordOfInt_toInt (h : -(2 ^ 37) ≤ m ∧ m < 2 ^ 37) : (wordOfInt m).toInt = m := by
  rw [wordOfInt, BitVec.toInt_ofInt]
  exact Int.bmod_eq_of_le (by omega) (by omega)

theorem shamt_wordOfInt (h : 0 ≤ m ∧ m ≤ 63) : shamt (wordOfInt m) = m.toNat := by
  obtain ⟨n, rfl⟩ := Int.eq_ofNat_of_zero_le h.1
  rw [shamt, wordOfInt, BitVec.ofInt_natCast]
  simp
  omega
end

/-- The constructor's instruction puts f of s[A] and of its immediate into s[D], which is g of s[A] and the number that the immediate is. -/
structure IsImmediate (c : Reg → Reg → BitVec 12 → Instr) (f : Word → Word → Word) (g : Word → Int → Word) : Prop where
  exec_eq (d a : Reg) (imm : BitVec 12) (s : State) : exec (c d a imm) s = runLocal (c d a imm) (immS d a imm f) s
  mode_eq (d a : Reg) (imm : BitVec 12) : readsMode (c d a imm) = false
  value_eq (k : Core) (d a : Reg) (imm : BitVec 12) (x : Word) (h : k.badShift (c d a imm) = false) :
    f x (wordOfInt (Claims.imm12 k imm)) = g x (Claims.imm12 k imm)

/-- A shift immediate that is not bad. -/
theorem Core.shift_range {k : Core} {imm : BitVec 12} (h : (decide (k.imm12 imm < 0) || decide (k.imm12 imm > 63)) = false) :
    0 ≤ Claims.imm12 k imm ∧ Claims.imm12 k imm ≤ 63 := by
  rw [← k.imm12_eq]
  simpa using h

theorem isImmediate_of_mem : ∀ p ∈ Claims.immTable, ∃ f, IsImmediate p.1 f p.2 := by
  simp only [Claims.immTable, List.forall_mem_cons, List.not_mem_nil, false_implies, implies_true, and_true]
  have word (k : Core) (imm : BitVec 12) := wordOfInt_toInt (imm12_range k imm)
  refine ⟨⟨aluAdd, fun _ _ _ _ => rfl, fun _ _ _ => rfl, fun k d a imm x _ => ?_⟩, ⟨aluAnd, fun _ _ _ _ => rfl, fun _ _ _ => rfl, fun _ _ _ _ _ _ => rfl⟩,
    ⟨aluOr, fun _ _ _ _ => rfl, fun _ _ _ => rfl, fun _ _ _ _ _ _ => rfl⟩, ⟨aluXor, fun _ _ _ _ => rfl, fun _ _ _ => rfl, fun _ _ _ _ _ _ => rfl⟩,
    ⟨aluSlt, fun _ _ _ _ => rfl, fun _ _ _ => rfl, fun k d a imm x _ => ?_⟩, ⟨aluSltu, fun _ _ _ _ => rfl, fun _ _ _ => rfl, fun _ _ _ _ _ _ => rfl⟩,
    ⟨aluShl, fun _ _ _ _ => rfl, fun _ _ _ => rfl, fun k d a imm x h => ?_⟩, ⟨aluShr, fun _ _ _ _ => rfl, fun _ _ _ => rfl, fun k d a imm x h => ?_⟩,
    ⟨aluSra, fun _ _ _ _ => rfl, fun _ _ _ => rfl, fun k d a imm x h => ?_⟩⟩
  · rw [aluAdd, wordOfInt, BitVec.ofInt_add, BitVec.ofInt_toInt]
  · simp only [aluSlt, word]
  · rw [aluShl, shamt_wordOfInt (Core.shift_range h)]
    exact BitVec.eq_of_toNat_eq (by simp [Nat.shiftLeft_eq])
  · have r := Core.shift_range h
    rw [aluShr_eq]
    change BitVec.ofNat 64 (x.toNat / 2 ^ shamt (wordOfInt _)) = _
    rw [shamt_wordOfInt r]
  · rw [aluSra_eq]
    change BitVec.ofInt 64 (x.toInt / 2 ^ shamt (wordOfInt _)) = _
    rw [shamt_wordOfInt (Core.shift_range h)]

theorem immS_eq {d a : Reg} {imm : BitVec 12} {f : Word → Word → Word} {k : Nat} {c c1 : Core} {x : Word} (ha : c.readS a = .ok (x, c1)) :
    immS d a imm f k c = (do .ok (← c1.putS k d (f x (wordOfInt (Claims.imm12 c imm))), 0)) := by
  simp [immS, ha, bind, Except.bind, c.imm12_eq]

/-- Settles O3: an entry of the table runs immS, whose immediate is the number of R92 where the form is legal. -/
theorem scalarImmediateResult : Obligations.ScalarImmediateResult := by
  intro p hp s d a imm x c1 h ha hd
  obtain ⟨f, hf⟩ := isImmediate_of_mem p hp
  rw [hf.exec_eq, ← hf.value_eq s.me d a imm x h.form.2]
  exact runLocal_writes h (hf.mode_eq d a imm) hd (immS_eq ha) (s.me_ready.readS ha)

end Sys2Proof.Machine
end

section
namespace Sys2Proof.Machine
open Sys2Proof

/-! ### Constants, LEA, SEL and MADD (R93, R94) -/

theorem lihi_eq (imm : IWord) : BitVec.ofNat 64 (imm.toNat * 2 ^ 32) = imm ++ (0 : BitVec 32) := by
  have fits : imm.toNat * 2 ^ 32 < 2 ^ 64 := by have := imm.isLt; omega
  exact BitVec.eq_of_toNat_eq ((BitVec.toNat_ofNat _ _).trans ((Nat.mod_eq_of_lt fits).trans ((append_toNat imm 0#32).trans (Nat.add_zero _)).symm))

theorem aluLea_eq (x y : Word) (n : Nat) : aluLea x y n = BitVec.ofNat 64 (x.toNat + y.toNat * 2 ^ n) :=
  BitVec.eq_of_toNat_eq (by simp [aluLea, Nat.shiftLeft_eq])

theorem madd_eq (x y z : Word) : x * y + z = BitVec.ofNat 64 (x.toNat * y.toNat + z.toNat) :=
  BitVec.eq_of_toNat_eq (by simp)

/-- Settles O4: each entry is a body of its own form, and what it computes is the entry's by sext_toNat, lihi_eq, aluLea_eq and madd_eq. -/
theorem constantAndAddressResult : Obligations.ConstantAndAddressResult := by
  refine ⟨fun s d imm h hd => ?_, fun s d imm h hd => ?_, fun s d imm h hd => ?_, fun s d imm h hd => ?_, fun s d a b sh x y c1 c2 h ha hb hd => ?_,
    fun s d a b e x y z c1 c2 c3 h ha hb he hd => ?_, fun s d a b e x y z c1 c2 c3 h ha hb he hd => ?_⟩
  · rw [← Core.imm18_eq]
    exact runLocal_constS h rfl hd
  · rw [← Core.imm18_eq]
    exact runLocal_constS h rfl hd
  · exact runLocal_constS h rfl hd
  · rw [← lihi_eq]
    exact runLocal_constS h rfl hd
  · rw [← aluLea_eq]
    exact runLocal_binS h rfl hd ha hb
  · rw [← ite_not]
    exact runLocal_triS h rfl hd ha hb he
  · rw [← madd_eq]
    exact runLocal_triS h rfl hd ha hb he

end Sys2Proof.Machine
end

section
namespace Sys2Proof.Machine
open Sys2Proof

/-! ### Results with flags (R79, R80) -/

theorem State.Ready.quiet_iff {s : State} {c : Core} (o : s.Ready c) (fl : FFlags) : c.Quiet fl ↔ s.me.Quiet fl := by
  rw [Core.Quiet, Core.Quiet, o.2.2]

theorem Core.gate_quiet {c : Core} {fl : FFlags} (h : c.Quiet fl) : c.gate fl = .ok () := if_neg (not_not_intro h)
theorem Core.gate_traps {c : Core} {fl : FFlags} (h : ¬ c.Quiet fl) : c.gate fl = .error (.trap .fptrap (BitVec.ofNat 64 fl.toNat)) := if_pos h
@[simp] theorem Core.quiet_zero (c : Core) : c.Quiet 0 := by simp [Core.Quiet]

@[simp] theorem Core.writeS_sys (c : Core) (n : Nat) (x : Word) : (c.writeS n x).sys = c.sys := by
  simp only [Core.writeS, Core.setS]
  split <;> rfl

section
variable {s : State} {i : Instr} {body : CoreBody} {c : Core} {fl : FFlags} (h : s.Legal i) (e : exec i s = runLocal i body s) (o : s.Ready c)
include h e o

/-- A body that learns its flags before it writes traps where one of them is enabled (R80). -/
theorem trapsOn_gate {put : M Core} (b : body s.cur s.me = (do c.gate fl; .ok (← put, fl))) : Claims.TrapsOn s i fl := by
  intro loud
  rw [e]
  refine runLocal_traps h ?_
  rw [b, Core.gate_traps ((o.quiet_iff fl).not.2 loud)]
  rfl

/-- A scalar result with flags (R79, R80). -/
theorem givesS_gate {d : Reg} {x : Word} (b : body s.cur s.me = (do c.gate fl; .ok (← c.putS s.cur d x, fl))) : Claims.GivesS s i c d x fl := by
  refine ⟨fun hd quiet => ?_, trapsOn_gate h e o b⟩
  have q : c.Quiet fl := (o.quiet_iff fl).2 quiet
  rw [e]
  refine runLocal_ok h (c := c.writeS d.toNat x) ?_ ?_ ?_ ?_
  · rw [b, Core.gate_quiet q, Core.putS_reg x hd]
    rfl
  · rwa [Core.Quiet, Core.writeS_sys]
  · simpa using o.1
  · simpa using o.2.1
end

/-! ### Scalar floating point (R95, R96) -/

/-- The constructor's instruction puts the result of op on two encodings into s[D] (R95). -/
def IsFps (c : Bool → Reg → Reg → Reg → Instr) (op : FInfo → Env → Nat → Nat → Nat × FFlags) : Prop :=
  ∀ dbl d a b s, exec (c dbl d a b) s = runLocal (c dbl d a b) (binF dbl d a b op) s

theorem isFps_of_mem : ∀ p ∈ Claims.fpsTable, IsFps p.1 p.2 := by
  simp only [Claims.fpsTable, List.forall_mem_cons, List.not_mem_nil, false_implies, implies_true, and_true]
  and_intros <;> exact fun _ _ _ _ _ => rfl

section
variable {s : State} {d a b : Reg} {x y : Word} {c1 c2 : Core} (ha : s.me.readS a = .ok (x, c1))
include ha

theorem givesS_fps {p} (hp : p ∈ Claims.fpsTable) {dbl : Bool} (h : s.Legal (p.1 dbl d a b)) (hb : c1.readS b = .ok (y, c2)) :
    let i := Claims.fps dbl
    let r := p.2 i s.me.env (x.toNat % 2 ^ i.w) (y.toNat % 2 ^ i.w)
    Claims.GivesS s (p.1 dbl d a b) c2 d (BitVec.ofNat 64 r.1) r.2 :=
  givesS_gate h (isFps_of_mem p hp dbl d a b s) ((s.me_ready.readS ha).readS hb) (by simp only [binF, ha, hb, bind, Except.bind]; rfl)

theorem givesS_fsqrt {dbl : Bool} (h : s.Legal (.fsqrt dbl d a)) :
    let i := Claims.fps dbl
    let r := i.sqrt s.me.env.rm s.me.env.sat (s.me.env.g 0) (i.decode (x.toNat % 2 ^ i.w))
    Claims.GivesS s (.fsqrt dbl d a) c1 d (BitVec.ofNat 64 r.1) r.2 :=
  givesS_gate (body := bodyFsqrt dbl d a) h rfl (s.me_ready.readS ha) (by simp only [bodyFsqrt, ha, bind, Except.bind]; rfl)

theorem givesS_fcvt {dst src : CvtKind} (h : s.Legal (.fcvt dst src d a)) :
    let r := fcvtOf dst src s.me.env x
    Claims.GivesS s (.fcvt dst src d a) c1 d r.1 r.2 :=
  givesS_gate (body := bodyFcvt dst src d a) h rfl (s.me_ready.readS ha) (by simp only [bodyFcvt, ha, bind, Except.bind])
end

/-- Settles O5: each instruction is a scalar result with flags, its body being gate and write. -/
theorem scalarFloatResult : Obligations.ScalarFloatResult :=
  ⟨⟨fun _ hp _ _ _ _ _ _ _ _ _ h ha hb => (givesS_fps ha hp h hb).1, fun _ _ _ _ _ _ h ha => (givesS_fsqrt ha h).1,
      fun _ _ _ _ _ _ _ h ha => (givesS_fcvt ha h).1⟩,
    fun _ hp _ _ _ _ _ _ _ _ _ h ha hb => (givesS_fps ha hp h hb).2, fun _ _ _ _ _ _ h ha => (givesS_fsqrt ha h).2,
    fun _ _ _ _ _ _ _ h ha => (givesS_fcvt ha h).2⟩

end Sys2Proof.Machine
end

section
namespace Sys2Proof.Machine
open Sys2Proof

/-! ### Mask instructions (R102) -/

section
variable {i : Instr} {s : State} {d : Reg} (h : s.Legal i) (r : readsMode i = false)
include h r

/-- A body that writes k[D] over a core that has only read operands. -/
theorem runLocal_putK {body : CoreBody} {x : Word} {c : Core} (b : body s.cur s.me = .ok (c.putK d.toNat x, 0)) (o : s.Ready c) :
    runLocal i body s = .next (s.done i (c.putK d.toNat x)) := runLocal_plain h b r o.1 o.2.1

theorem runLocal_binK {a b : Reg} {x y : Word} (ha : s.me.readK a.toNat = .ok x) (hb : s.me.readK b.toNat = .ok y) {f : Word → Word → Word} :
    runLocal i (binK d a b f) s = .next (s.done i (s.me.putK d.toNat (f x y))) :=
  runLocal_putK h r (by simp [binK, ha, hb, bind, Except.bind]) s.me_ready

theorem runLocal_maskS {a : Reg} {x : Word} (ha : s.me.readK a.toNat = .ok x) (hd : d.toNat < 56) {f : Word → Word} :
    runLocal i (maskS d a f) s = .next (s.done i (s.me.writeS d.toNat (f x))) :=
  runLocal_writes h r hd (by simp [maskS, ha, bind, Except.bind]) s.me_ready
end

/-- Settles O6: two masks are binK, a mask into a scalar register is maskS, KNOT and KMOVK are bodies of their own. -/
theorem maskResult : Obligations.MaskResult := by
  refine ⟨fun p hp s d a b x y h ha hb => ?_, fun s d a x h ha => ?_, fun p hp s d a x h ha hd => ?_, fun s d a x c1 h ha => ?_⟩
  · simp only [Claims.maskTable, List.mem_cons, List.not_mem_nil, or_false] at hp
    obtain rfl | rfl | rfl := hp <;> exact runLocal_binK h rfl ha hb
  · exact runLocal_putK (body := bodyKnot d a) h rfl (by simp [bodyKnot, ha, bind, Except.bind]) s.me_ready
  · simp only [Claims.maskReadTable, List.mem_cons, List.not_mem_nil, or_false, ← aluPopc_eq, ← aluCtz_eq] at hp
    obtain rfl | rfl | rfl := hp <;> exact runLocal_maskS h rfl ha hd
  · exact runLocal_putK (body := bodyKmovk d a) h rfl (by simp [bodyKmovk, ha, bind, Except.bind]) (s.me_ready.readS ha)

end Sys2Proof.Machine
end

section
namespace Sys2Proof.Machine
open Sys2Proof

/-! ### Branches and jumps (R40, R41, R98 to R100) -/

theorem State.me_rel (s : State) (n : Int) : s.me.rel n = Claims.target s n := rfl

section
variable {s : State} {i : Instr} {f : Nat → Word → Core → M (Core × Option Word)} (h : s.Legal i)
include h

/-- A branch whose slot holds what R41 forbids has no other effect. -/
theorem runBranch_dslot (bad : s.start.badSlot s.cur ((s.core s.cur).pc + 4) = true) : runBranch i f s = .next (s.traps i .dslot ((s.core s.cur).pc + 4)) := by
  have pc : s.me.pc = (s.core s.cur).pc := rfl
  refine runCtl_traps h ?_
  simp only [State.start_core, pc, bad, trapIf, ↓reduceIte, bind, Except.bind]

variable (free : Claims.SlotFree s)
include free

theorem runBranch_body : runBranch i f s = settleOutcome i s.cur s (do
    let (c, t) ← f s.cur (Claims.after s) s.me
    let u ← (s.setCore s.cur { c with txq := [] }).sendWords s.cur c.txq (s.setCore s.cur { c with txq := [] })
    .ok (u.modCore s.cur fun c => c.branch 4 (t.getD (Claims.after s)))) := by
  have pc : s.me.pc = (s.core s.cur).pc := rfl
  have ok : s.start.badSlot s.cur ((s.core s.cur).pc + 4) = false := free
  rw [runBranch, runCtl_legal h]
  simp only [State.start_core, State.start_setCore, pc, ok, trapIf, Bool.false_eq_true, ↓reduceIte, bind, Except.bind]
  rfl

/-- A branch that sends nothing: its slot comes next, then the target, or the address after the slot (R40). -/
theorem runBranch_ok {c : Core} {t : Option Word} (b : f s.cur (Claims.after s) s.me = .ok (c, t)) (o : c.txq = []) :
    runBranch i f s = .next (Claims.branched s c (t.getD (Claims.after s))) := by
  simp only [runBranch_body h free, b, o, bind, Except.bind, State.sendWords, State.modCore_setCore]
  rfl

theorem runBranch_traps {q : Cause} {v : Word} (b : f s.cur (Claims.after s) s.me = .error (.trap q v)) : runBranch i f s = .next (s.traps i q v) := by
  simp only [runBranch_body h free, b, bind, Except.bind]
  rfl

variable {a b : Reg} {x y : Word} {c1 c2 : Core} (ha : s.me.readS a = .ok (x, c1))
include ha

/-- A compare-branch (R98). -/
theorem runBranch_branchIf {off : BitVec 12} {p : Word → Word → Bool} (hb : c1.readS b = .ok (y, c2)) :
    runBranch i (branchIf a b off p) s = .next (Claims.branched s c2 (if p x y then Claims.target s off.toInt else Claims.after s)) := by
  rw [runBranch_ok h free (c := c2) (t := if p x y then some (Claims.target s off.toInt) else none) ?_ ((s.me_ready.readS ha).readS hb).1]
  · split <;> rfl
  · simp only [branchIf, ha, hb, bind, Except.bind, State.me_rel]
end

/-- The constructor's instruction branches where p holds of s[A] and s[B]; its opcode is op (R98). -/
structure IsCompareBranch (op : Nat) (c : Reg → Reg → BitVec 12 → Instr) (q : Word → Word → Prop) (p : Word → Word → Bool) : Prop where
  decode_eq (a b d f : Reg) : decodeA ⟨f, b, a, d, BitVec.ofNat 6 op, 0⟩ = some (c a b (f ++ d))
  exec_eq (a b : Reg) (off : BitVec 12) (s : State) : exec (c a b off) s = runBranch (c a b off) (branchIf a b off p) s
  cond_iff (x y : Word) : p x y = true ↔ q x y

theorem isCompareBranch_of_mem : ∀ p ∈ Claims.branchTable, ∃ t, IsCompareBranch p.1 p.2.1 p.2.2 t := by
  simp only [Claims.branchTable, List.forall_mem_cons, List.not_mem_nil, false_implies, implies_true, and_true]
  exact ⟨⟨_, fun _ _ _ _ => rfl, fun _ _ _ _ => rfl, fun _ _ => beq_iff_eq⟩, ⟨_, fun _ _ _ _ => rfl, fun _ _ _ _ => rfl, fun _ _ => bne_iff_ne⟩,
    ⟨_, fun _ _ _ _ => rfl, fun _ _ _ _ => rfl, fun _ _ => decide_eq_true_iff⟩, ⟨_, fun _ _ _ _ => rfl, fun _ _ _ _ => rfl, fun _ _ => decide_eq_true_iff⟩,
    ⟨_, fun _ _ _ _ => rfl, fun _ _ _ _ => rfl, fun _ _ => decide_eq_true_iff⟩, ⟨_, fun _ _ _ _ => rfl, fun _ _ _ _ => rfl, fun _ _ => decide_eq_true_iff⟩⟩

/-- Settles O9: an entry of the table decodes by its fields, and its meaning is branchIf of its condition. -/
theorem compareBranchResult : Obligations.CompareBranchResult := by
  intro p hp
  obtain ⟨t, ht⟩ := isCompareBranch_of_mem p hp
  refine ⟨fun a b off w1 => ?_, fun s a b off x y c1 c2 h free ha hb => ⟨fun yes => ?_, fun no => ?_⟩⟩
  · have row := ht.decode_eq a b (off.extractLsb' 0 6) (off.extractLsb' 6 6)
    rw [show off.extractLsb' 6 6 ++ off.extractLsb' 0 6 = off from Laws.hi6_lo6 off] at row
    exact (Laws.Encoding.page_a _ _ rfl row).2 w1
  · rw [ht.exec_eq, runBranch_branchIf h free ha hb, if_pos ((ht.cond_iff x y).2 yes)]
  · rw [ht.exec_eq, runBranch_branchIf h free ha hb, if_neg (mt (ht.cond_iff x y).1 no)]

/-- The meaning g of i is runBranch of reads and writes of its own. -/
def Branches (i : Instr) (g : State → Host.Outcome State Fault Refusal) : Prop := ∃ f, g = runBranch i f

theorem branches_runBranch {i : Instr} {f} : Branches i (runBranch i f) := ⟨f, rfl⟩

/-- Every branch runs as runBranch says, and none may stand in a slot. -/
theorem branches_of_isBranch {i : Instr} (h : Claims.isBranch i = true) : Branches i (exec i) ∧ slotForbidden i = true := by
  unfold Claims.isBranch at h
  split at h
  case h_11 => cases h
  all_goals
    refine ⟨?_, rfl⟩
    unfold exec
    dsimp only
    exact branches_runBranch

section
variable {s : State} {k : Nat} {va : Word}

theorem State.badSlot_modifier {w : IWord} (p : s.peek k va = some w) (m : w.toNat % 4 = 2) : s.badSlot k va = true := by
  simp [State.badSlot, p, m]

theorem State.badSlot_forbidden {x : Instr} (p : s.peekInstr k va = some x) (m : slotForbidden x = true) : s.badSlot k va = true := by
  simp [State.badSlot, p, m]
end

section
variable {s : State} {d a : Reg} {x : Word} {c1 : Core} (h : s.Legal (.jr d a)) (free : Claims.SlotFree s) (ha : s.me.readS a = .ok (x, c1))
include h free ha

/-- JR to a word address: the target is read before the link is written (R99). -/
theorem exec_jr (hd : d.toNat < 56) (al : x.toNat % 4 = 0) :
    exec (.jr d a) s = .next (Claims.branched s (if d = 0 then c1 else c1.writeS d.toNat (Claims.after s)) x) := by
  have tx := (s.me_ready.readS ha).1
  change execJr d a s = _
  refine runBranch_ok h free (t := some x) ?_ (by split <;> simp [tx])
  simp only [ha, al, trapIf, bne_self_eq_false, Bool.false_eq_true, ↓reduceIte, bind, Except.bind, Core.putS_reg _ hd]
  split <;> rfl

theorem exec_jr_align (al : x.toNat % 4 ≠ 0) : exec (.jr d a) s = .next (s.traps (.jr d a) .align x) := by
  change execJr d a s = _
  refine runBranch_traps h free ?_
  simp only [ha, bne_iff_ne.2 al, trapIf, ↓reduceIte, bind, Except.bind]
end

/-- Settles O10: each jump is runBranch of its own reads and writes; what a slot forbids is badSlot's two cases and slotForbidden's list. -/
theorem jumpResult : Obligations.JumpResult := by
  refine ⟨⟨fun s off h free => ?_, fun s off h free => ?_, fun s d a x c1 h free ha hd => ⟨exec_jr h free ha hd, exec_jr_align h free ha⟩,
    fun s cond k off m h free hk => ?_⟩, fun s i b h bad => ?_, fun s k va w => State.badSlot_modifier, fun s k va x => State.badSlot_forbidden,
    fun i b => (branches_of_isBranch b).2, fun _ _ _ _ _ _ _ => rfl, fun _ _ => rfl, fun _ => rfl, fun _ _ _ _ => rfl, rfl, rfl, rfl, rfl, rfl, fun _ => rfl⟩
  · change execJ off s = _
    exact runBranch_ok (c := s.me) (t := some _) h free rfl rfl
  · change execCall off s = _
    exact runBranch_ok (c := s.me.writeS 55 (Claims.after s)) (t := some _) h free rfl (by simp)
  · change execBk cond k off s = _
    refine (runBranch_ok h free (c := s.me) (by simp only [hk, bind, Except.bind]; rfl) rfl).trans ?_
    congr 2
    cases cond <;> exact (apply_ite (Option.getD · _) _ _ _)
  · obtain ⟨f, hf⟩ := (branches_of_isBranch b).1
    rw [hf]
    exact runBranch_dslot h bad
end Sys2Proof.Machine
end

section
namespace Sys2Proof.Machine
open Sys2Proof

/-! ### Operands of vector instructions (R34, R87, R231) -/

theorem Core.readV_sys {c c' : Core} {r : Reg} {x : Vec} (h : c.readV r = .ok (x, c')) : c'.sys = c.sys := by
  unfold Core.readV at h
  simp only at h
  split at h
  · split at h
    · simp at h
    · split at h <;> simp at h; rw [h.2]
  · split at h
    · simp at h
    · split at h <;> simp at h; rw [← h.2]; rfl

theorem Core.readVB_vector (c : Core) (w : Nat) (r : Reg) : c.readVB false w r = c.readV r := rfl

theorem Core.readVB_scalar {c c' : Core} {w : Nat} {r : Reg} {v : Vec} (h : c.readVB true w r = .ok (v, c')) :
    ∃ x, c.readS r = .ok (x, c') ∧ v = splat w x.toNat := by
  simp only [Core.readVB, ↓reduceIte, bind, Except.bind] at h
  cases e : c.readS r with
  | error q => simp [e] at h
  | ok p =>
    simp only [e, Except.ok.injEq, Prod.mk.injEq] at h
    exact ⟨p.1, by rw [← h.2], h.1.symm⟩

section
variable {s : State} {c c' : Core} {r : Reg}

theorem State.Ready.readV {x : Vec} (o : s.Ready c) (h : c.readV r = .ok (x, c')) : s.Ready c' :=
  ⟨(Core.readV_txq h).trans o.1, (Core.readV_outq h).trans o.2.1, (Core.readV_sys h).trans o.2.2⟩

theorem State.Ready.readVB {bc : Bool} {w : Nat} {x : Vec} (o : s.Ready c) (h : c.readVB bc w r = .ok (x, c')) : s.Ready c' := by
  cases bc with
  | false => exact o.readV h
  | true =>
    obtain ⟨y, hy, -⟩ := Core.readVB_scalar h
    exact o.readS hy
end

/-! ### The end of a vector instruction (R79, R80, R231) -/

/-- An instruction that sends nothing ends as its pushed items join the core's stores (R231). -/
theorem runLocal_out {i : Instr} {body : CoreBody} {s : State} {c : Core} {fl : FFlags} (h : s.Legal i) (b : body s.cur s.me = .ok (c, fl))
    (q : c.Quiet fl) (e : c.txq = []) : runLocal i body s = .next (s.doneOut i (c.flagged i fl)) := by
  have tx : (((s.setCore s.cur (c.flagged i fl)).pushOut s.cur).core s.cur).txq = [] := by
    have same := State.pushOut_core (s.setCore s.cur (c.flagged i fl)) s.cur
    rw [State.core_setCore_same] at same
    exact (congrArg Core.txq same).trans e
  rw [runLocal, runSeq, runCtl_legal h]
  simp only [State.start_core, State.start_setCore, Core.run1, b, bind, Except.bind, Core.raise_quiet i q, State.retire, tx, State.sendWords]
  simp only [settleOutcome, State.doneOut, State.doneIn, State.modCore]
  rw [State.core_setCore_same, State.setCore_setCore]

theorem Core.putV_sys {c c' : Core} {r : Reg} {x : Vec} {m : Nat} {z : Bool} (h : c.putV r x m z = .ok c') : c'.sys = c.sys := by
  unfold Core.putV at h
  simp only at h
  split at h
  · split at h
    · simp at h
    · simp at h; rw [← h]; rfl
  · split at h
    · cases h
    · split at h
      · cases h
      · cases h; rfl

section
variable {s : State} {i : Instr} {body : CoreBody} {c : Core} (h : s.Legal i) (e : exec i s = runLocal i body s) (o : s.Ready c)
  {d : Reg} {v : Vec} {bytes : Nat} {zero : Bool}
include h e o

omit o in
/-- A body that learns its flags before it writes, and raises none that traps, ends with what it writes (R80, R231). -/
theorem exec_gate_out {fl : FFlags} {put : M Core} {c' : Core} (b : body s.cur s.me = (do c.gate fl; .ok (← put, fl))) (p : put = .ok c')
    (q : c.Quiet fl) (sys : c'.sys = c.sys) (tx : c'.txq = []) : exec i s = .next (s.doneOut i (c'.flagged i fl)) := by
  rw [e]
  refine runLocal_out h ?_ (by rwa [Core.Quiet, sys]) tx
  rw [b, Core.gate_quiet q, p]
  rfl

/-- A vector result with flags (R35, R79, R80, R86). -/
theorem gives_gate {fl : FFlags} (b : body s.cur s.me = (do c.gate fl; .ok (← c.putV d v bytes zero, fl))) : Claims.Gives s i c d v bytes zero fl :=
  ⟨fun _ put quiet => ⟨exec_gate_out h e b put ((o.quiet_iff fl).2 quiet) (Core.putV_sys put) ((Core.putV_txq put).trans o.1),
    fun hd => State.doneOut_none i ((Core.putV_outq hd put).trans o.2.1)⟩, trapsOn_gate h e o b⟩

/-- A vector result that raises no flag. -/
theorem gives_plain (b : body s.cur s.me = (do .ok (← c.putV d v bytes zero, 0))) : Claims.Gives s i c d v bytes zero 0 :=
  gives_gate h e o (by rw [b, Core.gate_quiet c.quiet_zero]; rfl)
end

/-! ### Lane-wise forms (R85 to R87) -/

theorem lanesOut_congr {w m : Nat} {f g : Nat → Nat × FFlags} (h : ∀ i, f i = g i) : lanesOut w m f = lanesOut w m g := by rw [funext h]

/-- Lanes that raise no flag raise none together. -/
theorem lanesOut_quiet (w m : Nat) (f : Nat → Nat) : (lanesOut w m fun i => (f i, 0)).2 = 0 := by
  have none_set (l : List (Nat × FFlags)) (q : ∀ r ∈ l, r.2 = 0) : l.foldl (fun a r => a ||| r.2) 0 = 0 := by
    refine List.foldlRecOn (motive := fun a => a = 0) l _ rfl fun a ha r hr => ?_
    rw [ha, q r hr]
    rfl
  refine none_set _ fun r hr => ?_
  obtain ⟨i, -, rfl⟩ := List.mem_map.1 hr
  split <;> rfl

section
variable {s : State} {i : Instr} {f : Fmt} {bc : Bool} {d a b : Reg} {m : Nat} {z : Bool} {x y : Vec} {c1 c2 : Core}
  (h : s.Legal i) (hp : s.me.pred = .ok (m, z)) (ha : s.me.readV a = .ok (x, c1))
include h hp ha

/-- A lane-wise operation of one vector. -/
theorem gives_vUn {op : Env → Nat → Nat → Nat × FFlags} (e : exec i s = runLocal i (vUn f d a op) s) {g : Nat → Nat × FFlags}
    (hg : ∀ j, op s.me.env j (lane x f.width j) = g j) :
    let r := lanesOut f.width m g
    Claims.Gives s i c1 d r.1 (laneBytes m f.width) z r.2 := by
  rw [← lanesOut_congr hg]
  exact gives_gate h e (s.me_ready.readV ha) (by simp only [vUn, hp, ha, bind, Except.bind])

/-- A lane-wise operation of a vector and of a vector or a broadcast scalar (R87). -/
theorem gives_vBin {op : Env → Nat → Nat → Nat → Nat × FFlags} (e : exec i s = runLocal i (vBin f bc d a b op) s)
    (hb : c1.readVB bc f.width b = .ok (y, c2)) {g : Nat → Nat × FFlags} (hg : ∀ j, op s.me.env j (lane x f.width j) (lane y f.width j) = g j) :
    let r := lanesOut f.width m g
    Claims.Gives s i c2 d r.1 (laneBytes m f.width) z r.2 := by
  rw [← lanesOut_congr hg]
  exact gives_gate h e ((s.me_ready.readV ha).readVB hb) (by simp only [vBin, hp, ha, hb, bind, Except.bind])
end

end Sys2Proof.Machine
end

section
namespace Sys2Proof.Machine
open Sys2Proof

/-! ### Lanes and their integers (R7, R85) -/

theorem width_pos (f : Fmt) : 0 < f.width := by cases f <;> decide

/-- A floating-point format's encodings have its element width (R60). -/
theorem fmtInfo_width {f : Fmt} {o : FInfo} (h : fmtInfo f = some o) : o.w = f.width := by
  cases f <;> cases h <;> rfl

theorem lane_lt (v : Vec) {w : Nat} (i : Nat) (h : 0 < w) : lane v w i < 2 ^ w := by
  have e : i * w + w - 1 + 1 - i * w = w := by omega
  rw [lane, bits, e]
  exact Nat.mod_lt _ (Nat.two_pow_pos w)

theorem wrapN_eq (w : Nat) (x : Int) : wrapN w x = (BitVec.ofInt w x).toNat := (BitVec.toNat_ofInt x).symm

theorem intRes_eq : intRes = Claims.irep := by
  funext e w x
  rw [intRes, wrapN_eq]
  rfl

theorem arith2_eq : arith2 = fun f fp int => Claims.elem2 fp int f := by
  funext f fp int e i x y
  simp only [arith2, Claims.elem2, intRes_eq, Claims.ival, sext_eq]

/-- An operation on one lane whose integers follow `int'`, and whose encodings `fp'`, on lanes of the format's width. -/
theorem arith1_eq {f : Fmt} {fp fp' : FInfo → Env → Nat → Nat → Nat × FFlags} {int int' : Int → Int} (hi : ∀ x, int x = int' x)
    (hf : ∀ o e i x, o.w = f.width → x < 2 ^ o.w → fp o e i x = fp' o e i x) (e : Env) (i x : Nat) (hx : x < 2 ^ f.width) :
    arith1 f fp int e i x = Claims.elem1 fp' int' f e i x := by
  unfold arith1 Claims.elem1
  split
  next o h =>
    have ow := fmtInfo_width h
    exact hf o e i x ow (ow ▸ hx)
  next => rw [intRes_eq, hi, sext_eq]; rfl

/-! ### Signs (R111) and shifts (R113) -/

/-- An encoding is its sign bit above the rest. -/
theorem signBit_add_mod {o : FInfo} {x : Nat} (hw : 0 < o.w) (h : x < 2 ^ o.w) : o.signBit (bit x (o.w - 1)) + x % 2 ^ (o.w - 1) = x := by
  obtain ⟨w, hw⟩ : ∃ w, o.w = w + 1 := ⟨o.w - 1, by omega⟩
  rw [hw, pow_succ] at h
  have cut := Nat.div_add_mod x (2 ^ w)
  have top : x / 2 ^ w < 2 := Nat.div_lt_of_lt_mul h
  rw [FInfo.signBit, bit, hw, Nat.add_sub_cancel, Nat.shiftRight_eq_div_pow]
  obtain q | q := Nat.le_one_iff_eq_zero_or_eq_one.1 (Nat.lt_succ_iff.1 top)
  all_goals rw [q] at cut ⊢; simp; omega

theorem fpSign_clear (o : FInfo) (x : Nat) : fpSign o x (fun _ => false) = if (o.decode x).isNan then o.nanBits else x % 2 ^ (o.w - 1) := by
  simp [fpSign, FInfo.signBit]

/-- Inverting the sign bit adds it modulo the width. -/
theorem fpSign_not {o : FInfo} {x : Nat} (hw : 0 < o.w) (h : x < 2 ^ o.w) :
    fpSign o x not = if (o.decode x).isNan then o.nanBits else (x + 2 ^ (o.w - 1)) % 2 ^ o.w := by
  unfold fpSign
  split
  · rfl
  · have cut := signBit_add_mod hw h
    have low := Nat.mod_lt x (Nat.two_pow_pos (o.w - 1))
    have double : 2 ^ o.w = 2 * 2 ^ (o.w - 1) := by rw [← pow_succ']; congr 1; omega
    cases b : bit x (o.w - 1) <;> simp only [b, FInfo.signBit, Bool.not_true, Bool.not_false, reduceIte, Bool.false_eq_true] at cut ⊢
    · rw [Nat.mod_eq_of_lt (a := x + _) (by omega)]
      omega
    · rw [Nat.mod_eq_sub_mod (a := x + _) (by omega), Nat.mod_eq_of_lt (a := x + _ - _) (by omega)]
      omega

section
variable {w x : Nat} (c : Nat)

theorem shiftLeft_lane (h : x < 2 ^ w) : (if c ≥ w then 0 else x * 2 ^ c % 2 ^ w) = (BitVec.ofNat w x <<< c).toNat := by
  rw [BitVec.toNat_shiftLeft, BitVec.toNat_ofNat, Nat.mod_eq_of_lt h, Nat.shiftLeft_eq]
  split
  next q => exact (Nat.mod_eq_zero_of_dvd ((Nat.pow_dvd_pow 2 q).mul_left x)).symm
  next => rfl

theorem shiftRight_lane (h : x < 2 ^ w) : (if c ≥ w then 0 else x / 2 ^ c) = (BitVec.ofNat w x >>> c).toNat := by
  rw [BitVec.toNat_ushiftRight, BitVec.toNat_ofNat, Nat.mod_eq_of_lt h, Nat.shiftRight_eq_div_pow]
  split
  next q => exact (Nat.div_eq_of_lt (h.trans_le (Nat.pow_le_pow_right (by decide) q))).symm
  next => rfl

/-- A shift by more than the width leaves the sign only. -/
theorem toInt_div_min (v : BitVec w) : v.toInt / 2 ^ min c w = v.toInt / 2 ^ c := by
  obtain q | q := Nat.le_total c w
  · rw [Nat.min_eq_left q]
  · have lo := BitVec.le_two_mul_toInt (x := v)
    have hi := BitVec.two_mul_toInt_lt (x := v)
    have big : (2 : Int) ^ w ≤ 2 ^ c := pow_le_pow_right₀ (by decide) q
    rw [Nat.min_eq_right q]
    obtain s | s := lt_or_ge v.toInt 0
    · rw [Int.ediv_eq_neg_one_of_neg_of_le s (by omega), Int.ediv_eq_neg_one_of_neg_of_le s (by omega)]
    · rw [Int.ediv_eq_zero_of_lt s (by omega), Int.ediv_eq_zero_of_lt s (by omega)]

theorem shiftArith_lane : wrapN w (sext x w / 2 ^ min c w) = ((BitVec.ofNat w x).sshiftRight c).toNat := by
  have e : (BitVec.ofNat w x).toInt / 2 ^ c = ((BitVec.ofNat w x).sshiftRight c).toInt := by
    rw [BitVec.toInt_sshiftRight, Int.shiftRight_eq_div_pow]
    norm_cast
  rw [wrapN_eq, sext_eq, toInt_div_min, e, BitVec.ofInt_toInt]
end

/-- The class codes agree (R127). -/
theorem classOf_eq (o : FInfo) (x : Nat) (h : o.w - 1 - o.f = o.w - 2 + 1 - o.f) : classOf o x = Claims.classCode o x := by
  have sub : bits x (o.w - 2) o.f = x / 2 ^ o.f % 2 ^ (o.w - 1 - o.f) := by rw [bits, Nat.shiftRight_eq_div_pow, h]
  simp only [classOf, Claims.classCode, sub]
  generalize x / 2 ^ o.f % 2 ^ (o.w - 1 - o.f) = t
  cases o.decode x with
  | nan => rfl
  | inf neg => cases neg <;> rfl
  | fin neg m e =>
    cases neg <;> cases m <;> cases t <;> rfl

/-! ### The entries of the tables (R111 to R113) -/

/-- The constructor's instruction is lane-wise in two operands, by g on lanes of the format's width. -/
def IsVecBin (c : Fmt → Bool → Reg → Reg → Reg → Instr) (g : Fmt → Env → Nat → Nat → Nat → Nat × FFlags) : Prop :=
  ∃ op : Fmt → Env → Nat → Nat → Nat → Nat × FFlags, (∀ f bc d a b s, exec (c f bc d a b) s = runLocal (c f bc d a b) (vBin f bc d a b (op f)) s) ∧
    ∀ f e i x y, x < 2 ^ f.width → y < 2 ^ f.width → op f e i x y = g f e i x y

/-- The same in one operand. -/
def IsVecUn (c : Fmt → Reg → Reg → Instr) (g : Fmt → Env → Nat → Nat → Nat × FFlags) : Prop :=
  ∃ op : Fmt → Env → Nat → Nat → Nat × FFlags, (∀ f d a s, exec (c f d a) s = runLocal (c f d a) (vUn f d a (op f)) s) ∧
    ∀ f e i x, x < 2 ^ f.width → op f e i x = g f e i x

theorem isVecBin_of_mem : ∀ p ∈ Claims.vecTable, IsVecBin p.1 p.2 := by
  simp only [Claims.vecTable, List.forall_mem_cons, List.not_mem_nil, false_implies, implies_true, and_true]
  have elem (fp) (int : Int → Int → Int) (f e i x y) (_ : x < 2 ^ f.width) (_ : y < 2 ^ f.width) : arith2 f fp int e i x y = Claims.elem2 fp int f e i x y := by
    rw [arith2_eq]
  refine ⟨⟨_, fun _ _ _ _ _ _ => rfl, elem _ _⟩, ⟨_, fun _ _ _ _ _ _ => rfl, elem _ _⟩, ⟨_, fun _ _ _ _ _ _ => rfl, elem _ _⟩, ⟨_, fun _ _ _ _ _ _ => rfl, elem _ _⟩,
    ⟨_, fun _ _ _ _ _ _ => rfl, elem _ _⟩, ⟨_, fun _ _ _ _ _ _ => rfl, fun _ _ _ _ _ _ _ => rfl⟩, ⟨_, fun _ _ _ _ _ _ => rfl, fun _ _ _ _ _ _ _ => rfl⟩,
    ⟨_, fun _ _ _ _ _ _ => rfl, fun _ _ _ _ _ _ _ => rfl⟩, ⟨_, fun _ _ _ _ _ _ => rfl, fun f e i x y hx _ => ?_⟩,
    ⟨_, fun _ _ _ _ _ _ => rfl, fun f e i x y hx _ => ?_⟩, ⟨_, fun _ _ _ _ _ _ => rfl, fun f e i x y hx _ => ?_⟩⟩
  · exact Prod.ext (shiftLeft_lane y hx) rfl
  · exact Prod.ext (shiftRight_lane y hx) rfl
  · exact Prod.ext (shiftArith_lane y) rfl

theorem isVecUn_of_mem : ∀ p ∈ Claims.vecUnTable, IsVecUn p.1 p.2 := by
  simp only [Claims.vecUnTable, List.forall_mem_cons, List.not_mem_nil, false_implies, implies_true, and_true]
  refine ⟨⟨_, fun _ _ _ _ => rfl, fun f => arith1_eq (fun x => ?_) fun o e i x _ _ => ?_⟩, ⟨_, fun _ _ _ _ => rfl, fun f => arith1_eq (fun _ => rfl) fun o e i x ow hx => ?_⟩,
    ⟨_, fun _ _ _ _ => rfl, fun _ _ _ _ _ => rfl⟩⟩
  · split <;> omega
  · rw [fpSign_clear]
  · rw [fpSign_not (ow ▸ width_pos f) hx]

/-- The constructor's instruction is lane-wise in one operand, by g on the values of a floating-point format. -/
def IsVecFp (c : Fmt → Reg → Reg → Instr) (g : FInfo → Env → Nat → FVal → Nat × FFlags) : Prop :=
  ∃ int, ∀ f d a s, exec (c f d a) s = runLocal (c f d a) (vUn f d a (arith1 f (fun o e i x => g o e i (o.decode x)) int)) s

theorem isVecFp_of_mem : ∀ p ∈ Claims.vecFpTable, IsVecFp p.1 p.2 := by
  simp only [Claims.vecFpTable, List.forall_mem_cons, List.not_mem_nil, false_implies, implies_true, and_true]
  and_intros <;> exact ⟨_, fun _ _ _ _ => rfl⟩

theorem arith1_of_fmtInfo {f : Fmt} {o : FInfo} (h : fmtInfo f = some o) (fp : FInfo → Env → Nat → Nat → Nat × FFlags) (int : Int → Int) : arith1 f fp int = fp o := by
  funext e i x
  simp only [arith1, h]

theorem arith2_of_fmtInfo {f : Fmt} {o : FInfo} (h : fmtInfo f = some o) (fp : FInfo → Env → Nat → Nat → Nat → Nat × FFlags) (int : Int → Int → Int) :
    arith2 f fp int = fp o := by
  funext e i x y
  simp only [arith2, h]

theorem fmtInfo_exponent {f : Fmt} {o : FInfo} (h : fmtInfo f = some o) : o.w - 1 - o.f = o.w - 2 + 1 - o.f := by
  cases f <;> cases h <;> rfl

/-- Settles O15: an entry is vUn or vBin of its lane operation. -/
theorem vectorElementResult : Obligations.VectorElementResult := by
  refine ⟨fun p hp s f bc d a b m z x y c1 c2 h hm ha hb => ?_, fun p hp s f d a m z x c1 h hm ha => ?_, fun p hp s f o d a m z x c1 h ho hm ha => ?_,
    fun s f o bc d a b m z x y c1 c2 h ho hm ha hb => ?_, fun s f o d a m z x c1 h ho hm ha => ?_⟩
  · obtain ⟨op, run, eq⟩ := isVecBin_of_mem p hp
    exact gives_vBin h hm ha (run f bc d a b s) hb fun j => eq f _ j _ _ (lane_lt x j (width_pos f)) (lane_lt y j (width_pos f))
  · obtain ⟨op, run, eq⟩ := isVecUn_of_mem p hp
    exact gives_vUn h hm ha (run f d a s) fun j => eq f _ j _ (lane_lt x j (width_pos f))
  · obtain ⟨int, run⟩ := isVecFp_of_mem p hp
    exact gives_vUn h hm ha (run f d a s) fun j => by rw [arith1_of_fmtInfo ho]
  · exact gives_vBin (op := arith2 f fpDiv fun x _ => x) h hm ha rfl hb fun j => by rw [arith2_of_fmtInfo ho]; rfl
  · have go := gives_vUn (op := fun _ _ x => (match fmtInfo f with | some o => classOf o x | none => 0, 0)) h hm ha rfl
      (g := fun j => (Claims.classCode o (lane x f.width j), 0)) fun j => by simp only [ho, classOf_eq o _ (fmtInfo_exponent ho)]
    simpa only [lanesOut_quiet] using go

end Sys2Proof.Machine
end

section
namespace Sys2Proof.Machine
open Sys2Proof

/-! ### The bits of lanes, of vectors of lanes, and of byte masks (R7, R85, R86) -/

theorem testBit_ofLanes {w : Nat} (hw : 0 < w) (l : List Nat) (j : Nat) : (ofLanes w l).testBit j = (l.getD (j / w) 0).testBit (j % w) := by
  induction l generalizing j with
  | nil => simp [ofLanes]
  | cons x t ih =>
    rw [ofLanes, Nat.add_comm, Nat.testBit_two_pow_mul_add _ (Nat.mod_lt _ (Nat.two_pow_pos w))]
    split
    next h => simp [Nat.div_eq_of_lt h, Nat.mod_eq_of_lt h, h]
    next h =>
      obtain ⟨k, rfl⟩ : ∃ k, j = k + w := ⟨j - w, by omega⟩
      rw [ih, Nat.add_sub_cancel, Nat.add_div_right _ hw, Nat.add_mod_right]
      rfl

theorem ofLanes_lt (w : Nat) (l : List Nat) : ofLanes w l < 2 ^ (w * l.length) := by
  induction l with
  | nil => simp [ofLanes]
  | cons x t ih =>
    have low := Nat.mod_lt x (Nat.two_pow_pos w)
    have step : 2 ^ w * ofLanes w t + 2 ^ w ≤ 2 ^ w * 2 ^ (w * t.length) := by rw [← Nat.mul_succ]; exact Nat.mul_le_mul_left _ ih
    rw [ofLanes, List.length_cons, Nat.mul_succ, Nat.add_comm _ w, pow_add]
    omega

/-- Lanes that a function gives on the first n places. -/
theorem getD_map_range (n k : Nat) (f : Nat → Nat) : ((List.range n).map f).getD k 0 = if k < n then f k else 0 := by
  by_cases h : k < n <;> simp [List.getD, h]

theorem testBit_lane (v : Vec) {w : Nat} (hw : 0 < w) (i j : Nat) : (lane v w i).testBit j = (decide (j < w) && v.getLsbD (i * w + j)) := by
  have e : i * w + w - 1 + 1 - i * w = w := by omega
  rw [lane, bits, e, Nat.testBit_mod_two_pow, Nat.testBit_shiftRight]
  rfl

section
variable {w : Nat} (hw : w ∈ [4, 8, 16, 32, 64])
include hw

theorem laneWidth_pos : 0 < w := by fin_cases hw <;> decide
theorem laneWidth_total : w * (512 / w) = 512 := by fin_cases hw <;> rfl

theorem lane_index {j : Nat} (h : j < 512) : j / w < 512 / w :=
  Nat.div_lt_of_lt_mul ((laneWidth_total hw).symm ▸ h)

/-- The bits of a vector of lanes. -/
theorem getLsbD_lanes (f : Nat → Nat) (j : Nat) :
    (BitVec.ofNat 512 (ofLanes w ((List.range (512 / w)).map f))).getLsbD j = (decide (j < 512) && (f (j / w)).testBit (j % w)) := by
  rw [BitVec.getLsbD_ofNat, testBit_ofLanes (laneWidth_pos hw), getD_map_range]
  by_cases h : j < 512
  · rw [if_pos (lane_index hw h)]
  · simp [h]

/-- A lane of a vector of lanes. -/
theorem lane_lanes (f : Nat → Nat) {i : Nat} (hi : i < 512 / w) : lane (BitVec.ofNat 512 (ofLanes w ((List.range (512 / w)).map f))) w i = f i % 2 ^ w := by
  refine Nat.eq_of_testBit_eq fun j => ?_
  rw [testBit_lane _ (laneWidth_pos hw), getLsbD_lanes hw, Nat.testBit_mod_two_pow]
  by_cases h : j < w
  · have pos := laneWidth_pos hw
    have inside : w * i + j < 512 := by
      rw [← laneWidth_total hw]
      calc w * i + j < w * (i + 1) := by rw [Nat.mul_succ]; omega
        _ ≤ w * (512 / w) := Nat.mul_le_mul_left _ hi
    rw [Nat.mul_comm i w]
    simp [h, inside, Nat.mul_add_div pos, Nat.div_eq_of_lt h, Nat.mod_eq_of_lt h]
  · simp [h]

omit hw in
theorem active_eq_testBit (m i : Nat) : active m w i = m.testBit (i * w / 8) := bit_eq_testBit m _

/-- The byte in which a bit stands belongs to the bit's lane. -/
theorem testBit_laneBytes (m : Nat) {j : Nat} (h : j < 512) : (laneBytes m w).testBit (j / 8) = active m w (j / w) := by
  have byte : j / 8 < 64 := by omega
  rw [laneBytes, testBit_ofLanes Nat.one_pos, Nat.div_one, Nat.mod_one, getD_map_range, if_pos byte]
  have one (b : Bool) : (b2n b).testBit 0 = b := by cases b <;> rfl
  rw [one]
  simp only [active]
  fin_cases hw
  · simp [show j / 4 * 4 / 8 = j / 8 by omega, bit_eq_testBit]
  · simp
  · simp [show j / 8 * 8 / 16 = j / 16 by omega]
  · simp [show j / 8 * 8 / 32 = j / 32 by omega]
  · simp [show j / 8 * 8 / 64 = j / 64 by omega]
end

theorem width_mem (f : Fmt) : f.width ∈ [4, 8, 16, 32, 64] := by cases f <;> decide

theorem getLsbD_byteMask (bm j : Nat) : (byteMask bm).getLsbD j = (decide (j < 512) && bm.testBit (j / 8)) := by
  have all (k : Nat) : (if bit bm k then 255 else 0).testBit (j % 8) = bm.testBit k := by
    rw [bit_eq_testBit, show (255 : Nat) = 2 ^ 8 - 1 from rfl]
    split
    next h => rw [Nat.testBit_two_pow_sub_one, h, decide_eq_true (Nat.mod_lt _ (by decide))]
    next h => rw [Nat.zero_testBit, Bool.eq_false_iff.2 h]
  exact (getLsbD_lanes (w := 8) (by simp) (fun b => if bit bm b then 255 else 0) j).trans (by rw [all])

/-! ### A merged vector register (R86) -/

theorem Core.getLsbD_mergeV (c : Core) (n : Nat) (x : Vec) (bm : Nat) (z : Bool) {j : Nat} (h : j < 512) :
    ((c.mergeV n x bm z).vreg n).getLsbD j = if bm.testBit (j / 8) then x.getLsbD j else if z then false else (c.vreg n).getLsbD j := by
  change ((c.setV n _).vreg n).getLsbD j = _
  rw [Core.vreg_setV_same]
  have mask : (byteMask bm)[j] = bm.testBit (j / 8) := by rw [← BitVec.getLsbD_eq_getElem, getLsbD_byteMask, decide_eq_true h, Bool.true_and]
  cases z <;> cases b : bm.testBit (j / 8) <;> simp [h, mask, b]

theorem Core.mergeV_vreg_other (c : Core) {n r : Nat} (x : Vec) (bm : Nat) (z : Bool) (h : r ≠ n) : (c.mergeV n x bm z).vreg r = c.vreg r :=
  Core.vreg_setV_other c _ h

theorem Core.putV_eq_mergeV {c c' : Core} {r : Reg} {x : Vec} {bm : Nat} {z : Bool} (hr : r.toNat < 32) (h : c.putV r x bm z = .ok c') :
    c' = c.mergeV r.toNat x bm z := by
  simp only [Core.putV, if_pos hr] at h
  split at h
  · cases h
  · exact (Except.ok.inj h).symm

/-- Only the bytes that the mask selects bear on what a write does (R35, R86). -/
theorem Core.putV_congr (c : Core) (r : Reg) {x y : Vec} {bm : Nat} (z : Bool) (h : ∀ j, j < 512 → bm.testBit (j / 8) = true → x.getLsbD j = y.getLsbD j) :
    c.putV r x bm z = c.putV r y bm z := by
  have same : x &&& byteMask bm = y &&& byteMask bm := by
    refine BitVec.eq_of_getLsbD_eq fun j hj => ?_
    rw [BitVec.getLsbD_and, BitVec.getLsbD_and, getLsbD_byteMask]
    cases b : bm.testBit (j / 8)
    · simp
    · rw [h j hj b]
  simp only [Core.putV, Core.mergeV, same]

end Sys2Proof.Machine
end

section
namespace Sys2Proof.Machine
open Sys2Proof

/-! ### Vector operands and destinations (R34, R35, R86, R231) -/

/-- A bit is raised by a list of lanes where one of them raises it. -/
theorem getLsbD_flags (l : List (Nat × FFlags)) (a : FFlags) (j : Nat) :
    (l.foldl (fun a r => a ||| r.2) a).getLsbD j = (a.getLsbD j || l.any fun r => r.2.getLsbD j) := by
  induction l generalizing a with
  | nil => simp
  | cons r t ih => rw [List.foldl_cons, ih, List.any_cons, BitVec.getLsbD_or, Bool.or_assoc]

theorem lanesOut_flags (w m : Nat) (f : Nat → Nat × FFlags) (j : Nat) :
    (lanesOut w m f).2.getLsbD j = (List.range (512 / w)).any fun i => active m w i && (f i).2.getLsbD j := by
  rw [lanesOut, getLsbD_flags, show (0 : FFlags).getLsbD j = false from BitVec.getLsbD_zero, Bool.false_or, List.any_map]
  refine congrArg _ (funext fun i => ?_)
  cases h : active m w i <;> simp [h]

section
variable {w : Nat} (hw : w ∈ [4, 8, 16, 32, 64])
include hw

theorem getLsbD_lanesOut (m : Nat) (f : Nat → Nat × FFlags) {j : Nat} (h : j < 512) (on : active m w (j / w) = true) :
    (lanesOut w m f).1.getLsbD j = (f (j / w)).1.testBit (j % w) := by
  simp only [lanesOut, List.map_map]
  refine (getLsbD_lanes hw (fun i => (if active m w i then f i else (0, 0)).1) j).trans ?_
  rw [on, decide_eq_true h]
  rfl

/-- A lane of a written register (R86). -/
theorem lane_mergeV (c : Core) (n m : Nat) (z : Bool) (f : Nat → Nat × FFlags) (small : ∀ i, (f i).1 < 2 ^ w) {i : Nat} (hi : i < 512 / w) :
    lane ((c.mergeV n (lanesOut w m f).1 (laneBytes m w) z).vreg n) w i = if active m w i then (f i).1 else if z then 0 else lane (c.vreg n) w i := by
  have pos := laneWidth_pos hw
  refine Nat.eq_of_testBit_eq fun j => ?_
  rw [testBit_lane _ pos]
  by_cases h : j < w
  · have inside : i * w + j < 512 := by
      rw [← laneWidth_total hw, Nat.mul_comm i w]
      calc w * i + j < w * (i + 1) := by rw [Nat.mul_succ]; omega
        _ ≤ w * (512 / w) := Nat.mul_le_mul_left _ hi
    have at_lane : (i * w + j) / w = i := by rw [Nat.mul_comm, Nat.mul_add_div pos, Nat.div_eq_of_lt h, Nat.add_zero]
    have in_lane : (i * w + j) % w = j := by rw [Nat.mul_comm, Nat.mul_add_mod, Nat.mod_eq_of_lt h]
    rw [decide_eq_true h, Bool.true_and, Core.getLsbD_mergeV _ _ _ _ _ inside, testBit_laneBytes hw m inside, at_lane]
    by_cases on : active m w i = true
    · rw [if_pos on, if_pos on, getLsbD_lanesOut hw m f inside (at_lane.symm ▸ on), at_lane, in_lane]
    · rw [if_neg on, if_neg on]
      cases z
      · rw [if_neg Bool.false_ne_true, if_neg Bool.false_ne_true, testBit_lane _ pos, decide_eq_true h, Bool.true_and]
      · exact (Nat.zero_testBit j).symm
  · have high (v : Nat) (hv : v < 2 ^ w) : v.testBit j = false := Nat.testBit_lt_two_pow (hv.trans_le (Nat.pow_le_pow_right (by decide) (by omega)))
    rw [decide_eq_false h, Bool.false_and]
    refine (high _ ?_).symm
    split
    · exact small i
    · split
      · exact Nat.two_pow_pos w
      · exact lane_lt _ i pos
end

theorem Core.pendingV_iff {c : Core} {n : Nat} : c.pendingV n = true ↔ ∃ l ∈ c.late, ∃ bm z, l.dst = .v n bm z := by
  rw [Core.pendingV, List.any_eq_true]
  refine exists_congr fun l => and_congr_right fun _ => ?_
  cases l.dst <;> simp

theorem Core.not_pendingV {c : Core} {n : Nat} (h : ∀ l ∈ c.late, ∀ bm z, l.dst ≠ .v n bm z) : c.pendingV n = false := by
  rw [← Bool.not_eq_true, Core.pendingV_iff]
  rintro ⟨l, hl, bm, z, e⟩
  exact h l hl bm z e

section
variable (c : Core) (r : Reg)

theorem Core.vector_pending (hr : r.toNat < 32) (h : ∃ l ∈ c.late, ∃ bm z, l.dst = .v r.toNat bm z) :
    c.readV r = .error .stall ∧ ∀ x m z, c.putV r x m z = .error .stall := by
  have p := Core.pendingV_iff.2 h
  exact ⟨by simp [Core.readV, hr, p], fun x m z => by simp [Core.putV, hr, p]⟩

theorem Core.readV_reg (hr : r.toNat < 32) (h : ∀ l ∈ c.late, ∀ bm z, l.dst ≠ .v r.toNat bm z) (clean : ∀ p ∈ c.poison.v, p.1 ≠ r.toNat) :
    c.readV r = .ok (c.vreg r.toNat, c) := by
  have none_bad : c.poison.v.any (fun p => p.1 = r.toNat) = false := List.any_eq_false.2 fun p hp => by simpa using clean p hp
  simp only [Core.readV, if_pos hr, Core.not_pendingV h, none_bad]
  rfl

theorem Core.readV_poisoned {p : Nat × Nat} (hp : p ∈ c.poison.v) (e : p.1 = r.toNat) (hr : r.toNat < 32) (h : ∀ l ∈ c.late, ∀ bm z, l.dst ≠ .v r.toNat bm z) :
    c.readV r = .error (.trap .memue (BitVec.ofNat 64 (0xFF00000000000100 + r.toNat))) := by
  have bad : c.poison.v.any (fun p => p.1 = r.toNat) = true := List.any_eq_true.2 ⟨p, hp, by simpa using e⟩
  simp only [Core.readV, if_pos hr, Core.not_pendingV h, bad]
  rfl

section
variable (hr : 32 ≤ r.toNat)
include hr

theorem Core.readV_stream :
    c.readV r = (let q := c.strmAt (r.toNat - 32)
      if !q.bound || q.output || q.next ≥ strmItems q.desc then .error (.trap .stream (BitVec.ofNat 64 (r.toNat - 32)))
      else match q.buf with
        | [] => .error .stall
        | .bad a :: _ => .error (.trap .memue a)
        | .ok v :: t => .ok (v, c.setStrm (r.toNat - 32) { q with buf := t, next := q.next + 1 })) := by
  simp only [Core.readV, if_neg (Nat.not_lt.2 hr)] <;> rfl

theorem Core.putV_stream (x : Vec) (m : Nat) (z : Bool) :
    c.putV r x m z = (let q := c.strmAt (r.toNat - 32)
      if !q.bound || !q.output || q.next ≥ strmItems q.desc then .error (.trap .stream (BitVec.ofNat 64 (r.toNat - 32)))
      else if c.pushedTo (r.toNat - 32) + (c.outq.filter fun p => p.1 = r.toNat - 32).length ≥ 4 then .error .stall
      else .ok { c.setStrm (r.toNat - 32) { q with next := q.next + 1 } with outq := c.outq ++ [(r.toNat - 32, q.next, x &&& byteMask m)] }) := by
  simp only [Core.putV, if_neg (Nat.not_lt.2 hr)]

theorem Core.readV_stream_bad (h : (c.strmAt (r.toNat - 32)).bound = false ∨ (c.strmAt (r.toNat - 32)).output = true ∨
    strmItems (c.strmAt (r.toNat - 32)).desc ≤ (c.strmAt (r.toNat - 32)).next) : c.readV r = .error (.trap .stream (BitVec.ofNat 64 (r.toNat - 32))) := by
  rw [Core.readV_stream c r hr]
  refine if_pos ?_
  simpa [or_assoc] using h

theorem Core.putV_stream_bad (h : (c.strmAt (r.toNat - 32)).bound = false ∨ (c.strmAt (r.toNat - 32)).output = false ∨
    strmItems (c.strmAt (r.toNat - 32)).desc ≤ (c.strmAt (r.toNat - 32)).next) (x : Vec) (m : Nat) (z : Bool) :
    c.putV r x m z = .error (.trap .stream (BitVec.ofNat 64 (r.toNat - 32))) := by
  rw [Core.putV_stream c r hr]
  refine if_pos ?_
  simpa [or_assoc] using h
end
end

/-- Settles O23: putV and readV by the kind of their register; a lane of what mergeV writes, bit by bit. -/
theorem vectorOperandForms : Obligations.VectorOperandForms := by
  refine ⟨fun w hw c c' d m z f hd small put => ?_, fun c r => ⟨Core.vector_pending c r, Core.readV_reg c r, fun p hp e => Core.readV_poisoned c r hp e, fun hr => ?_⟩⟩
  · obtain rfl := Core.putV_eq_mergeV hd put
    refine ⟨fun i hi => ?_, fun j => ?_, fun n hn => Core.mergeV_vreg_other _ _ _ _ hn, rfl⟩
    · rw [lane_mergeV hw c _ m z f small hi, active_eq_testBit]
    · rw [lanesOut_flags]
      simp only [active_eq_testBit]
  · refine ⟨Core.readV_stream_bad c r hr, fun bound dir more => ?_, fun x m z => ⟨fun bad => Core.putV_stream_bad c r hr bad x m z, fun bound dir more => ?_⟩⟩
    · have good : (!(c.strmAt (r.toNat - 32)).bound || (c.strmAt (r.toNat - 32)).output ||
          decide ((c.strmAt (r.toNat - 32)).next ≥ strmItems (c.strmAt (r.toNat - 32)).desc)) = false := by simp [bound, dir, more]
      rw [Core.readV_stream c r hr]
      simp only [good]
      refine ⟨fun e => ?_, fun a t e => ?_, fun v t e => ?_⟩ <;> simp [e]
    · have good : (!(c.strmAt (r.toNat - 32)).bound || !(c.strmAt (r.toNat - 32)).output ||
          decide ((c.strmAt (r.toNat - 32)).next ≥ strmItems (c.strmAt (r.toNat - 32)).desc)) = false := by simp [bound, dir, more]
      rw [Core.putV_stream c r hr]
      simp only [good]
      exact ⟨fun full => if_pos full, fun room => if_neg (Nat.not_le.2 room)⟩

end Sys2Proof.Machine
end

section
namespace Sys2Proof.Machine
open Sys2Proof

/-! ### A merged mask register (R86, R114) -/

theorem laneBytes_lt (m w : Nat) : laneBytes m w < 2 ^ 64 := by
  unfold laneBytes
  refine (ofLanes_lt 1 _).trans_eq ?_
  rw [List.length_map, List.length_range]

theorem Core.getLsbD_putKm (c : Core) (r x : Nat) {bm : Nat} (z : Bool) (hb : bm < 2 ^ 64) {j : Nat} (h : j < 64) :
    ((c.putKm r x bm z).kreg r).getLsbD j = if bm.testBit j then x.testBit j else if z then false else (c.kreg r).getLsbD j := by
  have off : (allBytes - bm).testBit j = !bm.testBit j := by
    rw [allBytes, Nat.sub_sub, Nat.add_comm 1 bm, Nat.testBit_two_pow_sub_succ hb, decide_eq_true h, Bool.true_and]
  have reg : (c.putKm r x bm z).kreg r = BitVec.ofNat 64 (if z then x &&& bm else (x &&& bm) ||| ((c.kreg r).toNat &&& (allBytes - bm))) := by
    unfold Core.putKm
    dsimp only
    split
    · change (c.setK r _).kreg r = _
      exact c.kreg_setK_same r _
    · exact c.kreg_setK_same r _
  rw [reg, BitVec.getLsbD_ofNat, decide_eq_true h, Bool.true_and]
  cases z <;> cases b : bm.testBit j <;> simp [off, b, h, BitVec.testBit_toNat]

theorem Core.putKm_other (c : Core) {r n : Nat} (x bm : Nat) (z : Bool) (h : n ≠ r) : (c.putKm r x bm z).kreg n = c.kreg n := by
  unfold Core.putKm
  dsimp only
  split
  · change (c.setK r _).kreg n = _
    exact c.kreg_setK_other _ h
  · exact c.kreg_setK_other _ h

/-- A merged mask touches the mask registers and their poison. -/
theorem Core.putKm_eq (c : Core) (r x bm : Nat) (z : Bool) : c.putKm r x bm z = { c with k := (c.putKm r x bm z).k, poison := (c.putKm r x bm z).poison } := by
  unfold Core.putKm
  dsimp only
  split <;> rfl

section
variable {w : Nat} (hw : w ∈ [8, 16, 32, 64]) {j : Nat} (h : j < 64)
include hw h

/-- Byte j belongs to lane 8 j / w. -/
theorem testBit_laneBytes_wide (m : Nat) : (laneBytes m w).testBit j = active m w (j * 8 / w) := by
  have e : j * 8 / 8 = j := by omega
  have lane_of_byte := testBit_laneBytes (List.mem_cons_of_mem 4 hw) m (j := j * 8) (by omega)
  rwa [e] at lane_of_byte

/-- The mask whose bits of lane i are t i. -/
theorem testBit_laneMask (t : Nat → Bool) :
    (ofLanes (w / 8) ((List.range (512 / w)).map fun i => if t i then 2 ^ (w / 8) - 1 else 0)).testBit j = t (j * 8 / w) := by
  have pos : 0 < w / 8 := by fin_cases hw <;> decide
  have idx : j / (w / 8) = j * 8 / w := by fin_cases hw <;> (norm_num; try omega)
  have inside : j * 8 / w < 512 / w := by fin_cases hw <;> (norm_num; omega)
  rw [testBit_ofLanes pos, getD_map_range, idx, if_pos inside]
  cases t (j * 8 / w)
  · exact Nat.zero_testBit _
  · exact (Nat.testBit_two_pow_sub_one ..).trans (decide_eq_true (Nat.mod_lt _ pos))
end

/-! ### Compares (R114) -/

/-- The constructor's instruction compares lanes by fp and int (R114). -/
structure IsVecCmp (c : Fmt → Bool → Reg → Reg → Reg → Instr) (fp : FVal → FVal → Bool) (int : Int → Int → Bool) : Prop where
  exec_eq (f bc d a b s) : exec (c f bc d a b) s = runLocal (c f bc d a b) (vCmp f bc d a b fp int) s
  mode_eq (f bc d a b) : readsMode (c f bc d a b) = false
  wide (f bc d a b) : (c f bc d a b).wf = true → f.width ∈ [8, 16, 32, 64]

theorem wide_of_limits {i : Instr} {f : Fmt} (h : i.wf = true) (l : i.limits = true → f.isCmp = true) : f.width ∈ [8, 16, 32, 64] := by
  have c := l (by simp only [Instr.wf, Bool.and_eq_true] at h; exact h.2)
  cases f <;> simp [Fmt.isCmp, Fmt.isFp4] at c <;> simp [Fmt.width]

theorem isVecCmp_of_mem : ∀ p ∈ Claims.cmpTable, IsVecCmp p.1 p.2.1 p.2.2 := by
  simp only [Claims.cmpTable, List.forall_mem_cons, List.not_mem_nil, false_implies, implies_true, and_true]
  refine ⟨⟨fun _ _ _ _ _ _ => rfl, fun _ _ _ _ _ => rfl, fun _ _ _ _ _ h => wide_of_limits h id⟩,
    ⟨fun _ _ _ _ _ _ => rfl, fun _ _ _ _ _ => rfl, fun _ _ _ _ _ h => wide_of_limits h id⟩,
    ⟨fun _ _ _ _ _ _ => rfl, fun _ _ _ _ _ => rfl, fun _ _ _ _ _ h => wide_of_limits h id⟩,
    ⟨fun _ _ _ _ _ _ => rfl, fun _ _ _ _ _ => rfl, fun _ _ _ _ _ h => wide_of_limits h fun l => ?_⟩⟩
  exact Bool.or_eq_true_iff.2 (.inl (Bool.or_eq_true_iff.2 (.inl l)))

/-- The test of lane i (R114). -/
def laneTest (f : Fmt) (fp : FVal → FVal → Bool) (int : Int → Int → Bool) (x y : Vec) (i : Nat) : Bool :=
  match fmtInfo f with
  | some o => fp (o.decode (lane x f.width i)) (o.decode (lane y f.width i))
  | none => int (ilane x f.width i) (ilane y f.width i)

/-- Settles O16: an entry is vCmp, whose mask has the test of lane i in the bits of lane i. -/
theorem vectorCompareResult : Obligations.VectorCompareResult := by
  intro p hp s f bc d a b m z x y c1 c2 h hm ha hb
  have cmp := isVecCmp_of_mem p hp
  have hw := cmp.wide f bc d a b h.form.1
  have o := (s.me_ready.readV ha).readVB hb
  let t := laneTest f p.2.1 p.2.2 x y
  let c' := c2.putKm d.toNat (ofLanes (f.width / 8) ((List.range (512 / f.width)).map fun i => if t i then 2 ^ (f.width / 8) - 1 else 0)) (laneBytes m f.width) z
  have same : c' = { c2 with k := c'.k, poison := c'.poison } := Core.putKm_eq ..
  refine ⟨c', ?_, fun j hj => ?_, fun n hn => Core.putKm_other _ _ _ _ hn, same⟩
  · rw [cmp.exec_eq]
    refine runLocal_plain h ?_ (cmp.mode_eq ..) (same ▸ o.1) (same ▸ o.2.1)
    simp only [vCmp, hm, ha, hb, bind, Except.bind]
    rfl
  · rw [Core.getLsbD_putKm _ _ _ _ (laneBytes_lt m _) hj, testBit_laneBytes_wide hw hj, testBit_laneMask hw hj]
    simp only [t, laneTest, ilane, sext_eq, Claims.ival] <;> rfl

/-! ### Fused multiply-adds and VSEL (R115, R116) -/

theorem isVecFma_of_mem : ∀ p ∈ Claims.fmaTable, ∀ f bb bc d a b e s,
    exec (p.1 f bb bc d a b e) s = runLocal (p.1 f bb bc d a b e) (vTri f bb bc d a b e p.2.1 p.2.2) s := by
  simp only [Claims.fmaTable, List.forall_mem_cons, List.not_mem_nil, false_implies, implies_true, and_true]
  and_intros <;> exact fun _ _ _ _ _ _ _ _ => rfl

/-- Settles O17: an entry is vTri of its signs; VSEL raises nothing. -/
theorem fusedAndSelectResult : Obligations.FusedAndSelectResult := by
  refine ⟨fun p hp s f o bb bc d a b e m z x y w c1 c2 c3 h ho hm ha hb he => ?_, fun s f bb k d a b m z x y q c1 c2 h hm ha hb hq => ?_⟩
  · refine gives_gate h (isVecFma_of_mem p hp f bb bc d a b e s) (((s.me_ready.readV ha).readVB hb).readVB he) ?_
    simp only [vTri, hm, ha, hb, he, ho, bind, Except.bind]
    rfl
  · have pick (i : Nat) : q.getLsbD (i * f.width / 8) = active q.toNat f.width i := (bit_eq_testBit q.toNat _).symm
    simp only [pick]
    exact gives_plain (body := bodyVsel f bb k d a b) h rfl ((s.me_ready.readV ha).readVB hb) (by simp only [bodyVsel, hm, ha, hb, hq, bind, Except.bind])

end Sys2Proof.Machine
end

section
namespace Sys2Proof.Machine
open Sys2Proof

/-! ### One lane replaced (R7, R126) -/

/-- The bits of a number in three parts: L below bit p, M below bit p + w, H above. -/
theorem testBit_parts {p w H M L : Nat} (hm : M < 2 ^ w) (hl : L < 2 ^ p) (j : Nat) :
    (2 ^ p * (2 ^ w * H + M) + L).testBit j = if j < p then L.testBit j else if j - p < w then M.testBit (j - p) else H.testBit (j - p - w) := by
  rw [Nat.testBit_two_pow_mul_add _ hl, Nat.testBit_two_pow_mul_add _ hm]

theorem getLsbD_setLane (v : Vec) {w : Nat} (hw : 0 < w) (i x : Nat) {j : Nat} (h : j < 512) :
    (setLane v w i x).getLsbD j = if j / w = i then x.testBit (j % w) else v.getLsbD j := by
  let p := i * w
  let H := v.toNat / 2 ^ p / 2 ^ w
  let M := v.toNat / 2 ^ p % 2 ^ w
  let L := v.toNat % 2 ^ p
  have hL : L < 2 ^ p := Nat.mod_lt _ (Nat.two_pow_pos p)
  have old : v.toNat = 2 ^ p * (2 ^ w * H + M) + L := by rw [Nat.div_add_mod, Nat.div_add_mod]
  have mid : bits v.toNat (p + w - 1) p = M := by
    have e : p + w - 1 + 1 - p = w := by omega
    rw [bits, e, Nat.shiftRight_eq_div_pow]
  have new : v.toNat - M * 2 ^ p + x % 2 ^ w * 2 ^ p = 2 ^ p * (2 ^ w * H + x % 2 ^ w) + L := by
    rw [old, Nat.mul_add, Nat.mul_add, Nat.mul_comm M, Nat.mul_comm (x % 2 ^ w)]
    omega
  have lane_of : j / w = i ↔ ¬ j < p ∧ j - p < w := by
    rw [Nat.div_eq_iff hw]
    change p ≤ j ∧ j ≤ p + w - 1 ↔ _
    omega
  have set : (setLane v w i x).getLsbD j = (2 ^ p * (2 ^ w * H + x % 2 ^ w) + L).testBit j := by
    change (BitVec.ofNat 512 (v.toNat - bits v.toNat (p + w - 1) p * 2 ^ p + x % 2 ^ w * 2 ^ p)).getLsbD j = _
    rw [BitVec.getLsbD_ofNat, decide_eq_true h, Bool.true_and, mid, new]
  have get : v.getLsbD j = (2 ^ p * (2 ^ w * H + M) + L).testBit j := by
    rw [← old]
    rfl
  rw [set, get, testBit_parts (Nat.mod_lt _ (Nat.two_pow_pos w)) hL, testBit_parts (Nat.mod_lt _ (Nat.two_pow_pos w)) hL]
  by_cases low : j < p
  · simp [low, lane_of]
  · by_cases inside : j - p < w
    · have e : j % w = j - p := by
        have q := Nat.mod_add_div j w
        rw [lane_of.2 ⟨low, inside⟩, Nat.mul_comm] at q
        change _ + p = j at q
        omega
      simp [low, inside, lane_of, e]
    · simp [low, inside, lane_of]

/-! ### Lane moves (R120, R126) -/

/-- What VINS writes is the register with one lane replaced, as far as the active lanes go. -/
theorem vins_putV (c : Core) (f : Fmt) (d : Reg) (m : Nat) (z : Bool) (old : Vec) (p x : Nat) :
    c.putV d (if active m f.width p then setLane old f.width p x else old) (laneBytes m f.width) z =
      c.putV d (lanesOut f.width m fun i => (if i = p then x % 2 ^ f.width else lane old f.width i, 0)).1 (laneBytes m f.width) z := by
  have hw := width_mem f
  have pos := width_pos f
  refine c.putV_congr d z fun j hj on => ?_
  rw [testBit_laneBytes hw m hj] at on
  rw [getLsbD_lanesOut hw m _ hj on]
  have inside := Nat.mod_lt j pos
  by_cases here : j / f.width = p
  · have sets : active m f.width p = true := here ▸ on
    rw [if_pos sets, getLsbD_setLane old pos p x hj, if_pos here, if_pos here, Nat.testBit_mod_two_pow, decide_eq_true inside, Bool.true_and]
  · have keeps : (if active m f.width p then setLane old f.width p x else old).getLsbD j = old.getLsbD j := by
      split
      · rw [getLsbD_setLane old pos p x hj, if_neg here]
      · rfl
    rw [keeps, if_neg here, testBit_lane old pos, decide_eq_true inside, Bool.true_and, Nat.mul_comm, Nat.div_add_mod]

section
variable {s : State} {f : Fmt} {d a b : Reg} {m : Nat} {z : Bool} {c1 c2 c3 : Core} (hm : s.me.pred = .ok (m, z))
include hm

theorem gives_vins {x y : Word} {old : Vec} (h : s.Legal (.vins f d a b)) (ha : s.me.readS a = .ok (x, c1)) (hb : c1.readS b = .ok (y, c2)) (hd : d.toNat < 32)
    (ho : c2.readV d = .ok (old, c3)) :
    let r := lanesOut f.width m fun i => (if i = y.toNat % (512 / f.width) then x.toNat % 2 ^ f.width else lane old f.width i, 0)
    Claims.Gives s (.vins f d a b) c3 d r.1 (laneBytes m f.width) z 0 := by
  refine gives_plain (body := bodyVins f d a b) h rfl (((s.me_ready.readS ha).readS hb).readV ho) ?_
  have vector : trapIf (decide (d.toNat ≥ 32)) .stream (BitVec.ofNat 64 (d.toNat - 32)) = .ok () := by simp [trapIf, hd]
  simp only [bodyVins, hm, ha, hb, vector, ho, bind, Except.bind, vins_putV]

theorem runLocal_vext {x : Vec} {y : Word} (h : s.Legal (.vext f d a b)) (ha : s.me.readV a = .ok (x, c1)) (hb : c1.readS b = .ok (y, c2)) (hd : d.toNat < 56) :
    let j := y.toNat % (512 / f.width)
    exec (.vext f d a b) s = .next (s.done (.vext f d a b)
      (if active m f.width j then c2.writeS d.toNat (if (fmtInfo f).isSome then BitVec.ofNat 64 (lane x f.width j) else BitVec.ofInt 64 (Claims.ival f.width (lane x f.width j)))
       else if z then c2.writeS d.toNat 0 else c2)) := by
  intro j
  obtain ⟨tx, out, -⟩ := (s.me_ready.readV ha).readS hb
  refine runLocal_plain (body := bodyVext f d a b) h ?_ rfl ?_ ?_
  · simp only [bodyVext, hm, ha, hb, bind, Except.bind, Core.putS_reg _ hd, ilane, sext_eq]
    split
    · rfl
    · split <;> rfl
  · split
    · simpa using tx
    · split
      · simpa using tx
      · exact tx
  · split
    · simpa using out
    · split
      · simpa using out
      · exact out
end

/-- Settles O18: each writes its vector by the body's last line. -/
theorem laneMoveResult : Obligations.LaneMoveResult := by
  refine ⟨fun s f d a b e m z x y t c1 c2 c3 h hm ha hb he => ?_, fun s f d a b m z x y c1 c2 h hm ha hb => ?_, fun s f d a m z x c1 h hm ha => ?_,
    fun s f d a m z x c1 h hm ha => ?_, fun s f d a b m z x y old c1 c2 c3 h hm ha hb hd ho => gives_vins hm h ha hb hd ho,
    fun s f d a b m z x y c1 c2 h hm ha hb hd => runLocal_vext hm h ha hb hd⟩
  · exact gives_plain (body := bodyVshuf f d a b e) h rfl (((s.me_ready.readV ha).readV hb).readV he) (by simp only [bodyVshuf, hm, ha, hb, he, bind, Except.bind])
  · exact gives_plain (body := bodyVperm f d a b) h rfl ((s.me_ready.readV ha).readV hb) (by simp only [bodyVperm, hm, ha, hb, bind, Except.bind])
  · exact gives_plain (body := bodyVbcast f d a) h rfl (s.me_ready.readS ha) (by simp only [bodyVbcast, hm, ha, bind, Except.bind]; rfl)
  · exact gives_plain (body := bodyViota f d a) h rfl (s.me_ready.readS ha) (by simp only [bodyViota, hm, ha, bind, Except.bind])

end Sys2Proof.Machine
end

section
namespace Sys2Proof.Machine
open Sys2Proof

/-! ### Reductions (R121) -/

/-- A scalar result that raises no flag. -/
theorem givesS_plain {s : State} {i : Instr} {body : CoreBody} {c : Core} {d : Reg} {x : Word} (h : s.Legal i) (e : exec i s = runLocal i body s)
    (o : s.Ready c) (b : body s.cur s.me = (do .ok (← c.putS s.cur d x, 0))) : Claims.GivesS s i c d x 0 :=
  givesS_gate h e o (by rw [b, Core.gate_quiet c.quiet_zero]; rfl)

/-- The sum over the active lanes. -/
theorem foldl_active_sum (g : Nat → Int) (l : List (Option Nat)) (a : Int) :
    l.foldl (fun t v => match v with | some v => t + g v | none => t) a = a + ((l.filterMap id).map g).sum := by
  induction l generalizing a with
  | nil => simp
  | cons v t ih =>
    rw [List.foldl_cons, ih]
    cases v with
    | none => rfl
    | some v => simp [add_assoc]

theorem foldl_sum {α : Type} (g : α → Int) (l : List α) (a : Int) : l.foldl (fun t p => t + g p) a = a + (l.map g).sum := by
  induction l generalizing a with
  | nil => simp
  | cons v t ih => simp [ih, add_assoc]

/-- A running maximum, from below every value of the list, ends with the value that none exceeds. -/
theorem foldl_max_eq (g : Nat → Int) {l : List Nat} {v : Nat} (hv : v ∈ l) (top : ∀ u ∈ l, g u ≤ g v) {a : Int} (ha : a ≤ g v) :
    l.foldl (fun t u => max t (g u)) a = g v := by
  induction l generalizing a with
  | nil => cases hv
  | cons u t ih =>
    rw [List.foldl_cons]
    have step : max a (g u) ≤ g v := max_le ha (top u (.head t))
    by_cases mem : v ∈ t
    · exact ih mem (fun w hw => top w (.tail u hw)) step
    · obtain rfl : v = u := by simpa [mem] using hv
      rw [max_eq_right ha]
      refine List.foldlRecOn (motive := fun b => b = g v) t _ rfl fun b hb w hw => ?_
      rw [hb, max_eq_left (top w (.tail v hw))]

/-- The same for a running minimum. -/
theorem foldl_min_eq (g : Nat → Int) {l : List Nat} {v : Nat} (hv : v ∈ l) (bottom : ∀ u ∈ l, g v ≤ g u) {a : Int} (ha : g v ≤ a) :
    l.foldl (fun t u => min t (g u)) a = g v := by
  have neg (l : List Nat) (a : Int) : -(l.foldl (fun t u => min t (g u)) a) = l.foldl (fun t u => max t (-(g u))) (-a) := by
    induction l generalizing a with
    | nil => rfl
    | cons u t ih => rw [List.foldl_cons, List.foldl_cons, ih, ← max_neg_neg]
  exact neg_injective ((neg l a).trans (foldl_max_eq (fun u => -(g u)) hv (fun u hu => neg_le_neg (bottom u hu)) (neg_le_neg ha)))

theorem sext_eq_ival (x w : Nat) : sext x w = Claims.ival w x := sext_eq x w

theorem zeroNeg_eq (rm : RMode) : zeroNeg rm = (rm == .rdn) := by cases rm <;> rfl

section
variable {s : State} {f : Fmt} {d a b : Reg} {m : Nat} {z : Bool} {x : Vec} {c1 : Core} (hm : s.me.pred = .ok (m, z)) (ha : s.me.readV a = .ok (x, c1))
include hm ha

theorem givesS_vreds_int (h : s.Legal (.vreds f d a)) (ho : fmtInfo f = none) :
    Claims.GivesS s (.vreds f d a) c1 d (BitVec.ofInt 64 (((activeLanes f.width m x).filterMap id).map (Claims.ival f.width)).sum) 0 := by
  refine givesS_plain (body := bodyVreds f d a) h rfl (s.me_ready.readV ha) ?_
  have sum := foldl_active_sum (fun v => sext v f.width) (activeLanes f.width m x) 0
  simp only [sext_eq, zero_add] at sum
  simp only [bodyVreds, hm, ha, ho, bind, Except.bind, sext_eq]
  exact congrArg (fun n => (do .ok (← c1.putS s.cur d (BitVec.ofInt 64 n), 0) : M (Core × FFlags))) sum

theorem givesS_vreds_fp {o : FInfo} (h : s.Legal (.vreds f d a)) (ho : fmtInfo f = some o) :
    let r := redTree (fun p x y => o.add s.me.env.rm s.me.env.sat (s.me.env.g p) (o.decode x) (o.decode y)) 7 0 (activeLanes f.width m x)
    Claims.GivesS s (.vreds f d a) c1 d (BitVec.ofNat 64 (if (o.decode (r.1.getD 0)).isNan then o.nanBits else r.1.getD 0)) r.2 :=
  givesS_gate (body := bodyVreds f d a) h rfl (s.me_ready.readV ha) (by simp only [bodyVreds, hm, ha, ho, bind, Except.bind]; rfl)

section
variable {i : Instr} {mx : Bool} (h : s.Legal i) (e : exec i s = runLocal i (vExtreme f mx d a) s)
include h e

theorem givesS_extreme_fp {o : FInfo} (ho : fmtInfo f = some o) :
    Claims.GivesS s i c1 d (BitVec.ofNat 64 (((activeLanes f.width m x).filterMap id).foldl (o.minmax mx) o.nanBits)) 0 :=
  givesS_plain h e (s.me_ready.readV ha) (by simp only [vExtreme, hm, ha, ho, bind, Except.bind])

/-- The running extreme of integer lanes, as the list's own. -/
theorem givesS_extreme_int (ho : fmtInfo f = none) {r : Int}
    (hr : ((activeLanes f.width m x).filterMap id).foldl (fun t v => if mx then max t (Claims.ival f.width v) else min t (Claims.ival f.width v))
      (if mx then -(2 ^ (f.width - 1)) else 2 ^ (f.width - 1) - 1) = r) : Claims.GivesS s i c1 d (BitVec.ofInt 64 r) 0 := by
  refine givesS_plain h e (s.me_ready.readV ha) ?_
  simp only [Claims.ival] at hr
  simp only [vExtreme, hm, ha, ho, bind, Except.bind, sext_eq, hr]
  rfl
end

theorem gives_vscan (h : s.Legal (.vscan f d a)) :
    let first := fun v => match fmtInfo f with | some o => if (o.decode v).isNan then o.nanBits else v | none => v
    let op := Claims.elem2 (fun o e i x y => o.add e.rm e.sat (e.g i) (o.decode x) (o.decode y)) (fun x y => x + y) f s.me.env
    let r := scanGo first op 0 none (activeLanes f.width m x)
    Claims.Gives s (.vscan f d a) c1 d (BitVec.ofNat 512 (ofLanes f.width r.1)) (laneBytes m f.width) z r.2 :=
  gives_gate (body := bodyVscan f d a) h rfl (s.me_ready.readV ha) (by simp only [bodyVscan, hm, ha, arith2_eq, bind, Except.bind]; rfl)

section
variable {bc : Bool} {y acc : Vec} {c2 c3 : Core} (h : s.Legal (.vdot f bc d a b)) (hb : c1.readVB bc 32 b = .ok (y, c2)) (hd : d.toNat < 32)
  (hacc : c2.readV d = .ok (acc, c3))
include h hb hd hacc

/-- VDOT gives the vector that its lanes give. -/
theorem gives_vdot {g : Nat → Nat × FFlags}
    (hg : ∀ j, (match fmtInfo f with
      | some o =>
        let q := dotGroup o (zeroNeg s.me.env.rm) ((List.range (32 / f.width)).map fun t => (lane x f.width (32 / f.width * j + t), lane y f.width (32 / f.width * j + t)))
        let v := FVal.addX (zeroNeg s.me.env.rm) (fi32.decode (lane acc 32 j)) q.1
        let u := fi32.deliver s.me.env.rm s.me.env.sat (s.me.env.g j) v.1
        (u.1, u.2 ||| if q.2 || v.2 then flNV else 0)
      | none =>
        (intRes s.me.env 32 (ilane acc 32 j + ((List.range (32 / f.width)).map fun t =>
          (lane x f.width (32 / f.width * j + t), lane y f.width (32 / f.width * j + t))).foldl (fun t p => t + sext p.1 f.width * sext p.2 f.width) 0), 0)) = g j) :
    Claims.Gives s (.vdot f bc d a b) c3 d (lanesOut 32 m g).1 (laneBytes m 32) z (lanesOut 32 m g).2 := by
  have vector : trapIf (decide (d.toNat ≥ 32)) .stream (BitVec.ofNat 64 (d.toNat - 32)) = .ok () := by simp [trapIf, hd]
  rw [← lanesOut_congr hg]
  refine gives_gate (body := bodyVdot f bc d a b) h rfl (((s.me_ready.readV ha).readVB hb).readV hacc) ?_
  simp only [bodyVdot, hm, ha, hb, vector, hacc, bind, Except.bind] <;> rfl
end
end

/-- Settles O20: each reduction's fold is the sum or the extreme of the active lanes; the scan and the dot product are their bodies. -/
theorem reductionResult : Obligations.ReductionResult := by
  refine ⟨fun s f d a m z x c1 h hm ha => ⟨givesS_vreds_int hm ha h, fun o => givesS_vreds_fp hm ha h⟩, fun s f mx d a m z x c1 => ?_,
    fun s f d a m z x c1 h hm ha => gives_vscan hm ha h, fun s f bc d a b m z x y acc c1 c2 c3 h hm ha hb hd hacc => ⟨fun ho => ?_, fun o ho => ?_⟩⟩
  · intro i h hm ha l
    have e : exec i s = runLocal i (vExtreme f mx d a) s := by cases mx <;> rfl
    refine ⟨fun o => givesS_extreme_fp hm ha h e, fun ho empty => givesS_extreme_int hm ha h e ho ?_, fun ho v hv extreme => givesS_extreme_int hm ha h e ho ?_⟩
    · change l.foldl _ _ = _
      rw [empty]
      rfl
    · cases mx with
      | false => exact foldl_min_eq _ hv extreme (Int.le_sub_one_of_lt BitVec.toInt_lt)
      | true => exact foldl_max_eq _ hv extreme (BitVec.le_toInt _)
  · refine gives_vdot hm ha h hb hd hacc fun j => ?_
    simp only [ho, intRes_eq, ilane, sext_eq_ival, foldl_sum (fun p : Nat × Nat => Claims.ival f.width p.1 * Claims.ival f.width p.2), zero_add]
  · refine gives_vdot hm ha h hb hd hacc fun j => ?_
    simp only [ho, zeroNeg_eq]

end Sys2Proof.Machine
end

section
namespace Sys2Proof.Machine
open Sys2Proof

/-! ### Conversions (R117 to R119) -/

/-- k lanes of 0 below a list move it up by k lanes. -/
theorem ofLanes_replicate_zero (w k : Nat) (l : List Nat) : ofLanes w (List.replicate k 0 ++ l) = ofLanes w l * 2 ^ (k * w) := by
  induction k with
  | zero => simp
  | succ k ih =>
    rw [List.replicate_succ, List.cons_append, ofLanes, ih, Nat.zero_mod, Nat.succ_mul, pow_add]
    ring

theorem Core.putPart_kept {c c' : Core} {d : Reg} {x : Vec} {part m : Nat} {z : Bool} (h : c.putPart d x part m z = .ok c') :
    c'.sys = c.sys ∧ c'.txq = c.txq := by
  simp only [Core.putPart, bind, Except.bind] at h
  split at h
  · exact ⟨Core.putV_sys h, Core.putV_txq h⟩
  · cases z with
    | false => exact ⟨Core.putV_sys h, Core.putV_txq h⟩
    | true =>
      cases e : c.putV d 0 (allBytes - m % 2 ^ 64) false with
      | error q =>
        simp only [reduceIte, e] at h
        cases h
      | ok c1 =>
        simp only [reduceIte, e] at h
        exact ⟨(Core.putV_sys h).trans (Core.putV_sys e), (Core.putV_txq h).trans (Core.putV_txq e)⟩

section
variable {s : State} {d a : Reg} {m : Nat} {z : Bool} {x : Vec} {c1 : Core} (hm : s.me.pred = .ok (m, z)) (ha : s.me.readV a = .ok (x, c1))
include hm ha

/-- Where the elements of VCVT come from and go to (R117). -/
theorem bodyVcvt_eq {src dst : Fmt} {part : BitVec 4} :
    let n := 512 / Max.max src.width dst.width
    let si := fun j => if src.width < dst.width then part.toNat * n + j else j
    let di := fun j => if dst.width < src.width then part.toNat * n + j else j
    let r := fun j => convert src dst s.me.env (di j) (lane x src.width (si j))
    let v := ofLanes dst.width ((List.replicate (di 0) 0) ++ (List.range n).map fun j => (r j).1)
    let bytes := (2 ^ (n * dst.width / 8) - 1) * 2 ^ (di 0 * dst.width / 8)
    let fl := (List.range n).foldl (fun t j => t ||| (r j).2) 0
    bodyVcvt src dst part d a s.cur s.me = (do c1.gate fl; .ok (← c1.putPart d (BitVec.ofNat 512 v) bytes m z, fl)) := by
  intro n si di r v bytes fl
  have base : di 0 * dst.width = if dst.width < src.width then part.toNat * n * dst.width else 0 := by
    change (if _ then _ else _) * _ = _
    split <;> simp
  simp only [bodyVcvt, hm, ha, bind, Except.bind, List.map_map, List.foldl_map, v, bytes, ofLanes_replicate_zero, base]
  rfl

/-- VDQ writes its pair as one (R118). -/
theorem bodyVdq_eq {f : Fmt} :
    let e := s.me.env
    let r := (blockValues f x.toNat).mapIdx fun j v => fi32.deliver e.rm e.sat (e.g j) v
    let fl := r.foldl (fun t q => t ||| q.2) 0
    bodyVdq f d a s.cur s.me = (do
      c1.gate fl
      .ok (← (do
        let c ← c1.putV d (BitVec.ofNat 512 (ofLanes 32 ((r.map (·.1)).take 16))) m z
        c.putV (d + 1) (BitVec.ofNat 512 (ofLanes 32 ((r.map (·.1)).drop 16))) m z), fl)) := by
  intro e r fl
  simp only [bodyVdq, hm, ha, bind_assoc]
  rfl
end

/-- Settles O22: each writes by the body's last line, VCVT's lanes counted from the start of its part. -/
theorem conversionResult : Obligations.ConversionResult := by
  refine ⟨fun s src dst part d a m z x c1 c' h hm ha => ?_, fun s f d a m z x y c1 c2 h hm ha hb => ?_, fun s f d a m z x c1 c2 c3 h hm ha => ?_,
    fun s f d a e m z x y c1 c2 h hm ha he => ?_, fun s f o d a m z x c1 h ho hm ha => ?_⟩
  · intro n si di r v bytes fl i
    have o := s.me_ready.readV ha
    have body := bodyVcvt_eq hm ha (d := d) (src := src) (dst := dst) (part := part)
    refine ⟨fun put quiet => ?_, trapsOn_gate h rfl o body⟩
    obtain ⟨sys, tx⟩ := Core.putPart_kept put
    exact exec_gate_out h rfl body put ((o.quiet_iff fl).2 quiet) sys (tx.trans o.1)
  · exact gives_gate (body := bodyVqnt f d a) h rfl ((s.me_ready.readV ha).readV hb) (by simp only [bodyVqnt, hm, ha, hb, bind, Except.bind])
  · intro e r fl
    have o := s.me_ready.readV ha
    have body := bodyVdq_eq hm ha (d := d) (f := f)
    refine ⟨fun put put' quiet => ?_, trapsOn_gate h rfl o body⟩
    refine exec_gate_out h rfl body (by rw [put]; exact put') ((o.quiet_iff fl).2 quiet) ((Core.putV_sys put').trans (Core.putV_sys put)) ?_
    exact (Core.putV_txq put').trans ((Core.putV_txq put).trans o.1)
  · exact gives_plain (body := bodyVwscTo f d a e) h rfl ((s.me_ready.readV ha).readV he) (by simp only [bodyVwscTo, hm, ha, he, bind, Except.bind])
  · exact gives_gate (body := bodyVwscFrom f d a) h rfl (s.me_ready.readV ha) (by simp only [bodyVwscFrom, hm, ha, ho, bind, Except.bind])

end Sys2Proof.Machine
end

section
namespace Sys2Proof.Machine
open Sys2Proof

/-! ### The numbers that values are (R60) -/

theorem num_fin (s : Bool) (m : Nat) (e : Int) : Claims.num (.fin s m e) = some ((signed s m : ℚ) * 2 ^ e) := by
  cases s <;> simp [Claims.num, signed]

/-- A dyadic number on a finer grid. -/
theorem mul_zpow_grid (a : Int) {e q : Int} (h : q ≤ e) : ((a * 2 ^ (e - q).toNat : Int) : ℚ) * 2 ^ q = a * 2 ^ e := by
  have power : (2 : ℚ) ^ ((e - q).toNat : ℤ) * 2 ^ q = 2 ^ e := by
    rw [Int.toNat_of_nonneg (by omega), ← zpow_add₀ two_ne_zero]
    congr 1
    omega
  rw [← power]
  push_cast
  rw [zpow_natCast, mul_assoc]

/-- The sum of two dyadic numbers is exact. -/
theorem dyAdd_value (a ea b eb : Int) : ((dyAdd a ea b eb).1 : ℚ) * 2 ^ (dyAdd a ea b eb).2 = a * 2 ^ ea + b * 2 ^ eb := by
  rw [dyAdd]
  dsimp only
  rw [Int.cast_add, add_mul, mul_zpow_grid a (min_le_left ea eb), mul_zpow_grid b (min_le_right ea eb)]

theorem zpow_two_pos (e : Int) : (0 : ℚ) < 2 ^ e := zpow_pos two_pos e

/-- The difference of two dyadic numbers has the sign of their comparison. -/
theorem dyAdd_neg_iff (a ea b eb : Int) : (dyAdd a ea (-b) eb).1 < 0 ↔ (a : ℚ) * 2 ^ ea < b * 2 ^ eb := by
  have value := dyAdd_value a ea (-b) eb
  have sign : ((dyAdd a ea (-b) eb).1 : ℚ) * 2 ^ (dyAdd a ea (-b) eb).2 < 0 ↔ (dyAdd a ea (-b) eb).1 < 0 := by
    rw [← not_le, ← not_le, mul_nonneg_iff_of_pos_right (zpow_two_pos _)]
    exact_mod_cast Iff.rfl
  rw [← sign, value]
  push_cast
  constructor <;> intro h <;> linarith

/-- A value's sign is its encoding's top bit (R60). -/
theorem decode_fin_sign {i : FInfo} {x m : Nat} {s : Bool} {e : Int} (h : i.decode x = .fin s m e) : s = x.testBit (i.w - 1) := by
  rw [← bit_eq_testBit]
  unfold FInfo.decode at h
  dsimp only at h
  split at h
  · split at h <;> cases h
  · split at h
    · cases h
    · split at h <;> cases h <;> rfl

/-! ### The order of keys (R124) -/

/-- Values in the order of keys, -0 before +0: by class (-infinity, a number, +infinity), then by number, then by sign. -/
def keyRank : FVal → ℤ ×ₗ (ℚ ×ₗ ℤ)
  | .nan => toLex (0, toLex (0, 0))
  | .inf s => toLex (if s then -1 else 1, toLex (0, 0))
  | .fin s m e => toLex (0, toLex ((signed s m : ℚ) * 2 ^ e, if s then 0 else 1))

theorem signed_mul_eq_zero {s : Bool} {m : Nat} {e : Int} (h : (signed s m : ℚ) * 2 ^ e = 0) : m = 0 := by
  rw [mul_eq_zero, or_iff_left (zpow_two_pos e).ne'] at h
  cases s <;> simpa [signed] using h

theorem signed_mul_nonpos (m : Nat) (e : Int) : (signed true m : ℚ) * 2 ^ e ≤ 0 :=
  mul_nonpos_of_nonpos_of_nonneg (by simp [signed]) (zpow_two_pos e).le

theorem signed_mul_nonneg (m : Nat) (e : Int) : 0 ≤ (signed false m : ℚ) * 2 ^ e :=
  mul_nonneg (by simp [signed]) (zpow_two_pos e).le

/-- Between numbers: by value, then -0 before +0. -/
theorem below_fin (s t : Bool) (m n : Nat) (e f : Int) :
    FVal.below (.fin s m e) (.fin t n f) = true ↔
      (signed s m : ℚ) * 2 ^ e < signed t n * 2 ^ f ∨ ((signed s m : ℚ) * 2 ^ e = signed t n * 2 ^ f ∧ s = true ∧ t = false) := by
  rw [FVal.below]
  by_cases zero : m = 0 ∧ n = 0
  · obtain ⟨rfl, rfl⟩ := zero
    cases s <;> cases t <;> simp [signed]
  · have nonzero : (decide (m = 0) && decide (n = 0)) = false := by simpa using zero
    rw [nonzero]
    dsimp only
    rw [if_neg Bool.false_ne_true, decide_eq_true_iff, dyAdd_neg_iff, or_iff_left]
    rintro ⟨e1, rfl, rfl⟩
    have lo := signed_mul_nonpos m e
    have hi := signed_mul_nonneg n f
    exact zero ⟨signed_mul_eq_zero (le_antisymm lo (e1 ▸ hi)), signed_mul_eq_zero (le_antisymm (e1 ▸ lo) hi)⟩

theorem below_iff {a b : FVal} (ha : a ≠ .nan) (hb : b ≠ .nan) : FVal.below a b = true ↔ keyRank a < keyRank b := by
  match a, b with
  | .nan, _ => exact absurd rfl ha
  | .inf _, .nan => exact absurd rfl hb
  | .fin .., .nan => exact absurd rfl hb
  | .inf s, .inf t => cases s <;> cases t <;> simp [FVal.below, keyRank, Prod.Lex.toLex_lt_toLex]
  | .inf s, .fin t n f => cases s <;> simp [FVal.below, keyRank, Prod.Lex.toLex_lt_toLex]
  | .fin s m e, .inf t => cases t <;> simp [FVal.below, keyRank, Prod.Lex.toLex_lt_toLex]
  | .fin s m e, .fin t n f =>
    rw [below_fin]
    cases s <;> cases t <;> simp [keyRank, Prod.Lex.toLex_lt_toLex]

/-- A strict order in which keys may be equivalent (R124). -/
structure KeyOrder {α : Type} (lt : α → α → Bool) : Prop where
  asymm {x y : α} : lt x y = true → lt y x = false
  cotrans {x z : α} (y : α) : lt x z = true → lt x y = true ∨ lt y z = true

theorem KeyOrder.of_rank {α β : Type} [LinearOrder β] {lt : α → α → Bool} (r : α → β) (h : ∀ x y, lt x y = true ↔ r x < r y) : KeyOrder lt where
  asymm {x y} q := by
    rw [Bool.eq_false_iff, Ne, h]
    exact ((h x y).1 q).not_gt
  cotrans {x z} y q := by
    rw [h, h]
    rw [h] at q
    exact or_iff_not_imp_left.2 fun n => (not_lt.1 n).trans_lt q

theorem KeyOrder.flip {α : Type} {lt : α → α → Bool} (o : KeyOrder lt) : KeyOrder fun x y => lt y x :=
  ⟨fun h => o.asymm h, fun y h => (o.cotrans y h).symm⟩

theorem isNan_eq_false {a : FVal} (h : a ≠ .nan) : a.isNan = false := by cases a <;> trivial

/-- An order of the values that are no NaN, with the NaN values after them. -/
theorem KeyOrder.nanLast {lt : FVal → FVal → Bool} {β : Type} [LinearOrder β] (r : FVal → β) (h : ∀ a b, a ≠ .nan → b ≠ .nan → (lt a b = true ↔ r a < r b)) :
    KeyOrder fun a b : FVal => if a.isNan then false else if b.isNan then true else lt a b := by
  refine .of_rank (fun a : FVal => if a.isNan then ⊤ else (r a : WithTop β)) fun a b => ?_
  obtain rfl | ha := eq_or_ne a .nan
  · simp [FVal.isNan]
  · obtain rfl | hb := eq_or_ne b .nan
    · simp [FVal.isNan]
    · simp [isNan_eq_false ha, isNan_eq_false hb, h a b ha hb]

/-- The keys of a format are so ordered (R124). -/
theorem keyOrder_keyBefore (f : Fmt) (dn : Bool) : KeyOrder (keyBefore f dn) := by
  have comap {lt : FVal → FVal → Bool} (o : FInfo) (q : KeyOrder lt) : KeyOrder fun x y => lt (o.decode x) (o.decode y) :=
    ⟨fun h => q.asymm h, fun _ h => q.cotrans _ h⟩
  have int : KeyOrder fun x y => decide (sext x f.width < sext y f.width) := .of_rank (fun x => sext x f.width) fun _ _ => decide_eq_true_iff
  have up := KeyOrder.nanLast keyRank fun a b => below_iff (a := a) (b := b)
  have down := KeyOrder.nanLast (lt := fun a b => FVal.below b a) (fun a => OrderDual.toDual (keyRank a)) fun a b ha hb => below_iff hb ha
  unfold keyBefore
  cases fmtInfo f with
  | none => cases dn <;> [exact int; exact int.flip]
  | some o => cases dn <;> [exact comap o up; exact comap o down]

end Sys2Proof.Machine
end

section
namespace Sys2Proof.Machine
open Sys2Proof

/-! ### Stable sorting by key (R124, R125) -/

/-- p may stand before q: q's key does not come before p's. -/
def keyLe (lt : Nat → Nat → Bool) (p q : Nat × Nat) : Bool := !lt q.1 p.1

/-- A list in the order of its keys. -/
def KeySorted (lt : Nat → Nat → Bool) (l : List (Nat × Nat)) : Prop := l.Pairwise fun p q => lt q.1 p.1 = false

theorem keySorted_iff {lt : Nat → Nat → Bool} {l : List (Nat × Nat)} : KeySorted lt l ↔ l.Pairwise fun p q => keyLe lt p q = true := by
  simp only [KeySorted, keyLe, Bool.not_eq_true']

/-- Merging takes the second list's head only where its key comes before the first's (R125). -/
theorem mergeTake_eq (lt : Nat → Nat → Bool) (n : Nat) (x y : List (Nat × Nat)) : mergeTake lt n x y = (x.merge y (keyLe lt)).take n := by
  induction n generalizing x y with
  | zero => simp [mergeTake]
  | succ n ih =>
    match x, y with
    | [], [] => simp [mergeTake]
    | p :: s, [] => simp [mergeTake, ih]
    | [], q :: t => simp [mergeTake, ih]
    | p :: s, q :: t =>
      rw [mergeTake, List.cons_merge_cons, keyLe]
      cases lt q.1 p.1 <;> simp [ih]

/-- Inserting an entry merges it in behind what it does not precede. -/
theorem sortInsert_eq (lt : Nat → Nat → Bool) (e : Nat × Nat) (l : List (Nat × Nat)) : sortInsert lt e l = l.merge [e] (keyLe lt) := by
  induction l with
  | nil => simp [sortInsert]
  | cons x t ih =>
    rw [sortInsert, List.cons_merge_cons, keyLe]
    cases lt e.1 x.1 <;> simp [ih]

section
variable {lt : Nat → Nat → Bool} (o : KeyOrder lt)
include o

theorem KeyOrder.sorted_merge {x y : List (Nat × Nat)} (hx : KeySorted lt x) (hy : KeySorted lt y) : KeySorted lt (x.merge y (keyLe lt)) := by
  rw [keySorted_iff] at *
  refine List.pairwise_merge (fun a b c ab bc => ?_) (fun a b => ?_) x y hx hy
  · simp only [keyLe, Bool.not_eq_true'] at *
    refine Bool.eq_false_iff.2 fun ca => ?_
    rcases o.cotrans b.1 ca with cb | ba
    · exact Bool.false_ne_true (bc.symm.trans cb)
    · exact Bool.false_ne_true (ab.symm.trans ba)
  · simp only [keyLe, Bool.or_eq_true, Bool.not_eq_true']
    cases h : lt b.1 a.1
    · exact .inl rfl
    · exact .inr (o.asymm h)

theorem KeyOrder.irrefl (x : Nat) : lt x x = false := by
  cases h : lt x x
  · rfl
  · exact h.symm.trans (o.asymm h)

/-- An entry whose key comes before the head of a sorted list has no equal in it. -/
theorem KeyOrder.no_equal {x : Nat × Nat} {s : List (Nat × Nat)} (h : KeySorted lt (x :: s)) {k e : Nat} (same : lt e k = false) (first : lt e x.1 = true) :
    ∀ z ∈ x :: s, (!lt k z.1 && !lt z.1 k) = false := by
  intro z hz
  have after_x : lt z.1 x.1 = false := by
    rcases List.mem_cons.1 hz with rfl | hz
    · exact o.irrefl _
    · exact List.rel_of_pairwise_cons h hz
  have after_e : lt e z.1 = true := (o.cotrans z.1 first).resolve_right (by simp [after_x])
  have after_k : lt k z.1 = true := (o.cotrans k after_e).resolve_left (by simp [same])
  simp [after_k]

/-- Merging is stable: the entries of one key stand in the order of the first list, then of the second. -/
theorem KeyOrder.filter_merge (k : Nat) {x y : List (Nat × Nat)} (hx : KeySorted lt x) (hy : KeySorted lt y) :
    (x.merge y (keyLe lt)).filter (fun p => !lt k p.1 && !lt p.1 k) =
      x.filter (fun p => !lt k p.1 && !lt p.1 k) ++ y.filter (fun p => !lt k p.1 && !lt p.1 k) := by
  induction x generalizing y with
  | nil => simp
  | cons p s ihx =>
    induction y with
    | nil => simp
    | cons q t ihy =>
      rw [List.cons_merge_cons]
      cases first : lt q.1 p.1
      · rw [if_pos (by simp [keyLe, first]), List.filter_cons, List.filter_cons (x := p), ihx hx.of_cons hy]
        split <;> simp
      · rw [if_neg (by simp [keyLe, first]), List.filter_cons, List.filter_cons (x := q), ihy hy.of_cons]
        split
        next same =>
          have none_before : (p :: s).filter (fun p => !lt k p.1 && !lt p.1 k) = [] :=
            List.filter_eq_nil_iff.2 fun z hz => Bool.eq_false_iff.1 (o.no_equal hx (by simpa using (Bool.and_eq_true_iff.1 same).2) first z hz)
          rw [none_before, List.nil_append, List.nil_append]
        next => rfl
end

/-! ### VSORT and VMRG -/

section
variable (f : Fmt) (dn : Bool)

/-- The merge of two sorted lists is their stable sort (R125). -/
theorem sortOf_merge {x y : List (Nat × Nat)} (hx : KeySorted (keyBefore f dn) x) (hy : KeySorted (keyBefore f dn) y) :
    Claims.SortOf f dn (x ++ y) (x.merge y (keyLe (keyBefore f dn))) :=
  have o := keyOrder_keyBefore f dn
  ⟨List.merge_perm_append _, o.sorted_merge hx hy, fun k => (o.filter_merge k hx hy).trans (List.filter_append ..).symm⟩

/-- Sorting a stable sort of e with one more entry. -/
theorem sortOf_insert {e l : List (Nat × Nat)} (h : Claims.SortOf f dn e l) (p : Nat × Nat) : Claims.SortOf f dn (e ++ [p]) (sortInsert (keyBefore f dn) p l) := by
  obtain ⟨perm, sorted, stable⟩ := h
  obtain ⟨perm', sorted', stable'⟩ := sortOf_merge f dn sorted (y := [p]) (List.pairwise_singleton _ _)
  rw [sortInsert_eq]
  exact ⟨perm'.trans (perm.append_right _), sorted', fun k => by rw [stable' k, List.filter_append, List.filter_append, stable k]⟩

/-- Insertion one by one is the stable sort (R124). -/
theorem sortOf_foldl (e : List (Nat × Nat)) : Claims.SortOf f dn e (e.foldl (fun l p => sortInsert (keyBefore f dn) p l) []) := by
  induction e using List.reverseRecOn with
  | nil => exact ⟨.nil, .nil, fun _ => rfl⟩
  | append_singleton e p ih =>
    rw [List.foldl_append]
    exact sortOf_insert f dn ih p
end

section
variable {s : State} {i : Instr} {body : CoreBody} {c c5 c6 : Core} {d : Reg} {m : Nat} {z : Bool} {l : List (Nat × Nat)} (h : s.Legal i)
  (e : exec i s = runLocal i body s) (r : readsMode i = false) (o : s.Ready c)
include h e r o

/-- A pair of registers written (R86, R124). -/
theorem exec_putPair (b : body s.cur s.me = (do .ok (← c.putPair d l m z, 0))) (lo : c.putV d (Claims.keysOf l) m z = .ok c5)
    (hi : c5.putV (d + 1) (Claims.payloadOf l) m z = .ok c6) : exec i s = .next (s.doneOut i c6) := by
  have put : c.putPair d l m z = .ok c6 := by
    change (do let c ← c.putV d (Claims.keysOf l) m z; c.putV (d + 1) (Claims.payloadOf l) m z) = _
    rw [lo]
    exact hi
  have none_set : c6.flagged i 0 = c6 := Except.ok.inj ((Core.raise_quiet i c6.quiet_zero).symm.trans (Core.raise_none c6 i r))
  rw [← none_set]
  exact exec_gate_out h e (by rw [b, Core.gate_quiet c.quiet_zero]; rfl) put c.quiet_zero ((Core.putV_sys hi).trans (Core.putV_sys lo))
    ((Core.putV_txq hi).trans ((Core.putV_txq lo).trans o.1))
end

/-! ### The order of FP32 keys (R124) -/

section
variable {dn : Bool} {x y : Nat}

theorem keyBefore_f32_nan (h : fi32.decode x = .nan) : keyBefore .f32 dn x y = false := by
  change (if (fi32.decode x).isNan then false else _) = false
  rw [h]
  rfl

theorem keyBefore_f32_before_nan (hx : fi32.decode x ≠ .nan) (hy : fi32.decode y = .nan) : keyBefore .f32 dn x y = true := by
  change (if (fi32.decode x).isNan then false else if (fi32.decode y).isNan then true else _) = true
  rw [isNan_eq_false hx, hy]
  rfl

theorem keyBefore_f32_numbers (hx : fi32.decode x ≠ .nan) (hy : fi32.decode y ≠ .nan) :
    keyBefore .f32 dn x y = if dn then FVal.below (fi32.decode y) (fi32.decode x) else FVal.below (fi32.decode x) (fi32.decode y) := by
  change (if (fi32.decode x).isNan then false else if (fi32.decode y).isNan then true else _) = _
  rw [isNan_eq_false hx, isNan_eq_false hy]
  rfl

theorem keyBefore_f32_values {u v : FVal} (hx : fi32.decode x = u) (hy : fi32.decode y = v) (hu : u ≠ .nan) (hv : v ≠ .nan) :
    keyBefore .f32 false x y = FVal.below u v := by
  subst hx hy
  exact keyBefore_f32_numbers hu hv
end

/-- A value that is a number. -/
theorem num_eq_some {v : FVal} {p : ℚ} (h : Claims.num v = some p) : ∃ s m e, v = .fin s m e ∧ p = signed s m * 2 ^ e := by
  match v with
  | .fin s m e => exact ⟨s, m, e, rfl, (Option.some.inj ((num_fin s m e).symm.trans h)).symm⟩

/-- Settles O21: both are stable merges, one entry or one pair at a time; a number's place is its rank. -/
theorem sortingResult : Obligations.SortingResult := by
  refine ⟨fun dn x y _ _ => ?_, fun s f dn d m z x y c1 c2 h hm hx hy => ?_, fun s f dn d a m z x y u v c1 c2 c3 c4 h hm hx hy hu hv => ?_⟩
  · intro a b
    refine ⟨keyBefore_f32_nan, keyBefore_f32_before_nan, fun ha hb => by rw [keyBefore_f32_numbers ha hb, keyBefore_f32_numbers hb ha]; rfl,
      fun p q hp hq => ?_, fun q hq => ?_, fun p hp => ?_, fun s t ha hb => ?_, ?_⟩
    · obtain ⟨s, m, e, ea, rfl⟩ := num_eq_some hp
      obtain ⟨t, n, f, eb, rfl⟩ := num_eq_some hq
      have sign_x : s = x.testBit 31 := decode_fin_sign ea
      have sign_y : t = y.testBit 31 := decode_fin_sign eb
      rw [keyBefore_f32_values ea eb (by simp) (by simp), ← sign_x, ← sign_y, below_fin]
    · obtain ⟨t, n, f, eb, -⟩ := num_eq_some hq
      exact ⟨fun ea => keyBefore_f32_values ea eb (by simp) (by simp), fun ea => keyBefore_f32_values ea eb (by simp) (by simp)⟩
    · obtain ⟨s, m, e, ea, -⟩ := num_eq_some hp
      exact ⟨fun eb => keyBefore_f32_values ea eb (by simp) (by simp), fun eb => keyBefore_f32_values ea eb (by simp) (by simp)⟩
    · exact keyBefore_f32_values ha hb (by simp) (by simp)
    · simp only [keyBefore, fmtInfo, sext_eq]
      cases dn <;> exact decide_eq_true_iff
  · refine ⟨_, sortOf_foldl f dn (Claims.entries x y), fun c3 c4 lo hi => ?_⟩
    exact exec_putPair (body := bodyVsort f dn d) h rfl rfl ((s.me_ready.readV hx).readV hy) (by simp only [bodyVsort, hm, hx, hy, bind, Except.bind]; rfl) lo hi
  · refine ⟨_, fun c5 c6 lo hi => exec_putPair (body := bodyVmrg f dn d a) (l := mergeTake (keyBefore f dn) 16 (Claims.entries x y) (Claims.entries u v)) h rfl rfl
      ((((s.me_ready.readV hx).readV hy).readV hu).readV hv) (by simp only [bodyVmrg, hm, hx, hy, hu, hv, bind, Except.bind]; rfl) lo hi, fun sx sy => ?_⟩
    exact ⟨_, sortOf_merge f dn sx sy, mergeTake_eq ..⟩

end Sys2Proof.Machine
end

section
namespace Sys2Proof.Machine
open Sys2Proof

/-! ### The checks of R103, item by item -/

theorem firstSome_eq {α β : Type} (f : α → Option β) (l : List α) : firstSome f l = l.findSome? f := by
  induction l with
  | nil => rfl
  | cons a t ih =>
    rw [firstSome, List.findSome?_cons, ih]
    cases f a <;> rfl

theorem findSome?_range {β : Type} (f : Nat → Option β) (n : Nat) (b : β) :
    (List.range n).findSome? f = some b ↔ ∃ j, j < n ∧ f j = some b ∧ ∀ h, h < j → f h = none := by
  induction n with
  | zero => simp
  | succ n ih =>
    rw [List.range_succ, List.findSome?_append, Option.or_eq_some_iff, ih, List.findSome?_eq_none_iff]
    constructor
    · rintro (⟨j, hj, h⟩ | ⟨before, last⟩)
      · exact ⟨j, by omega, h⟩
      · exact ⟨n, by omega, by simpa using last, fun h hh => before h (List.mem_range.2 hh)⟩
    · rintro ⟨j, hj, here, before⟩
      obtain lt | rfl := Nat.lt_succ_iff_lt_or_eq.1 hj
      · exact .inl ⟨j, lt, here, before⟩
      · exact .inr ⟨fun h hh => before h (List.mem_range.1 hh), by simpa using here⟩

section
variable (s : State) (i : Nat)

/-- Item 1 over several bytes: the first that fails it (log entry 28). -/
theorem State.chkItem1_iff (va : Word) (n : Nat) (q : Cause) (v : Word) : s.chkItem1 i va n = some (q, v) ↔
    ∃ j, j < n ∧ v = va + BitVec.ofNat 64 j ∧ s.chk1 i v.toNat = some q ∧ ∀ h, h < j → s.chk1 i (va + BitVec.ofNat 64 h).toNat = none := by
  rw [State.chkItem1, firstSome_eq, findSome?_range]
  refine exists_congr fun j => and_congr_right fun _ => ?_
  rw [Option.map_eq_some_iff]
  simp only [Option.map_eq_none_iff, Prod.mk.injEq]
  constructor
  · rintro ⟨⟨c, hc, rfl, rfl⟩, before⟩
    exact ⟨rfl, hc, before⟩
  · rintro ⟨rfl, hc, before⟩
    exact ⟨⟨q, hc, rfl, rfl⟩, before⟩

/-! #### Poison (R369) -/

section
variable (k : Nat)

/-- A store that the core sees will cover the unit of k. -/
theorem State.clears_iff : (s.sbOf i).any (fun e => e.clr.contains (unitOf k)) = true ↔ ∃ e ∈ s.sbOf i, unitOf k ∈ e.clr := by simp

theorem State.meetsPoison_covered {acc : Access} (h : ∃ e ∈ s.sbOf i, unitOf k ∈ e.clr) : s.meetsPoison i acc k = false := by
  have seen : s.poisonSeen i k = false := by rw [State.poisonSeen, (s.clears_iff i k).2 h]; simp
  have plain : s.poisonPlain i k = false := by
    rw [State.poisonPlain, (s.clears_iff i k).2 h]
    split
    · simp
    · exact seen
  cases acc <;> simp [State.meetsPoison, seen, plain]

section
variable (h : ∀ e ∈ s.sbOf i, unitOf k ∉ e.clr)
include h

theorem State.not_clears : (s.sbOf i).any (fun e => e.clr.contains (unitOf k)) = false := by
  rw [Bool.eq_false_iff, Ne, State.clears_iff]
  rintro ⟨e, he, c⟩
  exact h e he c

theorem State.poisonSeen_uncovered : s.poisonSeen i k = s.poisoned k := by rw [State.poisonSeen, s.not_clears i k h]; simp

/-- Without a copy of the line the home's poison counts. -/
theorem State.poisonPlain_home (none_here : ∀ l ∈ (s.core i).l1d, l.la ≠ k / 64 * 64) : s.poisonPlain i k = s.poisoned k := by
  have find : (s.core i).l1d.find? (fun l => l.la = k / 64 * 64) = none := by simpa using none_here
  rw [State.poisonPlain, find]
  exact s.poisonSeen_uncovered i k h

/-- The marks of the core's copy count (log entry 12). -/
theorem State.poisonPlain_copy {l : L1Line} {t : List L1Line} (first : (s.core i).l1d = l :: t) (here : l.la = k / 64 * 64) :
    s.poisonPlain i k = l.bad.contains (unitOf k) := by
  have find : (s.core i).l1d.find? (fun l => l.la = k / 64 * 64) = some l := by simp [first, here]
  rw [State.poisonPlain, find, s.not_clears i k h]
  simp
end
end

/-! #### Items 1, 3 and 4 of one byte -/

theorem windowOf_ls {x : Nat} (h : x < 2 ^ 40) : windowOf (0x00FFFF0000000000 + x) = some (true, x) := by
  rw [windowOf, if_pos (by simp only [lsWin]; omega)]
  simp [lsWin]

theorem windowOf_csp {x : Nat} (h : x < 2 ^ 40) : windowOf (0x00FFFE0000000000 + x) = some (false, x) := by
  rw [windowOf, if_neg (by simp only [lsWin]; omega), if_pos (by simp only [cspWin]; omega)]
  simp [cspWin]

theorem windowOf_none {va : Nat} (h : va < 0x00FFFE0000000000) : windowOf va = none := by
  rw [windowOf, if_neg (by simp only [lsWin]; omega), if_neg (by simp only [cspWin]; omega)]

theorem State.chk1_high {va : Nat} (h : 2 ^ 56 ≤ va) : s.chk1 i va = some .prot := if_pos h

theorem State.chk1_ls {x : Nat} (h : x < 2 ^ 40) :
    s.chk1 i (0x00FFFF0000000000 + x) = if 2 ^ 17 ≤ x ∨ (s.isSup i = false ∧ 0x1E000 ≤ x) then some .prot else none := by
  rw [State.chk1, if_neg (by omega), windowOf_ls h]
  simp

theorem State.chk1_csp {x : Nat} (h : x < 2 ^ 40) : s.chk1 i (0x00FFFE0000000000 + x) = if 2 ^ 22 ≤ x then some .prot else none := by
  rw [State.chk1, if_neg (by omega), windowOf_csp h]

theorem State.chk1_mapped {va : Nat} (h : va < 0x00FFFE0000000000) : s.chk1 i va = none := by
  rw [State.chk1, if_neg (by omega), windowOf_none h]

variable (acc : Access)

theorem State.chk34_ls {x : Nat} (h : x < 2 ^ 40) :
    s.chk34 i acc (0x00FFFF0000000000 + x) = match s.windowKey i true x with | some k => .ok (k, none) | none => .error .lease := by
  rw [State.chk34, windowOf_ls h] <;> rfl

theorem State.chk34_csp {x : Nat} (h : x < 2 ^ 40) :
    s.chk34 i acc (0x00FFFE0000000000 + x) = match s.windowKey i false x with | some k => .ok (k, none) | none => .error .lease := by
  rw [State.chk34, windowOf_csp h] <;> rfl

section
variable {va : Nat} (h : va < 0x00FFFE0000000000)
include h

theorem State.chk34_unleased (user : s.isSup i = false) (bare : s.leased (s.partOf i) ((s.core i).run.getD 0) va = false) : s.chk34 i acc va = .error .lease := by
  rw [State.chk34, windowOf_none h]
  simp [user, bare]

variable (may : s.isSup i = true ∨ s.leased (s.partOf i) ((s.core i).run.getD 0) va = true)
include may

theorem State.chk34_lookup : s.chk34 i acc va = match s.lookup i false va with
    | none => .error .prot
    | some e =>
      if e.type = 4 then .error .peercore
      else if !acc.allowed e || (!s.isSup i && !e.u) then .error .prot
      else if e.type = 2 then .error .prot
      else if !s.backed (s.partOf i) e.type (e.pa va) then .error .prot
      else .ok (e.pa va, some e) := by
  have holds : (!s.isSup i && !s.leased (s.partOf i) ((s.core i).run.getD 0) va) = false := by rcases may with q | q <;> simp [q]
  rw [State.chk34, windowOf_none h]
  simp only [holds] <;> rfl

theorem State.chk34_entry {e : TlbEntry} (found : s.lookup i false va = some e) :
    (e.type = 4 → s.chk34 i acc va = .error .peercore) ∧
    (e.type ≠ 4 → (acc.allowed e = false ∨ (s.isSup i = false ∧ e.u = false) ∨ s.backed (s.partOf i) e.type (e.pa va) = false ∨ e.type = 2) →
      s.chk34 i acc va = .error .prot) ∧
    (e.type ≠ 4 → e.type ≠ 2 → acc.allowed e = true → (s.isSup i = true ∨ e.u = true) → s.backed (s.partOf i) e.type (e.pa va) = true →
      s.chk34 i acc va = .ok (e.pa va, some e)) := by
  rw [State.chk34_lookup s i acc h may, found]
  refine ⟨fun peer => if_pos peer, fun peer bad => ?_, fun peer csp allows priv backs => ?_⟩
  · dsimp only
    rw [if_neg peer]
    split
    · rfl
    next good =>
      split
      · rfl
      next csp =>
        rw [if_pos]
        simp only [Bool.or_eq_true, Bool.and_eq_true, Bool.not_eq_true', not_or, not_and] at good
        rcases bad with b | ⟨u, b⟩ | b | b
        · exact absurd b good.1
        · exact absurd b (good.2 u)
        · rw [b]; rfl
        · exact absurd b csp
  · have user : (!s.isSup i && !e.u) = false := by rcases priv with q | q <;> simp [q]
    simp [peer, csp, allows, user, backs]
end
end

end Sys2Proof.Machine
end

section
namespace Sys2Proof.Machine
open Sys2Proof

/-! ### The checks of an access that is one part (R103, R110) -/

section
variable {s : State} {i : Nat} {acc : Access} {va : Word} {n : Nat}

theorem State.checkBytes_item1 {mis : Bool} {q : Cause} {v : Word} (h : s.chkItem1 i va n = some (q, v)) : s.checkBytes i acc va n mis = .error (.trap q v) := by
  simp only [State.checkBytes, h]

variable (h : s.chkItem1 i va n = none)
include h

theorem State.checkBytes_align : s.checkBytes i acc va n true = .error (.trap .align va) := by
  simp only [State.checkBytes, h]
  rfl

variable (aligned : va.toNat % n = 0)
include aligned

omit h in
theorem partsOf_aligned : partsOf va n = [(va, n)] := by
  refine if_neg ?_
  rintro ⟨rfl, mis⟩
  exact mis aligned

theorem State.checkBytes_error {q : Cause} (e : s.chk34 i acc va.toNat = .error q) : s.checkBytes i acc va n (va.toNat % n != 0) = .error (.trap q va) := by
  have first : firstFault [(va, (.error q : Except Cause (Nat × Option TlbEntry)))] = some (q, va) := by cases q <;> rfl
  simp only [State.checkBytes, h, aligned, partsOf_aligned aligned, List.map_cons, List.map_nil, e, first]
  rfl

variable {k : Nat} {e : Option TlbEntry} (ok : s.chk34 i acc va.toNat = .ok (k, e))
include ok

theorem State.checkBytes_poison (bad : s.meetsPoison i acc k = true) : s.checkBytes i acc va n (va.toNat % n != 0) = .error (.trap .memue va) := by
  have first : firstFault [(va, (.ok (k, e) : Except Cause (Nat × Option TlbEntry)))] = none := rfl
  simp only [State.checkBytes, h, aligned, partsOf_aligned aligned, List.map_cons, List.map_nil, ok, first, List.zip_cons_cons, List.zip_nil_right,
    List.filterMap_cons, List.filterMap_nil, List.find?_cons, bad]
  rfl

theorem State.checkBytes_ok (good : s.meetsPoison i acc k = false) : s.checkBytes i acc va n (va.toNat % n != 0) = .ok ([(va, k, n)], s.keep i false e) := by
  have first : firstFault [(va, (.ok (k, e) : Except Cause (Nat × Option TlbEntry)))] = none := rfl
  simp only [State.checkBytes, h, aligned, partsOf_aligned aligned, List.map_cons, List.map_nil, ok, first, List.zip_cons_cons, List.zip_nil_right,
    List.filterMap_cons, List.filterMap_nil, List.find?_cons, List.find?_nil, good]
  rfl
end

/-! ### The scalar loads and stores (R33, R104, R105, R109) -/

theorem ldBytes_eq (z : LdSize) : ldBytes z = Claims.sizeOf z := by cases z <;> rfl

theorem addrImm_eq (a : Reg) (imm : BitVec 12) (c : Core) : addrImm a imm c = Claims.eaShort c a imm := by
  have sum (x : Word) : eaImm x imm = BitVec.ofInt 64 (x.toNat + imm.toInt) := by
    rw [BitVec.ofInt_add, BitVec.ofInt_natCast, BitVec.ofNat_toNat, BitVec.setWidth_eq]
    rfl
  simp only [addrImm, Claims.eaShort, bind, Except.bind, sum]
  cases c.readS a <;> rfl

/-- An address of R33. -/
theorem ea_word (x y : Word) (p : MemOp) :
    x + y <<< p.scale.toNat + wordOfInt p.disp.toInt = BitVec.ofInt 64 (x.toNat + y.toNat * 2 ^ p.scale.toNat + p.disp.toInt) := by
  have shift : y <<< p.scale.toNat = BitVec.ofInt 64 (y.toNat * 2 ^ p.scale.toNat : Nat) := by
    rw [BitVec.ofInt_natCast]
    exact BitVec.eq_of_toNat_eq (by rw [BitVec.toNat_shiftLeft, BitVec.toNat_ofNat, Nat.shiftLeft_eq])
  have base : x = BitVec.ofInt 64 x.toNat := by rw [BitVec.ofInt_natCast, BitVec.ofNat_toNat, BitVec.setWidth_eq]
  rw [BitVec.ofInt_add, BitVec.ofInt_add, ← base, shift]
  push_cast
  rfl

theorem Core.ea_eq (c : Core) (p : MemOp) : c.ea p = Claims.eaLong c p := by
  simp only [Core.ea, Claims.eaLong, bind, Except.bind, ea_word]
  cases c.readS p.a with
  | error q => rfl
  | ok r =>
    dsimp only
    cases r.2.readS p.b <;> rfl

/-- A scalar load of the table runs loadScalar (R104, R105, R109). -/
theorem exec_loadOf {s : State} {i : Instr} {z : LdSize} {d : Reg} {m : M (Word × Core)} (h : Claims.loadOf s.me i = some (z, d, m)) :
    ∃ addr, exec i s = loadScalar i z (Claims.invariant i) d addr s ∧ addr s.me = m := by
  cases i <;> cases h
  case ldx.refl p | ldi.refl p => exact ⟨fun c => c.ea p, rfl, Core.ea_eq ..⟩
  all_goals exact ⟨addrImm _ _, rfl, addrImm_eq ..⟩

/-- A scalar store of the table runs storeScalar (R104, R105). -/
theorem exec_storeOf {s : State} {i : Instr} {n : Nat} {src : Reg} {m : M (Word × Core)} (h : Claims.storeOf s.me i = some (n, src, m)) :
    ∃ z addr, exec i s = storeScalar i z src addr s ∧ addr s.me = m ∧ stBytes z = n := by
  cases i <;> cases h
  case stx.refl z p => exact ⟨z, fun c => c.ea p, rfl, Core.ea_eq .., by cases z <;> rfl⟩
  all_goals exact ⟨_, addrImm _ _, rfl, addrImm_eq .., rfl⟩

section
variable {s : State} {i : Instr} (h : s.Legal i) {addr : Core → M (Word × Core)} {ea : Word} {c : Core}
include h

/-- A load whose checks fail traps, and does nothing else (R103). -/
theorem loadScalar_traps {z : LdSize} {inv : Bool} {d : Reg} (ha : addr s.me = .ok (ea, c)) {q : Cause} {v : Word}
    (fails : (s.setCore s.cur c).checkBytes s.cur .load ea (ldBytes z) (ea.toNat % ldBytes z != 0) = .error (.trap q v)) :
    loadScalar i z inv d addr s = .next (s.traps i q v) :=
  runSeq_traps h (by simp only [State.start_core, State.start_setCore, ha, bind, Except.bind, fails])

/-- The same of a store. -/
theorem storeScalar_traps {z : StSize} {src : Reg} {c0 : Core} {x : Word} (ha : addr s.me = .ok (ea, c0)) (hx : c0.readS src = .ok (x, c)) {q : Cause} {v : Word}
    (fails : (s.setCore s.cur c).checkBytes s.cur .store ea (stBytes z) (ea.toNat % stBytes z != 0) = .error (.trap q v)) :
    storeScalar i z src addr s = .next (s.traps i q v) :=
  runSeq_traps h (by simp only [State.start_core, State.start_setCore, ha, hx, bind, Except.bind, fails])

/-- A scalar access whose checks fail traps, and does nothing else. -/
theorem access_traps {acc : Access} {n : Nat}
    (form : (∃ z d, Claims.loadOf s.me i = some (z, d, .ok (ea, c)) ∧ n = Claims.sizeOf z ∧ acc = .load) ∨
      (∃ src x c0, Claims.storeOf s.me i = some (n, src, .ok (ea, c0)) ∧ c0.readS src = .ok (x, c) ∧ acc = .store)) {q : Cause} {v : Word}
    (fails : (s.setCore s.cur c).checkBytes s.cur acc ea n (ea.toNat % n != 0) = .error (.trap q v)) : exec i s = .next (s.traps i q v) := by
  rcases form with ⟨z, d, load, rfl, rfl⟩ | ⟨src, x, c0, store, hx, rfl⟩
  · obtain ⟨addr, e, ha⟩ := exec_loadOf load
    rw [e]
    exact loadScalar_traps h ha (by rw [ldBytes_eq]; exact fails)
  · obtain ⟨z, addr, e, ha, rfl⟩ := exec_storeOf store
    rw [e]
    exact storeScalar_traps h ha hx fails
end

/-- Settles O25: the items one after another, each a branch of chk1, chk34, meetsPoison or checkBytes. -/
theorem accessChecks : Obligations.AccessChecks := by
  refine ⟨fun s i n acc ea c h form => ?_, fun s i => ?_⟩
  · intro s0
    refine ⟨fun q v fails => access_traps h form (State.checkBytes_item1 fails), fun item1 mis => access_traps h form ?_,
      fun item1 aligned => ⟨fun q fails => access_traps h form (State.checkBytes_error item1 aligned fails), fun k e ok load bad => ?_⟩⟩
    · rw [bne_iff_ne.2 mis]
      exact State.checkBytes_align item1
    · exact access_traps h form (State.checkBytes_poison item1 aligned ok (load ▸ bad))
  · exact ⟨fun va n q v => s.chkItem1_iff i va n q v,
      fun k => ⟨rfl, fun acc covered => s.meetsPoison_covered i k covered, fun bare => ⟨s.poisonSeen_uncovered i k bare, s.poisonSeen_uncovered i k bare,
        fun none_here => s.poisonPlain_home i k bare none_here, fun l t first here => s.poisonPlain_copy i k bare first here⟩⟩,
      fun va => s.chk1_high i, fun x => s.chk1_ls i, fun x => s.chk1_csp i, fun va => s.chk1_mapped i, fun acc x => s.chk34_ls i acc, fun acc x => s.chk34_csp i acc,
      fun acc va => s.chk34_unleased i acc, fun acc va low may => ⟨fun missing => by rw [s.chk34_lookup i acc low may, missing], fun e => s.chk34_entry i acc low may⟩⟩

end Sys2Proof.Machine
end

section
namespace Sys2Proof.Machine
open Sys2Proof

/-! ### What an access leaves aside: translations, copies of lines, race reports (R203, R343, log entry 12) -/

/-- t is s but for the translations and copies of lines that core i keeps, those of the clusters, and the records of races. -/
structure State.Aside (s t : State) (i : Nat) : Prop where
  rest : t = { s with cores := t.cores, clusters := t.clusters, conflicts := t.conflicts, grans := t.grans }
  others (j : Nat) : j ≠ i → t.core j = s.core j
  core : t.core i = { s.core i with itlb := (t.core i).itlb, dtlb := (t.core i).dtlb, l1d := (t.core i).l1d, l1i := (t.core i).l1i, hview := (t.core i).hview }
  shared (j : Nat) : (t.cluster j).sb = (s.cluster j).sb

theorem State.Aside.refl (s : State) (i : Nat) : s.Aside s i := ⟨rfl, fun _ _ => rfl, rfl, fun _ => rfl⟩

theorem State.Aside.trans {s t u : State} {i : Nat} (a : s.Aside t i) (b : t.Aside u i) : s.Aside u i where
  rest := b.rest.trans (by rw [a.rest])
  others j h := (b.others j h).trans (a.others j h)
  core := b.core.trans (by rw [a.core])
  shared j := (b.shared j).trans (a.shared j)

section
variable (s : State) (i : Nat)

theorem State.aside_setCore {c : Core} (h : c = { s.core i with itlb := c.itlb, dtlb := c.dtlb, l1d := c.l1d, l1i := c.l1i, hview := c.hview }) :
    s.Aside (s.setCore i c) i := by
  refine ⟨rfl, fun j h => State.core_setCore_other s _ h, ?_, fun _ => rfl⟩
  rw [State.core_setCore_same]
  exact h

theorem State.aside_setCluster (n : Nat) {c : Cluster} (h : c.sb = (s.cluster n).sb) : s.Aside (s.setCluster n c) i := by
  refine ⟨rfl, fun _ _ => rfl, rfl, fun j => ?_⟩
  by_cases e : j = n
  · rw [e, State.cluster_setCluster_same, h]
  · rw [State.cluster_setCluster_other s c e]

theorem State.aside_keep (e : Option TlbEntry) : s.Aside (s.keep i false e) i := by
  cases e with
  | none => exact .refl s i
  | some e => exact (s.aside_setCore i rfl).trans (State.aside_setCluster _ i _ rfl)

theorem State.aside_fillLine (inv : Bool) (a : Nat) : s.Aside (s.fillLine i inv a) i := by
  unfold State.fillLine
  dsimp only
  split
  · exact .refl s i
  · split
    · split
      · exact s.aside_setCore i rfl
      · exact .refl s i
    · exact s.aside_setCore i rfl

theorem State.aside_track (launch phasec : Nat) (store report : Bool) (a : Nat) (va : Word) : s.Aside (s.track i launch phasec store report a va) i := by
  unfold State.track
  dsimp only
  split_ifs <;> exact ⟨rfl, fun _ _ => rfl, rfl, fun _ => rfl⟩

theorem State.aside_watch (l : List (Nat × Word)) : s.Aside (s.watch i l) i :=
  List.foldlRecOn (motive := fun t => s.Aside t i) (granulesOf l) _ (.refl s i) fun t h _ _ => h.trans (t.aside_track i _ _ _ _ _ _)
end

/-- The one place of a byte that has two while its page is under migration, as the state's own function of R350 gives it (`State.awaits_eq`, `State.loadByte_eq`). -/
def State.onePlace (s : State) (a : Nat) : Nat :=
  match s.holds.find? fun h => decide (h.new ≤ a) && decide (a < h.new + h.len) with
  | some h => h.old + (a - h.new)
  | none => a

theorem State.awaits_eq (s : State) (i k n : Nat) : s.awaits i k n =
    (s.core i).late.any fun l => l.parts.any fun p => decide (s.onePlace p.key < s.onePlace k + n) && decide (s.onePlace k < s.onePlace p.key + p.n) := rfl

/-- A load finds the latest store to the place, else the copy of the line, else the home (R184). -/
theorem State.loadByte_eq (s : State) (i : Nat) (inv : Bool) (a : Nat) : s.loadByte i inv a =
    match forwarded s.onePlace (s.sbOf i) a with
    | some b => b
    | none =>
      match (s.core i).copyOf inv a with
      | some l => l.data.getD (a % 64) 0
      | none => s.byte a := rfl

theorem State.onePlace_congr {s t : State} (h : t.holds = s.holds) : t.onePlace = s.onePlace := by funext a; simp only [State.onePlace, h]
theorem State.byte_congr {s t : State} (h : t.mem = s.mem) : t.byte = s.byte := by funext a; simp only [State.byte, h]

namespace State.Aside
variable {s t : State} {i : Nat} (h : s.Aside t i)
include h

theorem mem_eq : t.mem = s.mem := (congrArg State.mem h.rest :)
theorem mpoison_eq : t.mpoison = s.mpoison := (congrArg State.mpoison h.rest :)
theorem holds_eq : t.holds = s.holds := (congrArg State.holds h.rest :)
theorem launches_eq : t.launches = s.launches := (congrArg State.launches h.rest :)
theorem cmds_eq : t.cmds = s.cmds := (congrArg State.cmds h.rest :)
theorem parts_eq : t.parts = s.parts := (congrArg State.parts h.rest :)
theorem onePlace_eq : t.onePlace = s.onePlace := State.onePlace_congr h.holds_eq
theorem byte_eq : t.byte = s.byte := State.byte_congr h.mem_eq
theorem poisoned_eq (k : Nat) : t.poisoned k = s.poisoned k := by simp only [State.poisoned, h.mpoison_eq]
theorem granuleBusy_eq (k : Nat) : t.granuleBusy k = s.granuleBusy k := by simp only [State.granuleBusy, h.holds_eq]
theorem sbOf_eq : t.sbOf i = s.sbOf i := by
  have own : (t.core i).sb = (s.core i).sb := (congrArg Core.sb h.core :)
  rw [State.sbOf, State.sbOf, own, h.shared]
theorem awaits_eq (k n : Nat) : t.awaits i k n = s.awaits i k n := by
  have late : (t.core i).late = (s.core i).late := (congrArg Core.late h.core :)
  simp only [State.awaits_eq, late, h.onePlace_eq]
end State.Aside

/-! ### What a plain access sees (R184) -/

/-- What a load returns rests on the stores that the core sees, the copies it has, the bytes at the homes and the places of bytes. -/
theorem State.loadByte_congr {s t : State} {i : Nat} (places : t.onePlace = s.onePlace) (stores : t.sbOf i = s.sbOf i) (copies : (t.core i).copyOf = (s.core i).copyOf)
    (homes : t.byte = s.byte) (inv : Bool) (a : Nat) : t.loadByte i inv a = s.loadByte i inv a := by
  simp only [State.loadByte_eq, places, stores, copies, homes]

/-- A translation that is kept changes no copy of a line. -/
theorem State.keep_copyOf (s : State) (i : Nat) (e : Option TlbEntry) : ((s.keep i false e).core i).copyOf = (s.core i).copyOf := by
  cases e with
  | none => rfl
  | some e =>
    change ((s.setCore i _).core i).copyOf = _
    rw [State.core_setCore_same]
    rfl

/-- One more load is outstanding (R130). -/
def Core.countLoad (c : Core) : Core := { c with loads := c.loads + 1 }

/-- The core's load count goes up by one as the load issues (R130). -/
theorem State.issueLoad_eq {s : State} {i : Nat} (h : (s.core i).loads < 32) : s.issueLoad i = .ok (s.modCore i Core.countLoad) := by
  rw [State.issueLoad, decide_eq_true h]
  rfl

section
variable (s : State) (i : Nat)

theorem State.modCore_awaits {f : Core → Core} (h : ∀ c, (f c).late = c.late) (k n : Nat) : (s.modCore i f).awaits i k n = s.awaits i k n := by
  simp only [State.awaits, State.core_modCore_same, h]
  rfl

theorem State.modCore_loadByte {f : Core → Core} (sb : ∀ c, (f c).sb = c.sb) (cp : ∀ c, (f c).copyOf = c.copyOf) (inv : Bool) (a : Nat) :
    (s.modCore i f).loadByte i inv a = s.loadByte i inv a := by
  have stores : (s.modCore i f).sbOf i = s.sbOf i := by
    simp only [State.sbOf, State.core_modCore_same, sb]
    rfl
  exact State.loadByte_congr (s := s) (t := s.modCore i f) rfl stores (by rw [State.core_modCore_same, cp]) rfl inv a
end

/-! ### What one instruction leaves of the core (R28, R40, R130) -/

theorem State.doneIn_core (s t : State) (i : Instr) : (s.doneIn t i).core s.cur = ({ t.core s.cur with txq := [] } : Core).advance i.len :=
  State.core_modCore_same _ _ _

/-- Passing on changes where the core goes on, its chain, and the ages of its outstanding loads. -/
theorem Core.advance_kept (c : Core) (n : Nat) :
    c.advance n = { c with pc := (c.advance n).pc, slot := none, pfx := [], stalled := false, late := c.later } := by
  cases h : c.slot with
  | none =>
    rw [Core.advance_next h, ← h]
  | some t => rw [Core.advance_slot h]

theorem Core.passed_advance {c0 c : Core} (pc : c.pc = c0.pc) (slot : c.slot = c0.slot) (n : Nat) : Claims.Passed c0 (c.advance n) n := by
  rw [Claims.Passed, ← slot, ← pc]
  cases h : c.slot with
  | none => rw [Core.advance_next h]; exact ⟨rfl, h, rfl⟩
  | some t => rw [Core.advance_slot h]; exact ⟨rfl, rfl, rfl⟩

end Sys2Proof.Machine
end

section
namespace Sys2Proof.Machine
open Sys2Proof

/-! ### The core of an access before it writes a register -/

/-- c' is c but for its outstanding accesses, its copies of lines and its translations. -/
def Core.OffRegs (c c' : Core) : Prop :=
  c' = { c with loads := c'.loads, sb := c'.sb, late := c'.late, defer := c'.defer, itlb := c'.itlb, dtlb := c'.dtlb, l1d := c'.l1d, l1i := c'.l1i, hview := c'.hview }

namespace Core.OffRegs
variable {c c' c'' : Core}

theorem refl (c : Core) : c.OffRegs c := rfl
theorem trans (h : c.OffRegs c') (h' : c'.OffRegs c'') : c.OffRegs c'' := by
  unfold Core.OffRegs at *
  exact h'.trans (by rw [h])

section
variable (h : c.OffRegs c')
include h
theorem pc_eq : c'.pc = c.pc := (congrArg Core.pc h :)
theorem slot_eq : c'.slot = c.slot := (congrArg Core.slot h :)
theorem txq_eq : c'.txq = c.txq := (congrArg Core.txq h :)
theorem outq_eq : c'.outq = c.outq := (congrArg Core.outq h :)
theorem sreg_eq (r : Nat) : c'.sreg r = c.sreg r := (congrArg (Core.sreg · r) h :)
theorem regsBut (d : Nat) : Claims.RegsBut c c' d :=
  ⟨fun r _ => h.sreg_eq r, (congrArg Core.v h :), (congrArg Core.k h :), (congrArg Core.sys h :), (congrArg Core.shadow h :)⟩
end
end Core.OffRegs

theorem State.Aside.offRegs {s t : State} {i : Nat} (h : s.Aside t i) : (s.core i).OffRegs (t.core i) := by
  unfold Core.OffRegs
  rw [h.core]

theorem regsBut_advance {c c' : Core} {d : Nat} (h : Claims.RegsBut c c' d) (n : Nat) : Claims.RegsBut c (({ c' with txq := [] } : Core).advance n) d := by
  rw [Core.advance_kept]
  exact h

theorem Core.writeS_kept (c : Core) (n : Nat) (x : Word) :
    c.writeS n x = { c with s := (c.writeS n x).s, poison := (c.writeS n x).poison, late := (c.writeS n x).late } := by
  simp only [Core.writeS, Core.setS]
  split <;> rfl

section
variable (c : Core) (n : Nat)
@[simp] theorem Core.advance_loads : (c.advance n).loads = c.loads := by rw [Core.advance_kept]
@[simp] theorem Core.advance_sb : (c.advance n).sb = c.sb := by rw [Core.advance_kept]
@[simp] theorem Core.advance_defer : (c.advance n).defer = c.defer := by rw [Core.advance_kept]
@[simp] theorem Core.advance_late : (c.advance n).late = c.later := by rw [Core.advance_kept]
@[simp] theorem Core.advance_sreg (r : Nat) : (c.advance n).sreg r = c.sreg r := by rw [Core.advance_kept]; rfl
@[simp] theorem Core.writeS_loads (x : Word) : (c.writeS n x).loads = c.loads := by rw [Core.writeS_kept]
@[simp] theorem Core.writeS_sb (x : Word) : (c.writeS n x).sb = c.sb := by rw [Core.writeS_kept]
@[simp] theorem Core.writeS_pc (x : Word) : (c.writeS n x).pc = c.pc := by rw [Core.writeS_kept]
@[simp] theorem Core.writeS_slot (x : Word) : (c.writeS n x).slot = c.slot := by rw [Core.writeS_kept]
end

theorem regsBut_writeS {c c' : Core} {d : Nat} (h : Claims.RegsBut c c' d) (x : Word) : Claims.RegsBut c (c'.writeS d x) d := by
  obtain ⟨s, v, k, sys, shadow⟩ := h
  have kept := c'.writeS_kept d x
  exact ⟨fun r hr => (c'.writeS_sreg_other d x hr).trans (s r hr), (congrArg Core.v kept :).trans v, (congrArg Core.k kept :).trans k,
    (congrArg Core.sys kept :).trans sys, (congrArg Core.shadow kept :).trans shadow⟩

/-! ### What stays elsewhere -/

namespace Elsewhere
variable {s t u : State} {i : Nat}

theorem refl (s : State) (i : Nat) : Claims.Elsewhere s s i := ⟨fun _ _ => rfl, rfl, rfl, rfl, rfl, rfl⟩

theorem setCore (h : Claims.Elsewhere s t i) (c : Core) : Claims.Elsewhere s (t.setCore i c) i := by
  obtain ⟨cores, rest⟩ := h
  exact ⟨fun j hj => (State.core_setCore_other t c hj).trans (cores j hj), rest⟩

theorem tick (h : Claims.Elsewhere s t i) : Claims.Elsewhere s t.tick i := h

theorem aside (h : Claims.Elsewhere s t i) (a : t.Aside u i) : Claims.Elsewhere s u i := by
  obtain ⟨cores, mem, mpoison, launches, cmds, parts⟩ := h
  exact ⟨fun j hj => (a.others j hj).trans (cores j hj), a.mem_eq.trans mem, a.mpoison_eq.trans mpoison, a.launches_eq.trans launches, a.cmds_eq.trans cmds,
    a.parts_eq.trans parts⟩

theorem doneIn (h : Claims.Elsewhere s t s.cur) (j : Instr) : Claims.Elsewhere s (s.doneIn t j) s.cur := setCore h _
end Elsewhere

/-! ### Operands of an access -/

/-- Reading an operand takes a word from a port at most. -/
theorem Core.readS_bank {c c' : Core} {r : Reg} {x : Word} (h : c.readS r = .ok (x, c')) : c' = { c with bank := c'.bank } := by
  unfold Core.readS at h
  simp only at h
  split at h
  · split at h
    · simp at h
    · split at h <;> simp at h; rw [← h.2]
  · split at h <;> simp at h; rw [← h.2]; rfl

theorem bank_trans {c c' c'' : Core} (h : c' = { c with bank := c'.bank }) (h' : c'' = { c' with bank := c''.bank }) : c'' = { c with bank := c''.bank } :=
  h'.trans (by rw [h])

theorem eaShort_bank {c c' : Core} {a : Reg} {imm : BitVec 12} {ea : Word} (h : Claims.eaShort c a imm = .ok (ea, c')) : c' = { c with bank := c'.bank } := by
  cases e : c.readS a with
  | error q => simp [Claims.eaShort, e] at h
  | ok p =>
    simp only [Claims.eaShort, e, Except.ok.injEq, Prod.mk.injEq] at h
    exact h.2 ▸ Core.readS_bank e

theorem eaLong_bank {c c' : Core} {p : MemOp} {ea : Word} (h : Claims.eaLong c p = .ok (ea, c')) : c' = { c with bank := c'.bank } := by
  cases ex : c.readS p.a with
  | error q => simp [Claims.eaLong, ex] at h
  | ok x =>
    cases ey : x.2.readS p.b with
    | error q => simp [Claims.eaLong, ex, ey] at h
    | ok y =>
      simp only [Claims.eaLong, ex, ey, Except.ok.injEq, Prod.mk.injEq] at h
      exact h.2 ▸ bank_trans (Core.readS_bank ex) (Core.readS_bank ey)

theorem loadOf_bank {c c' : Core} {i : Instr} {z : LdSize} {d : Reg} {ea : Word} (h : Claims.loadOf c i = some (z, d, .ok (ea, c'))) :
    c' = { c with bank := c'.bank } := by
  unfold Claims.loadOf at h
  split at h
  case h_10 => cases h
  case h_8 | h_9 =>
    simp only [Option.some.injEq, Prod.mk.injEq] at h
    obtain ⟨-, -, h⟩ := h
    exact eaLong_bank h
  all_goals
    simp only [Option.some.injEq, Prod.mk.injEq] at h
    obtain ⟨-, -, h⟩ := h
    exact eaShort_bank h

theorem storeOf_bank {c c' : Core} {i : Instr} {n : Nat} {r : Reg} {ea : Word} (h : Claims.storeOf c i = some (n, r, .ok (ea, c'))) :
    c' = { c with bank := c'.bank } := by
  unfold Claims.storeOf at h
  split at h
  case h_6 => cases h
  case h_5 =>
    simp only [Option.some.injEq, Prod.mk.injEq] at h
    obtain ⟨-, -, h⟩ := h
    exact eaLong_bank h
  all_goals
    simp only [Option.some.injEq, Prod.mk.injEq] at h
    obtain ⟨-, -, h⟩ := h
    exact eaShort_bank h

/-! ### The value of a load (R104, R105) -/

theorem ofBytes_append_one (l : List Byte) (b : Byte) : ofBytes (l ++ [b]) = ofBytes l + b.toNat * 2 ^ (8 * l.length) := by
  induction l with
  | nil => simp [ofBytes]
  | cons a t ih =>
    rw [List.cons_append, ofBytes, ih, ofBytes, List.length_cons, Nat.mul_succ 8 t.length, pow_add]
    ring

theorem ofBytes_range (f : Nat → Byte) (n : Nat) : ofBytes ((List.range n).map f) = Claims.little f n := by
  induction n with
  | zero => rfl
  | succ n ih => rw [List.range_succ, List.map_append, List.map_singleton, ofBytes_append_one, ih, List.length_map, List.length_range, Claims.little]

theorem ldValue_eq (z : LdSize) (x : Nat) : ldValue z x = Claims.extended z x := by
  have sign (n : Nat) : wordOfInt (sext x n) = (BitVec.ofNat n x).signExtend 64 := by
    rw [sext_eq]
    rfl
  cases z <;> simp only [ldValue, ldSigned, ldBytes, Claims.extended, reduceIte, Bool.false_eq_true, sign]

end Sys2Proof.Machine
end

section
namespace Sys2Proof.Machine
open Sys2Proof

/-! ### Plain scalar loads (R104, R105, R109, R130, R184) -/

/-- A load of one part that waits for nothing. -/
theorem State.loadParts_one {s : State} {i k n : Nat} (inv : Bool) (va : Word) (free : s.granuleBusy k = false) (first : s.awaits i k n = false) :
    s.loadParts i inv [(va, k, n)] = .ok (Claims.little (fun j => s.loadByte i inv (k + j)) n, (s.fillLine i inv k).fillLine i inv (k + n - 1)) := by
  have go : stallUnless (!s.granuleBusy k && !s.awaits i k n) = .ok () := by rw [free, first]; rfl
  simp only [State.loadParts, State.plainLoad, go, ofBytes_range]
  change Except.ok (_ + 0 * 2 ^ (8 * n), _) = _
  rw [Nat.zero_mul, Nat.add_zero]

section
variable {s : State} {i : Instr} (h : s.Legal i) {z : LdSize} {inv : Bool} {d : Reg} {addr : Core → M (Word × Core)} {ea : Word} {c : Core}
  {ps : List (Word × Nat × Nat)} {s1 s2 : State} (ha : addr s.me = .ok (ea, c))
  (chk : (s.setCore s.cur c).checkBytes s.cur .load ea (ldBytes z) (ea.toNat % ldBytes z != 0) = .ok (ps, s1)) (issue : s1.issueLoad s.cur = .ok s2)
include h ha chk issue

/-- The load is left outstanding (R130). -/
theorem loadScalar_left (left : ((s2.core s.cur).defer && !inv && decide (d.toNat < 56) && s2.mayLeave s.cur (latePartsOf 0 ps)) = true)
    (tx : ((s2.leave s.cur (.s d.toNat (ldBytes z) (ldSigned z)) false (latePartsOf 0 ps)).core s.cur).txq = [])
    (out : ((s2.leave s.cur (.s d.toNat (ldBytes z) (ldSigned z)) false (latePartsOf 0 ps)).core s.cur).outq = []) :
    loadScalar i z inv d addr s = .next (s.doneIn (s2.leave s.cur (.s d.toNat (ldBytes z) (ldSigned z)) false (latePartsOf 0 ps)) i) := by
  refine runSeq_ok h ?_ tx out
  simp only [State.start_core, State.start_setCore, ha, bind, Except.bind, chk, issue, left]
  rfl

/-- The load takes its value at once. -/
theorem loadScalar_now (now : ((s2.core s.cur).defer && !inv && decide (d.toNat < 56) && s2.mayLeave s.cur (latePartsOf 0 ps)) = false) {x : Nat} {s3 : State}
    (load : s2.loadParts s.cur inv ps = .ok (x, s3)) (hd : d.toNat < 56) (tx : ((s3.watch s.cur (placesOf ps)).core s.cur).txq = [])
    (out : ((s3.watch s.cur (placesOf ps)).core s.cur).outq = []) :
    loadScalar i z inv d addr s = .next (s.doneIn ((s3.watch s.cur (placesOf ps)).setCore s.cur
      (((s3.watch s.cur (placesOf ps)).core s.cur).writeS d.toNat (ldValue z x))) i) := by
  refine runSeq_ok h ?_ (by simpa using tx) (by simpa using out)
  simp only [State.start_core, State.start_setCore, ha, bind, Except.bind, chk, issue, now, load, Core.putS_reg _ hd]
  rfl
end

/-! ### A load that R103 allows, up to its issue -/

section
variable {s : State} {c : Core} {k n : Nat} {e : Option TlbEntry}

/-- The state in which an allowed access of the current core issues its load, its operands read. -/
def State.issued (s : State) (c : Core) (e : Option TlbEntry) : State :=
  ((s.setCore s.cur c).keep s.cur false e).modCore s.cur Core.countLoad

/-- Up to here the access has counted itself and kept a translation. -/
theorem State.issued_core (s : State) (c : Core) (e : Option TlbEntry) :
    c.OffRegs ((s.issued c e).core s.cur) ∧ ((s.issued c e).core s.cur).loads = c.loads + 1 ∧ ((s.issued c e).core s.cur).sb = c.sb ∧
      ((s.issued c e).core s.cur).late = c.late ∧ ((s.issued c e).core s.cur).defer = c.defer := by
  have aside := (s.setCore s.cur c).aside_keep s.cur e
  have kept := aside.core
  rw [State.core_setCore_same] at kept
  rw [State.issued, State.core_modCore_same, kept]
  exact ⟨rfl, rfl, rfl, rfl, rfl⟩

theorem State.issued_elsewhere (s : State) (c : Core) (e : Option TlbEntry) : Claims.Elsewhere s (s.issued c e) s.cur :=
  Elsewhere.setCore (Elsewhere.aside (Elsewhere.setCore (Elsewhere.refl s s.cur) c) ((s.setCore s.cur c).aside_keep s.cur e)) _

theorem State.issued_loadByte (s : State) (c : Core) (e : Option TlbEntry) (inv : Bool) (a : Nat) :
    (s.issued c e).loadByte s.cur inv a = (s.setCore s.cur c).loadByte s.cur inv a := by
  have aside := (s.setCore s.cur c).aside_keep s.cur e
  exact (State.modCore_loadByte _ _ (f := Core.countLoad) (fun _ => rfl) (fun _ => rfl) inv a).trans <| State.loadByte_congr aside.onePlace_eq aside.sbOf_eq (State.keep_copyOf ..) aside.byte_eq inv a

theorem State.issued_awaits (s : State) (c : Core) (e : Option TlbEntry) (k n : Nat) :
    (s.issued c e).awaits s.cur k n = (s.setCore s.cur c).awaits s.cur k n :=
  (State.modCore_awaits _ _ (f := Core.countLoad) (fun _ => rfl) k n).trans (((s.setCore s.cur c).aside_keep s.cur e).awaits_eq k n)

theorem State.issued_granuleBusy (s : State) (c : Core) (e : Option TlbEntry) (k : Nat) : (s.issued c e).granuleBusy k = s.granuleBusy k :=
  ((s.setCore s.cur c).aside_keep s.cur e).granuleBusy_eq k

theorem State.issued_poisoned (s : State) (c : Core) (e : Option TlbEntry) (k : Nat) : (s.issued c e).poisoned k = s.poisoned k :=
  ((s.setCore s.cur c).aside_keep s.cur e).poisoned_eq k

theorem State.keep_issueLoad (loads : c.loads < 32) : ((s.setCore s.cur c).keep s.cur false e).issueLoad s.cur = .ok (s.issued c e) := by
  refine State.issueLoad_eq ?_
  have same : (((s.setCore s.cur c).keep s.cur false e).core s.cur).loads = c.loads := by
    have kept := ((s.setCore s.cur c).aside_keep s.cur e).core
    rw [State.core_setCore_same] at kept
    exact (congrArg Core.loads kept :)
  rwa [same]
end

/-- A scalar load that R103 allows and that finds room, in both forms. -/
structure LoadDone (s : State) (i : Instr) (z : LdSize) (d : Reg) (ea : Word) (c : Core) (k : Nat) (t : State) : Prop where
  now : c.defer = false ∨ Claims.invariant i = true ∨ s.poisoned k = true →
    (d ≠ 0 → (t.core s.cur).sreg d.toNat =
      Claims.extended z (Claims.little (fun j => (s.setCore s.cur c).loadByte s.cur (Claims.invariant i) (k + j)) (Claims.sizeOf z))) ∧
    Claims.RegsBut c (t.core s.cur) d.toNat
  left : c.defer = true → Claims.invariant i = false → s.poisoned k = false →
    (∃ q ∈ (t.core s.cur).late, q.dst = .s d.toNat (Claims.sizeOf z) (Claims.signedOf z) ∧ q.parts = [⟨ea, k, Claims.sizeOf z, 0⟩] ∧ q.strong = false) ∧
    Claims.RegsBut c (t.core s.cur) 0 ∧ (d ≠ 0 → (t.core s.cur).readS d = .error .stall) ∧ (t.core s.cur).defer = false
  kept : (t.core s.cur).loads = c.loads + 1 ∧ (t.core s.cur).sb = c.sb ∧ Claims.Passed (s.core s.cur) (t.core s.cur) i.len ∧ Claims.Elsewhere s t s.cur

section
variable {s : State} {i : Instr} (h : s.Legal i) {z : LdSize} {d : Reg} {addr : Core → M (Word × Core)} {ea : Word} {c : Core} {k : Nat} {e : Option TlbEntry}
  (ha : addr s.me = .ok (ea, c)) (hc : c = { s.me with bank := c.bank }) (hd : d.toNat < 56)
  (chk : (s.setCore s.cur c).checkBytes s.cur .load ea (ldBytes z) (ea.toNat % ldBytes z != 0) = .ok ([(ea, k, ldBytes z)], (s.setCore s.cur c).keep s.cur false e))
  (loads : c.loads < 32) (free : s.granuleBusy k = false) (first : (s.setCore s.cur c).awaits s.cur k (ldBytes z) = false)
include h ha hc hd chk loads free first

/-- A load that takes its value at once (R104, R105). -/
theorem loadDone_now (now : c.defer = false ∨ Claims.invariant i = true ∨ s.poisoned k = true) :
    ∃ t, loadScalar i z (Claims.invariant i) d addr s = .next t ∧ LoadDone s i z d ea c k t := by
  let inv := Claims.invariant i
  let u := s.issued c e
  obtain ⟨off, hl, hsb, -, hdefer⟩ := s.issued_core c e
  have busy : u.granuleBusy k = false := (s.issued_granuleBusy c e k).trans free
  have waits : u.awaits s.cur k (ldBytes z) = false := (s.issued_awaits c e k _).trans first
  have load := State.loadParts_one inv ea busy waits
  let w := ((u.fillLine s.cur inv k).fillLine s.cur inv (k + ldBytes z - 1)).watch s.cur (placesOf [(ea, k, ldBytes z)])
  have aside : u.Aside w s.cur := ((u.aside_fillLine s.cur inv k).trans (State.aside_fillLine _ _ _ _)).trans (State.aside_watch _ _ _)
  have offw : c.OffRegs (w.core s.cur) := off.trans aside.offRegs
  have tx : (w.core s.cur).txq = [] := offw.txq_eq.trans (congrArg Core.txq hc :)
  have out : (w.core s.cur).outq = [] := offw.outq_eq.trans (congrArg Core.outq hc :)
  have not_left : ((u.core s.cur).defer && !inv && decide (d.toNat < 56) && u.mayLeave s.cur (latePartsOf 0 [(ea, k, ldBytes z)])) = false := by
    have poison : u.poisoned k = s.poisoned k := s.issued_poisoned c e k
    rcases now with q | q | q
    · simp [hdefer, u, q]
    · simp [inv, q]
    · simp [State.mayLeave, latePartsOf, poison, q]
  refine ⟨_, loadScalar_now h ha chk (State.keep_issueLoad loads) not_left load hd tx out, ?_⟩
  let x := ldValue z (Claims.little (fun j => u.loadByte s.cur inv (k + j)) (ldBytes z))
  let t := s.doneIn (w.setCore s.cur ((w.core s.cur).writeS d.toNat x)) i
  have core : t.core s.cur = ({ (w.core s.cur).writeS d.toNat x with txq := [] } : Core).advance i.len :=
    (State.doneIn_core ..).trans (by rw [State.core_setCore_same])
  have value : x = Claims.extended z (Claims.little (fun j => (s.setCore s.cur c).loadByte s.cur inv (k + j)) (Claims.sizeOf z)) := by
    simp only [x, ldValue_eq, ldBytes_eq, u, State.issued_loadByte]
  have wloads : (w.core s.cur).loads = c.loads + 1 := (congrArg Core.loads aside.core :).trans hl
  have wsb : (w.core s.cur).sb = c.sb := (congrArg Core.sb aside.core :).trans hsb
  refine ⟨fun _ => ⟨fun hne => ?_, ?_⟩, fun left good sound => ?_, ?_, ?_, ?_, ?_⟩
  · rw [core, ← value]
    exact (Core.advance_sreg _ _ _).trans (Core.writeS_sreg_same _ _ _ (by simpa [← BitVec.toNat_inj] using hne))
  · rw [core]
    exact regsBut_advance (regsBut_writeS (offw.regsBut _) x) _
  · simp [left, good, sound] at now
  · rw [core]
    simpa using wloads
  · rw [core]
    simpa using wsb
  · rw [core]
    refine Core.passed_advance ?_ ?_ _
    · exact (Core.writeS_pc ..).trans (offw.pc_eq.trans (congrArg Core.pc hc :))
    · exact (Core.writeS_slot ..).trans (offw.slot_eq.trans (congrArg Core.slot hc :))
  · exact Elsewhere.doneIn (Elsewhere.setCore (Elsewhere.aside (s.issued_elsewhere c e) aside) _) i

/-- A load that is left outstanding (R130). -/
theorem loadDone_left (left : c.defer = true) (good : Claims.invariant i = false) (sound : s.poisoned k = false) :
    ∃ t, loadScalar i z (Claims.invariant i) d addr s = .next t ∧ LoadDone s i z d ea c k t := by
  let u := s.issued c e
  obtain ⟨off, hl, hsb, -, hdefer⟩ := s.issued_core c e
  let q : LateLoad := { id := u.serial, dst := .s d.toNat (ldBytes z) (ldSigned z), parts := [⟨ea, k, ldBytes z, 0⟩], val := 0, bad := false, strong := false
                        launch := (u.core s.cur).run.getD 0, phasec := (u.core s.cur).phasec, age := 0, told := [] }
  let w := u.leave s.cur (.s d.toNat (ldBytes z) (ldSigned z)) false (latePartsOf 0 [(ea, k, ldBytes z)])
  let cw : Core := { u.core s.cur with defer := false, late := ((u.core s.cur).late.map fun l => l.drop (.s d.toNat (ldBytes z) (ldSigned z))) ++ [q] }
  have hw : w.core s.cur = cw := State.core_modCore_same _ _ _
  have offw : c.OffRegs cw := off.trans rfl
  have stays : ((u.core s.cur).defer && !Claims.invariant i && decide (d.toNat < 56) && u.mayLeave s.cur (latePartsOf 0 [(ea, k, ldBytes z)])) = true := by
    have busy : u.granuleBusy k = false := (s.issued_granuleBusy c e k).trans free
    have waits : u.awaits s.cur k (ldBytes z) = false := (s.issued_awaits c e k _).trans first
    have poison : u.poisoned k = false := (s.issued_poisoned c e k).trans sound
    simp [u, hdefer, left, good, hd, State.mayLeave, latePartsOf] at busy waits poison ⊢
    exact ⟨⟨poison, busy⟩, waits⟩
  have tx : (w.core s.cur).txq = [] := hw ▸ offw.txq_eq.trans (congrArg Core.txq hc :)
  have out : (w.core s.cur).outq = [] := hw ▸ offw.outq_eq.trans (congrArg Core.outq hc :)
  refine ⟨_, loadScalar_left h ha chk (State.keep_issueLoad loads) stays tx out, ?_⟩
  let t := s.doneIn w i
  have core : t.core s.cur = ({ cw with txq := [] } : Core).advance i.len := (State.doneIn_core ..).trans (by rw [hw])
  let q' : LateLoad := { q with age := 1 }
  have mem : q' ∈ (t.core s.cur).late := by
    rw [core, Core.advance_late]
    exact List.mem_map.2 ⟨q, List.mem_append_right _ (List.mem_singleton_self q), rfl⟩
  refine ⟨fun now => ?_, fun _ _ _ => ⟨⟨q', mem, ?_, ?_, rfl⟩, ?_, fun hne => ?_, ?_⟩, ?_, ?_, ?_, ?_⟩
  · simp [left, good, sound] at now
  · cases z <;> rfl
  · rw [← ldBytes_eq]
  · rw [core]
    exact regsBut_advance (offw.regsBut 0) _
  · exact Core.readS_pending hd (Core.pendingS_iff.2 ⟨by simpa [← BitVec.toNat_inj] using hne, q', mem, _, _, rfl⟩)
  · rw [core]
    exact Core.advance_defer ..
  · rw [core]
    exact (Core.advance_loads ..).trans hl
  · rw [core]
    exact (Core.advance_sb ..).trans hsb
  · rw [core]
    refine Core.passed_advance ?_ ?_ _
    · exact offw.pc_eq.trans (congrArg Core.pc hc :)
    · exact offw.slot_eq.trans (congrArg Core.slot hc :)
  · exact Elsewhere.doneIn (Elsewhere.setCore (Elsewhere.tick (s.issued_elsewhere c e)) _) i
end

end Sys2Proof.Machine
end

section
namespace Sys2Proof.Machine
open Sys2Proof

/-! ### Plain stores (R104, R105, R130, R182) -/

/-- A store that has room, and waits for no load, issues: its pieces join the core's store buffer. -/
theorem State.issueStore_eq {s : State} {i : Nat} {strong : Bool} {ps : List (List (Nat × Byte) × Word)} (room : (s.core i).stores < 64)
    (first : ∀ p ∈ ps.flatMap (·.1), s.awaits i p.1 1 = false) :
    ∃ es : List SbEntry, s.issueStore i strong ps = .ok (s.tick.setCore i { s.core i with sb := (s.core i).sb ++ es }) ∧ es.map (fun e => (e.bytes, e.va)) = ps ∧
      ∀ e ∈ es, e.strong = strong ∧ e.strm = none := by
  have none_waits : (ps.flatMap (·.1)).any (fun p => s.awaits i p.1 1) = false := List.any_eq_false.2 fun p hp => by simp [first p hp]
  rw [State.issueStore]
  dsimp only
  rw [decide_eq_true room, none_waits]
  refine ⟨_, rfl, ?_, ?_⟩
  · simp [Function.comp_def]
  · simp only [List.mem_map, forall_exists_index, and_imp]
    rintro e p - rfl
    exact ⟨rfl, rfl⟩

/-- Adding a store to the core's buffer leaves its registers. -/
theorem Core.offRegs_sb (c : Core) (l : List SbEntry) : c.OffRegs { c with sb := l } := rfl

/-! #### What a load finds in the store buffer (R184) -/

theorem forwarded_append_plain (f : Nat → Nat) (sb : List SbEntry) (e : SbEntry) (a : Nat) (h : e.strm = none) :
    forwarded f (sb ++ [e]) a = match e.bytes.reverse.find? fun p => f p.1 = f a with
      | some p => some p.2
      | none => forwarded f sb a := by
  rw [forwarded, List.reverse_append, List.reverse_singleton, List.singleton_append, firstSome, h]
  cases e.bytes.reverse.find? fun p => f p.1 = f a <;> rfl

/-- The last of a list's elements that satisfies p. -/
theorem find?_reverse_eq_some {α : Type} {p : α → Bool} {l u v : List α} {a : α} (h : l = u ++ a :: v) (ha : p a = true) (later : ∀ b ∈ v, p b = false) :
    l.reverse.find? p = some a := by
  have after : v.reverse.find? p = none := by simpa using later
  rw [h, List.reverse_append, List.reverse_cons, List.append_assoc, List.find?_append, after]
  simp [ha]

/-- Byte j of n stored bytes, in its place among them. -/
theorem at_split {k n x j : Nat} (h : j < n) : ∃ u v, at_ k n x = u ++ (k + j, BitVec.ofNat 8 (x / 2 ^ (8 * j))) :: v ∧ ∀ p ∈ v, ∃ i, j < i ∧ i < n ∧ p.1 = k + i := by
  have len : (at_ k n x).length = n := length_at k n x
  have byte : (at_ k n x)[j]'(len.symm ▸ h) = (k + j, BitVec.ofNat 8 (x / 2 ^ (8 * j))) := by
    simp only [at_, List.getElem_mapIdx]
    have all (n x j : Nat) (h : j < (bytesOf n x).length) : (bytesOf n x)[j] = BitVec.ofNat 8 (x / 2 ^ (8 * j)) := by
      induction n generalizing x j with
      | zero => exact absurd h (Nat.not_lt_zero j)
      | succ n ih =>
        cases j with
        | zero => simp [bytesOf]
        | succ j =>
          have inside : j < (bytesOf n (x / 256)).length := by simpa [bytesOf] using h
          have cut : x / 256 / 2 ^ (8 * j) = x / 2 ^ (8 * (j + 1)) := by
            rw [Nat.div_div_eq_div_mul, Nat.mul_succ, pow_add]
            congr 1
            ring
          exact (ih (x / 256) j inside).trans (by rw [cut])
    rw [all]
  refine ⟨(at_ k n x).take j, (at_ k n x).drop (j + 1), ?_, fun p hp => ?_⟩
  · rw [← byte, ← List.drop_eq_getElem_cons, List.take_append_drop]
  · obtain ⟨i, hi, rfl⟩ := List.mem_iff_getElem.1 hp
    rw [List.length_drop, len] at hi
    refine ⟨j + 1 + i, by omega, by omega, ?_⟩
    simp [at_]

/-- A load where one more plain store is seen. -/
theorem State.loadByte_stored {s t : State} {i : Nat} {q : SbEntry} (places : t.onePlace = s.onePlace) (stores : t.sbOf i = s.sbOf i ++ [q])
    (copies : (t.core i).copyOf = (s.core i).copyOf) (homes : t.byte = s.byte) (plain : q.strm = none) (inv : Bool) (a : Nat) :
    t.loadByte i inv a = ((q.bytes.reverse.find? fun p => s.onePlace p.1 = s.onePlace a).map (·.2)).getD (s.loadByte i inv a) := by
  simp only [State.loadByte_eq, places, stores, copies, homes, forwarded_append_plain _ _ _ _ plain]
  cases q.bytes.reverse.find? fun p => s.onePlace p.1 = s.onePlace a <;> rfl

@[simp] theorem Core.advance_copyOf (c : Core) (n : Nat) : (c.advance n).copyOf = c.copyOf := by rw [Core.advance_kept]; rfl

theorem State.doneIn_sbOf (s t : State) (i : Instr) : (s.doneIn t i).sbOf s.cur = t.sbOf s.cur := by
  have own : ((s.doneIn t i).core s.cur).sb = (t.core s.cur).sb := by rw [State.doneIn_core, Core.advance_sb]
  rw [State.sbOf, State.sbOf, own]
  rfl

/-- A scalar store that R103 allows and that finds room. -/
structure StoreDone (s : State) (i : Instr) (n : Nat) (x : Word) (c : Core) (k : Nat) (t : State) (q : SbEntry) : Prop where
  buffer : (t.core s.cur).sb = c.sb ++ [q] ∧ q.bytes = at_ k n x.toNat ∧ q.strong = false
  own (inv : Bool) (j : Nat) : j < n → (∀ h, j < h → h < n → s.onePlace (k + h) ≠ s.onePlace (k + j)) → t.loadByte s.cur inv (k + j) = BitVec.ofNat 8 (x.toNat / 2 ^ (8 * j))
  other (inv : Bool) (a : Nat) : (∀ j, j < n → s.onePlace a ≠ s.onePlace (k + j)) → t.loadByte s.cur inv a = (s.setCore s.cur c).loadByte s.cur inv a
  home (a : Nat) : t.byte a = s.byte a
  kept : Claims.RegsBut c (t.core s.cur) 0 ∧ Claims.Passed (s.core s.cur) (t.core s.cur) i.len ∧ Claims.Elsewhere s t s.cur

/-- A store whose checks pass and that issues. -/
theorem storeScalar_ok {s : State} {i : Instr} (h : s.Legal i) {z : StSize} {src : Reg} {addr : Core → M (Word × Core)} {ea x : Word} {c0 c : Core}
    {ps : List (Word × Nat × Nat)} {s1 u : State} (ha : addr s.me = .ok (ea, c0)) (hx : c0.readS src = .ok (x, c))
    (chk : (s.setCore s.cur c).checkBytes s.cur .store ea (stBytes z) (ea.toNat % stBytes z != 0) = .ok (ps, s1))
    (issue : s1.issueStore s.cur false (storeParts ps x.toNat) = .ok u) (tx : (u.core s.cur).txq = []) (out : (u.core s.cur).outq = []) :
    storeScalar i z src addr s = .next (s.doneIn u i) :=
  runSeq_ok h (by simp only [State.start_core, State.start_setCore, ha, hx, bind, Except.bind, chk, issue]) tx out

theorem storeDone {s : State} {i : Instr} (h : s.Legal i) {z : StSize} {src : Reg} {addr : Core → M (Word × Core)} {ea x : Word} {c0 c : Core} {k : Nat}
    {e : Option TlbEntry} (ha : addr s.me = .ok (ea, c0)) (hx : c0.readS src = .ok (x, c)) (hc : c = { s.me with bank := c.bank })
    (chk : (s.setCore s.cur c).checkBytes s.cur .store ea (stBytes z) (ea.toNat % stBytes z != 0) = .ok ([(ea, k, stBytes z)], (s.setCore s.cur c).keep s.cur false e))
    (room : c.stores < 64) (first : ∀ j, j < stBytes z → (s.setCore s.cur c).awaits s.cur (k + j) 1 = false) :
    ∃ t q, storeScalar i z src addr s = .next t ∧ StoreDone s i (stBytes z) x c k t q := by
  let s0 := s.setCore s.cur c
  let s1 := s0.keep s.cur false e
  have aside : s0.Aside s1 s.cur := s0.aside_keep s.cur e
  have core0 : s0.core s.cur = c := State.core_setCore_same _ _ _
  have off1 : c.OffRegs (s1.core s.cur) := core0 ▸ aside.offRegs
  have sb1 : (s1.core s.cur).sb = c.sb := core0 ▸ (congrArg Core.sb aside.core :)
  have room1 : (s1.core s.cur).stores < 64 := by rwa [Core.stores, sb1]
  have first1 : ∀ p ∈ (storeParts [(ea, k, stBytes z)] x.toNat).flatMap (·.1), s1.awaits s.cur p.1 1 = false := by
    intro p hp
    obtain ⟨j, hj, hp, -⟩ := mem_at.1 (by simpa [storeParts] using hp)
    rw [hp]
    exact (aside.awaits_eq _ 1).trans (first j hj)
  obtain ⟨es, issue, bytes, plain⟩ := State.issueStore_eq (strong := false) room1 first1
  obtain ⟨q, rfl⟩ : ∃ q, es = [q] := List.length_eq_one_iff.1 (by simpa [storeParts] using congrArg List.length bytes)
  obtain ⟨strong, strm⟩ := plain q (List.mem_singleton_self q)
  have qbytes : q.bytes = at_ k (stBytes z) x.toNat := by simpa [storeParts] using congrArg (List.map Prod.fst) bytes
  let cu : Core := { s1.core s.cur with sb := (s1.core s.cur).sb ++ [q] }
  let u := s1.tick.setCore s.cur cu
  have coreu : u.core s.cur = cu := State.core_setCore_same _ _ _
  have offu : c.OffRegs cu := off1.trans (Core.offRegs_sb ..)
  have tx : (u.core s.cur).txq = [] := coreu ▸ offu.txq_eq.trans (congrArg Core.txq hc :)
  have out : (u.core s.cur).outq = [] := coreu ▸ offu.outq_eq.trans (congrArg Core.outq hc :)
  let t := s.doneIn u i
  have core : t.core s.cur = ({ cu with txq := [] } : Core).advance i.len := (State.doneIn_core ..).trans (by rw [coreu])
  have holds : t.holds = s0.holds := aside.holds_eq
  have mem : t.mem = s0.mem := aside.mem_eq
  have sees (inv : Bool) (a : Nat) : t.loadByte s.cur inv a = ((q.bytes.reverse.find? fun p => s.onePlace p.1 = s.onePlace a).map (·.2)).getD (s0.loadByte s.cur inv a) := by
    refine State.loadByte_stored (s := s0) (State.onePlace_congr holds) ?_ ?_ (State.byte_congr mem) strm inv a
    · rw [State.doneIn_sbOf, ← aside.sbOf_eq, State.sbOf, State.sbOf, coreu, List.append_assoc]
      rfl
    · rw [core, Core.advance_copyOf]
      exact s0.keep_copyOf s.cur e
  refine ⟨t, q, storeScalar_ok h ha hx chk issue tx out, ⟨?_, qbytes, strong⟩, fun inv j hj last => ?_, fun inv a away => ?_, fun a => ?_, ?_, ?_, ?_⟩
  · rw [core, Core.advance_sb]
    exact congrArg (· ++ [q]) sb1
  · obtain ⟨pre, post, split, after⟩ := at_split (k := k) (x := x.toNat) hj
    have found : q.bytes.reverse.find? (fun p => s.onePlace p.1 = s.onePlace (k + j)) = some (k + j, BitVec.ofNat 8 (x.toNat / 2 ^ (8 * j))) := by
      refine find?_reverse_eq_some (qbytes.trans split) (by simp) fun p hp => ?_
      obtain ⟨l, lo, hi, e⟩ := after p hp
      simpa [e] using last l lo hi
    rw [sees, found]
    rfl
  · have missing : q.bytes.reverse.find? (fun p => s.onePlace p.1 = s.onePlace a) = none := by
      rw [List.find?_eq_none, qbytes]
      intro p hp
      obtain ⟨j, hj, e, -⟩ := mem_at.1 (List.mem_reverse.1 hp)
      simpa [e] using (away j hj).symm
    rw [sees, missing]
    rfl
  · exact congrFun (State.byte_congr mem) a
  · rw [core]
    exact regsBut_advance (offu.regsBut 0) _
  · rw [core]
    refine Core.passed_advance ?_ ?_ _
    · exact offu.pc_eq.trans (congrArg Core.pc hc :)
    · exact offu.slot_eq.trans (congrArg Core.slot hc :)
  · exact Elsewhere.doneIn (Elsewhere.setCore (Elsewhere.tick (Elsewhere.aside (Elsewhere.setCore (Elsewhere.refl s s.cur) c) aside)) _) i

/-- Settles O24: a load of one part at once or left outstanding, a store of one part. -/
theorem scalarAccessResult : Obligations.ScalarAccessResult := by
  refine ⟨fun s i z d ea c k e h form hd aligned => ?_, fun s i n src ea x c0 c k e h form hx aligned => ?_⟩
  · intro s0 ⟨item1, items34, sound⟩ loads free first
    obtain ⟨addr, run, ha⟩ := exec_loadOf form
    have hc := loadOf_bank form
    rw [← ldBytes_eq] at aligned first item1
    have chk := State.checkBytes_ok item1 aligned items34 sound
    obtain ⟨t, e1, ⟨now, left, kept⟩⟩ : ∃ t, loadScalar i z (Claims.invariant i) d addr s = .next t ∧ LoadDone s i z d ea c k t := by
      by_cases late : c.defer = true ∧ Claims.invariant i = false ∧ s.poisoned k = false
      · exact loadDone_left h ha hc hd chk loads free first late.1 late.2.1 late.2.2
      · refine loadDone_now h ha hc hd chk loads free first ?_
        rwa [not_and_or, not_and_or, Bool.not_eq_true, Bool.not_eq_false, Bool.not_eq_false] at late
    exact ⟨t, run.trans e1, now, left, kept⟩
  · intro s0 ⟨item1, items34, sound⟩ room first
    obtain ⟨z, addr, run, ha, rfl⟩ := exec_storeOf form
    have hc := bank_trans (storeOf_bank form) (Core.readS_bank hx)
    obtain ⟨t, q, e1, ⟨⟨sb, bytes, strong⟩, own, other, home, kept⟩⟩ := storeDone h ha hx hc (State.checkBytes_ok item1 aligned items34 sound) room first
    exact ⟨t, q, run.trans e1, sb, bytes, strong, own, other, home, kept⟩

end Sys2Proof.Machine
end

section
namespace Sys2Proof.Machine
open Sys2Proof

/-! ### What the checks and the loads of several parts leave (R103, R110) -/

/-- A step that passes on what an earlier one gave. -/
theorem bind_eq_ok {α β : Type} {x : M α} {f : α → M β} {b : β} : x >>= f = .ok b ↔ ∃ a, x = .ok a ∧ f a = .ok b := by
  cases x with
  | error e =>
    constructor
    · intro h
      cases h
    · rintro ⟨_, h, _⟩
      cases h
  | ok a => exact ⟨fun h => ⟨a, rfl, h⟩, fun ⟨_, h, h'⟩ => Except.ok.inj h ▸ h'⟩

theorem firstFault_none {l : List (Word × Except Cause (Nat × Option TlbEntry))} (h : firstFault l = none) : ∀ p ∈ l, ∃ r, p.2 = .ok r := by
  intro p hp
  unfold firstFault at h
  split at h
  · cases h
  · rw [firstSome_eq, List.findSome?_eq_none_iff] at h
    have here := h p hp
    cases e : p.2 with
    | ok r => exact ⟨r, rfl⟩
    | error c => simp [e] at here

/-- The parts that pass, with their translations. -/
def passed (p : (Word × Nat) × Word × Except Cause (Nat × Option TlbEntry)) : Option (Word × Nat × Nat × Option TlbEntry) :=
  match p.2.2 with
  | .ok (k, e) => some (p.1.1, k, p.1.2, e)
  | .error _ => none

/-- Where every part passes, none is lost. -/
theorem passed_parts (g : Word × Nat → Except Cause (Nat × Option TlbEntry)) (l : List (Word × Nat)) (h : ∀ p ∈ l, ∃ r, g p = .ok r) :
    ((l.zip (l.map fun p => (p.1, g p))).filterMap passed).map (fun q => (q.1, q.2.2.1)) = l := by
  induction l with
  | nil => rfl
  | cons p t ih =>
    obtain ⟨⟨k, e⟩, hp⟩ := h p (.head t)
    have rest := ih fun q hq => h q (.tail p hq)
    simp only [List.map_cons, List.zip_cons_cons, List.filterMap_cons, passed, hp]
    exact congrArg (p :: ·) rest

section
variable {s s' : State} {i : Nat}

/-- A check that passes gives the parts of the access, and keeps translations. -/
theorem State.checkBytes_passed {acc : Access} {va : Word} {n : Nat} {mis : Bool} {ps : List (Word × Nat × Nat)}
    (h : s.checkBytes i acc va n mis = .ok (ps, s')) : s.Aside s' i ∧ ps.map (fun q => (q.1, q.2.2)) = partsOf va n := by
  unfold State.checkBytes at h
  dsimp only at h
  split at h
  · cases h
  · cases mis with
    | true => cases h
    | false =>
      change (match firstFault _ with | some (c, v) => _ | none => _) = _ at h
      split at h
      · cases h
      next all_ok =>
        split at h
        · cases h
        · obtain ⟨rfl, rfl⟩ := Prod.mk.inj (Except.ok.inj h)
          refine ⟨List.foldlRecOn (motive := fun t => s.Aside t i) _ _ (.refl s i) fun t ht q _ => ht.trans (t.aside_keep i _), ?_⟩
          rw [List.map_map]
          refine passed_parts (fun p => s.chk34 i acc p.1.toNat) (partsOf va n) fun p hp => ?_
          exact firstFault_none all_ok _ (List.mem_map_of_mem hp)

theorem State.aside_checkLanes {acc : Access} {ls : List LaneAt} {ps : List (LaneAt × List (Word × Nat × Nat))} (h : s.checkLanes i acc ls = .ok (ps, s')) :
    s.Aside s' i := by
  induction ls generalizing s ps with
  | nil =>
    obtain ⟨-, rfl⟩ := Prod.mk.inj (Except.ok.inj h)
    exact .refl s i
  | cons l t ih =>
    rw [State.checkLanes] at h
    obtain ⟨r, here, h⟩ := bind_eq_ok.1 h
    obtain ⟨r', rest, h⟩ := bind_eq_ok.1 h
    obtain ⟨-, rfl⟩ := Prod.mk.inj (Except.ok.inj h)
    exact (State.checkBytes_passed here).1.trans (ih rest)

theorem State.plainLoad_ok {inv : Bool} {k n x : Nat} (h : s.plainLoad i inv k n = .ok (x, s')) :
    x = Claims.little (fun j => s.loadByte i inv (k + j)) n ∧ s' = (s.fillLine i inv k).fillLine i inv (k + n - 1) := by
  unfold State.plainLoad at h
  obtain ⟨-, -, h⟩ := bind_eq_ok.1 h
  obtain ⟨value, copies⟩ := Prod.mk.inj (Except.ok.inj h)
  exact ⟨value.symm.trans (ofBytes_range _ n), copies.symm⟩

theorem State.loadParts_cons {inv : Bool} {va : Word} {k n x : Nat} {t : List (Word × Nat × Nat)} (h : s.loadParts i inv ((va, k, n) :: t) = .ok (x, s')) :
    ∃ y, ((s.fillLine i inv k).fillLine i inv (k + n - 1)).loadParts i inv t = .ok (y, s') ∧
      x = Claims.little (fun j => s.loadByte i inv (k + j)) n + y * 2 ^ (8 * n) := by
  rw [State.loadParts] at h
  obtain ⟨⟨v, s1⟩, here, h⟩ := bind_eq_ok.1 h
  obtain ⟨⟨y, s2⟩, rest, h⟩ := bind_eq_ok.1 h
  obtain ⟨rfl, rfl⟩ := Prod.mk.inj (Except.ok.inj h)
  obtain ⟨rfl, rfl⟩ := State.plainLoad_ok here
  exact ⟨y, rest, rfl⟩

theorem State.aside_loadParts {inv : Bool} {ps : List (Word × Nat × Nat)} {x : Nat} (h : s.loadParts i inv ps = .ok (x, s')) : s.Aside s' i := by
  induction ps generalizing s x with
  | nil =>
    obtain ⟨-, rfl⟩ := Prod.mk.inj (Except.ok.inj h)
    exact .refl s i
  | cons p t ih =>
    obtain ⟨va, k, n⟩ := p
    obtain ⟨y, rest, -⟩ := State.loadParts_cons h
    exact ((s.aside_fillLine i inv k).trans (State.aside_fillLine _ _ _ _)).trans (ih rest)

theorem State.loadLanes_cons {inv : Bool} {l : LaneAt} {ps : List (Word × Nat × Nat)} {t : List (LaneAt × List (Word × Nat × Nat))} {xs : List (Nat × Nat × Nat)}
    (h : s.loadLanes i inv ((l, ps) :: t) = .ok (xs, s')) :
    ∃ x r s1, xs = (l.i, l.n, x) :: r ∧ s.loadParts i inv ps = .ok (x, s1) ∧ s1.loadLanes i inv t = .ok (r, s') := by
  rw [State.loadLanes] at h
  obtain ⟨⟨x, s1⟩, here, h⟩ := bind_eq_ok.1 h
  obtain ⟨⟨r, s2⟩, rest, h⟩ := bind_eq_ok.1 h
  obtain ⟨rfl, rfl⟩ := Prod.mk.inj (Except.ok.inj h)
  exact ⟨x, r, s1, rfl, here, rest⟩

theorem State.aside_loadLanes {inv : Bool} {ps : List (LaneAt × List (Word × Nat × Nat))} {xs : List (Nat × Nat × Nat)} (h : s.loadLanes i inv ps = .ok (xs, s')) :
    s.Aside s' i := by
  induction ps generalizing s xs with
  | nil =>
    obtain ⟨-, rfl⟩ := Prod.mk.inj (Except.ok.inj h)
    exact .refl s i
  | cons p t ih =>
    obtain ⟨x, r, s1, -, here, rest⟩ := State.loadLanes_cons (l := p.1) (ps := p.2) h
    exact (State.aside_loadParts here).trans (ih rest)
end

end Sys2Proof.Machine
end

section
namespace Sys2Proof.Machine
open Sys2Proof

/-! ### Vector loads (R106 to R109, R130) -/

/-- An instruction that sends nothing ends as its pushed items join the core's stores (R231). -/
theorem runSeq_out {i : Instr} {body : Nat → State → M State} {s t : State} (h : s.Legal i) (b : body s.cur s.start = .ok t) (e : (t.core s.cur).txq = []) :
    runSeq i body s = .next (s.doneIn (t.pushOut s.cur) i) := by
  have tx : ((t.pushOut s.cur).core s.cur).txq = [] := (congrArg Core.txq (State.pushOut_core t s.cur) :).trans e
  rw [runSeq, runCtl_legal h]
  simp only [b, bind, Except.bind, State.retire, tx, State.sendWords]
  simp only [settleOutcome, State.doneIn, State.modCore]
  rw [State.core_setCore_same, State.setCore_setCore]

/-- Watching for races leaves every core (R203). -/
theorem State.watch_core (s : State) (i : Nat) (l : List (Nat × Word)) (j : Nat) : (s.watch i l).core j = s.core j := by
  have cores : (s.watch i l).cores = s.cores := by
    refine List.foldlRecOn (motive := fun t : State => t.cores = s.cores) (granulesOf l) _ rfl fun t h p _ => ?_
    rw [← h, State.track]
    dsimp only
    split_ifs <;> rfl
  rw [State.core, State.core, cores]

theorem lanesMask_eq (l : List LaneAt) : lanesMask l = (l.map fun x => (2 ^ x.n - 1) * 2 ^ (x.i * x.n)).sum := by
  rw [List.sum_eq_foldl, List.foldl_map]
  rfl

/-- Whether a load of these lanes and parts is left outstanding (R130). -/
def State.leavesV (s : State) (i : Nat) (inv : Bool) (d : Reg) (ls : List LaneAt) (parts : List LoadPart) : Bool :=
  (s.core i).defer && !inv && !ls.isEmpty && decide (d.toNat < 32) && !(s.core i).pendingV d.toNat && s.mayLeave i parts

theorem State.leavesV_iff {s : State} {i : Nat} {inv : Bool} {d : Reg} {ls : List LaneAt} {parts : List LoadPart} : s.leavesV i inv d ls parts = true ↔
    (s.core i).defer = true ∧ inv = false ∧ ls ≠ [] ∧ d.toNat < 32 ∧ (s.core i).pendingV d.toNat = false ∧ s.mayLeave i parts = true := by
  simp [State.leavesV, and_assoc]

section
variable {s : State} {i : Instr} (h : s.Legal i) {inv : Bool} {d : Reg} {addr : Nat → Core → M (List LaneAt × Core)} {m : Nat} {z : Bool}
  {ls : List LaneAt} {c : Core} {ps : List (LaneAt × List (Word × Nat × Nat))} {s1 s2 : State} (hp : s.me.pred = .ok (m, z)) (ha : addr m s.me = .ok (ls, c))
  (o : s.Ready c) (chk : (s.setCore s.cur c).checkLanes s.cur .load ls = .ok (ps, s1)) (issue : if ls = [] then s2 = s1 else s1.issueLoad s.cur = .ok s2)

include chk issue in
/-- Up to its issue a vector load has kept translations and counted itself. -/
theorem loadVector_offRegs : c.OffRegs (s2.core s.cur) ∧ s2.mem = s.mem := by
  have aside := State.aside_checkLanes chk
  have off := aside.offRegs
  rw [State.core_setCore_same] at off
  split at issue
  · exact issue ▸ ⟨off, aside.mem_eq⟩
  · by_cases room : (s1.core s.cur).loads < 32
    · rw [State.issueLoad_eq room] at issue
      obtain rfl := Except.ok.inj issue
      rw [State.core_modCore_same]
      exact ⟨off.trans rfl, aside.mem_eq⟩
    · rw [State.issueLoad, decide_eq_false room] at issue
      cases issue

include issue in
/-- A load of no lane issues none. -/
theorem issue_cases : ls.isEmpty = true ∧ s2 = s1 ∨ ¬ls.isEmpty = true ∧ s1.issueLoad s.cur = .ok s2 := by
  cases ls with
  | nil => exact .inl ⟨rfl, issue⟩
  | cons l t => exact .inr ⟨Bool.false_ne_true, issue⟩

include h hp ha o chk issue

/-- The load takes its values at once. -/
theorem loadVector_now (now : s2.leavesV s.cur inv d ls (ps.flatMap fun p => latePartsOf (p.1.i * p.1.n) p.2) = false) {xs : List (Nat × Nat × Nat)} {s3 : State} {c3 : Core}
    (load : s2.loadLanes s.cur inv ps = .ok (xs, s3))
    (put : (s3.core s.cur).putV d (BitVec.ofNat 512 (xs.map fun l => l.2.2 * 2 ^ (8 * l.1 * l.2.1)).sum) (xs.map fun l => (2 ^ l.2.1 - 1) * 2 ^ (l.1 * l.2.1)).sum z = .ok c3) :
    loadVector i inv d addr s = .next (s.doneIn (((s3.watch s.cur (ps.flatMap fun p => placesOf p.2)).setCore s.cur c3).pushOut s.cur) i) ∧ s3.mem = s.mem := by
  obtain ⟨off, mem⟩ := loadVector_offRegs chk issue
  have aside := State.aside_loadLanes load
  have off3 := off.trans aside.offRegs
  refine ⟨runSeq_out h ?_ ?_, aside.mem_eq.trans mem⟩
  · have value : xs.foldl (fun t x => t + x.2.2 * 2 ^ (8 * x.1 * x.2.1)) 0 = (xs.map fun l => l.2.2 * 2 ^ (8 * l.1 * l.2.1)).sum := by
      rw [List.sum_eq_foldl, List.foldl_map]
    have mask : xs.foldl (fun t x => t + laneMask x.1 x.2.1) 0 = (xs.map fun l => (2 ^ l.2.1 - 1) * 2 ^ (l.1 * l.2.1)).sum := by
      rw [List.sum_eq_foldl, List.foldl_map]
      rfl
    rw [State.leavesV] at now
    rcases issue_cases issue with ⟨e, rfl⟩ | ⟨e, issued⟩
    · simp only [State.start_core, State.start_setCore, hp, ha, bind, Except.bind, chk, if_pos e, now, Bool.false_eq_true, reduceIte, load, value, mask, State.watch_core, put]
    · simp only [State.start_core, State.start_setCore, hp, ha, bind, Except.bind, chk, if_neg e, issued, now, Bool.false_eq_true, reduceIte, load, value, mask, State.watch_core, put]
  · rw [State.core_setCore_same, Core.putV_txq put, off3.txq_eq, o.1]

/-- The load is left outstanding (R130). -/
theorem loadVector_left (left : s2.leavesV s.cur inv d ls (ps.flatMap fun p => latePartsOf (p.1.i * p.1.n) p.2) = true) :
    loadVector i inv d addr s = .next (s.doneIn (s2.leave s.cur (.v d.toNat (ls.map fun l => (2 ^ l.n - 1) * 2 ^ (l.i * l.n)).sum z) false
      (ps.flatMap fun p => latePartsOf (p.1.i * p.1.n) p.2)) i) := by
  obtain ⟨off, -⟩ := loadVector_offRegs chk issue
  have core (dst : LoadDst) (parts : List LoadPart) : c.OffRegs ((s2.leave s.cur dst false parts).core s.cur) := by
    rw [State.leave, State.core_modCore_same]
    exact off.trans rfl
  refine runSeq_ok h ?_ ((core _ _).txq_eq.trans o.1) ((core _ _).outq_eq.trans o.2.1)
  rw [State.leavesV] at left
  rcases issue_cases issue with ⟨e, rfl⟩ | ⟨e, issued⟩
  · simp only [State.start_core, State.start_setCore, hp, ha, bind, Except.bind, chk, if_pos e, left, reduceIte, lanesMask_eq]
  · simp only [State.start_core, State.start_setCore, hp, ha, bind, Except.bind, chk, if_neg e, issued, left, reduceIte, lanesMask_eq]
end

/-! ### The addresses of the lanes (R106 to R108) -/

/-- A base address and its displacement. -/
theorem base_word (x : Word) (p : MemOp) : x + wordOfInt p.disp.toInt = BitVec.ofInt 64 (x.toNat + p.disp.toInt) := by
  rw [BitVec.ofInt_add, BitVec.ofInt_natCast, BitVec.ofNat_toNat, BitVec.setWidth_eq]
  rfl

/-- A scaled word, taken with its sign. -/
theorem shift_word (y : Word) (n : Nat) : y <<< n = BitVec.ofInt 64 (y.toInt * 2 ^ n) := by
  have power : (2 : Int) ^ n = ((2 ^ n : Nat) : Int) := by push_cast; rfl
  rw [BitVec.ofInt_mul, BitVec.ofInt_toInt, power, BitVec.ofInt_natCast]
  refine BitVec.eq_of_toNat_eq ?_
  rw [BitVec.toNat_shiftLeft, BitVec.toNat_mul, BitVec.toNat_ofNat, Nat.shiftLeft_eq, Nat.mul_mod_mod]

section
variable {f : Fmt} {p : MemOp} {m : Nat} {c c1 c2 : Core} {x y : Word} {ix : Vec} (hx : c.readS p.a = .ok (x, c1))
include hx

theorem addrDense_ok (hy : c1.readS p.b = .ok (y, c2)) :
    addrDense f p m c = .ok (lanesDense f.width m (BitVec.ofInt 64 (x.toNat + y.toNat * 2 ^ p.scale.toNat + p.disp.toInt)), c2) := by
  simp only [addrDense, Core.ea_eq, Claims.eaLong, bind, Except.bind, hx, hy]

theorem addrStrided_ok (hy : c1.readS p.b = .ok (y, c2)) :
    addrStrided f p m c = .ok (lanesStrided f.width m (BitVec.ofInt 64 (x.toNat + p.disp.toInt)) (BitVec.ofInt 64 (y.toInt * 2 ^ p.scale.toNat)), c2) := by
  simp only [addrStrided, bind, Except.bind, hx, hy, base_word, shift_word]

theorem addrIndexed_ok (hv : c1.readV p.b = .ok (ix, c2)) :
    addrIndexed f p m c = .ok (lanesIndexed f.width m (BitVec.ofInt 64 (x.toNat + p.disp.toInt)) ix p.scale.toNat, c2) := by
  simp only [addrIndexed, bind, Except.bind, hx, hv, base_word]
end

end Sys2Proof.Machine
end

section
namespace Sys2Proof.Machine
open Sys2Proof

/-! ### The lanes of a vector access (R106 to R108) -/

theorem mem_lanes {l : LaneAt} {k n : Nat} {p : Nat → Bool} {va : Nat → Word} {mis : Nat → Bool} :
    l ∈ ((List.range k).filter p).map (fun i => (⟨i, va i, n, mis i⟩ : LaneAt)) ↔ l.i < k ∧ p l.i = true ∧ l.va = va l.i ∧ l.n = n ∧ l.mis = mis l.i := by
  obtain ⟨i, a, b, c⟩ := l
  simp only [List.mem_map, List.mem_filter, List.mem_range, LaneAt.mk.injEq]
  constructor
  · rintro ⟨j, ⟨hj, hp⟩, rfl, rfl, rfl, rfl⟩
    exact ⟨hj, hp, rfl, rfl, rfl⟩
  · rintro ⟨hj, hp, rfl, rfl, rfl⟩
    exact ⟨i, ⟨hj, hp⟩, rfl, rfl, rfl, rfl⟩

theorem bne_zero_eq (n : Nat) : (n != 0) = decide (n ≠ 0) := by
  by_cases h : n = 0 <;> simp [h]

theorem mem_lanesDense {w m : Nat} {ea : Word} {l : LaneAt} : l ∈ lanesDense w m ea ↔
    l.i < 64 / max 1 (w / 8) ∧ m.testBit (l.i * max 1 (w / 8)) = true ∧ l.va = ea + BitVec.ofNat 64 (l.i * max 1 (w / 8)) ∧ l.n = max 1 (w / 8) ∧
      l.mis = decide (ea.toNat % 4 ≠ 0) := by
  rw [lanesDense, mem_lanes, bit_eq_testBit, bne_zero_eq]

/-- A lane of whole bytes begins at its first byte. -/
theorem lane_byte {w : Nat} (hw : w ∈ [8, 16, 32, 64]) (i : Nat) : max 1 (w / 8) = w / 8 ∧ i * w / 8 = i * (w / 8) ∧ 64 / (w / 8) = 512 / w := by
  have whole : 8 ∣ w := by fin_cases hw <;> decide
  refine ⟨?_, Nat.mul_div_assoc i whole, ?_⟩ <;> fin_cases hw <;> rfl

/-- Address arithmetic is that of the integers, modulo 2^64. -/
theorem word_add (x : Word) (y : Int) : x + BitVec.ofInt 64 y = BitVec.ofInt 64 (x.toNat + y) := by
  rw [BitVec.ofInt_add, BitVec.ofInt_natCast, BitVec.ofNat_toNat, BitVec.setWidth_eq]

theorem stride_word (i : Nat) (y : Word) : BitVec.ofNat 64 i * y = BitVec.ofInt 64 (i * y.toInt) := by
  rw [BitVec.ofInt_mul, BitVec.ofInt_toInt, BitVec.ofInt_natCast]

theorem mem_lanesStrided {w m : Nat} {base stride : Word} {l : LaneAt} : l ∈ lanesStrided w m base stride ↔
    l.i < 512 / w ∧ m.testBit (l.i * w / 8) = true ∧ l.va = BitVec.ofInt 64 (base.toNat + l.i * stride.toInt) ∧ l.n = w / 8 ∧
      l.mis = decide (l.va.toNat % min (w / 8) 4 ≠ 0) := by
  rw [lanesStrided, mem_lanes, active_eq_testBit, bne_zero_eq, stride_word, word_add]
  refine and_congr_right fun _ => and_congr_right fun _ => and_congr_right fun e => ?_
  simp only [e]

theorem index_word (x : Word) (y : Nat) (n : Nat) : x + wordOfInt (sext y 32 * 2 ^ n) = BitVec.ofInt 64 (x.toNat + Claims.ival 32 y * 2 ^ n) := by
  rw [← sext_eq_ival, ← word_add]
  rfl

theorem mem_lanesIndexed {w m : Nat} {base : Word} {v : Vec} {sc : Nat} {l : LaneAt} : l ∈ lanesIndexed w m base v sc ↔
    l.i < 512 / w ∧ m.testBit (l.i * w / 8) = true ∧ l.va = BitVec.ofInt 64 (base.toNat + Claims.ival 32 (lane v 32 l.i) * 2 ^ sc) ∧ l.n = w / 8 ∧
      l.mis = decide (l.va.toNat % min (w / 8) 4 ≠ 0) := by
  rw [lanesIndexed, mem_lanes, active_eq_testBit, bne_zero_eq, index_word]
  refine and_congr_right fun _ => and_congr_right fun _ => and_congr_right fun e => ?_
  simp only [e]

/-! ### What the loads of lanes return (R184) -/

/-- A lane of one part, and one of two words. -/
theorem State.loadLanes_values {s s' : State} {i : Nat} {inv : Bool} {l : LaneAt} {ps : List (Word × Nat × Nat)} {t : List (LaneAt × List (Word × Nat × Nat))}
    {xs : List (Nat × Nat × Nat)} (h : s.loadLanes i inv ((l, ps) :: t) = .ok (xs, s')) :
    ∃ (x : Nat) (r : List (Nat × Nat × Nat)) (s1 : State), xs = (l.i, l.n, x) :: r ∧ s1.loadLanes i inv t = .ok (r, s') ∧ s1.mem = s.mem ∧ s1.sbOf i = s.sbOf i ∧
      (∀ va k n, ps = [(va, k, n)] → x = Claims.little (fun j => s.loadByte i inv (k + j)) n) ∧
      (∀ va k va' k', ps = [(va, k, 4), (va', k', 4)] →
        let s0 := (s.fillLine i inv k).fillLine i inv (k + 3)
        x = Claims.little (fun j => s.loadByte i inv (k + j)) 4 + Claims.little (fun j => s0.loadByte i inv (k' + j)) 4 * 2 ^ 32) := by
  obtain ⟨x, r, s1, list, here, rest⟩ := State.loadLanes_cons h
  have aside := State.aside_loadParts here
  refine ⟨x, r, s1, list, rest, aside.mem_eq, aside.sbOf_eq, fun va k n one => ?_, fun va k va' k' two => ?_⟩
  · subst one
    obtain ⟨y, none_left, value⟩ := State.loadParts_cons here
    obtain ⟨rfl, -⟩ := Prod.mk.inj (Except.ok.inj none_left)
    rw [value, Nat.zero_mul, Nat.add_zero]
  · subst two
    obtain ⟨y, second, value⟩ := State.loadParts_cons here
    obtain ⟨z, none_left, value'⟩ := State.loadParts_cons second
    obtain ⟨rfl, -⟩ := Prod.mk.inj (Except.ok.inj none_left)
    have last : k + 4 - 1 = k + 3 := rfl
    dsimp only
    rw [value, value', Nat.zero_mul, Nat.add_zero, last]

/-- What one store of the buffer holds for a place. -/
theorem forwarded_none {f : Nat → Nat} {sb : List SbEntry} {a : Nat} (h : ∀ e ∈ sb, e.strm = none → ∀ p ∈ e.bytes, f p.1 ≠ f a) : forwarded f sb a = none := by
  rw [forwarded, firstSome_eq, List.findSome?_eq_none_iff]
  intro e he
  split
  · rfl
  next plain =>
    rw [Option.map_eq_none_iff, List.find?_eq_none]
    intro p hp
    simpa using h e (List.mem_reverse.1 he) (by simpa using plain) p (List.mem_reverse.1 hp)

/-- The latest store of the buffer that holds the place, and in it the last byte. -/
theorem forwarded_latest {f : Nat → Nat} {sb pre post : List SbEntry} {e : SbEntry} {u v : List (Nat × Byte)} {p : Nat × Byte} {a : Nat} (buffer : sb = pre ++ e :: post)
    (bytes : e.bytes = u ++ p :: v) (plain : e.strm = none) (place : f p.1 = f a) (last : ∀ q ∈ v, f q.1 ≠ f a)
    (latest : ∀ x ∈ post, x.strm = none → ∀ q ∈ x.bytes, f q.1 ≠ f a) : forwarded f sb a = some p.2 := by
  have later := forwarded_none latest
  have found : e.bytes.reverse.find? (fun q => f q.1 = f a) = some p := find?_reverse_eq_some bytes (by simpa using place) fun q hq => by simpa using last q hq
  rw [forwarded, firstSome_eq] at later ⊢
  rw [buffer, List.reverse_append, List.reverse_cons, List.append_assoc, List.findSome?_append, later]
  simp [plain, found]

section
variable {s : State} {i a : Nat} {inv : Bool}

theorem State.loadByte_latest {pre post : List SbEntry} {e : SbEntry} {u v : List (Nat × Byte)} {p : Nat × Byte} (buffer : s.sbOf i = pre ++ e :: post)
    (bytes : e.bytes = u ++ p :: v) (plain : e.strm = none) (place : s.onePlace p.1 = s.onePlace a) (last : ∀ q ∈ v, s.onePlace q.1 ≠ s.onePlace a)
    (latest : ∀ x ∈ post, x.strm = none → ∀ q ∈ x.bytes, s.onePlace q.1 ≠ s.onePlace a) : s.loadByte i inv a = p.2 := by
  rw [State.loadByte_eq, forwarded_latest buffer bytes plain place last latest]

variable (h : ∀ e ∈ s.sbOf i, e.strm = none → ∀ p ∈ e.bytes, s.onePlace p.1 ≠ s.onePlace a)
include h

theorem State.loadByte_copy {l : L1Line} (copy : (s.core i).copyOf inv a = some l) : s.loadByte i inv a = l.data.getD (a % 64) 0 := by
  simp only [State.loadByte_eq, forwarded_none h, copy]

theorem State.loadByte_home (data : ∀ l ∈ (s.core i).l1d, l.la ≠ a / 64 * 64) (kept : inv = true → ∀ l ∈ (s.core i).l1i, l.la ≠ a / 64 * 64) :
    s.loadByte i inv a = s.byte a := by
  have no_data : (s.core i).l1d.find? (fun l => l.la == a / 64 * 64) = none := List.find?_eq_none.2 fun l hl => by simpa using data l hl
  have no_kept : (if inv then (s.core i).l1i.find? (fun l => l.la == a / 64 * 64) else none) = none := by
    split
    next e => exact List.find?_eq_none.2 fun l hl => by simpa using kept e l hl
    next => rfl
  simp only [State.loadByte_eq, forwarded_none h, Core.copyOf, no_data, no_kept]
end

end Sys2Proof.Machine
end

section
namespace Sys2Proof.Machine
open Sys2Proof

/-! ### The bytes that a vector store writes (R106 to R108) -/

theorem at_eq_map (k n x : Nat) : at_ k n x = (List.range n).map fun j => (k + j, BitVec.ofNat 8 (x / 2 ^ (8 * j))) := by
  refine List.ext_getElem (by simp) fun j hj _ => ?_
  rw [length_at] at hj
  obtain ⟨u, v, split, -⟩ := at_split (k := k) (x := x) hj
  have len : u.length = j := by
    obtain ⟨h, key⟩ : ∃ h : u.length < (at_ k n x).length, (at_ k n x)[u.length].1 = k + j := ⟨by rw [split]; simp, by simp [split]⟩
    have place : (at_ k n x)[u.length].1 = k + u.length := by simp [at_]
    omega
  rw [List.getElem_map, List.getElem_range]
  simp [split, ← len]

/-- A byte of a lane is that byte of the register. -/
theorem bits_byte (x : Nat) {i n j : Nat} (h : j < n) :
    BitVec.ofNat 8 (bits x (8 * (i + 1) * n - 1) (8 * i * n) / 2 ^ (8 * j)) = BitVec.ofNat 8 (x / 2 ^ (8 * (i * n + j))) := by
  have pos : 8 * (i + 1) * n = 8 * i * n + 8 * n := by ring
  have width : 8 * (i + 1) * n - 1 + 1 - 8 * i * n = 8 * n := by omega
  have place : 8 * i * n + 8 * j = 8 * (i * n + j) := by ring
  refine BitVec.eq_of_getLsbD_eq fun b hb => ?_
  rw [BitVec.getLsbD_ofNat, BitVec.getLsbD_ofNat, bits, width, ← Nat.shiftRight_eq_div_pow, ← Nat.shiftRight_eq_div_pow, Nat.testBit_shiftRight, Nat.testBit_shiftRight,
    Nat.testBit_mod_two_pow, Nat.testBit_shiftRight, decide_eq_true (show 8 * j + b < 8 * n by omega), Bool.true_and, ← Nat.add_assoc, place]

section
variable {s s' : State} {i : Nat} {acc : Access}

/-- Every lane that passes R103 has the parts of its bytes. -/
theorem State.checkLanes_parts {ls : List LaneAt} {ps : List (LaneAt × List (Word × Nat × Nat))} (h : s.checkLanes i acc ls = .ok (ps, s')) :
    ∀ p ∈ ps, p.2.map (fun q => (q.1, q.2.2)) = partsOf p.1.va p.1.n := by
  induction ls generalizing s ps with
  | nil =>
    obtain ⟨rfl, -⟩ := Prod.mk.inj (Except.ok.inj h)
    exact fun p hp => absurd hp List.not_mem_nil
  | cons l t ih =>
    rw [State.checkLanes] at h
    obtain ⟨r, here, h⟩ := bind_eq_ok.1 h
    obtain ⟨r', rest, h⟩ := bind_eq_ok.1 h
    obtain ⟨rfl, rfl⟩ := Prod.mk.inj (Except.ok.inj h)
    intro p hp
    rcases List.mem_cons.1 hp with rfl | hp
    · exact (State.checkBytes_passed here).2
    · exact ih rest p hp
end

/-- The parts of a lane: one, or two words. -/
theorem parts_shape {q : List (Word × Nat × Nat)} {va : Word} {n : Nat} (h : q.map (fun w => (w.1, w.2.2)) = partsOf va n) :
    (∃ k, q = [(va, k, n)]) ∨ n = 8 ∧ ∃ va' k k', q = [(va, k, 4), (va', k', 4)] := by
  unfold partsOf at h
  split at h
  next two =>
    match q, h with
    | [(a, k, m), (a', k', m')], h =>
      simp only [List.map_cons, List.map_nil, List.cons.injEq, Prod.mk.injEq, and_true] at h
      obtain ⟨⟨rfl, rfl⟩, rfl, rfl⟩ := h
      exact .inr ⟨two.1, _, k, k', rfl⟩
  next =>
    match q, h with
    | [(a, k, m)], h =>
      simp only [List.map_cons, List.map_nil, List.cons.injEq, Prod.mk.injEq, and_true] at h
      obtain ⟨rfl, rfl⟩ := h
      exact .inl ⟨k, rfl⟩

/-- The store parts of a lane of a register. -/
def lanePieces (v : Vec) (l : LaneAt × List (Word × Nat × Nat)) : List (List (Nat × Byte) × Word) :=
  storeParts l.2 (bits v.toNat (8 * (l.1.i + 1) * l.1.n - 1) (8 * l.1.i * l.1.n))

theorem lanePieces_bytes (v : Vec) {l : LaneAt × List (Word × Nat × Nat)} (h : l.2.map (fun q => (q.1, q.2.2)) = partsOf l.1.va l.1.n) :
    (lanePieces v l).flatMap (·.1) = l.2.zipIdx.flatMap fun w => (List.range w.1.2.2).map fun j =>
      (w.1.2.1 + j, BitVec.ofNat 8 (v.toNat / 2 ^ (8 * (l.1.i * l.1.n + 4 * w.2 + j)))) := by
  obtain ⟨l, q⟩ := l
  dsimp only at h
  rcases parts_shape h with ⟨k, rfl⟩ | ⟨size, va', k, k', rfl⟩
  · simp only [lanePieces, storeParts, List.flatMap_cons, List.flatMap_nil, List.append_nil, at_eq_map, List.zipIdx_cons, List.zipIdx_nil, Nat.mul_zero, Nat.add_zero]
    refine List.map_congr_left fun j hj => ?_
    rw [bits_byte _ (List.mem_range.1 hj)]
  · have high (x j : Nat) : x / 2 ^ (8 * 4) / 2 ^ (8 * j) = x / 2 ^ (8 * (4 + j)) := by rw [Nat.div_div_eq_div_mul, ← pow_add, ← Nat.mul_add]
    simp only [lanePieces, storeParts, List.flatMap_cons, List.flatMap_nil, List.append_nil, at_eq_map, List.zipIdx_cons, List.zipIdx_nil, Nat.mul_zero, Nat.add_zero,
      high, Nat.zero_add, Nat.mul_one]
    congr 1
    · refine List.map_congr_left fun j hj => ?_
      rw [bits_byte _ (by have := List.mem_range.1 hj; omega)]
    · refine List.map_congr_left fun j hj => ?_
      rw [bits_byte _ (by have := List.mem_range.1 hj; omega), Nat.add_assoc]

/-- Together the store parts of the lanes hold the bytes of the lanes, in order. -/
theorem laneBytesOf_eq (v : Vec) {ps : List (LaneAt × List (Word × Nat × Nat))} (h : ∀ p ∈ ps, p.2.map (fun q => (q.1, q.2.2)) = partsOf p.1.va p.1.n) :
    (ps.flatMap (lanePieces v)).flatMap (·.1) = Claims.laneBytesOf v ps := by
  rw [List.flatMap_assoc, Claims.laneBytesOf]
  exact List.flatMap_congr fun p hp => lanePieces_bytes v (h p hp)

theorem storeParts_nodup {q : List (Word × Nat × Nat)} {x : Nat} : ∀ p ∈ storeParts q x, p.1.Pairwise fun a b => a.1 ≠ b.1 := by
  induction q generalizing x with
  | nil => exact fun p hp => absurd hp List.not_mem_nil
  | cons w t ih =>
    intro p hp
    rcases List.mem_cons.1 hp with rfl | hp
    · exact nodup_at ..
    · exact ih p hp

/-! ### Pieces: a byte keeps the last value that a lane gives it (R107, R108) -/

/-- The pieces hold byte b for the place a. -/
def Holds (l : List (List (Nat × Byte) × Word)) (a : Nat) (b : Byte) : Prop := ∃ e ∈ l, (a, b) ∈ e.1

section
variable {l : List (List (Nat × Byte) × Word)} {p : List (Nat × Byte) × Word} {a : Nat} {b : Byte}

theorem holds_cons : Holds (p :: l) a b ↔ (a, b) ∈ p.1 ∨ Holds l a b := by simp [Holds]

theorem holds_joinPiece : Holds (joinPiece p l) a b ↔ (a, b) ∈ p.1 ∨ Holds l a b := by
  induction l with
  | nil => rw [joinPiece, holds_cons]
  | cons q t ih =>
    rw [joinPiece]
    split
    · rw [holds_cons, holds_cons, List.mem_append, or_assoc]
      exact or_left_comm
    · rw [holds_cons, holds_cons, ih]
      exact or_left_comm

theorem holds_addPiece : Holds (addPiece l p) a b ↔ (a, b) ∈ p.1 ∨ Holds l a b ∧ ∀ c ∈ p.1, c.1 ≠ a := by
  rw [addPiece, holds_joinPiece]
  refine or_congr_right ⟨?_, ?_⟩
  · rintro ⟨e, he, hb⟩
    obtain ⟨q, hq, rfl⟩ := List.mem_map.1 (List.mem_filter.1 he).1
    obtain ⟨hb, away⟩ := List.mem_filter.1 hb
    exact ⟨⟨q, hq, hb⟩, by simpa using away⟩
  · rintro ⟨⟨q, hq, hb⟩, away⟩
    have kept : (a, b) ∈ q.1.filter fun b => !(p.1.any fun c => c.1 == b.1) := List.mem_filter.2 ⟨hb, by simpa using away⟩
    refine ⟨_, List.mem_filter.2 ⟨List.mem_map_of_mem hq, ?_⟩, kept⟩
    simpa using List.ne_nil_of_mem kept

/-- Where no place stands twice, the last byte of a place is its byte. -/
theorem mem_iff_last {q : List (Nat × Byte)} (h : q.Pairwise fun a b => a.1 ≠ b.1) : (a, b) ∈ q ↔ q.reverse.find? (fun c => c.1 = a) = some (a, b) := by
  constructor
  · intro mem
    obtain ⟨u, v, rfl⟩ := List.append_of_mem mem
    refine find?_reverse_eq_some rfl (by simp) fun c hc => ?_
    have after := (List.pairwise_cons.1 (List.pairwise_append.1 h).2.1).1 c hc
    simpa using after.symm
  · exact fun found => List.mem_reverse.1 (List.mem_of_find?_eq_some found)

/-- What the pieces of a list of store parts hold. -/
theorem holds_pieces {ps : List (List (Nat × Byte) × Word)} (h : ∀ p ∈ ps, p.1.Pairwise fun a b => a.1 ≠ b.1) (a : Nat) (b : Byte) :
    Holds (ps.foldl addPiece []) a b ↔ (ps.flatMap (·.1)).reverse.find? (fun c => c.1 = a) = some (a, b) := by
  induction ps using List.reverseRecOn with
  | nil => simp [Holds]
  | append_singleton ps p ih =>
    have ih := ih fun q hq => h q (List.mem_append_left _ hq)
    have last : (a, b) ∈ p.1 ↔ _ := mem_iff_last (h p (by simp))
    rw [List.foldl_append, List.foldl_cons, List.foldl_nil, holds_addPiece, ih, last, List.flatMap_append, List.flatMap_singleton, List.reverse_append, List.find?_append]
    cases found : p.1.reverse.find? fun c => c.1 = a with
    | none =>
      have away : ∀ c ∈ p.1, c.1 ≠ a := by simpa using found
      exact ⟨fun held => held.elim (fun e => nomatch e) (·.1), fun e => .inr ⟨e, away⟩⟩
    | some c =>
      have here : c ∈ p.1 := List.mem_reverse.1 (List.mem_of_find?_eq_some found)
      have same : c.1 = a := by simpa using List.find?_some found
      have not_away : ¬∀ c ∈ p.1, c.1 ≠ a := fun away => away c here same
      exact ⟨fun held => held.elim id (absurd ·.2 not_away), .inl⟩
end

end Sys2Proof.Machine
end

section
namespace Sys2Proof.Machine
open Sys2Proof

/-! ### Vector loads and stores as instructions (R106 to R109) -/

/-- A vector store whose lanes pass R103 has put its bytes into the core's store buffer. -/
structure StoredV (s s1 u : State) (bytes : List (Nat × Byte)) (es : List SbEntry) : Prop where
  core : u.core s.cur = { s1.core s.cur with sb := (s1.core s.cur).sb ++ es }
  elsewhere : Claims.Elsewhere s u s.cur
  holds (a : Nat) (b : Byte) : (∃ e ∈ es, (a, b) ∈ e.bytes) ↔ bytes.reverse.find? (fun p => p.1 = a) = some (a, b)

section
variable {s s1 : State} {v : Vec} {ps : List (LaneAt × List (Word × Nat × Nat))}
  (shape : ∀ p ∈ ps, p.2.map (fun q => (q.1, q.2.2)) = partsOf p.1.va p.1.n) (away : Claims.Elsewhere s s1 s.cur)
include shape away

/-- A store of no part leaves the buffer as it is. -/
theorem storedV_none (e : ps.flatMap (lanePieces v) = []) : StoredV s s1 s1 (Claims.laneBytesOf v ps) [] where
  core := by rw [List.append_nil]
  elsewhere := away
  holds a b := by simp [← laneBytesOf_eq v shape, e]

/-- The pieces join the buffer as the store issues. -/
theorem storedV_issue (room : (s1.core s.cur).stores < 64) (first : ∀ p ∈ Claims.laneBytesOf v ps, s1.awaits s.cur p.1 1 = false) :
    ∃ u es, s1.issueStore s.cur false ((ps.flatMap (lanePieces v)).foldl addPiece []) = .ok u ∧ StoredV s s1 u (Claims.laneBytesOf v ps) es := by
  have distinct : ∀ p ∈ ps.flatMap (lanePieces v), p.1.Pairwise fun a b => a.1 ≠ b.1 := by
    intro p hp
    obtain ⟨l, -, hl⟩ := List.mem_flatMap.1 hp
    exact storeParts_nodup p hl
  have holds := holds_pieces distinct
  rw [laneBytesOf_eq v shape] at holds
  have first' : ∀ p ∈ ((ps.flatMap (lanePieces v)).foldl addPiece []).flatMap (·.1), s1.awaits s.cur p.1 1 = false := by
    intro p hp
    obtain ⟨e, he, hp⟩ := List.mem_flatMap.1 hp
    exact first p (List.mem_reverse.1 (List.mem_of_find?_eq_some ((holds p.1 p.2).1 ⟨e, he, hp⟩)))
  obtain ⟨es, issue, bytes, -⟩ := State.issueStore_eq (strong := false) room first'
  refine ⟨_, es, issue, State.core_setCore_same _ _ _, Elsewhere.setCore (Elsewhere.tick away) _, fun a b => ?_⟩
  rw [← holds, ← bytes]
  simp [Holds]
end

/-- A vector store whose lanes pass R103 (R106 to R108). -/
theorem storeVector_ok {s : State} {i : Instr} (h : s.Legal i) {d : Reg} {addr : Nat → Core → M (List LaneAt × Core)} {m : Nat} {z : Bool} {ls : List LaneAt}
    {v : Vec} {c2 c3 : Core} {ps : List (LaneAt × List (Word × Nat × Nat))} {s1 : State} (hp : s.me.pred = .ok (m, z)) (ha : addr m s.me = .ok (ls, c2))
    (hv : c2.readV d = .ok (v, c3)) (o : s.Ready c3) (chk : (s.setCore s.cur c3).checkLanes s.cur .store ls = .ok (ps, s1))
    (room : (s1.core s.cur).stores < 64) (first : ∀ p ∈ Claims.laneBytesOf v ps, s1.awaits s.cur p.1 1 = false) :
    ∃ u es, storeVector i d addr s = .next (s.doneIn u i) ∧ StoredV s s1 u (Claims.laneBytesOf v ps) es := by
  have shape := State.checkLanes_parts chk
  have aside := State.aside_checkLanes chk
  have off := aside.offRegs
  rw [State.core_setCore_same] at off
  have away : Claims.Elsewhere s s1 s.cur := Elsewhere.aside (Elsewhere.setCore (Elsewhere.refl s s.cur) c3) aside
  have ends {u : State} {es : List SbEntry} (stored : StoredV s s1 u (Claims.laneBytesOf v ps) es) : (u.core s.cur).txq = [] ∧ (u.core s.cur).outq = [] := by
    rw [stored.core]
    exact ⟨off.txq_eq.trans o.1, off.outq_eq.trans o.2.1⟩
  by_cases e : (ps.flatMap (lanePieces v)).isEmpty = true
  · have stored := storedV_none shape away (List.isEmpty_iff.1 e)
    obtain ⟨tx, out⟩ := ends stored
    refine ⟨s1, [], runSeq_ok h ?_ tx out, stored⟩
    simp only [State.start_core, State.start_setCore, hp, ha, hv, bind, Except.bind, chk]
    exact if_pos e
  · obtain ⟨u, es, issue, stored⟩ := storedV_issue shape away room first
    obtain ⟨tx, out⟩ := ends stored
    refine ⟨u, es, runSeq_ok h ?_ tx out, stored⟩
    simp only [State.start_core, State.start_setCore, hp, ha, hv, bind, Except.bind, chk]
    exact (if_neg e).trans issue

section
variable {s : State} {f : Fmt} {d : Reg} {p : MemOp} {m : Nat} {x y : Word} {ix : Vec} {c1 c2 : Core} {ls : List LaneAt} {i : Instr} (hx : s.me.readS p.a = .ok (x, c1))

/-- The lanes of the three address forms (R106 to R108). -/
def LanesOf (f : Fmt) (p : MemOp) (m : Nat) (x y : Word) (ix : Vec) (c1 c2 : Core) (ls : List LaneAt) (dense strided indexed : Prop) : Prop :=
  dense ∧ c1.readS p.b = .ok (y, c2) ∧ ls = lanesDense f.width m (BitVec.ofInt 64 (x.toNat + y.toNat * 2 ^ p.scale.toNat + p.disp.toInt)) ∨
  strided ∧ c1.readS p.b = .ok (y, c2) ∧ ls = lanesStrided f.width m (BitVec.ofInt 64 (x.toNat + p.disp.toInt)) (BitVec.ofInt 64 (y.toInt * 2 ^ p.scale.toNat)) ∨
  indexed ∧ c1.readV p.b = .ok (ix, c2) ∧ ls = lanesIndexed f.width m (BitVec.ofInt 64 (x.toNat + p.disp.toInt)) ix p.scale.toNat

include hx

/-- A vector load runs loadVector at the addresses of its form. -/
theorem exec_loadV (form : LanesOf f p m x y ix c1 c2 ls (i = .vld f d p ∨ i = .vldi f d p) (i = .vlds f d p) (i = .vgath f d p)) :
    s.Ready c2 ∧ ∃ addr, addr m s.me = .ok (ls, c2) ∧ exec i s = loadVector i (Claims.invariant i) d addr s := by
  have o := s.me_ready.readS hx
  rcases form with ⟨op, hy, rfl⟩ | ⟨rfl, hy, rfl⟩ | ⟨rfl, hv, rfl⟩
  · refine ⟨o.readS hy, addrDense f p, addrDense_ok hx hy, ?_⟩
    rcases op with rfl | rfl <;> rfl
  · exact ⟨o.readS hy, addrStrided f p, addrStrided_ok hx hy, rfl⟩
  · exact ⟨o.readV hv, addrIndexed f p, addrIndexed_ok hx hv, rfl⟩

/-- A vector store runs storeVector at the addresses of its form. -/
theorem exec_storeV (form : LanesOf f p m x y ix c1 c2 ls (i = .vst f d p) (i = .vsts f d p) (i = .vscat f d p)) :
    s.Ready c2 ∧ ∃ addr, addr m s.me = .ok (ls, c2) ∧ exec i s = storeVector i d addr s := by
  have o := s.me_ready.readS hx
  rcases form with ⟨rfl, hy, rfl⟩ | ⟨rfl, hy, rfl⟩ | ⟨rfl, hv, rfl⟩
  · exact ⟨o.readS hy, addrDense f p, addrDense_ok hx hy, rfl⟩
  · exact ⟨o.readS hy, addrStrided f p, addrStrided_ok hx hy, rfl⟩
  · exact ⟨o.readV hv, addrIndexed f p, addrIndexed_ok hx hv, rfl⟩
end

/-- Settles O26: the lanes of the three address forms, their loads at once or left outstanding, and their stores piece by piece. -/
theorem vectorMemoryResult : Obligations.VectorMemoryResult := by
  refine ⟨⟨?_, ?_⟩, ⟨?_, ?_, ?_, ?_⟩, ?_, ?_⟩
  · intro s i f d p m z x y ix c1 c2 ls h hp hx form ps s1 s2 chk issue parts left
    obtain ⟨o, addr, ha, run⟩ := exec_loadV hx form
    rw [run]
    refine ⟨fun now xs s3 c3 load put => ?_, fun left => loadVector_left h hp ha o chk issue (State.leavesV_iff.2 left)⟩
    exact loadVector_now h hp ha o chk issue (Bool.eq_false_iff.2 fun e => now (State.leavesV_iff.1 e)) load put
  · intro s i f d p m z x y ix v c1 c2 c3 ls h hp hx form hv ps s1 chk room first
    obtain ⟨o, addr, ha, run⟩ := exec_storeV hx form
    obtain ⟨u, es, e, ⟨core, away, holds⟩⟩ := storeVector_ok h hp ha hv (o.readV hv) chk room first
    have end_core : (s.doneIn u i).core s.cur = ({ u.core s.cur with txq := [] } : Core).advance i.len := State.doneIn_core ..
    refine ⟨s.doneIn u i, run.trans e, away.2.1, ⟨es, ?_, holds⟩, ?_, Elsewhere.doneIn away i⟩
    · rw [end_core, Core.advance_sb, core]
    · rw [end_core, core]
      exact regsBut_advance ((Core.offRegs_sb _ _).regsBut 0) _
  · intro w hw m ea l
    obtain ⟨size, place, count⟩ := lane_byte hw l.i
    rw [mem_lanesDense, size, place, count]
  · intro m ea l
    simpa using mem_lanesDense (w := 4) (m := m) (ea := ea) (l := l)
  · exact fun _ _ _ _ _ _ => mem_lanesStrided
  · intro w hw m base v sc l
    have word : min (w / 8) 4 = 4 := by fin_cases hw <;> rfl
    rw [mem_lanesIndexed, word]
  · exact fun s s' i inv l ps t xs => State.loadLanes_values
  · intro s i a inv
    refine ⟨fun h => ⟨State.loadByte_home h, fun l => State.loadByte_copy h⟩, fun pre e post u p v buffer bytes plain place last latest => ?_⟩
    exact State.loadByte_latest buffer bytes plain place last latest

end Sys2Proof.Machine
end

section
namespace Sys2Proof.Machine
open Sys2Proof

/-! ### Rounding on a grid: which of two neighbours a mode takes (R72, R75) -/

/-- The mode takes the upper neighbour of (z + t) steps, where t lies strictly between 0 and 1. -/
def TakesUpper (rm : RMode) (g : Nat) (z : ℤ) (t : ℚ) : Prop :=
  match rm with
  | .rne => 1 / 2 < t ∨ t = 1 / 2 ∧ z % 2 = 1
  | .rtz => (z : ℚ) + t < 0
  | .rdn => False
  | .rup => True
  | .rna => 1 / 2 < t ∨ t = 1 / 2 ∧ 0 < (z : ℚ) + t
  | .sr => (g : ℚ) < t * 2 ^ 32

section
variable {s t : ℚ} (z : ℤ)

/-- A number strictly between two steps is not 0. -/
theorem between_ne_zero (h0 : 0 < t) (h1 : t < 1) : (z : ℚ) + t ≠ 0 := by
  intro e
  have lo : (z : ℚ) < 0 := by linarith
  have hi : ((-1 : ℤ) : ℚ) < z := by push_cast; linarith
  have lo' : z < 0 := by exact_mod_cast lo
  have hi' : -1 < z := by exact_mod_cast hi
  omega

variable (hs : 0 < s)
include hs

theorem lower_closer : ((z : ℚ) + t) * s - z * s < (z + 1) * s - (z + t) * s ↔ t < 1 / 2 := by
  constructor <;> intro h <;> nlinarith

theorem upper_closer : ((z : ℚ) + 1) * s - (z + t) * s < (z + t) * s - z * s ↔ 1 / 2 < t := by
  constructor <;> intro h <;> nlinarith

/-- The lower neighbour has an even last fraction bit where it is an even number of steps. -/
theorem even_steps : ((z : ℚ) * s / ((z + 1) * s - z * s)).num % 2 = z % 2 := by
  have step : ((z : ℚ) + 1) * s - z * s = s := by ring
  rw [step, mul_div_cancel_right₀ _ hs.ne', Rat.num_intCast]

theorem chosen_upper {rm : RMode} {g : Nat} (h : TakesUpper rm g z t) : Claims.chosen rm g (z * s) ((z + t) * s) ((z + 1) * s) = (z + 1) * s := by
  have pos : 0 < ((z : ℚ) + t) * s ↔ 0 < (z : ℚ) + t := mul_pos_iff_of_pos_right hs
  cases rm with
  | rne =>
    simp only [Claims.chosen, lower_closer z hs, upper_closer z hs, even_steps z hs]
    rcases h with h | ⟨h, odd⟩
    · rw [if_neg (by linarith), if_pos h]
    · rw [if_neg (by linarith), if_neg (by linarith), odd]
      rfl
  | rtz => exact if_neg fun p => lt_asymm h (pos.1 p)
  | rdn => exact h.elim
  | rup => rfl
  | rna =>
    simp only [Claims.chosen, lower_closer z hs, upper_closer z hs, pos]
    rcases h with h | ⟨h, p⟩
    · rw [if_neg (by linarith), if_pos h]
    · rw [if_neg (by linarith), if_neg (by linarith), if_pos p]
  | sr =>
    refine if_pos ?_
    have h : (g : ℚ) < t * 2 ^ 32 := h
    nlinarith

theorem chosen_lower (h0 : 0 < t) (h1 : t < 1) {rm : RMode} {g : Nat} (h : ¬TakesUpper rm g z t) : Claims.chosen rm g (z * s) ((z + t) * s) ((z + 1) * s) = z * s := by
  have pos : 0 < ((z : ℚ) + t) * s ↔ 0 < (z : ℚ) + t := mul_pos_iff_of_pos_right hs
  cases rm with
  | rne =>
    simp only [Claims.chosen, lower_closer z hs, upper_closer z hs, even_steps z hs]
    obtain ⟨hi, odd⟩ := not_or.1 h
    split
    · rfl
    next lo =>
      have even : z % 2 = 0 := by
        have tie : ¬(z % 2 = 1) := fun e => odd ⟨by linarith, e⟩
        omega
      rw [even]
      rfl
  | rtz => exact if_pos (pos.2 (lt_of_le_of_ne (not_lt.1 h) (between_ne_zero z h0 h1).symm))
  | rdn => rfl
  | rup => exact absurd trivial h
  | rna =>
    simp only [Claims.chosen, lower_closer z hs, upper_closer z hs, pos]
    obtain ⟨hi, tie⟩ := not_or.1 h
    split
    · rfl
    next lo => exact if_neg fun p => tie ⟨by linarith, p⟩
  | sr =>
    refine if_neg ?_
    have h : ¬(g : ℚ) < t * 2 ^ 32 := h
    nlinarith
end

/-! ### The quanta below a magnitude (R72) -/

/-- The magnitude of an exact real. -/
def Real'.size (x : Real') : ℚ := (x.n : ℚ) * 2 ^ x.e

section
variable {rm : RMode} {g k r H : Nat}

/-- A remainder against half a step. -/
theorem half_lt_iff (hH : 0 < H) : (1 : ℚ) / 2 < (r : ℚ) / (2 * H : Nat) ↔ H < r := by
  have pos : (0 : ℚ) < (2 * H : Nat) := by exact_mod_cast Nat.mul_pos two_pos hH
  rw [lt_div_iff₀ pos]
  push_cast
  rw [show (1 : ℚ) / 2 * (2 * H) = H by ring]
  exact_mod_cast Iff.rfl

theorem eq_half_iff (hH : 0 < H) : (r : ℚ) / (2 * H : Nat) = 1 / 2 ↔ r = H := by
  have pos : (0 : ℚ) < (2 * H : Nat) := by exact_mod_cast Nat.mul_pos two_pos hH
  rw [div_eq_iff pos.ne']
  push_cast
  rw [show (1 : ℚ) / 2 * (2 * H) = H by ring]
  exact_mod_cast Iff.rfl

/-- What is left up to the next step. -/
theorem rest_div (hH : 0 < H) (hr : r ≤ 2 * H) : 1 - (r : ℚ) / (2 * H : Nat) = ((2 * H - r : Nat) : ℚ) / (2 * H : Nat) := by
  have pos : ((2 * H : Nat) : ℚ) ≠ 0 := by exact_mod_cast (Nat.mul_pos two_pos hH).ne'
  rw [Nat.cast_sub hr, sub_div, div_self pos]

theorem part_pos (hH : 0 < H) (hr : 0 < r) : (0 : ℚ) < (r : ℚ) / (2 * H : Nat) :=
  div_pos (by exact_mod_cast hr) (by exact_mod_cast Nat.mul_pos two_pos hH)

theorem part_lt_one (hH : 0 < H) (hr : r < 2 * H) : (r : ℚ) / (2 * H : Nat) < 1 := by
  rw [div_lt_one (by exact_mod_cast Nat.mul_pos two_pos hH)]
  exact_mod_cast hr

/-- Steps above 0, and steps below it. -/
theorem above_zero (k : Nat) {t : ℚ} (h : 0 < t) : 0 < (((k : Nat) : ℤ) : ℚ) + t := by
  have nonneg : (0 : ℚ) ≤ ((k : ℤ) : ℚ) := by exact_mod_cast Nat.zero_le k
  linarith

theorem below_zero (k : Nat) {t : ℚ} (h : t < 1) : ((-((k : Nat) : ℤ) - 1 : ℤ) : ℚ) + t < 0 := by
  have nonneg : (0 : ℚ) ≤ ((k : ℤ) : ℚ) := by exact_mod_cast Nat.zero_le k
  push_cast at nonneg ⊢
  linarith

theorem draw_lt_iff (hH : 0 < H) : (g : ℚ) < (r : ℚ) / (2 * H : Nat) * 2 ^ 32 ↔ g * (2 * H) < r * 2 ^ 32 := by
  have pos : (0 : ℚ) < (2 * H : Nat) := by exact_mod_cast Nat.mul_pos two_pos hH
  rw [div_mul_eq_mul_div, lt_div_iff₀ pos]
  exact_mod_cast Iff.rfl
end

section
variable {rm : RMode} {g : Nat} {x : Real'} {q : ℤ} (exact : x.sticky = false)
include exact

theorem quantum_fine (h : q ≤ x.e) : quantum rm g x q = (x.n * 2 ^ (x.e - q).toNat, false, false) := by
  simp [quantum, h, exact]

/-- Between grid steps: the count below, and what is left of it. -/
theorem quantum_coarse (h : x.e < q) : ∃ H : Nat, 0 < H ∧ (2 : ℚ) ^ q = (2 * H : Nat) * 2 ^ x.e ∧
    (quantum rm g x q).1 = x.n / (2 * H) ∧ (quantum rm g x q).2.1 = decide (x.n % (2 * H) ≠ 0) ∧
    (x.n % (2 * H) = 0 → (quantum rm g x q).2.2 = false) ∧
    (x.n % (2 * H) ≠ 0 → ((quantum rm g x q).2.2 = true ↔
      if x.neg then ¬TakesUpper rm g (-(x.n / (2 * H) : Nat) - 1) (1 - (x.n % (2 * H) : Nat) / (2 * H : Nat))
      else TakesUpper rm g (x.n / (2 * H) : Nat) ((x.n % (2 * H) : Nat) / (2 * H : Nat)))) := by
  have split : (2 : Nat) ^ (q - x.e).toNat = 2 * 2 ^ ((q - x.e).toNat - 1) := by
    rw [← Nat.pow_succ']
    congr 1
    omega
  generalize hH : 2 ^ ((q - x.e).toNat - 1) = H at split
  have pos : 0 < H := hH ▸ Nat.two_pow_pos _
  have not_fine : ¬q ≤ x.e := not_le.2 h
  refine ⟨H, pos, ?_, ?_, ?_, ?_, ?_⟩
  · rw [← split]
    push_cast
    rw [← zpow_natCast, Int.toNat_of_nonneg (by omega), ← zpow_add₀ two_ne_zero]
    congr 1
    omega
  · simp [quantum, not_fine, split]
  · simp [quantum, not_fine, split, exact]
  · intro none_left
    have half_ne : (0 : Nat) ≠ H := by omega
    cases rm <;> simp [quantum, not_fine, split, hH, exact, none_left, half_ne]
  · intro left
    have below : x.n % (2 * H) < 2 * H := Nat.mod_lt _ (by omega)
    simp only [quantum, if_neg not_fine, split, hH, exact]
    rw [rest_div pos below.le]
    generalize x.n % (2 * H) = r at left below
    generalize x.n / (2 * H) = k
    have up := above_zero k (part_pos pos (Nat.pos_of_ne_zero left))
    have down := below_zero k (part_lt_one (r := 2 * H - r) pos (by omega))
    cases rm with
    | rne =>
      simp only [TakesUpper, half_lt_iff pos, eq_half_iff pos]
      cases x.neg <;> simp <;> omega
    | rtz => cases x.neg <;> simp only [TakesUpper, up.not_gt, down] <;> simp
    | rdn => cases x.neg <;> simp [TakesUpper, left]
    | rup => cases x.neg <;> simp [TakesUpper, left]
    | rna =>
      simp only [TakesUpper, half_lt_iff pos, eq_half_iff pos]
      cases x.neg <;> simp only [up, down.not_gt] <;> simp
      omega
    | sr =>
      simp only [TakesUpper, draw_lt_iff pos]
      cases x.neg <;> simp [left]
end

end Sys2Proof.Machine
end

section
namespace Sys2Proof.Machine
open Sys2Proof

/-! ### The count of quanta that a mode delivers (R72, R75) -/

/-- A magnitude as k quanta and a part t of one more, and whether the mode takes that one more. -/
structure Quanta (rm : RMode) (g : Nat) (x : Real') (q : ℤ) (k : Nat) (inexact up : Bool) (t : ℚ) : Prop where
  nonneg : 0 ≤ t
  lt_one : t < 1
  size : x.size = (k + t) * 2 ^ q
  inexact_iff : inexact = true ↔ t ≠ 0
  exact : t = 0 → up = false
  takes : t ≠ 0 → (up = true ↔ if x.neg then ¬TakesUpper rm g (-(k : ℤ) - 1) (1 - t) else TakesUpper rm g k t)

theorem quantum_quanta (rm : RMode) (g : Nat) {x : Real'} (q : ℤ) (exact : x.sticky = false) :
    ∃ t, Quanta rm g x q (quantum rm g x q).1 (quantum rm g x q).2.1 (quantum rm g x q).2.2 t := by
  rcases le_or_gt q x.e with fine | coarse
  · rw [quantum_fine exact fine]
    refine ⟨0, le_rfl, one_pos, ?_, by simp, fun _ => rfl, fun h => absurd rfl h⟩
    have grid := mul_zpow_grid x.n fine
    push_cast at grid ⊢
    rw [add_zero, grid, Real'.size]
  · obtain ⟨H, pos, step, count, inexact, none_left, left⟩ := quantum_coarse (rm := rm) (g := g) exact coarse
    have wide : ((2 * H : Nat) : ℚ) ≠ 0 := by exact_mod_cast (Nat.mul_pos two_pos pos).ne'
    have zero_iff : ((x.n % (2 * H) : Nat) : ℚ) / (2 * H : Nat) = 0 ↔ x.n % (2 * H) = 0 := by rw [div_eq_zero_iff, or_iff_left wide, Nat.cast_eq_zero]
    refine ⟨(x.n % (2 * H) : Nat) / (2 * H : Nat), by positivity, part_lt_one pos (Nat.mod_lt _ (by omega)), ?_, ?_, ?_, ?_⟩
    · have whole : ((x.n / (2 * H) : Nat) : ℚ) * (2 * H : Nat) + (x.n % (2 * H) : Nat) = x.n := by exact_mod_cast Nat.div_add_mod' x.n (2 * H)
      rw [count, step, Real'.size, ← whole]
      field_simp
    · rw [inexact, decide_eq_true_iff, Ne, Ne, zero_iff]
    · rw [zero_iff]
      exact none_left
    · rw [Ne, zero_iff, count]
      exact left

theorem exactly_eq (x : Real') : Claims.exactly x = (if x.neg then -1 else 1) * x.size := by rw [Claims.exactly, Real'.size, mul_assoc]

theorem abs_exactly (x : Real') : |Claims.exactly x| = x.size := by
  have nonneg : 0 ≤ x.size := mul_nonneg (Nat.cast_nonneg _) (zpow_two_pos _).le
  rw [exactly_eq]
  split <;> simp [abs_of_nonneg nonneg]

/-- The steps below a number, counted with its sign. -/
def stepsBelow (neg : Bool) (k : Nat) : ℤ := if neg then -(k : ℤ) - 1 else k

section
variable {rm : RMode} {g : Nat} {x : Real'} {q : ℤ} {k : Nat} {inexact up : Bool} {t : ℚ} (h : Quanta rm g x q k inexact up t)
include h

/-- An exact number is so many quanta. -/
theorem Quanta.exactly_of_exact (e : inexact = false) : Claims.exactly x = (signed x.neg k : ℤ) * 2 ^ q := by
  have none_left : t = 0 := by simpa [e] using h.inexact_iff
  rw [exactly_eq, h.size, none_left, signed]
  split <;> push_cast <;> ring

theorem Quanta.up_of_exact (e : inexact = false) : up = false := h.exact (by simpa [e] using h.inexact_iff)

/-- An inexact number lies strictly between two steps, and the mode takes the one that `up` says. -/
theorem Quanta.between (e : inexact = true) :
    ((stepsBelow x.neg k : ℤ) : ℚ) * 2 ^ q < Claims.exactly x ∧ Claims.exactly x < (((stepsBelow x.neg k : ℤ) : ℚ) + 1) * 2 ^ q ∧
      Claims.chosen rm g ((stepsBelow x.neg k : ℤ) * 2 ^ q) (Claims.exactly x) ((((stepsBelow x.neg k : ℤ) : ℚ) + 1) * 2 ^ q) =
        ((signed x.neg (if up then k + 1 else k) : ℤ) : ℚ) * 2 ^ q := by
  have step := zpow_two_pos q
  have some_left := h.inexact_iff.1 e
  have pos : 0 < t := lt_of_le_of_ne h.nonneg some_left.symm
  have takes := h.takes some_left
  cases neg : x.neg with
  | false =>
    have value : Claims.exactly x = (((k : ℤ) : ℚ) + t) * 2 ^ q := by rw [exactly_eq, h.size, neg]; push_cast; simp
    simp only [neg, Bool.false_eq_true, if_false] at takes
    simp only [stepsBelow, signed, Bool.false_eq_true, if_false, value]
    refine ⟨by nlinarith, by nlinarith [h.lt_one], ?_⟩
    cases up with
    | true => exact (chosen_upper _ step (takes.1 rfl)).trans (by push_cast; simp)
    | false => exact (chosen_lower _ step pos h.lt_one fun u => Bool.false_ne_true (takes.2 u)).trans (by simp)
  | true =>
    have value : Claims.exactly x = (((-(k : ℤ) - 1 : ℤ) : ℚ) + (1 - t)) * 2 ^ q := by rw [exactly_eq, h.size, neg]; push_cast; simp; ring
    simp only [neg, if_true] at takes
    simp only [stepsBelow, signed, if_true, value]
    refine ⟨by nlinarith [h.lt_one], by nlinarith, ?_⟩
    cases up with
    | true => exact (chosen_lower _ step (by linarith [h.lt_one]) (by linarith) (takes.1 rfl)).trans (by push_cast; simp only [reduceIte]; ring)
    | false => exact (chosen_upper _ step (by by_contra u; exact Bool.false_ne_true (takes.2 u))).trans (by push_cast; simp)
end

/-! ### Neighbours (R72, R78) -/

section
variable {i : FInfo} {low : Bool} {q : ℤ}

/-- So many quanta are a number of the format's precision. -/
theorem precise_grid {z : ℤ} (hz : |z| ≤ 2 ^ (i.f + 1)) (hq : low = true → 1 - (i.bias : ℤ) - i.f ≤ q) : Claims.Precise i low ((z : ℚ) * 2 ^ q) := by
  rcases lt_or_eq_of_le hz with lt | eq
  · exact ⟨z, q, lt, hq, rfl⟩
  · have wide : (2 : ℤ) ^ i.f < 2 ^ (i.f + 1) := pow_lt_pow_right₀ one_lt_two (Nat.lt_succ_self _)
    rcases (abs_eq (by positivity)).1 eq with rfl | rfl
    · refine ⟨2 ^ i.f, q + 1, by simpa [abs_of_pos], fun l => (hq l).trans (by omega), ?_⟩
      push_cast
      rw [zpow_add₀ two_ne_zero, pow_succ]
      ring
    · refine ⟨-2 ^ i.f, q + 1, by simpa [abs_of_pos], fun l => (hq l).trans (by omega), ?_⟩
      push_cast
      rw [zpow_add₀ two_ne_zero, pow_succ]
      ring

/-- A number of the format's precision that is no smaller than a normal one on the grid, or whose grid is the finest, lies on it. -/
theorem Precise.on_grid {y : ℚ} (h : Claims.Precise i low y) (big : (2 : ℚ) ^ (q + i.f) ≤ |y| ∨ low = true ∧ q ≤ 1 - (i.bias : ℤ) - i.f) : ∃ z : ℤ, y = (z : ℚ) * 2 ^ q := by
  obtain ⟨m, e, hm, he, rfl⟩ := h
  have fine : q ≤ e := by
    rcases big with big | ⟨l, finest⟩
    · have wide : |(m : ℚ)| < 2 ^ (i.f + 1) := by exact_mod_cast hm
      rw [abs_mul, abs_of_pos (zpow_two_pos e)] at big
      have lt : (2 : ℚ) ^ (q + i.f) < 2 ^ ((i.f + 1 : ℕ) : ℤ) * 2 ^ e := by
        rw [zpow_natCast]
        exact big.trans_lt (mul_lt_mul_of_pos_right wide (zpow_two_pos e))
      rw [← zpow_add₀ two_ne_zero, zpow_lt_zpow_iff_right₀ one_lt_two] at lt
      push_cast at lt
      omega
    · exact finest.trans (he l)
  refine ⟨m * 2 ^ (e - q).toNat, ?_⟩
  rw [mul_zpow_grid m fine]

/-- The neighbours of a number between two steps are these. -/
theorem neighbours_eq {z : ℤ} {lo X hi : ℚ} (h : Claims.Neighbours i low lo X hi) (hq : low = true → 1 - (i.bias : ℤ) - i.f ≤ q)
    (hz : |z| ≤ 2 ^ (i.f + 1)) (hz' : |z + 1| ≤ 2 ^ (i.f + 1)) (above : (z : ℚ) * 2 ^ q < X) (below : X < ((z : ℚ) + 1) * 2 ^ q)
    (big : (2 : ℤ) ^ i.f ≤ z ∨ z + 1 ≤ -2 ^ i.f ∨ low = true ∧ q ≤ 1 - (i.bias : ℤ) - i.f) : lo = z * 2 ^ q ∧ hi = ((z : ℚ) + 1) * 2 ^ q := by
  obtain ⟨plo, phi, lt, gt, only⟩ := h
  have step := zpow_two_pos q
  have low_precise := precise_grid (i := i) hz hq
  have high_precise := precise_grid (i := i) hz' hq
  push_cast at high_precise
  have lo_ge : (z : ℚ) * 2 ^ q ≤ lo := (only _ low_precise).resolve_right fun e => by linarith
  have hi_le : hi ≤ ((z : ℚ) + 1) * 2 ^ q := (only _ high_precise).resolve_left fun e => by linarith
  have on_grid {y : ℚ} (p : Claims.Precise i low y) (a : (z : ℚ) * 2 ^ q ≤ y) (b : y ≤ ((z : ℚ) + 1) * 2 ^ q) : ∃ u : ℤ, y = (u : ℚ) * 2 ^ q := by
    refine Precise.on_grid p ?_
    rw [zpow_add₀ two_ne_zero, zpow_natCast, mul_comm]
    rcases big with big | big | big
    · have big' : (2 : ℚ) ^ i.f ≤ z := by exact_mod_cast big
      exact .inl (le_abs.2 (.inl ((mul_le_mul_of_nonneg_right big' step.le).trans a)))
    · have big' : (z : ℚ) + 1 ≤ -2 ^ i.f := by exact_mod_cast big
      exact .inl (le_abs.2 (.inr (by nlinarith)))
    · exact .inr big
  obtain ⟨u, rfl⟩ := on_grid plo lo_ge (by linarith)
  obtain ⟨w, rfl⟩ := on_grid phi (by linarith) hi_le
  have u_lt : (u : ℚ) < z + 1 := lt_of_mul_lt_mul_right (lt.trans below) step.le
  have le_u : (z : ℚ) ≤ u := le_of_mul_le_mul_right lo_ge step
  have lt_w : (z : ℚ) < w := lt_of_mul_lt_mul_right (above.trans gt) step.le
  have w_le : (w : ℚ) ≤ z + 1 := le_of_mul_le_mul_right hi_le step
  norm_cast at u_lt le_u lt_w w_le
  obtain rfl : u = z := by omega
  obtain rfl : w = u + 1 := by omega
  push_cast
  exact ⟨rfl, rfl⟩
end

end Sys2Proof.Machine
end

section
namespace Sys2Proof.Machine
open Sys2Proof

/-! ### The codes of a format (R60, R61) -/

/-- What the formats of R60 have in common. -/
structure FInfo.Shape (i : FInfo) : Prop where
  width : i.w = i.f + i.eb + 1
  kind : i.inf = true ∧ i.w ≠ 4 ∧ i.maxBits = (2 ^ i.eb - 1) * 2 ^ i.f - 1 ∨ i.inf = false ∧ i.w = 8 ∧ i.maxBits = 126 ∨ i.inf = false ∧ i.w = 4
  normal_le : 2 ^ i.f ≤ i.maxBits
  max_lt : i.maxBits < 2 ^ (i.w - 1)

/-- The finite value of an encoding by its fields (R60). -/
def FInfo.fields (i : FInfo) (x : Nat) : FVal :=
  if x / 2 ^ i.f % 2 ^ i.eb = 0 then .fin (x.testBit (i.w - 1)) (x % 2 ^ i.f) (1 - (i.bias : Int) - i.f)
  else .fin (x.testBit (i.w - 1)) (x % 2 ^ i.f + 2 ^ i.f) ((x / 2 ^ i.f % 2 ^ i.eb : Nat) - (i.bias : Int) - i.f)

section
variable {i : FInfo} (shape : i.Shape)
include shape

theorem FInfo.Shape.exponent (x : Nat) : bits x (i.w - 2) i.f = x / 2 ^ i.f % 2 ^ i.eb := by
  have width := shape.width
  have some_exponent : 1 ≤ i.eb := by
    by_contra none
    have e : i.eb = 0 := by omega
    have lt := shape.max_lt
    have le := shape.normal_le
    rw [width, e] at lt
    exact absurd (le.trans_lt lt) (lt_irrefl _)
  have size : i.w - 2 + 1 - i.f = i.eb := by omega
  rw [bits, size, Nat.shiftRight_eq_div_pow]

/-- An encoding is a NaN, an infinity, or what its fields say. -/
theorem FInfo.Shape.decode_of_num {x : Nat} (h : Claims.num (i.decode x) ≠ none) : i.decode x = i.fields x := by
  unfold FInfo.decode at h ⊢
  rw [shape.exponent, bit_eq_testBit] at h ⊢
  dsimp only at h ⊢
  split at h
  · split at h <;> exact absurd rfl h
  next finite =>
    split at h
    · exact absurd rfl h
    next finite' => rw [if_neg finite, if_neg finite', FInfo.fields]

/-- No encoding up to the largest finite one is a NaN or an infinity. -/
theorem FInfo.Shape.decode_finite {x : Nat} (h : x % 2 ^ (i.w - 1) ≤ i.maxBits) : i.decode x = i.fields x := by
  have width : i.w - 1 = i.f + i.eb := by rw [shape.width]; rfl
  rw [FInfo.decode, shape.exponent, bit_eq_testBit, FInfo.fields]
  rcases shape.kind with ⟨inf, w, max⟩ | ⟨inf, w, max⟩ | ⟨inf, w⟩
  · have low : ¬(x / 2 ^ i.f % 2 ^ i.eb = 2 ^ i.eb - 1) := by
      intro top
      have pos := Nat.two_pow_pos i.f
      rw [width, pow_add] at h
      have parts := Nat.div_mul_le_self (x % (2 ^ i.f * 2 ^ i.eb)) (2 ^ i.f)
      rw [Nat.mod_mul_right_div_self, top] at parts
      have wide := shape.normal_le
      omega
    simp [inf, low]
  · have low : ¬(x % 128 = 127) := by
      rw [w, max] at h
      have h : x % 128 ≤ 126 := h
      omega
    simp [inf, low]
  · simp [inf, w]
end

/-- The magnitude of the code c: its sign bit left out. -/
def FInfo.codeSize (i : FInfo) (c : Nat) : ℚ :=
  if c / 2 ^ i.f = 0 then (c : ℚ) * 2 ^ (1 - (i.bias : ℤ) - i.f) else ((c % 2 ^ i.f + 2 ^ i.f : Nat) : ℚ) * 2 ^ ((c / 2 ^ i.f : Nat) - (i.bias : ℤ) - i.f)

section
variable {i : FInfo} (shape : i.Shape) (neg : Bool) {c : Nat} (hc : c ≤ i.maxBits)
include shape hc

theorem FInfo.Shape.signed_lt : i.signBit neg + c < 2 ^ i.w := by
  have max := shape.max_lt
  have twice : 2 ^ i.w = 2 * 2 ^ (i.w - 1) := by
    rw [← Nat.pow_succ']
    congr 1
    have := shape.width
    omega
  cases neg <;> simp only [FInfo.signBit, Bool.false_eq_true, if_false, if_true] <;> omega

theorem FInfo.Shape.sign_code : (i.signBit neg + c).testBit (i.w - 1) = neg := by
  have small : c < 2 ^ (i.w - 1) := hc.trans_lt shape.max_lt
  cases neg with
  | false => simp [FInfo.signBit, Nat.testBit_lt_two_pow small]
  | true => simp [FInfo.signBit, Nat.testBit_two_pow_add_eq, Nat.testBit_lt_two_pow small]

theorem FInfo.Shape.num_code : Claims.num (i.decode (i.signBit neg + c)) = some ((if neg then -1 else 1) * i.codeSize c) := by
  have small : c < 2 ^ (i.w - 1) := hc.trans_lt shape.max_lt
  have width : i.w - 1 = i.f + i.eb := by rw [shape.width]; rfl
  have rest : (i.signBit neg + c) % 2 ^ (i.w - 1) = c := by
    cases neg <;> simp [FInfo.signBit, Nat.mod_eq_of_lt small]
  have fraction : (i.signBit neg + c) % 2 ^ i.f = c % 2 ^ i.f := by
    rw [← Nat.mod_mod_of_dvd (i.signBit neg + c) (pow_dvd_pow 2 (show i.f ≤ i.w - 1 by omega)), rest]
  have exponent : (i.signBit neg + c) / 2 ^ i.f % 2 ^ i.eb = c / 2 ^ i.f := by
    rw [← Nat.mod_mul_right_div_self, ← pow_add, ← width, rest]
  rw [shape.decode_finite (rest.trans_le hc), FInfo.fields, shape.sign_code neg hc, fraction, exponent, FInfo.codeSize]
  split
  next zero =>
    have low : c % 2 ^ i.f = c := Nat.mod_eq_of_lt ((Nat.div_eq_zero_iff_lt (Nat.two_pow_pos _)).1 zero)
    rw [Claims.num, low, mul_assoc]
  next => rw [Claims.num, mul_assoc]
end

end Sys2Proof.Machine
end

section
namespace Sys2Proof.Machine
open Sys2Proof

/-! ### The code of a rounded count, and overflow (R72, R76) -/

/-- The least exponent of a quantum, and that of the largest finite number. -/
def FInfo.minQ (i : FInfo) : ℤ := 1 - (i.bias : ℤ) - i.f
def FInfo.maxQ (i : FInfo) : ℤ := ((i.maxBits / 2 ^ i.f : Nat) : ℤ) - i.bias - i.f
/-- The largest finite number. -/
def FInfo.maxSize (i : FInfo) : ℚ := i.codeSize i.maxBits

/-- k quanta of 2^q as the format counts them: no more than a format's precision, subnormal on the finest grid only. -/
structure FInfo.Fits (i : FInfo) (k : Nat) (q : ℤ) : Prop where
  le : k ≤ 2 ^ (i.f + 1)
  fine : i.minQ ≤ q
  subnormal : k < 2 ^ i.f → q = i.minQ

/-- The count that carries into the next exponent is taken there. -/
def carried (i : FInfo) (k : Nat) (q : ℤ) : Nat × ℤ := if k = 2 ^ (i.f + 1) then (2 ^ i.f, q + 1) else (k, q)

/-- Whether so many quanta lie beyond the largest finite number, as rounding decides it. -/
def FInfo.tooBig (i : FInfo) (k : Nat) (q : ℤ) : Bool :=
  let maxM := if i.maxBits < 2 ^ i.f then i.maxBits else i.maxBits % 2 ^ i.f + 2 ^ i.f
  if q > i.maxQ then true else if k = 2 ^ (i.f + 1) then decide (q + 1 > i.maxQ) else decide (q = i.maxQ) && decide (k > maxM)

section
variable {i : FInfo} {k : Nat} {q : ℤ}

theorem carried_value (i : FInfo) (k : Nat) (q : ℤ) : ((carried i k q).1 : ℚ) * 2 ^ (carried i k q).2 = (k : ℚ) * 2 ^ q := by
  unfold carried
  split
  next e =>
    rw [e]
    push_cast
    rw [zpow_add₀ two_ne_zero, pow_succ]
    ring
  next => rfl

theorem FInfo.Fits.carried_lt (h : i.Fits k q) : (carried i k q).1 < 2 ^ (i.f + 1) := by
  unfold carried
  split
  · exact Nat.pow_lt_pow_right one_lt_two (Nat.lt_succ_self _)
  next e => exact lt_of_le_of_ne h.le e

theorem FInfo.Fits.carried_fits (h : i.Fits k q) : i.Fits (carried i k q).1 (carried i k q).2 := by
  refine ⟨h.carried_lt.le, ?_, ?_⟩ <;> unfold carried <;> split
  · exact h.fine.trans (by omega)
  · exact h.fine
  · exact fun lt => absurd lt (lt_irrefl _)
  · exact h.subnormal

theorem encodeMag_eq (i : FInfo) (k : Nat) (q : ℤ) : i.encodeMag k q =
    if (carried i k q).1 < 2 ^ i.f then (carried i k q).1
    else ((carried i k q).2 + i.f + i.bias).toNat * 2 ^ i.f + ((carried i k q).1 - 2 ^ i.f) := rfl

/-- The code of a count within the precision has its size. -/
theorem FInfo.Fits.codeSize_encodeMag (h : i.Fits k q) : i.codeSize (i.encodeMag k q) = (k : ℚ) * 2 ^ q := by
  rw [encodeMag_eq, ← carried_value i k q]
  have lt := h.carried_lt
  obtain ⟨-, fine, subnormal⟩ := h.carried_fits
  generalize (carried i k q).1 = m at *
  generalize (carried i k q).2 = e at *
  have pos := Nat.two_pow_pos i.f
  split
  next low =>
    rw [FInfo.codeSize, Nat.div_eq_of_lt low, if_pos rfl, subnormal low]
    rfl
  next high =>
    have rest : m - 2 ^ i.f < 2 ^ i.f := by
      rw [pow_succ] at lt
      omega
    have exponent : ((e + i.f + i.bias).toNat * 2 ^ i.f + (m - 2 ^ i.f)) / 2 ^ i.f = (e + i.f + i.bias).toNat := by
      rw [Nat.add_comm, Nat.add_mul_div_right _ _ pos, Nat.div_eq_of_lt rest, Nat.zero_add]
    have fraction : ((e + i.f + i.bias).toNat * 2 ^ i.f + (m - 2 ^ i.f)) % 2 ^ i.f = m - 2 ^ i.f := by
      rw [Nat.add_comm, Nat.add_mul_mod_self_right, Nat.mod_eq_of_lt rest]
    rw [FInfo.minQ] at fine
    have normal : (e + i.f + i.bias).toNat ≠ 0 := by omega
    have place : ((e + i.f + i.bias).toNat : ℤ) - i.bias - i.f = e := by omega
    rw [FInfo.codeSize, exponent, fraction, if_neg normal, place, Nat.sub_add_cancel (not_lt.1 high)]

variable (shape : i.Shape)
include shape

theorem FInfo.Shape.maxSize_eq : i.maxSize = ((i.maxBits % 2 ^ i.f + 2 ^ i.f : Nat) : ℚ) * 2 ^ i.maxQ := by
  have normal : i.maxBits / 2 ^ i.f ≠ 0 := (Nat.div_pos shape.normal_le (Nat.two_pow_pos _)).ne'
  rw [FInfo.maxSize, FInfo.codeSize, if_neg normal, FInfo.maxQ]

/-- The comparison with the largest finite number, by exponents first. -/
theorem FInfo.Shape.tooBig_eq : i.tooBig k q = true ↔
    i.maxQ < (carried i k q).2 ∨ (carried i k q).2 = i.maxQ ∧ i.maxBits % 2 ^ i.f + 2 ^ i.f < (carried i k q).1 := by
  rw [FInfo.tooBig, if_neg (not_lt.2 shape.normal_le)]
  unfold carried
  split_ifs with beyond carries carries
  · simp only [true_iff]
    exact .inl (by omega)
  · simp only [true_iff]
    exact .inl beyond
  · rw [decide_eq_true_iff, or_iff_left]
    rintro ⟨-, lt⟩
    omega
  · simp only [Bool.and_eq_true, decide_eq_true_iff]
    exact (or_iff_right beyond).symm

theorem FInfo.Shape.tooBig_iff (h : i.Fits k q) : i.tooBig k q = true ↔ i.maxSize < (k : ℚ) * 2 ^ q := by
  rw [shape.tooBig_eq, shape.maxSize_eq, ← carried_value i k q]
  have lt := h.carried_lt
  obtain ⟨-, -, subnormal⟩ := h.carried_fits
  generalize (carried i k q).1 = m at *
  generalize (carried i k q).2 = e at *
  have normal : i.minQ ≤ i.maxQ := by
    have pos : 1 ≤ i.maxBits / 2 ^ i.f := Nat.div_pos shape.normal_le (Nat.two_pow_pos _)
    rw [FInfo.minQ, FInfo.maxQ]
    omega
  have fraction := Nat.mod_lt i.maxBits (Nat.two_pow_pos i.f)
  have grid (a b : ℤ) : (2 : ℚ) ^ (a + b) = 2 ^ a * 2 ^ b := zpow_add₀ two_ne_zero a b
  rcases lt_trichotomy e i.maxQ with less | rfl | more
  · rw [iff_false_intro less.not_gt, iff_false_intro less.ne, false_and, or_false, false_iff, not_lt]
    have low : (m : ℚ) ≤ 2 * 2 ^ i.f := by exact_mod_cast (pow_succ' 2 i.f ▸ lt.le)
    calc (m : ℚ) * 2 ^ e ≤ 2 * 2 ^ i.f * 2 ^ e := mul_le_mul_of_nonneg_right low (zpow_two_pos e).le
      _ = 2 ^ i.f * 2 ^ (e + 1) := by rw [grid]; ring
      _ ≤ 2 ^ i.f * 2 ^ i.maxQ := mul_le_mul_of_nonneg_left (zpow_le_zpow_right₀ one_le_two less) (by positivity)
      _ ≤ _ := mul_le_mul_of_nonneg_right (by exact_mod_cast Nat.le_add_left _ _) (zpow_two_pos _).le
  · simp only [lt_irrefl, true_and, false_or]
    rw [mul_lt_mul_iff_left₀ (zpow_two_pos _)]
    exact_mod_cast Iff.rfl
  · rw [iff_true_intro more, true_or, true_iff]
    have high : 2 ^ i.f ≤ m := by
      by_contra low
      exact absurd (subnormal (not_le.1 low)) (normal.trans_lt more).ne'
    have max : ((i.maxBits % 2 ^ i.f + 2 ^ i.f : Nat) : ℚ) < 2 ^ i.f * 2 := by exact_mod_cast (by omega : i.maxBits % 2 ^ i.f + 2 ^ i.f < 2 ^ i.f * 2)
    calc _ < 2 ^ i.f * 2 * (2 : ℚ) ^ i.maxQ := mul_lt_mul_of_pos_right max (zpow_two_pos _)
      _ = 2 ^ i.f * 2 ^ (i.maxQ + 1) := by rw [grid]; ring
      _ ≤ 2 ^ i.f * 2 ^ e := mul_le_mul_of_nonneg_left (zpow_le_zpow_right₀ one_le_two more) (by positivity)
      _ ≤ _ := mul_le_mul_of_nonneg_right (by exact_mod_cast high) (zpow_two_pos e).le

/-- A count that is not too big has a finite code. -/
theorem FInfo.Shape.encodeMag_le (h : i.Fits k q) (fits : i.tooBig k q = false) : i.encodeMag k q ≤ i.maxBits := by
  have fits : ¬i.tooBig k q = true := by simp [fits]
  rw [shape.tooBig_eq, not_or, not_lt, not_and, not_lt] at fits
  obtain ⟨le, eq⟩ := fits
  rw [encodeMag_eq]
  have lt := h.carried_lt
  obtain ⟨-, fine, subnormal⟩ := h.carried_fits
  generalize (carried i k q).1 = m at *
  generalize (carried i k q).2 = e at *
  have parts := Nat.div_add_mod' i.maxBits (2 ^ i.f)
  rw [pow_succ] at lt
  rw [FInfo.minQ] at fine
  rw [FInfo.maxQ] at le eq
  split
  next low => exact low.le.trans shape.normal_le
  next high =>
    rcases lt_or_eq_of_le (show (e + i.f + i.bias).toNat ≤ i.maxBits / 2 ^ i.f by omega) with less | same
    · have next_exponent : ((e + i.f + i.bias).toNat + 1) * 2 ^ i.f ≤ i.maxBits / 2 ^ i.f * 2 ^ i.f := Nat.mul_le_mul_right _ less
      rw [Nat.succ_mul] at next_exponent
      omega
    · have fraction := eq (by omega)
      rw [same]
      omega
end

end Sys2Proof.Machine
end

section
namespace Sys2Proof.Machine
open Sys2Proof

/-! ### The one rounding (R72, R75 to R78) -/

/-- The exponent of the leading bit; that of a quantum of full precision; that of a quantum of the format. -/
def Real'.top (x : Real') : ℤ := (bitLen x.n : ℤ) - 1 + x.e
def FInfo.topQ (i : FInfo) (x : Real') : ℤ := x.top - i.f
def FInfo.gridQ (i : FInfo) (x : Real') : ℤ := max (i.topQ x) i.minQ

/-- The count that a mode delivers. -/
def delivered (p : Nat × Bool × Bool) : Nat := if p.2.2 then p.1 + 1 else p.1

/-- A result is tiny where its rounding with the exponent unbounded lies below the smallest normal number (R78). -/
def FInfo.tiny (i : FInfo) (rm : RMode) (g : Nat) (x : Real') : Bool :=
  let u := quantum rm g x (i.topQ x)
  decide (i.topQ x < i.minQ) && !(decide (i.topQ x = i.minQ - 1) && decide (u.1 + 1 = 2 ^ (i.f + 1)) && u.2.2)

theorem round_eq (i : FInfo) (rm : RMode) (sat : Bool) (g : Nat) {x : Real'} (hn : x.n ≠ 0) : i.round rm sat g x =
    if i.tooBig (delivered (quantum rm g x (i.gridQ x))) (i.gridQ x) then (i.overflow rm sat x.neg, flOF ||| flNX)
    else (i.signBit x.neg + i.encodeMag (delivered (quantum rm g x (i.gridQ x))) (i.gridQ x),
      if (quantum rm g x (i.gridQ x)).2.1 then (if i.tiny rm g x then flUF ||| flNX else flNX) else 0) := by
  have nonzero : (decide (x.n = 0) && !x.sticky) = false := by simp [hn]
  rw [FInfo.round, nonzero]
  rfl

theorem round_zero (i : FInfo) (rm : RMode) (sat : Bool) (g : Nat) {x : Real'} (exact : x.sticky = false) (hn : x.n = 0) :
    i.round rm sat g x = (i.signBit x.neg, 0) := by
  rw [FInfo.round]
  simp [exact, hn]

section
variable {x : Real'} (hn : x.n ≠ 0)
include hn

theorem Real'.top_le_size : (2 : ℚ) ^ x.top ≤ x.size := by
  have lead : 2 ^ (bitLen x.n - 1) ≤ x.n := lt_bitLen.1 (by have : 0 < bitLen x.n := lt_bitLen.2 (Nat.pos_of_ne_zero hn); omega)
  have some_bit : 0 < bitLen x.n := lt_bitLen.2 (Nat.pos_of_ne_zero hn)
  have place : x.top = ((bitLen x.n - 1 : Nat) : ℤ) + x.e := by rw [Real'.top]; omega
  rw [place, zpow_add₀ two_ne_zero, zpow_natCast, Real'.size]
  exact mul_le_mul_of_nonneg_right (by exact_mod_cast lead) (zpow_two_pos _).le

omit hn in
theorem Real'.size_lt : x.size < (2 : ℚ) ^ (x.top + 1) := by
  have bound : x.n < 2 ^ bitLen x.n := bitLen_le.1 le_rfl
  have place : x.top + 1 = (bitLen x.n : ℤ) + x.e := by rw [Real'.top]; omega
  rw [place, zpow_add₀ two_ne_zero, zpow_natCast, Real'.size]
  exact mul_lt_mul_of_pos_right (by exact_mod_cast bound) (zpow_two_pos _)

end

section
variable {i : FInfo} {rm : RMode} {g : Nat} {x : Real'} {q : ℤ} {k : Nat} {inexact up : Bool} {t : ℚ} (h : Quanta rm g x q k inexact up t)
include h

/-- Full precision is not exceeded. -/
theorem Quanta.count_lt (hq : i.topQ x ≤ q) : k < 2 ^ (i.f + 1) := by
  have step := zpow_two_pos q
  have below : (k : ℚ) * 2 ^ q < 2 ^ (i.f + 1) * 2 ^ q := by
    have size := h.size
    have top : (2 : ℚ) ^ (x.top + 1) ≤ 2 ^ (((i.f + 1 : Nat) : ℤ) + q) := zpow_le_zpow_right₀ one_le_two (by rw [FInfo.topQ] at hq; push_cast; omega)
    rw [zpow_add₀ two_ne_zero ((i.f + 1 : Nat) : ℤ), zpow_natCast] at top
    nlinarith [x.size_lt, h.nonneg]
  exact_mod_cast lt_of_mul_lt_mul_right below step.le

/-- On the grid of full precision it is reached. -/
theorem Quanta.le_count (hn : x.n ≠ 0) (hq : q = i.topQ x) : 2 ^ i.f ≤ k := by
  have step := zpow_two_pos q
  have above : (2 : ℚ) ^ i.f * 2 ^ q < (k + 1) * 2 ^ q := by
    have size := h.size
    have place : x.top = ((i.f : Nat) : ℤ) + q := by rw [hq, FInfo.topQ]; omega
    have top := Real'.top_le_size hn
    rw [place, zpow_add₀ two_ne_zero, zpow_natCast, size] at top
    nlinarith [h.lt_one]
  have count : (2 : ℚ) ^ i.f < k + 1 := lt_of_mul_lt_mul_right above step.le
  have count : 2 ^ i.f < k + 1 := by exact_mod_cast count
  omega

/-- A number on the grid is exact. -/
theorem Quanta.exact_of_grid {z : ℤ} (e : Claims.exactly x = (z : ℚ) * 2 ^ q) : inexact = false := by
  by_contra inex
  obtain ⟨lo, hi, -⟩ := h.between (by simpa using inex)
  have step := zpow_two_pos q
  rw [e] at lo hi
  have lo := lt_of_mul_lt_mul_right lo step.le
  have hi := lt_of_mul_lt_mul_right hi step.le
  norm_cast at lo hi
  omega

/-- An exact number has no two neighbours around it. -/
theorem Quanta.inexact_of_neighbours {low : Bool} (hq : i.topQ x ≤ q) (fine : low = true → i.minQ ≤ q) {lo hi : ℚ} (n : Claims.Neighbours i low lo (Claims.exactly x) hi) :
    inexact = true := by
  by_contra ex
  have value := h.exactly_of_exact (by simpa using ex)
  obtain ⟨-, -, lt, gt, only⟩ := n
  have count : |signed x.neg k| ≤ 2 ^ (i.f + 1) := by
    have le : ((k : Nat) : ℤ) ≤ 2 ^ (i.f + 1) := by exact_mod_cast (h.count_lt hq).le
    unfold signed
    split <;> simpa using le
  have p := precise_grid (i := i) (low := low) count fine
  rw [← value] at p
  rcases only _ p with e | e <;> linarith

/-- What the mode chooses between the neighbours is the count it delivers. -/
theorem Quanta.chosen_eq {low : Bool} (hq : i.topQ x ≤ q) (fine : low = true → i.minQ ≤ q) (big : 2 ^ i.f ≤ k ∨ low = true ∧ q ≤ i.minQ) {lo hi : ℚ}
    (n : Claims.Neighbours i low lo (Claims.exactly x) hi) :
    Claims.chosen rm g lo (Claims.exactly x) hi = (if x.neg then -1 else 1) * ((if up then k + 1 else k : Nat) : ℚ) * 2 ^ q := by
  obtain ⟨lo', hi', chosen⟩ := h.between (h.inexact_of_neighbours hq fine n)
  have count := h.count_lt hq
  have count' : ((k : Nat) : ℤ) + 1 ≤ 2 ^ (i.f + 1) := by exact_mod_cast count
  have edges : |stepsBelow x.neg k| ≤ 2 ^ (i.f + 1) ∧ |stepsBelow x.neg k + 1| ≤ 2 ^ (i.f + 1) := by
    unfold stepsBelow
    constructor <;> split <;> rw [abs_le] <;> constructor <;> omega
  have wide : (2 : ℤ) ^ i.f ≤ stepsBelow x.neg k ∨ stepsBelow x.neg k + 1 ≤ -2 ^ i.f ∨ low = true ∧ q ≤ 1 - (i.bias : ℤ) - i.f := by
    rcases big with big | big
    · have big' : (2 : ℤ) ^ i.f ≤ (k : Nat) := by exact_mod_cast big
      unfold stepsBelow
      split
      · exact .inr (.inl (by omega))
      · exact .inl big'
    · exact .inr (.inr big)
  obtain ⟨rfl, rfl⟩ := neighbours_eq n fine edges.1 edges.2 lo' hi' wide
  rw [chosen, signed]
  split <;> push_cast <;> ring
end

/-! ### What a rounding delivers (R72, R76 to R78) -/

section
variable {i : FInfo} {rm : RMode} {g : Nat} {x : Real'} (hn : x.n ≠ 0)
include hn

/-- The delivered count fits the format. -/
theorem Quanta.fits {k : Nat} {inexact up : Bool} {t : ℚ} (h : Quanta rm g x (i.gridQ x) k inexact up t) : i.Fits (if up then k + 1 else k) (i.gridQ x) where
  le := by
    have lt := h.count_lt (le_max_left _ _)
    split <;> omega
  fine := le_max_right _ _
  subnormal low := by
    have few : k < 2 ^ i.f := by split at low <;> omega
    refine (max_choice (i.topQ x) i.minQ).resolve_left fun top => ?_
    exact absurd (h.le_count hn top) (by omega)

/-- On the format's grid the leading bit is at full precision, or the grid is the finest. -/
theorem Quanta.big {k : Nat} {inexact up : Bool} {t : ℚ} (h : Quanta rm g x (i.gridQ x) k inexact up t) :
    2 ^ i.f ≤ k ∨ true = true ∧ i.gridQ x ≤ i.minQ :=
  (max_choice (i.topQ x) i.minQ).imp (fun top => h.le_count hn top) fun e => ⟨rfl, e.le⟩

/-- Tininess by the count that the mode delivers with the exponent unbounded. -/
theorem Quanta.tiny_iff {k : Nat} {inexact up : Bool} {t : ℚ} (h : Quanta rm g x (i.topQ x) k inexact up t) (hq : quantum rm g x (i.topQ x) = (k, inexact, up)) :
    i.tiny rm g x = true ↔ ((if up then k + 1 else k : Nat) : ℚ) * 2 ^ i.topQ x < 2 ^ (i.minQ + i.f) := by
  have lt := h.count_lt le_rfl
  have ge := h.le_count hn rfl
  have ge' : (2 : ℚ) ^ i.f ≤ (if up then k + 1 else k : Nat) := by exact_mod_cast (by split <;> omega : 2 ^ i.f ≤ if up then k + 1 else k)
  have le' : ((if up then k + 1 else k : Nat) : ℚ) ≤ 2 ^ (i.f + 1) := by exact_mod_cast (by split <;> omega : (if up then k + 1 else k) ≤ 2 ^ (i.f + 1))
  rw [FInfo.tiny, hq, zpow_add₀ two_ne_zero, zpow_natCast, mul_comm ((2 : ℚ) ^ i.minQ)]
  dsimp only
  generalize i.topQ x = q at *
  have step := zpow_two_pos q
  rcases lt_trichotomy q (i.minQ - 1) with less | same | more
  · have small : (2 : ℚ) ^ (q + 2) ≤ 2 ^ i.minQ := zpow_le_zpow_right₀ one_le_two (by omega)
    rw [zpow_add₀ two_ne_zero, show (2 : ℚ) ^ (2 : ℤ) = 4 by norm_num] at small
    have normal : ((if up then k + 1 else k : Nat) : ℚ) * 2 ^ q < 2 ^ i.f * 2 ^ i.minQ := by
      have scale : (2 : ℚ) ^ i.f * (2 ^ q * 4) ≤ 2 ^ i.f * 2 ^ i.minQ := mul_le_mul_of_nonneg_left small (by positivity)
      have value : ((if up then k + 1 else k : Nat) : ℚ) * 2 ^ q ≤ 2 ^ (i.f + 1) * 2 ^ q := mul_le_mul_of_nonneg_right le' step.le
      have some_size : (0 : ℚ) < 2 ^ i.f * 2 ^ q := by positivity
      rw [pow_succ] at value
      linarith
    simp only [normal, iff_true]
    simp [show q < i.minQ by omega, less.ne]
  · have twice : (2 : ℚ) ^ i.minQ = 2 * 2 ^ q := by
      rw [show i.minQ = q + 1 by omega, zpow_add₀ two_ne_zero, zpow_one, mul_comm]
    have below : ((if up then k + 1 else k : Nat) : ℚ) * 2 ^ q < 2 ^ i.f * (2 * 2 ^ q) ↔ (if up then k + 1 else k) < 2 ^ (i.f + 1) := by
      rw [← mul_assoc, mul_lt_mul_iff_left₀ step, ← pow_succ]
      exact_mod_cast Iff.rfl
    rw [twice, below]
    simp only [same, sub_lt_self_iff, zero_lt_one, decide_true, Bool.true_and]
    cases up <;> simp <;> omega
  · have large : (2 : ℚ) ^ i.minQ ≤ 2 ^ q := zpow_le_zpow_right₀ one_le_two (by omega)
    have normal : 2 ^ i.f * (2 : ℚ) ^ i.minQ ≤ ((if up then k + 1 else k : Nat) : ℚ) * 2 ^ q := mul_le_mul ge' large (zpow_two_pos _).le (Nat.cast_nonneg _)
    simp only [normal.not_gt, iff_false]
    simp [show ¬q < i.minQ by omega]
end

end Sys2Proof.Machine
end

section
namespace Sys2Proof.Machine
open Sys2Proof

/-! ### Rounding at a format (R72, R75 to R78) -/

section
variable {i : FInfo} (shape : i.Shape) (rm : RMode) (sat : Bool) {g : Nat} {x : Real'} (exact : x.sticky = false) (hn : x.n ≠ 0)
include shape exact hn

/-- What the table says of a format's rounding of X, where the mode delivers the number R. -/
structure RoundsTo (i : FInfo) (rm : RMode) (sat : Bool) (g : Nat) (x : Real') (R : ℚ) (fl : FFlags) : Prop where
  overflows : i.maxSize < |R| → i.round rm sat g x = (i.overflow rm sat x.neg, flOF ||| flNX)
  fits : |R| ≤ i.maxSize → (i.round rm sat g x).1 < 2 ^ i.w ∧ Claims.num (i.decode (i.round rm sat g x).1) = some R ∧
    (i.round rm sat g x).1.testBit (i.w - 1) = x.neg ∧ (i.round rm sat g x).2 = fl

/-- The delivered count, as the number it is, decides between overflow and a finite code. -/
theorem round_delivers : RoundsTo i rm sat g x ((if x.neg then -1 else 1) * (delivered (quantum rm g x (i.gridQ x)) : ℚ) * 2 ^ i.gridQ x)
    (if (quantum rm g x (i.gridQ x)).2.1 then (if i.tiny rm g x then flUF ||| flNX else flNX) else 0) := by
  obtain ⟨t, quanta⟩ := quantum_quanta rm g (i.gridQ x) exact
  have fits : i.Fits (delivered (quantum rm g x (i.gridQ x))) (i.gridQ x) := quanta.fits hn
  have size : |(if x.neg then -1 else 1) * (delivered (quantum rm g x (i.gridQ x)) : ℚ) * 2 ^ i.gridQ x| = (delivered (quantum rm g x (i.gridQ x)) : ℚ) * 2 ^ i.gridQ x := by
    rw [abs_mul, abs_mul, abs_of_pos (zpow_two_pos _), Nat.abs_cast]
    split <;> simp
  have decides := shape.tooBig_iff fits
  rw [← size] at decides
  refine ⟨fun beyond => ?_, fun fit => ?_⟩
  · rw [round_eq i rm sat g hn]
    exact if_pos (decides.2 beyond)
  · have small : i.tooBig (delivered (quantum rm g x (i.gridQ x))) (i.gridQ x) = false := Bool.eq_false_iff.2 fun e => (decides.1 e).not_ge fit
    have code := shape.encodeMag_le fits small
    rw [round_eq i rm sat g hn, small]
    refine ⟨shape.signed_lt x.neg code, ?_, shape.sign_code x.neg code, rfl⟩
    have value := fits.codeSize_encodeMag
    exact (shape.num_code x.neg code).trans (by rw [value, mul_assoc])

/-- A number that the format's precision holds is delivered as it is. -/
theorem round_precise (p : Claims.Precise i true (Claims.exactly x)) : RoundsTo i rm sat g x (Claims.exactly x) 0 := by
  obtain ⟨t, quanta⟩ := quantum_quanta rm g (i.gridQ x) exact
  have on_grid : ∃ z : ℤ, Claims.exactly x = (z : ℚ) * 2 ^ i.gridQ x := by
    refine Precise.on_grid p ?_
    rcases max_choice (i.topQ x) i.minQ with top | fine
    · left
      rw [abs_exactly, FInfo.gridQ, top, FInfo.topQ, sub_add_cancel]
      exact Real'.top_le_size hn
    · exact .inr ⟨rfl, fine.le⟩
  obtain ⟨z, hz⟩ := on_grid
  have ex := quanta.exact_of_grid hz
  have up := quanta.up_of_exact ex
  have result := round_delivers shape rm sat exact hn (g := g)
  rw [delivered, up, ex] at result
  have value := quanta.exactly_of_exact ex
  rw [signed] at value
  refine (?_ : Claims.exactly x = _) ▸ result
  rw [value]
  split <;> simp

/-- Of two neighbours the mode's is delivered. -/
theorem round_neighbours {lo hi : ℚ} (n : Claims.Neighbours i true lo (Claims.exactly x) hi) :
    RoundsTo i rm sat g x (Claims.chosen rm g lo (Claims.exactly x) hi) (if i.tiny rm g x then flUF ||| flNX else flNX) := by
  obtain ⟨t, quanta⟩ := quantum_quanta rm g (i.gridQ x) exact
  have result := round_delivers shape rm sat exact hn (g := g)
  rw [quanta.inexact_of_neighbours (le_max_left _ _) (fun _ => le_max_right _ _) n] at result
  rw [quanta.chosen_eq (le_max_left _ _) (fun _ => le_max_right _ _) (quanta.big hn) n]
  exact result

omit shape

/-- Tininess where the number has neighbours of unbounded exponent. -/
theorem tiny_neighbours {lo hi : ℚ} (n : Claims.Neighbours i false lo (Claims.exactly x) hi) :
    i.tiny rm g x = true ↔ |Claims.chosen rm g lo (Claims.exactly x) hi| < 2 ^ (i.minQ + i.f) := by
  obtain ⟨t, quanta⟩ := quantum_quanta rm g (i.topQ x) exact
  rw [quanta.tiny_iff hn rfl, quanta.chosen_eq le_rfl (fun e => absurd e Bool.false_ne_true) (.inl (quanta.le_count hn rfl)) n, abs_mul, abs_mul, abs_of_pos (zpow_two_pos _), Nat.abs_cast]
  cases x.neg <;> simp

/-- Tininess where the number has full precision with the exponent unbounded. -/
theorem tiny_precise (p : Claims.Precise i false (Claims.exactly x)) : i.tiny rm g x = true ↔ |Claims.exactly x| < 2 ^ (i.minQ + i.f) := by
  obtain ⟨t, quanta⟩ := quantum_quanta rm g (i.topQ x) exact
  have on_grid : ∃ z : ℤ, Claims.exactly x = (z : ℚ) * 2 ^ i.topQ x := by
    refine Precise.on_grid p (.inl ?_)
    rw [abs_exactly, FInfo.topQ, sub_add_cancel]
    exact Real'.top_le_size hn
  obtain ⟨z, hz⟩ := on_grid
  have ex := quanta.exact_of_grid hz
  have value := quanta.exactly_of_exact ex
  rw [quanta.tiny_iff hn rfl, quanta.up_of_exact ex, value, signed, abs_mul, abs_of_pos (zpow_two_pos _)]
  cases x.neg <;> simp
end

/-- A number between two neighbours is not of the format's precision. -/
theorem neighbours_not_precise {i : FInfo} {low : Bool} {lo X hi : ℚ} (n : Claims.Neighbours i low lo X hi) : ¬Claims.Precise i low X := by
  obtain ⟨-, -, lt, gt, only⟩ := n
  exact fun p => (only X p).elim lt.not_ge gt.not_ge

/-! ### The formats of the table (R60, R61) -/

/-- A row of the table gives its format's codes. -/
structure Listed (p : FInfo × Nat × Nat × Option Nat × Option Nat) : Prop where
  shape : p.1.Shape
  max : p.2.1 = p.1.maxBits
  normal : p.2.2.1 = 2 ^ p.1.f
  infinity : p.2.2.2.1 = if p.1.inf then some ((2 ^ p.1.eb - 1) * 2 ^ p.1.f) else none
  nan : p.2.2.2.2 = if p.1.w = 4 then none else some p.1.nanBits

theorem formatTable_listed : ∀ p ∈ Claims.formatTable, Listed p := by
  have shape {i : FInfo} (width : i.w = i.f + i.eb + 1)
      (kind : i.inf = true ∧ i.w ≠ 4 ∧ i.maxBits = (2 ^ i.eb - 1) * 2 ^ i.f - 1 ∨ i.inf = false ∧ i.w = 8 ∧ i.maxBits = 126 ∨ i.inf = false ∧ i.w = 4)
      (codes : 2 ^ i.f ≤ i.maxBits ∧ i.maxBits < 2 ^ (i.w - 1)) : i.Shape := ⟨width, kind, codes.1, codes.2⟩
  intro p hp
  fin_cases hp <;> exact ⟨shape rfl (by decide) (by decide), rfl, rfl, rfl, rfl⟩

section
variable {p : FInfo × Nat × Nat × Option Nat × Option Nat} (listed : Listed p)
include listed

theorem Listed.num_code {c : Nat} (hc : c ≤ p.1.maxBits) : Claims.num (p.1.decode c) = some (p.1.codeSize c) := by
  have code := listed.shape.num_code false hc
  simpa [FInfo.signBit] using code

theorem Listed.max_eq : (Claims.num (p.1.decode p.2.1)).getD 0 = p.1.maxSize := by
  rw [listed.max, listed.num_code le_rfl]
  rfl

theorem Listed.normal_eq : (Claims.num (p.1.decode p.2.2.1)).getD 0 = 2 ^ (p.1.minQ + p.1.f) := by
  have one : 2 ^ p.1.f / 2 ^ p.1.f = 1 := Nat.div_self (Nat.two_pow_pos _)
  rw [listed.normal, listed.num_code listed.shape.normal_le, Option.getD_some, FInfo.codeSize, one, if_neg one_ne_zero, Nat.mod_self, Nat.zero_add, FInfo.minQ]
  push_cast
  rw [← zpow_natCast, ← zpow_add₀ two_ne_zero]
  congr 1
  ring

theorem Listed.overflow_eq (rm : RMode) (sat neg : Bool) : Claims.overflowed p rm sat neg = p.1.overflow rm sat neg := by
  have kind := listed.shape.kind
  simp only [Claims.overflowed, FInfo.overflow, listed.max, listed.infinity, listed.nan, FInfo.infBits, FInfo.signBit]
  rcases kind with ⟨inf, w, -⟩ | ⟨inf, w, -⟩ | ⟨inf, w⟩ <;> simp only [inf, w] <;> cases rm <;> cases neg <;> cases sat <;> rfl

/-- An encoding is its value (R60). -/
theorem Listed.decode_value (x : Nat) (h : Claims.num (p.1.decode x) ≠ none) : Claims.num (p.1.decode x) =
    some ((if x.testBit (p.1.w - 1) then -1 else 1) * (if x / 2 ^ p.1.f % 2 ^ p.1.eb = 0 then ((x % 2 ^ p.1.f : ℕ) : ℚ) / 2 ^ p.1.f * (2 : ℚ) ^ (1 - (p.1.bias : ℤ))
      else (1 + ((x % 2 ^ p.1.f : ℕ) : ℚ) / 2 ^ p.1.f) * (2 : ℚ) ^ (((x / 2 ^ p.1.f % 2 ^ p.1.eb : ℕ) : ℤ) - p.1.bias))) := by
  have pos : (0 : ℚ) < 2 ^ p.1.f := by positivity
  rw [listed.shape.decode_of_num h, FInfo.fields]
  split
  next e =>
    rw [Claims.num, zpow_sub₀ two_ne_zero _ (p.1.f : ℤ), zpow_natCast]
    congr 1
    ring
  next e =>
    rw [Claims.num, zpow_sub₀ two_ne_zero _ (p.1.f : ℤ), zpow_natCast]
    congr 1
    push_cast
    field_simp
    rw [add_comm]

/-- An exact number at a format of the table (R60, R72, R75 to R78). -/
theorem Listed.round_result (rm : RMode) (sat : Bool) {g : Nat} {x : Real'} (exact : x.sticky = false) :
    let i := p.1
    let max : ℚ := (Claims.num (i.decode p.2.1)).getD 0
    let normal : ℚ := (Claims.num (i.decode p.2.2.1)).getD 0
    let X := Claims.exactly x
    let r := i.round rm sat g x
    let sign := if x.neg then 2 ^ (i.w - 1) else 0
    (x.n = 0 → r = (sign, 0)) ∧
    (x.n ≠ 0 → Claims.Precise i true X → |X| ≤ max → r.1 < 2 ^ i.w ∧ Claims.num (i.decode r.1) = some X ∧ r.2 = 0) ∧
    (x.n ≠ 0 → Claims.Precise i true X → max < |X| → r = (Claims.overflowed p rm sat x.neg, flOF ||| flNX)) ∧
    (∀ lo hi, Claims.Neighbours i true lo X hi →
      let R := Claims.chosen rm g lo X hi
      (max < |R| → r = (Claims.overflowed p rm sat x.neg, flOF ||| flNX)) ∧
      (|R| ≤ max → r.1 < 2 ^ i.w ∧ Claims.num (i.decode r.1) = some R ∧ r.1.testBit (i.w - 1) = x.neg ∧
        (∀ lo' hi', Claims.Neighbours i false lo' X hi' → r.2 = if |Claims.chosen rm g lo' X hi'| < normal then flUF ||| flNX else flNX) ∧
        (Claims.Precise i false X → r.2 = if |X| < normal then flUF ||| flNX else flNX))) := by
  intro i max normal X r sign
  have max_eq : max = i.maxSize := listed.max_eq
  have normal_eq : normal = 2 ^ (i.minQ + i.f) := listed.normal_eq
  rw [max_eq, normal_eq]
  refine ⟨round_zero i rm sat g exact, fun hn precise fit => ?_, fun hn precise beyond => ?_, fun lo hi n => ?_⟩
  · obtain ⟨lt, value, -, quiet⟩ := (round_precise listed.shape rm sat exact hn precise).fits fit
    exact ⟨lt, value, quiet⟩
  · rw [listed.overflow_eq]
    exact (round_precise listed.shape rm sat exact hn precise).overflows beyond
  · have hn : x.n ≠ 0 := by
      intro zero
      refine neighbours_not_precise n ?_
      have precise := precise_grid (i := i) (low := true) (z := 0) (q := i.minQ) (by simp) fun _ => le_rfl
      rwa [Int.cast_zero, zero_mul, ← show X = 0 by simp [X, Claims.exactly, zero]] at precise
    have result := round_neighbours listed.shape rm sat exact hn n (g := g)
    rw [listed.overflow_eq]
    refine ⟨result.overflows, fun fit => ?_⟩
    obtain ⟨lt, value, sign, flags⟩ := result.fits fit
    refine ⟨lt, value, sign, fun lo' hi' n' => flags.trans ?_, fun precise => flags.trans ?_⟩
    · exact if_congr (tiny_neighbours rm exact hn n') rfl rfl
    · exact if_congr (tiny_precise rm exact hn precise) rfl rfl
end

end Sys2Proof.Machine
end

section
namespace Sys2Proof.Machine
open Sys2Proof

/-! ### Sums and products before they are rounded (R62, R76, R77, R95, R115) -/

theorem exactly_realOf (a e : ℤ) (z : Bool) : Claims.exactly (realOf a e z) = (a : ℚ) * 2 ^ e := by
  rw [Claims.exactly, realOf]
  dsimp only
  rcases lt_trichotomy a 0 with neg | rfl | pos
  · have size : (a.natAbs : ℚ) = -a := by rw [Nat.cast_natAbs, abs_of_neg neg, Int.cast_neg]
    rw [if_neg neg.ne, decide_eq_true neg, if_pos rfl, size]
    ring
  · simp
  · have size : (a.natAbs : ℚ) = a := by rw [Nat.cast_natAbs, abs_of_pos pos]
    rw [if_neg pos.ne', decide_eq_false pos.not_gt, if_neg Bool.false_ne_true, size, one_mul]

theorem realOf_zero {a e : ℤ} {z : Bool} (h : Claims.exactly (realOf a e z) = 0) : (realOf a e z).neg = z := by
  rw [exactly_realOf, mul_eq_zero, or_iff_left (zpow_two_pos e).ne'] at h
  exact if_pos (by exact_mod_cast h)

/-- The sum of two numbers as the real that is rounded. -/
theorem exists_sum (i : FInfo) (rm : RMode) (sat : Bool) (g : Nat) (s t : Bool) (m n : Nat) (e f : ℤ) :
    ∃ x : Real', x.sticky = false ∧ Claims.exactly x = (signed s m : ℚ) * 2 ^ e + (signed t n : ℚ) * 2 ^ f ∧
      (Claims.exactly x = 0 → x.neg = if s = t then s else rm == .rdn) ∧
      i.round rm sat g (realOf (dyAdd (signed s m) e (signed t n) f).1 (dyAdd (signed s m) e (signed t n) f).2 (if s = t then s else zeroNeg rm)) = i.round rm sat g x := by
  refine ⟨_, rfl, ?_, fun zero => ?_, rfl⟩
  · rw [exactly_realOf, dyAdd_value]
  · rw [realOf_zero zero, zeroNeg_eq]

theorem signed_mul (s t : Bool) (m n : Nat) : (signed (s != t) (m * n) : ℚ) = signed s m * signed t n := by
  cases s <;> cases t <;> simp [signed]

theorem exactly_mk (s : Bool) (m : Nat) (e : ℤ) : Claims.exactly ⟨s, m, e, false⟩ = (signed s m : ℚ) * 2 ^ e := by
  cases s <;> simp [Claims.exactly, signed]

theorem mul_value (s t : Bool) (m n : Nat) (e f : ℤ) : (signed (s != t) (m * n) : ℚ) * 2 ^ (e + f) = signed s m * 2 ^ e * (signed t n * 2 ^ f) := by
  rw [signed_mul, zpow_add₀ two_ne_zero]
  ring

/-- R60, R72, R75 to R78 at every format of the table. -/
theorem rounding : Claims.Rounding := by
  intro p hp
  have listed := formatTable_listed p hp
  refine ⟨fun x _ => listed.decode_value x, fun rm sat g x exact _ => listed.round_result rm sat exact, fun rm sat g s t m n e f => ⟨?_, ?_, fun u k q => ?_⟩, ?_⟩
  · rw [num_fin, num_fin]
    exact exists_sum p.1 rm sat g s t m n e f
  · rw [num_fin, num_fin]
    exact ⟨⟨s != t, m * n, e + f, false⟩, rfl, (exactly_mk ..).trans (mul_value ..), rfl, rfl⟩
  · rw [num_fin, num_fin, num_fin]
    simp only [Option.getD_some, ← mul_value]
    obtain ⟨x, exact, value, zero, run⟩ := exists_sum p.1 rm sat g (s != t) u (m * n) k (e + f) q
    refine ⟨x, exact, value, fun z => (zero z).trans ?_, run⟩
    split
    next same => exact same
    next => rfl
  · intro rm sat g v s nan hnan
    have width : p.1.w ≠ 4 := by
      intro w
      rw [listed.nan, if_pos w] at hnan
      cases hnan
    have code : p.1.nanBits = nan := by
      rw [listed.nan, if_neg width] at hnan
      exact Option.some.inj hnan
    have canonical : p.1.deliver rm sat g .nan = (nan, 0) := by rw [FInfo.deliver, code, if_neg width]
    have invalid : p.1.invalid = (nan, flNV) := by rw [FInfo.invalid, code]
    refine ⟨?_, ?_, ?_, ?_, ?_, fun t e => ⟨?_, ?_⟩, fun inf hinf => ?_⟩
    · exact canonical
    · cases v <;> exact canonical
    · exact canonical
    · cases v <;> exact canonical
    · cases s <;> exact invalid
    · exact invalid
    · exact invalid
    · have has : p.1.inf = true := by
        rw [listed.infinity] at hinf
        split at hinf
        next e => exact e
        next => cases hinf
      rw [listed.infinity, if_pos has] at hinf
      obtain rfl := Option.some.inj hinf
      rw [FInfo.add, if_pos rfl, FInfo.deliverInf, if_pos has, FInfo.infBits, FInfo.signBit]

end Sys2Proof.Machine
end

section
namespace Sys2Proof.Machine
open Sys2Proof

/-! ### The image of a block and its scale (R65, R66) -/

/-- A lane of a list of lanes with something above them. -/
theorem ofLanes_lane {w : Nat} {l : List Nat} (c : Nat) {j : Nat} (hj : j < l.length) :
    (ofLanes w l + c * 2 ^ (l.length * w)) / 2 ^ (w * j) % 2 ^ w = l.getD j 0 % 2 ^ w := by
  have inside : w * j + w ≤ w * l.length := by
    rw [← Nat.mul_succ]
    exact Nat.mul_le_mul_left _ hj
  refine Nat.eq_of_testBit_eq fun b => ?_
  rw [Nat.testBit_mod_two_pow, Nat.testBit_mod_two_pow, ← Nat.shiftRight_eq_div_pow, Nat.testBit_shiftRight]
  by_cases hb : b < w
  · have pos : 0 < w := by omega
    rw [Nat.add_comm, Nat.mul_comm c, Nat.mul_comm l.length, Nat.testBit_two_pow_mul_add _ (ofLanes_lt w l), if_pos (by omega), testBit_ofLanes pos,
      Nat.mul_add_div pos, Nat.div_eq_of_lt hb, Nat.add_zero, Nat.mul_add_mod, Nat.mod_eq_of_lt hb]
  · simp [hb]

theorem ofLanes_above {w : Nat} {l : List Nat} (c : Nat) : (ofLanes w l + c * 2 ^ (l.length * w)) / 2 ^ (w * l.length) = c := by
  rw [Nat.mul_comm l.length, Nat.add_mul_div_right _ _ (Nat.two_pow_pos _), Nat.div_eq_of_lt (ofLanes_lt w l), Nat.zero_add]

/-- The exponent of a value's leading bit, where it has one. -/
def topOf : FVal → Option ℤ
  | .fin _ m x => if m = 0 then none else some (log2floor m x)
  | _ => none

/-- The scale byte of a block that holds no NaN (R66). -/
def blockScale (f : Fmt) (vs : List FVal) : ℤ :=
  min (max ((match vs.filterMap topOf with | [] => 0 | t :: ts => ts.foldl max t - blockEmax f) + 127) 0) 254

/-- Its elements with their flags. -/
def blockParts (f : Fmt) (v : Env) (vs : List FVal) : List (Nat × FFlags) := vs.mapIdx fun j x => quantElem f v j (blockScale f vs - 127) x

theorem any_isNan {vs : List FVal} : vs.any FVal.isNan = true ↔ ∃ x ∈ vs, x = .nan := by
  rw [List.any_eq_true]
  refine exists_congr fun x => and_congr_right fun _ => ?_
  cases x <;> simp [FVal.isNan]

theorem quantBlock_nan {f : Fmt} {v : Env} {vs : List FVal} (h : ∃ x ∈ vs, x = .nan) : quantBlock f v vs = (255 * 2 ^ (32 * blockW f), flNANSC) :=
  if_pos (any_isNan.2 h)

theorem quantBlock_eq {f : Fmt} {v : Env} {vs : List FVal} (h : ∀ x ∈ vs, x ≠ .nan) : quantBlock f v vs =
    (ofLanes (blockW f) ((blockParts f v vs).map (·.1)) + (blockScale f vs).toNat * 2 ^ (32 * blockW f), (blockParts f v vs).foldl (fun t r => t ||| r.2) 0) := by
  have none_nan : ¬vs.any FVal.isNan = true := by
    rw [any_isNan]
    rintro ⟨x, hx, e⟩
    exact h x hx e
  exact if_neg none_nan

theorem blockScale_toNat (f : Fmt) (vs : List FVal) : ((blockScale f vs).toNat : ℤ) = blockScale f vs := by
  rw [Int.toNat_of_nonneg]
  unfold blockScale
  omega

/-! #### The scale -/

theorem foldl_max_greatest {k t : ℤ} {ts : List ℤ} (mem : k ∈ t :: ts) (le : ∀ u ∈ t :: ts, u ≤ k) : ts.foldl max t = k := by
  induction ts generalizing t with
  | nil => exact (List.mem_singleton.1 mem).symm
  | cons u ts ih =>
    have t_le := le t (by simp)
    have u_le := le u (by simp)
    refine ih ?_ fun w hw => ?_
    · rcases List.mem_cons.1 mem with rfl | mem
      · simp [max_eq_left u_le]
      · rcases List.mem_cons.1 mem with rfl | mem
        · simp [max_eq_right t_le]
        · exact List.mem_cons_of_mem _ mem
    · rcases List.mem_cons.1 hw with rfl | hw
      · exact max_le t_le u_le
      · exact le w (by simp [hw])

/-- The largest exponent decides the scale; without one it is 127. -/
theorem blockScale_of_max {f : Fmt} {vs : List FVal} {k : ℤ} (mem : k ∈ vs.filterMap topOf) (le : ∀ u ∈ vs.filterMap topOf, u ≤ k) :
    blockScale f vs = min (max (k - blockEmax f + 127) 0) 254 := by
  rw [blockScale]
  cases e : vs.filterMap topOf with
  | nil => simp [e] at mem
  | cons t ts =>
    rw [e] at mem le
    dsimp only
    rw [foldl_max_greatest mem le]

theorem blockScale_of_none {f : Fmt} {vs : List FVal} (h : ∀ x ∈ vs, topOf x = none) : blockScale f vs = 127 := by
  rw [blockScale, List.filterMap_eq_nil_iff.2 h]
  rfl

/-- A value with a leading bit is as large as that. -/
theorem topOf_some {x : FVal} {t : ℤ} (h : topOf x = some t) : ∃ y, Claims.num x = some y ∧ (2 : ℚ) ^ t ≤ |y| ∧ |y| < 2 ^ (t + 1) := by
  match x, h with
  | .fin s m e, h =>
    simp only [topOf] at h
    split at h
    · cases h
    next nonzero =>
      obtain rfl := Option.some.inj h
      let r : Real' := ⟨s, m, e, false⟩
      refine ⟨Claims.exactly r, ?_, ?_, ?_⟩
      · rw [num_fin, exactly_mk]
      · rw [abs_exactly]
        exact Real'.top_le_size (x := r) nonzero
      · rw [abs_exactly]
        exact r.size_lt

/-- One without is 0, where it is a number. -/
theorem topOf_none {x : FVal} (h : topOf x = none) {y : ℚ} (hy : Claims.num x = some y) : y = 0 := by
  match x, h, hy with
  | .fin s m e, h, hy =>
    simp only [topOf] at h
    split at h
    next zero =>
      rw [num_fin, zero] at hy
      obtain rfl := Option.some.inj hy
      cases s <;> simp [signed]
    · cases h

section
variable {f : Fmt} {vs : List FVal} {a : ℚ} (has : ∃ x ∈ vs, ∃ y, Claims.num x = some y ∧ |y| = a) (most : ∀ b, (∃ x ∈ vs, ∃ y, Claims.num x = some y ∧ |y| = b) → b ≤ a)
include most

theorem blockScale_zero (zero : a = 0) : blockScale f vs = 127 := by
  refine blockScale_of_none fun x hx => ?_
  by_contra some_top
  obtain ⟨t, ht⟩ := Option.ne_none_iff_exists'.1 some_top
  obtain ⟨y, hy, low, -⟩ := topOf_some ht
  have le := most |y| ⟨x, hx, y, hy, rfl⟩
  linarith [zpow_two_pos t]

include has in
theorem blockScale_eq {k : ℤ} (low : (2 : ℚ) ^ k ≤ a) (high : a < 2 ^ (k + 1)) : blockScale f vs = min (max (k - blockEmax f + 127) 0) 254 := by
  refine blockScale_of_max ?_ fun u hu => ?_
  · obtain ⟨x, hx, y, hy, rfl⟩ := has
    refine List.mem_filterMap.2 ⟨x, hx, ?_⟩
    cases ht : topOf x with
    | none =>
      rw [topOf_none ht hy, abs_zero] at low
      exact absurd low (zpow_two_pos k).not_ge
    | some t =>
      obtain ⟨y', hy', low', high'⟩ := topOf_some ht
      obtain rfl := Option.some.inj (hy.symm.trans hy')
      have below := (zpow_lt_zpow_iff_right₀ one_lt_two).1 (low.trans_lt high')
      have above := (zpow_lt_zpow_iff_right₀ one_lt_two).1 (low'.trans_lt high)
      congr 1
      omega
  · obtain ⟨x, hx, ht⟩ := List.mem_filterMap.1 hu
    obtain ⟨y, hy, low', -⟩ := topOf_some ht
    have le := most |y| ⟨x, hx, y, hy, rfl⟩
    have above := (zpow_lt_zpow_iff_right₀ one_lt_two).1 ((low'.trans le).trans_lt high)
    omega
end

end Sys2Proof.Machine
end

section
namespace Sys2Proof.Machine
open Sys2Proof

/-! ### The elements of a block and their flags (R66, R78) -/

/-- The flags of a rounding: none, or inexact, and then tiny or beyond the largest number. -/
theorem round_flags (i : FInfo) (rm : RMode) (sat : Bool) (g : Nat) {x : Real'} (exact : x.sticky = false) :
    (i.round rm sat g x).2 ∈ [0, flNX, flUF ||| flNX, flOF ||| flNX] := by
  by_cases hn : x.n = 0
  · rw [round_zero i rm sat g exact hn]
    simp
  · rw [round_eq i rm sat g hn]
    split_ifs <;> simp

/-- A saturating rounding delivers a code of the format. -/
theorem FInfo.Shape.round_lt {i : FInfo} (shape : i.Shape) (rm : RMode) (g : Nat) {x : Real'} (exact : x.sticky = false) : (i.round rm true g x).1 < 2 ^ i.w := by
  by_cases hn : x.n = 0
  · rw [round_zero i rm true g exact hn]
    simpa using shape.signed_lt x.neg (c := 0) (Nat.zero_le _)
  · obtain ⟨t, quanta⟩ := quantum_quanta rm g (i.gridQ x) exact
    rw [round_eq i rm true g hn]
    split
    · have saturated : i.overflow rm true x.neg = i.signBit x.neg + i.maxBits := by simp [FInfo.overflow]
      rw [saturated]
      exact shape.signed_lt x.neg le_rfl
    next fits => exact shape.signed_lt x.neg (shape.encodeMag_le (quanta.fits hn) (by simpa using fits))

theorem blockElem_shape {f : Fmt} {o : FInfo} (h : blockElem f = some o) : o.Shape ∧ o.w = blockW f := by
  have listed (n : Nat) {p : FInfo × Nat × Nat × Option Nat × Option Nat} (mem : Claims.formatTable[n]? = some p) : p.1.Shape :=
    (formatTable_listed p (List.mem_of_getElem? mem)).shape
  unfold blockElem at h
  split at h
  · obtain rfl := Option.some.inj h
    exact ⟨(listed 4 rfl :), rfl⟩
  · obtain rfl := Option.some.inj h
    exact ⟨(listed 5 rfl :), rfl⟩
  · obtain rfl := Option.some.inj h
    exact ⟨(listed 6 rfl :), rfl⟩
  · cases h

/-! #### Flags -/

/-- Flags that no element of a list has, none has together. -/
theorem foldl_or_and_eq_zero (c : FFlags) (l : List (Nat × FFlags)) (a : FFlags) :
    l.foldl (fun t r => t ||| r.2) a &&& c = 0 ↔ a &&& c = 0 ∧ ∀ r ∈ l, r.2 &&& c = 0 := by
  induction l generalizing a with
  | nil => simp
  | cons r l ih =>
    have distrib : (a ||| r.2) &&& c = (a &&& c) ||| (r.2 &&& c) := by
      ext b
      simp [Bool.and_or_distrib_right]
    rw [List.foldl_cons, ih, distrib, List.forall_mem_cons, ← and_assoc]
    exact and_congr_left fun _ => BitVec.or_eq_zero_iff

/-- An element that is no infinity is inexact at most, and tiny. -/
theorem quantElem_flags {f : Fmt} {e : Env} {j : Nat} {s : ℤ} {v : FVal} (h : ∀ neg, v ≠ .inf neg) : (quantElem f e j s v).2 ∈ [0, flNX, flUF ||| flNX] := by
  unfold quantElem
  split
  · simp
  next neg _ _ => exact absurd rfl (h neg)
  next neg _ => exact absurd rfl (h neg)
  next neg m x o _ =>
    have flags := round_flags o e.rm true (e.g j) (x := ⟨neg, m, x - s, false⟩) rfl
    dsimp only
    generalize (o.round e.rm true (e.g j) ⟨neg, m, x - s, false⟩).2 = fl at flags
    fin_cases flags <;> decide
  next =>
    dsimp only
    split_ifs <;> simp

theorem quantElem_inf_flags (f : Fmt) (e : Env) (j : Nat) (s : ℤ) (neg : Bool) : (quantElem f e j s (.inf neg)).2 = flINFCLIP := by
  unfold quantElem
  cases blockElem f <;> rfl

section
variable {f : Fmt} {v : Env} {vs : List FVal}

/-- INFCLIP says that an infinity was clipped. -/
theorem blockParts_infclip : (blockParts f v vs).foldl (fun t r => t ||| r.2) 0 &&& flINFCLIP ≠ 0 ↔ ∃ x ∈ vs, ∃ neg, x = .inf neg := by
  have start : (0 : FFlags) &&& flINFCLIP = 0 := rfl
  rw [Ne, foldl_or_and_eq_zero, not_and]
  simp only [start, true_implies, blockParts, List.mem_mapIdx, not_forall]
  constructor
  · rintro ⟨r, ⟨j, hj, rfl⟩, clip⟩
    refine ⟨vs[j], List.getElem_mem hj, ?_⟩
    by_contra finite
    have flags := quantElem_flags (f := f) (e := v) (j := j) (s := blockScale f vs - 127) (v := vs[j]) fun neg e => finite ⟨neg, e⟩
    generalize (quantElem f v j (blockScale f vs - 127) vs[j]).2 = fl at flags clip
    fin_cases flags <;> exact clip rfl
  · rintro ⟨x, hx, neg, rfl⟩
    obtain ⟨j, hj, e⟩ := List.getElem_of_mem hx
    refine ⟨_, ⟨j, hj, rfl⟩, ?_⟩
    rw [e, quantElem_inf_flags]
    decide

/-- The flags that no element raises. -/
theorem blockParts_quiet {c : FFlags} (h : ∀ fl ∈ [0, flNX, flUF ||| flNX, flINFCLIP], fl &&& c = 0) :
    (blockParts f v vs).foldl (fun t r => t ||| r.2) 0 &&& c = 0 := by
  rw [foldl_or_and_eq_zero]
  refine ⟨BitVec.zero_and, fun r hr => ?_⟩
  obtain ⟨j, hj, rfl⟩ := List.mem_mapIdx.1 hr
  apply h
  by_cases inf : ∃ neg, vs[j] = .inf neg
  · obtain ⟨neg, e⟩ := inf
    rw [e, quantElem_inf_flags]
    simp
  · have flags := quantElem_flags (f := f) (e := v) (j := j) (s := blockScale f vs - 127) (v := vs[j]) fun neg e => inf ⟨neg, e⟩
    exact List.mem_append_left [flINFCLIP] flags

/-! #### Elements -/

variable (len : vs.length = 32)
include len

theorem quantBlock_elem (none_nan : ∀ x ∈ vs, x ≠ .nan) {j : Nat} {x : FVal} (hx : vs[j]? = some x) :
    (quantBlock f v vs).1 / 2 ^ (blockW f * j) % 2 ^ blockW f = (quantElem f v j (blockScale f vs - 127) x).1 % 2 ^ blockW f := by
  have inside : j < ((blockParts f v vs).map (·.1)).length := by
    simpa [blockParts] using (List.getElem?_eq_some_iff.1 hx).1
  have size : 32 = ((blockParts f v vs).map (·.1)).length := by simp [blockParts, len]
  have value : ((blockParts f v vs).map (·.1)).getD j 0 = (quantElem f v j (blockScale f vs - 127) x).1 := by
    simp [List.getD, blockParts, hx]
  rw [quantBlock_eq none_nan]
  conv_lhs => rw [size]
  rw [ofLanes_lane _ inside, value]

theorem quantBlock_scale (none_nan : ∀ x ∈ vs, x ≠ .nan) : (quantBlock f v vs).1 / 2 ^ (blockW f * 32) = (blockScale f vs).toNat := by
  have size : 32 = ((blockParts f v vs).map (·.1)).length := by simp [blockParts, len]
  rw [quantBlock_eq none_nan]
  conv_lhs => rw [size]
  exact ofLanes_above _
end

end Sys2Proof.Machine
end

section
namespace Sys2Proof.Machine
open Sys2Proof

/-! ### Block quantisation (R65, R66) -/

/-- Rounding to an integer takes the number itself or the mode's choice of its two neighbours. -/
theorem roundInt_eq (rm : RMode) (g : Nat) {x : Real'} (exact : x.sticky = false) :
    let y := Claims.exactly x
    let n := y.floor
    (roundInt rm g x).1 = if y = n then n else if Claims.chosen rm g n y (n + 1) = n then n else n + 1 := by
  intro y n
  obtain ⟨t, quanta⟩ := quantum_quanta rm g 0 exact
  have result : (roundInt rm g x).1 = signed x.neg (if (quantum rm g x 0).2.2 then (quantum rm g x 0).1 + 1 else (quantum rm g x 0).1) := rfl
  rw [result]
  cases inexact : (quantum rm g x 0).2.1 with
  | false =>
    have value := quanta.exactly_of_exact inexact
    rw [zpow_zero, mul_one] at value
    have floor : n = signed x.neg (quantum rm g x 0).1 := by
      change ⌊y⌋ = _
      rw [show y = _ from value, Int.floor_intCast]
    rw [quanta.up_of_exact inexact, floor, if_neg Bool.false_ne_true, if_pos value]
  | true =>
    obtain ⟨lo, hi, chosen⟩ := quanta.between inexact
    rw [zpow_zero, mul_one, mul_one] at chosen
    rw [zpow_zero, mul_one] at lo hi
    have floor : n = stepsBelow x.neg (quantum rm g x 0).1 := Int.floor_eq_iff.2 ⟨lo.le, hi⟩
    have not_int : ¬y = ((stepsBelow x.neg (quantum rm g x 0).1 : ℤ) : ℚ) := lo.ne'
    rw [floor, if_neg not_int, chosen, mul_one]
    generalize (quantum rm g x 0).1 = k
    generalize (quantum rm g x 0).2.2 = up
    have same : ((signed x.neg (if up then k + 1 else k) : ℤ) : ℚ) = (stepsBelow x.neg k : ℤ) ↔ signed x.neg (if up then k + 1 else k) = stepsBelow x.neg k := Int.cast_inj
    simp only [same]
    unfold signed stepsBelow
    cases x.neg <;> cases up <;> simp
    omega

/-- An 8-bit element of a clamped integer is that integer. -/
theorem wrapN_clamped (n : ℤ) : (BitVec.ofNat 8 (wrapN 8 (max (-127) (min 127 n)))).toInt = max (-127) (min n 127) := by
  rw [wrapN_eq, BitVec.ofNat_toNat, BitVec.setWidth_eq, min_comm 127 n]
  exact BitVec.toInt_ofInt_eq_self (by decide) (by norm_num) (by norm_num)

/-- R65 and R66 for a block that holds a NaN. -/
theorem quantBlock_nan_image {f : Fmt} {v : Env} {vs : List FVal} (h : ∃ x ∈ vs, x = .nan) :
    (quantBlock f v vs).1 / 2 ^ (blockW f * 32) = 255 ∧ (∀ j, j < 32 → (quantBlock f v vs).1 / 2 ^ (blockW f * j) % 2 ^ blockW f = 0) ∧ (quantBlock f v vs).2 = flNANSC := by
  have zeros : ofLanes (blockW f) (List.replicate 32 0) = 0 := by
    have low := ofLanes_replicate_zero (blockW f) 32 []
    rwa [List.append_nil, ofLanes, Nat.zero_mul] at low
  have image : (quantBlock f v vs).1 = ofLanes (blockW f) (List.replicate 32 0) + 255 * 2 ^ ((List.replicate 32 0).length * blockW f) := by
    rw [quantBlock_nan h, zeros, Nat.zero_add]
    rfl
  refine ⟨?_, fun j hj => ?_, by rw [quantBlock_nan h]⟩
  · rw [image]
    exact ofLanes_above 255
  · rw [image, ofLanes_lane 255 (by simpa using hj)]
    simp only [List.getD, List.getElem?_replicate, hj, if_true, Option.getD_some, Nat.zero_mod]

/-- A rounded element is a code of its format, and stays what it is in the image. -/
theorem quantElem_fin {f : Fmt} {o : FInfo} (h : blockElem f = some o) (v : Env) (j : Nat) (s : ℤ) (neg : Bool) (m : Nat) (x : ℤ) :
    (quantElem f v j s (.fin neg m x)).1 % 2 ^ blockW f = (o.round v.rm true (v.g j) ⟨neg, m, x - s, false⟩).1 := by
  obtain ⟨shape, width⟩ := blockElem_shape h
  have code := shape.round_lt v.rm (v.g j) (x := ⟨neg, m, x - s, false⟩) rfl
  rw [width] at code
  simp only [quantElem, h]
  exact Nat.mod_eq_of_lt code

/-- An INT8 element is the rounded number, clamped. -/
theorem quantElem_int {f : Fmt} (h : blockElem f = none) (w : blockW f = 8) (v : Env) (j : Nat) (s : ℤ) {x : FVal} {X : ℚ} (hx : Claims.num x = some X) :
    let y := X * (2 : ℚ) ^ (-s)
    let n := y.floor
    let R : ℤ := if y = n then n else if Claims.chosen v.rm (v.g j) n y (n + 1) = n then n else n + 1
    (BitVec.ofNat 8 ((quantElem f v j s x).1 % 2 ^ blockW f)).toInt = max (-127) (min R 127) := by
  match x, hx with
  | .fin neg m e, hx =>
    rw [num_fin] at hx
    obtain rfl := Option.some.inj hx
    intro y n R
    have value : Claims.exactly ⟨neg, m, e - s, false⟩ = y := by
      rw [exactly_mk, sub_eq_add_neg, zpow_add₀ two_ne_zero, ← mul_assoc]
    have result : (roundInt v.rm (v.g j) ⟨neg, m, e - s, false⟩).1 = R := by
      have eq := roundInt_eq v.rm (v.g j) (x := ⟨neg, m, e - s, false⟩) rfl
      rw [value] at eq
      exact eq
    have elem : (quantElem f v j s (.fin neg m e)).1 = wrapN 8 (max (-127) (min 127 R)) := by
      rw [← result]
      simp only [quantElem, h]
    have drop (a : Nat) : BitVec.ofNat 8 (a % 2 ^ 8) = BitVec.ofNat 8 a :=
      BitVec.eq_of_toNat_eq (by rw [BitVec.toNat_ofNat, BitVec.toNat_ofNat, Nat.mod_mod])
    rw [elem, w, drop, wrapN_clamped]

/-- R65, R66. -/
theorem quantising : Claims.Quantising := by
  intro f v vs hf len
  have width : (if f = .bx4 then 4 else 8) = blockW f := rfl
  intro w emax r elem e
  have emax_eq : emax = blockEmax f := rfl
  refine ⟨fun has_nan => quantBlock_nan_image has_nan, fun none_nan => ?_⟩
  have scale : e = (blockScale f vs).toNat := quantBlock_scale len none_nan
  have scale' : (e : ℤ) = blockScale f vs := by rw [scale, blockScale_toNat]
  have element {j : Nat} {x : FVal} (hx : vs[j]? = some x) : elem j = (quantElem f v j ((e : ℤ) - 127) x).1 % 2 ^ blockW f := by
    rw [scale']
    exact quantBlock_elem len none_nan hx
  have flags : r.2 = (blockParts f v vs).foldl (fun t r => t ||| r.2) 0 := by rw [show r = _ from quantBlock_eq none_nan]
  intro fin
  refine ⟨fun a has most => ⟨fun zero => ?_, fun k low high => ?_⟩, fun none => ?_, fun j neg hx => ?_, fun o j neg m x ho hx => ?_, fun int j X hX => ?_, ?_, ?_, ?_, ?_⟩
  · rw [scale, blockScale_zero most zero]
    rfl
  · rw [scale', blockScale_eq has most low high, emax_eq]
  · have tops : ∀ x ∈ vs, topOf x = Option.none := by
      intro x hx
      by_contra some_top
      obtain ⟨t, ht⟩ := Option.ne_none_iff_exists'.1 some_top
      obtain ⟨y, hy, -⟩ := topOf_some ht
      simp [none x hx] at hy
    rw [scale, blockScale_of_none tops]
    rfl
  · rw [element hx]
    rcases hf with rfl | rfl | rfl | rfl <;> cases neg <;> rfl
  · have format : blockElem f = some o := by rcases ho with ⟨rfl, rfl⟩ | ⟨rfl, rfl⟩ | ⟨rfl, rfl⟩ <;> rfl
    rw [element hx, quantElem_fin format]
  · obtain ⟨x, hx, num⟩ := Option.bind_eq_some_iff.1 hX
    have place : (127 : ℤ) - e = -((e : ℤ) - 127) := by ring
    rw [element hx, place]
    subst int
    exact quantElem_int rfl rfl v j _ num
  · rw [flags]
    exact blockParts_infclip
  · rw [flags]
    exact blockParts_quiet (by decide)
  · rw [flags]
    exact blockParts_quiet (by decide)
  · rw [flags]
    exact blockParts_quiet (by decide)

/-! ### The counter generator (R128, R129) -/

/-- A word and its upper part together. -/
theorem toNat_mix (x : BitVec 32) (n : Nat) : (x ^^^ (x >>> n)).toNat = x.toNat ^^^ (x.toNat >>> n) := by rw [BitVec.toNat_xor, BitVec.toNat_ushiftRight]

theorem toNat_first_factor (x : BitVec 32) : (x * 0x6C8E9CF5#32).toNat = x.toNat * 0x6C8E9CF5 % 2 ^ 32 := BitVec.toNat_mul x _
theorem toNat_second_factor (x : BitVec 32) : (x * 0x9E4D2B57#32).toNat = x.toNat * 0x9E4D2B57 % 2 ^ 32 := BitVec.toNat_mul x _

/-- The generator on words. -/
theorem genG_eq (key ctr : BitVec 32) :
    let x0 := ctr + key
    let x1 := x0 ^^^ (x0 >>> 16)
    let x2 := x1 * 0x6C8E9CF5#32
    let x3 := x2 ^^^ (x2 >>> 15)
    let x4 := x3 * 0x9E4D2B57#32
    genG key.toNat ctr.toNat = (x4 ^^^ (x4 >>> 16)).toNat := by
  intro x0 x1 x2 x3 x4
  rw [toNat_mix, toNat_second_factor, toNat_mix, toNat_first_factor, toNat_mix, BitVec.toNat_add, genG]

/-- Settles O19: the rounding by floors on the grid of the format, the blocks by their largest exponent, and the generator on words. -/
theorem generatorAndRounding : Obligations.GeneratorAndRounding := by
  refine ⟨rounding, quantising, fun key ctr => ?_, fun s f d a b m z x y c1 c2 h hp ha hb => ?_⟩
  · intro x0 x1 x2 x3 x4
    rw [genG_eq]
    exact ⟨by rw [BitVec.ofNat_toNat, BitVec.setWidth_eq], BitVec.isLt _⟩
  · refine gives_plain (body := bodyVrnd f d a b) h rfl ((s.me_ready.readS ha).readS hb) ?_
    simp only [bodyVrnd, hp, ha, hb, bind, Except.bind, Nat.mod_add_mod]

end Sys2Proof.Machine
end

section
namespace Sys2Proof.Machine
open Sys2Proof

/-! ### The core of an instruction that has read its operands (R34, R103) -/

/-- Reading an operand keeps the timelines. -/
theorem Core.readS_tls {c c' : Core} {r : Reg} {x : Word} (h : c.readS r = .ok (x, c')) : c'.bank.tls = c.bank.tls := by
  unfold Core.readS at h
  simp only at h
  split at h
  · split at h
    · simp at h
    · split at h <;> simp at h; rw [h.2]
  · split at h <;> simp at h; rw [← h.2]; rfl

theorem Core.tl_congr {c c' : Core} (h : c'.bank.tls = c.bank.tls) (n : Nat) : c'.tl n = c.tl n := by rw [Core.tl, Core.tl, h]

section
variable {s : State} {c : Core} (hc : c = { s.me with bank := c.bank })
include hc

/-- What has been read of a core's operands bears on no check of an address. -/
theorem State.windowKey_operands (ls : Bool) (x : Nat) : (s.setCore s.cur c).windowKey s.cur ls x = s.windowKey s.cur ls x := by
  have run : c.run = (s.core s.cur).run := (congrArg Core.run hc :)
  have alloc (l : Nat) : c.alloc l = (s.core s.cur).alloc l := (congrArg (Core.alloc · l) hc :)
  simp only [State.windowKey, State.core_setCore_same, run, alloc]
  rfl

theorem State.lookup_operands (va : Nat) : (s.setCore s.cur c).lookup s.cur false va = s.lookup s.cur false va := by
  have dtlb : c.dtlb = (s.core s.cur).dtlb := (congrArg Core.dtlb hc :)
  simp only [State.lookup, State.core_setCore_same, Bool.false_eq_true, reduceIte, dtlb]
  rfl

theorem State.chk34_operands (acc : Access) (va : Nat) : (s.setCore s.cur c).chk34 s.cur acc va = s.chk34 s.cur acc va := by
  have run : c.run = (s.core s.cur).run := (congrArg Core.run hc :)
  simp only [State.chk34, State.windowKey_operands hc, State.lookup_operands hc, State.core_setCore_same, run]
  rfl

/-- A descriptor address that R173 admits passes the check at issue. -/
theorem State.checkDesc_operands {x : Word} {key : Nat} (h : Claims.DescAt s x key) : (s.setCore s.cur c).checkDesc s.cur x = .ok key := by
  obtain ⟨o, window, low, aligned, place⟩ := h
  simp only [State.checkDesc, window, State.windowKey_operands hc, place, ge_iff_le, Nat.not_le.2 low, aligned, ne_eq, not_true_eq_false, reduceIte]
end

/-! ### Posting a tile command (R199, R202, R240) -/

section
variable (u : State) (k tl : Nat) (kind : CmdKind) (a v z : Word)

/-- The tile command that core k posts. -/
def State.tileCmd : Cmd :=
  let c := u.core k
  { newCmd u.serial k (c.run.getD 0) c.coord c.bank.serial (u.partOf k) (u.isSup k) tl ((c.tl tl).issue).1 kind a v z [] with phasec := c.phasec }

/-- The state with that command posted. -/
def State.tilePosted : State :=
  { (u.setCore k ((u.core k).setTl tl ((u.core k).tl tl).issue.2)).tick with cmds := u.cmds ++ [u.tileCmd k tl kind a v z] }

/-- A tile command is posted with its number, after all others. -/
theorem State.post_tile : u.post k tl kind a v z [] false false = (((u.core k).tl tl).issue.1, u.tilePosted k tl kind a v z) := rfl

theorem State.tilePosted_core : (u.tilePosted k tl kind a v z).core k = (u.core k).setTl tl ((u.core k).tl tl).issue.2 :=
  State.core_setCore_same _ _ _
end

/-- A tile command finds room where fewer than 16 are outstanding (R202). -/
theorem stallUnless_room {c : Core} (room : Claims.TileRoom c) : stallUnless (decide (c.tiles < 16)) = .ok () := by
  rw [decide_eq_true (show c.tiles < 16 from room)]
  rfl

theorem stallUnless_full {c : Core} (full : ¬ Claims.TileRoom c) : stallUnless (decide (c.tiles < 16)) = .error .stall := by
  rw [decide_eq_false (show ¬ c.tiles < 16 from full)]
  rfl

theorem State.postTile_room {u : State} {k : Nat} (room : Claims.TileRoom (u.core k)) (kind : CmdKind) (a v : Word) :
    u.postTile k kind a v = .ok (((u.core k).tl 1).issue.1, u.tilePosted k 1 kind a v 0) := by
  rw [State.postTile, stallUnless_room room]
  rfl

theorem State.postTile_full {u : State} {k : Nat} (full : ¬ Claims.TileRoom (u.core k)) (kind : CmdKind) (a v : Word) : u.postTile k kind a v = .error .stall := by
  rw [State.postTile, stallUnless_full full]
  rfl

/-- u is s but for what the current core c has read and the translations that the checks have kept: a command may be posted from it. -/
structure State.Issuing (s : State) (c : Core) (u : State) : Prop where
  operands : c = { s.me with bank := c.bank }
  kept : (s.setCore s.cur c).Aside u s.cur

namespace State.Issuing
variable {s u : State} {c : Core} (o : s.Issuing c u)
include o

theorem offRegs : c.OffRegs (u.core s.cur) := by
  have h := o.kept.offRegs
  rwa [State.core_setCore_same] at h
theorem bank_eq : (u.core s.cur).bank = c.bank := (congrArg Core.bank o.offRegs :)
theorem run_eq : (u.core s.cur).run = c.run := (congrArg Core.run o.offRegs :)
theorem coord_eq : (u.core s.cur).coord = c.coord := (congrArg Core.coord o.offRegs :)
theorem tl_eq (n : Nat) : (u.core s.cur).tl n = c.tl n := Core.tl_congr (congrArg Bank.tls o.bank_eq) n
theorem handles_eq : u.handles = s.handles := (congrArg State.handles o.kept.rest :)
theorem room_iff : Claims.TileRoom (u.core s.cur) ↔ Claims.TileRoom c := by simp only [Claims.TileRoom, o.tl_eq]

/-- The core as the command is posted. -/
theorem posted_core (tl : Nat) (kind : CmdKind) (a v z : Word) :
    (u.tilePosted s.cur tl kind a v z).core s.cur = (u.core s.cur).setTl tl (c.tl tl).issue.2 := by rw [State.tilePosted_core, o.tl_eq]
end State.Issuing

theorem State.me_operands (s : State) : s.me = { s.me with bank := s.me.bank } := rfl

/-- A core that has read operands may issue at once. -/
theorem State.issuing {s : State} {c : Core} (hc : c = { s.me with bank := c.bank }) : s.Issuing c (s.setCore s.cur c) := ⟨hc, .refl _ _⟩

section
variable {s u t : State} {c : Core} (o : s.Issuing c u) {i : Instr} {body : Nat → State → M State} {d : Reg} {tl : Nat} {kind : CmdKind} {a v z : Word} {p : State → Prop}
  (run : exec i s = runSeq i body s) (h : s.Legal i)
include o run h

/-- An instruction whose body posts a tile command, and of its core changes no more than s[d], posts. -/
theorem posts_of (b : body s.cur s.start = .ok t) (cmds : t.cmds = (u.tilePosted s.cur tl kind a v z).cmds) (mem : t.mem = u.mem)
    (core : t.core s.cur = { (u.core s.cur).setTl tl (c.tl tl).issue.2 with s := (t.core s.cur).s, poison := (t.core s.cur).poison, late := (t.core s.cur).late })
    (dest : d ≠ 0 → (t.core s.cur).sreg d.toNat = BitVec.ofNat 64 (c.tl tl).issue.1) (others : ∀ r, r ≠ d.toNat → (t.core s.cur).sreg r = c.sreg r)
    (also : p (s.doneIn t i)) : Claims.Posts s i c d tl kind a v z [] false false p := by
  have off := o.offRegs
  have me := o.operands
  have regs : Claims.RegsBut c (t.core s.cur) d.toNat := by
    rw [core] at others ⊢
    exact ⟨others, (congrArg Core.v off :), (congrArg Core.k off :), (congrArg Core.sys off :), (congrArg Core.shadow off :)⟩
  have tx : (t.core s.cur).txq = [] := by
    rw [core]
    exact off.txq_eq.trans (congrArg Core.txq me :)
  have out : (t.core s.cur).outq = [] := by
    rw [core]
    exact off.outq_eq.trans (congrArg Core.outq me :)
  have done : (s.doneIn t i).core s.cur = ({ t.core s.cur with txq := [] } : Core).advance i.len := State.doneIn_core ..
  refine ⟨s.doneIn t i, u.tileCmd s.cur tl kind a v z, run.trans (runSeq_ok h b tx out), ?_, rfl, rfl, rfl, ?_, rfl, o.coord_eq, rfl, rfl, rfl, rfl, rfl, rfl, rfl, ?_, fun hd => ?_, ?_, ?_,
    mem.trans o.kept.mem_eq, also⟩
  · exact cmds.trans (congrArg (· ++ [_]) o.kept.cmds_eq)
  · exact congrArg (·.issue.1) (o.tl_eq tl)
  · rw [done, Core.advance_kept, core]
    exact SMap.get_set_same _ _ _ _
  · rw [done, Core.advance_sreg]
    exact (dest hd).trans (congrArg (fun q : Timeline => BitVec.ofNat 64 q.issue.1) (o.tl_eq tl).symm)
  · rw [done]
    exact regsBut_advance regs _
  · rw [done]
    refine Core.passed_advance ?_ ?_ _
    · rw [core]
      exact off.pc_eq.trans (congrArg Core.pc me :)
    · rw [core]
      exact off.slot_eq.trans (congrArg Core.slot me :)

/-- The same with the number in s[d]. -/
theorem posts_number (b : body s.cur s.start = .ok ((u.tilePosted s.cur tl kind a v z).setCore s.cur
      (((u.tilePosted s.cur tl kind a v z).core s.cur).writeS d.toNat (BitVec.ofNat 64 (c.tl tl).issue.1)))) :
    Claims.Posts s i c d tl kind a v z [] false false fun _ => True := by
  let n : Word := BitVec.ofNat 64 (c.tl tl).issue.1
  let w : Core := ((u.core s.cur).setTl tl (c.tl tl).issue.2).writeS d.toNat n
  have core : ((u.tilePosted s.cur tl kind a v z).setCore s.cur (((u.tilePosted s.cur tl kind a v z).core s.cur).writeS d.toNat n)).core s.cur = w := by
    rw [State.core_setCore_same, o.posted_core]
  refine posts_of o run h b rfl rfl ?_ (fun hd => ?_) (fun r hr => ?_) trivial
  · rw [core]
    exact Core.writeS_kept _ _ _
  · rw [core]
    exact Core.writeS_sreg_same _ _ _ (by simpa [← BitVec.toNat_inj] using hd)
  · rw [core]
    exact (Core.writeS_sreg_other _ _ _ hr).trans (o.offRegs.sreg_eq r)

/-- The same of an instruction that names no register: it leaves its core as it posted, and may name the shape of a handle. -/
theorem posts_silent (b : body s.cur s.start = .ok t) (cmds : t.cmds = (u.tilePosted s.cur tl kind a v z).cmds) (mem : t.mem = u.mem)
    (cores : t.cores = (u.tilePosted s.cur tl kind a v z).cores) (also : p (s.doneIn t i)) : Claims.Posts s i c 0 tl kind a v z [] false false p := by
  have core : t.core s.cur = (u.core s.cur).setTl tl (c.tl tl).issue.2 := by
    rw [← o.posted_core tl kind a v z, State.core, State.core, cores]
  refine posts_of o run h b cmds mem (by rw [core]) (fun hd => absurd rfl hd) (fun r _ => ?_) also
  rw [core]
  exact o.offRegs.sreg_eq r
end

end Sys2Proof.Machine
end

section
namespace Sys2Proof.Machine
open Sys2Proof

/-! ### The shape of a handle (R159, R160) -/

theorem State.handle_key (s : State) (core launch h : Nat) : (s.handle core launch h).core = core ∧ (s.handle core launch h).launch = launch ∧ (s.handle core launch h).h = h := by
  unfold State.handle
  cases found : s.handles.find? fun x => x.core = core ∧ x.launch = launch ∧ x.h = h with
  | none => exact ⟨rfl, rfl, rfl⟩
  | some x => simpa using List.find?_some found

theorem State.handle_congr {s t : State} (h : t.handles = s.handles) : t.handle = s.handle := by
  funext core launch number
  rw [State.handle, State.handle, h]

/-- A handle reads as it was put back. -/
theorem State.handle_setHandle (s : State) {x : Handle} {core launch h : Nat} (hc : x.core = core) (hl : x.launch = launch) (hh : x.h = h) :
    (s.setHandle x).handle core launch h = x := by
  subst hc hl hh
  have others : (s.handles.filter fun y => !(decide (y.core = x.core) && decide (y.launch = x.launch) && decide (y.h = x.h))).find?
      (fun y => decide (y.core = x.core ∧ y.launch = x.launch ∧ y.h = x.h)) = none := by
    rw [List.find?_eq_none]
    intro y hy same
    obtain ⟨-, apart⟩ := List.mem_filter.1 hy
    obtain ⟨hc, hl, hh⟩ := of_decide_eq_true same
    simp [hc, hl, hh] at apart
  by_cases new : x = newHandle x.core x.launch x.h
  · simp only [State.handle, State.setHandle, if_pos new, others, Option.getD_none]
    exact new.symm
  · simp only [State.handle, State.setHandle, if_neg new, List.find?_append, others, Option.none_or]
    simp

/-- The shape named at issue is the handle's. -/
theorem State.nameHandle_named (s : State) (k h : Nat) (sh : Option (Nat × Nat)) : ((s.nameHandle k h sh).handle k ((s.core k).run.getD 0) h).named = sh := by
  obtain ⟨core, launch, number⟩ := s.handle_key k ((s.core k).run.getD 0) h
  exact congrArg Handle.named (s.handle_setHandle (x := { s.handle k ((s.core k).run.getD 0) h with named := sh }) core launch number)

/-! ### The instructions (R158 to R160) -/

/-- The checks at issue of an MXRD or MXWR keep translations and nothing else. -/
theorem State.aside_checkTile {k : Nat} {acc : Access} {l : List (Nat × Nat × Nat)} {s t : State} (h : s.checkTile k acc l = .ok t) : s.Aside t k := by
  induction l generalizing s with
  | nil =>
    obtain rfl := Except.ok.inj h
    exact .refl s k
  | cons w r ih =>
    rw [State.checkTile] at h
    split at h
    · cases h
    · split at h
      · cases h
      · obtain ⟨p, -, h⟩ := bind_eq_ok.1 h
        obtain ⟨-, -, h⟩ := bind_eq_ok.1 h
        exact (s.aside_keep k p.2).trans (ih h)

section
variable {s : State} {d a : Reg} {x : Word} {c : Core} {key : Nat} {e : Option TlbEntry} (h : s.Legal (.mxq d a)) (ha : s.me.readS a = .ok (x, c))
  (item1 : ∀ j, j < 128 → s.chk1 s.cur (x.toNat + j) = none) (aligned : x.toNat % 128 = 0) (place : s.chk34 s.cur .load x.toNat = .ok (key, e))
  (ls : typeOfPa key ≠ some .ls) (host : typeOfPa key ≠ some .host)
include h ha item1 aligned place ls host

/-- An MXQ whose record passes the checks comes to its posting (R158). -/
theorem exec_mxq : exec (.mxq d a) s = runSeq (.mxq d a) (fun k _ => do
    let (n, t) ← ((s.setCore s.cur c).keep s.cur false e).postTile k .mxq x 0
    .ok (t.setCore k (← (t.core k).putS k d (BitVec.ofNat 64 n)))) s := by
  change execMxq d a s = _
  have passed : firstSome (fun j : Nat => (s.start.chk1 s.cur (x.toNat + j)).map fun q => (q, x + BitVec.ofNat 64 j)) (List.range 128) = none := by
    rw [firstSome_eq, List.findSome?_eq_none_iff]
    intro j hj
    rw [Option.map_eq_none_iff]
    exact item1 j (List.mem_range.1 hj)
  have translated : s.start.chk34 s.cur .load x.toNat = .ok (key, e) := (State.chk34_operands (c := s.me) rfl _ _).trans place
  have near : (typeOfPa key == some .ls || typeOfPa key == some .host) = false := by simp [ls, host]
  rw [execMxq, runSeq, runSeq, runCtl_legal h, runCtl_legal h]
  simp only [State.start_core, ha, bind, Except.bind, passed, trapIf, aligned, ne_eq, not_true_eq_false, decide_false, Bool.false_eq_true, reduceIte, translated, near, State.start_setCore]

theorem posts_mxq (hd : d.toNat < 56) (room : Claims.TileRoom c) : Claims.Posts s (.mxq d a) c d 1 .mxq x 0 0 [] false false fun _ => True := by
  have o : s.Issuing c ((s.setCore s.cur c).keep s.cur false e) := ⟨Core.readS_bank ha, State.aside_keep _ _ e⟩
  refine posts_number o (exec_mxq h ha item1 aligned place ls host) h ?_
  simp only [State.postTile_room (o.room_iff.2 room), bind, Except.bind, Core.putS_reg _ hd, o.tl_eq]

/-- It waits where 16 tile commands are outstanding (R202). -/
theorem mxq_waits (full : ¬ Claims.TileRoom c) : exec (.mxq d a) s = .next s.waits := by
  have o : s.Issuing c ((s.setCore s.cur c).keep s.cur false e) := ⟨Core.readS_bank ha, State.aside_keep _ _ e⟩
  rw [exec_mxq h ha item1 aligned place ls host]
  exact runSeq_stall h (by simp only [State.postTile_full (mt o.room_iff.1 full), bind, Except.bind])
end

/-- The shape that an instruction names as it posts is the handle's when it is over. -/
theorem State.Issuing.named {s u : State} {c : Core} (o : s.Issuing c u) (i : Instr) (tl : Nat) (kind : CmdKind) (a v z : Word) (h : Nat) (sh : Option (Nat × Nat)) :
    ((s.doneIn ((u.tilePosted s.cur tl kind a v z).nameHandle s.cur h sh) i).handle s.cur (c.run.getD 0) h).named = sh := by
  have run : ((u.tilePosted s.cur tl kind a v z).core s.cur).run = c.run := by
    rw [o.posted_core]
    exact o.run_eq
  rw [← run]
  exact State.nameHandle_named _ _ _ _

/-- An instruction posts on tl1 and names the shape of a handle. -/
theorem posts_named {s u : State} {c : Core} {i : Instr} {kind : CmdKind} {a v : Word} {h : Nat} {sh : Option (Nat × Nat)} {p : State → Prop}
    (o : s.Issuing c u) (run : exec i s = runSeq i (fun k _ => do
      let (_, t) ← u.postTile k kind a v
      .ok (t.nameHandle k h sh)) s) (legal : s.Legal i) (room : Claims.TileRoom c)
    (also : ∀ t : State, (t.handle s.cur (c.run.getD 0) h).named = sh → p t) : Claims.Posts s i c 0 1 kind a v 0 [] false false p := by
  refine posts_silent (t := (u.tilePosted s.cur 1 kind a v 0).nameHandle s.cur h sh) o run legal ?_ rfl rfl rfl (also _ (o.named i 1 kind a v 0 h sh))
  simp only [State.postTile_room (o.room_iff.2 room), bind, Except.bind]

/-- MXZ posts its shape, and names it where no reserved bit is set (R159, log entry 34). -/
theorem posts_mxz {s : State} {h a : Reg} {imm : BitVec 17} {x : Word} {c : Core} (legal : s.Legal (.mxz h a imm)) (imm_form : a = 0 → x = imm.zeroExtend 64 ∧ c = s.me)
    (reg_form : a ≠ 0 → s.me.readS a = .ok (x, c)) (room : Claims.TileRoom c) :
    Claims.Posts s (.mxz h a imm) c 0 1 (.mxz h.toNat (x.toNat % 512 + 1) (x.toNat / 512 % 256 + 1) false (decide (2 ^ 17 ≤ x.toNat))) 0 0 0 [] false false fun t =>
      (t.handle s.cur (c.run.getD 0) h.toNat).named = if x.toNat < 2 ^ 17 then some (x.toNat % 512 + 1, x.toNat / 512 % 256 + 1) else none := by
  have took : c = { s.me with bank := c.bank } := by
    by_cases zero : a = 0
    · exact (imm_form zero).2 ▸ s.me_operands
    · exact Core.readS_bank (reg_form zero)
  have cols (y : Word) : bits y.toNat 16 9 = y.toNat / 512 % 256 := by simp only [bits, Nat.shiftRight_eq_div_pow, Nat.reducePow, Nat.reduceAdd, Nat.reduceSub]
  have shape (y : Word) (sh : Nat × Nat) : (if decide (2 ^ 17 ≤ y.toNat) = true then none else some sh) = if y.toNat < 2 ^ 17 then some sh else none := by
    simp only [decide_eq_true_iff, ← Nat.not_lt, ite_not]
  refine posts_named (State.issuing took) ?_ legal room fun _ e => e
  change execMxz h a imm s = _
  rw [execMxz, runSeq, runSeq, runCtl_legal legal, runCtl_legal legal]
  simp only [State.start_core, State.start_setCore, cols, ge_iff_le, shape]
  by_cases zero : a = 0
  · obtain ⟨rfl, rfl⟩ := imm_form zero
    simp only [if_pos zero, BitVec.ofNat_toNat, bind, Except.bind]
  · simp only [if_neg zero, reg_form zero, bind, Except.bind]

/-- MXZ.free posts, and the handle has no shape (R159). -/
theorem posts_mxzFree {s : State} {h : Reg} (legal : s.Legal (.mxzFree h)) (room : Claims.TileRoom s.me) :
    Claims.Posts s (.mxzFree h) s.me 0 1 (.mxz h.toNat 0 0 true false) 0 0 0 [] false false fun t => (t.handle s.cur (s.me.run.getD 0) h.toNat).named = none := by
  refine posts_named (State.issuing s.me_operands) ?_ legal room fun _ e => e
  change execMxzFree h s = _
  rw [execMxzFree, runSeq, runSeq, runCtl_legal legal, runCtl_legal legal]
  rfl

section
variable {s : State} {i : Instr} {d a b : Reg} {acc : Access} {kind : Nat → Nat → CmdKind} {free : Bool} {x y : Word} {c1 c : Core}
  (ha : s.me.readS a = .ok (x, c1)) (hb : c1.readS b = .ok (y, c))

/-- The words that an MXRD or MXWR of r rows and columns names pass the checks at issue (R160). -/
def State.TilePasses (s : State) (c : Core) (acc : Access) (x y : Word) (r : Nat × Nat) : Prop :=
  r.1 = 0 ∨ (s.chk1 s.cur x.toNat = none ∧ x.toNat % 4 = 0 ∧ y.toNat % 4 = 0 ∧ ∃ t, (s.setCore s.cur c).checkTile s.cur acc (moveWords x y r.1 r.2) = .ok t)

include ha hb

/-- An MXRD or MXWR whose words pass the checks comes to its posting, from a state that has kept their translations. -/
theorem exec_move (run : exec i s = moveInstr i d a b acc kind free s) (legal : s.Legal i) {r : Nat × Nat}
    (named : (s.handle s.cur (c.run.getD 0) d.toNat).named.getD (0, 0) = r) (passes : s.TilePasses c acc x y r) :
    ∃ u, s.Issuing c u ∧ exec i s = runSeq i (fun k _ => do
      let (_, t) ← u.postTile k (kind r.1 r.2) x y
      .ok (if free then t.nameHandle k d.toNat none else t)) s := by
  have took : c = { s.me with bank := c.bank } := bank_trans (Core.readS_bank ha) (Core.readS_bank hb)
  have shape : ((s.setCore s.cur c).handle s.cur (c.run.getD 0) d.toNat).named.getD (0, 0) = r := named
  rw [run, moveInstr, runSeq, runCtl_legal legal]
  simp only [State.start_core, State.start_setCore, ha, hb, bind, Except.bind, shape, runSeq, runCtl_legal legal]
  by_cases none_named : r.1 = 0
  · exact ⟨s.setCore s.cur c, State.issuing took, by simp only [if_pos none_named]⟩
  · obtain ⟨item1, aligned, aligned', u, words⟩ := passes.resolve_left none_named
    have item1 : (s.setCore s.cur c).chk1 s.cur x.toNat = none := item1
    refine ⟨u, ⟨took, State.aside_checkTile words⟩, ?_⟩
    simp only [if_neg none_named, item1, aligned, aligned', words, trapIf, ne_eq, not_true_eq_false, decide_false, Bool.false_eq_true, reduceIte]

/-- MXRD and MXWR post the shape that their handle is named (R160). -/
theorem posts_move (run : exec i s = moveInstr i d a b acc kind free s) (legal : s.Legal i) (room : Claims.TileRoom c) {n : Option (Nat × Nat)}
    (named : (s.handle s.cur (c.run.getD 0) d.toNat).named = n) (passes : s.TilePasses c acc x y (n.getD (0, 0))) {p : State → Prop}
    (also : ∀ t : State, (t.handle s.cur (c.run.getD 0) d.toNat).named = (if free then none else n) → p t) :
    Claims.Posts s i c 0 1 (kind (n.getD (0, 0)).1 (n.getD (0, 0)).2) x y 0 [] false false p := by
  obtain ⟨u, o, run⟩ := exec_move ha hb run legal (congrArg (Option.getD · (0, 0)) named) passes
  cases free with
  | true => exact posts_named o run legal room also
  | false =>
    refine posts_silent (t := u.tilePosted s.cur 1 (kind (n.getD (0, 0)).1 (n.getD (0, 0)).2) x y 0) o run legal ?_ rfl rfl rfl (also _ ?_)
    · simp only [State.postTile_room (o.room_iff.2 room), bind, Except.bind]
      rfl
    · have same : (s.doneIn (u.tilePosted s.cur 1 (kind (n.getD (0, 0)).1 (n.getD (0, 0)).2) x y 0) i).handles = s.handles := o.handles_eq
      rw [State.handle_congr same]
      exact named
end

/-! ### The rule commands (R173 to R177) -/

section
variable {s : State} {i : Instr} {d : Reg} {kind : CmdKind} {ops : Core → M (Word × Word × Word × Core)} {x y z : Word} {c : Core} {key : Nat}

/-- RCFG, RTAB and RSTEP post what they have read, behind a descriptor address that R173 admits. -/
theorem posts_rule (run : exec i s = postRule i d kind ops s) (legal : s.Legal i) (took : c = { s.me with bank := c.bank }) (read : ops s.me = .ok (x, y, z, c))
    (desc : Claims.DescAt s x key) (hd : d.toNat < 56) (room : Claims.TileRoom c) : Claims.Posts s i c d 2 kind x y z [] false false fun _ => True := by
  have o := State.issuing took
  refine posts_number o run legal ?_
  simp only [State.start_core, State.start_setCore, read, bind, Except.bind, State.checkDesc_operands took desc, stallUnless_room room, State.post_tile,
    State.core_setCore_same, Core.putS_reg _ hd]

variable {a b e : Reg} {c1 c2 c3 : Core} (ha : s.me.readS a = .ok (x, c1))
include ha

/-- RGEN reads w2 of the descriptor (R177). -/
theorem exec_rgen (legal : s.Legal (.rgen d a)) (desc : Claims.DescAt s x key) (hd : d.toNat < 56) (sound : s.poisonSeen s.cur (key + 16) = false) :
    exec (.rgen d a) s = .next (s.done (.rgen d a) (c1.writeS d.toNat (BitVec.ofNat 64 (s.rd (key + 16) 8)))) := by
  obtain ⟨tx, out, -⟩ := s.me_ready.readS ha
  have check : s.start.checkDesc s.cur x = .ok key := State.checkDesc_operands (c := s.me) rfl desc
  have poison : s.start.poisonSeen s.cur (key + 16) = false := by
    simp only [State.poisonSeen, State.sbOf, State.start_core] at sound ⊢
    exact sound
  change execRgen d a s = _
  rw [← State.doneIn_setCore]
  refine runSeq_ok legal ?_ (by simpa using tx) (by simpa using out)
  simp only [State.start_core, State.start_setCore, ha, bind, Except.bind, check, trapIf, poison, Bool.false_eq_true, reduceIte, Core.putS_reg _ hd]
  rfl

variable (hb : c1.readS b = .ok (y, c2))
include hb

theorem readABC_ok (he : c2.readS e = .ok (z, c3)) : readABC a b e s.me = .ok (x, y, z, c3) := by
  simp only [readABC, ha, hb, he, bind, Except.bind]

end

/-- What an RSTEP reads: its descriptor address, and the count of generations from its word or from s[B] (R176). -/
def readStep (creg : Bool) (n : BitVec 4) (a b : Reg) (k : Core) : M (Word × Word × Word × Core) := do
  let (x, k) ← k.readS a
  let (y, k) ← if creg then k.readS b else .ok ((BitVec.ofNat 64 n.toNat : Word), k)
  .ok (x, BitVec.ofNat 64 (y.toNat % 2 ^ 32), 0, k)

theorem exec_rstep (s : State) (creg : Bool) (n : BitVec 4) (d a b : Reg) :
    exec (.rstep creg n d a b) s = postRule (.rstep creg n d a b) d .rstep (readStep creg n a b) s := rfl

/-- Settles O40, an instruction at a time: each comes to its posting, MXZ and MXRD.free to the naming of their handle's shape after it, and RGEN to one read. -/
theorem tilePosting : Obligations.TilePosting := by
  refine ⟨fun s d a x c k e h ha hd item1 aligned place ls host => ⟨posts_mxq h ha item1 aligned place ls host hd, mxq_waits h ha item1 aligned place ls host⟩,
    fun s h a imm x c legal imm_form reg_form room => posts_mxz legal imm_form reg_form room,
    fun s h legal room => posts_mxzFree legal room,
    fun s free h a b x y c1 c ha hb room => ⟨fun legal passes => ?_, fun legal passes => ?_⟩,
    fun s d a b e x y z c1 c2 c3 key ha hb he desc hd room => ?_,
    fun s n d a b x y c1 c2 key ha desc hd room => ⟨fun legal => ?_, fun legal hb => ?_⟩,
    fun s d a x c key legal ha desc hd sound => exec_rgen ha legal desc hd sound⟩
  · have run : exec (.mxrd free h a b) s = moveInstr (.mxrd free h a b) h a b .store (fun rows cols => .mxrd h.toNat rows cols free) free s := rfl
    exact posts_move ha hb run legal room rfl passes fun _ named => named
  · have run : exec (.mxwr h a b) s = moveInstr (.mxwr h a b) h a b .load (fun rows cols => .mxwr h.toNat rows cols) false s := rfl
    exact posts_move ha hb run legal room rfl passes fun _ _ => trivial
  · have took : c3 = { s.me with bank := c3.bank } := bank_trans (bank_trans (Core.readS_bank ha) (Core.readS_bank hb)) (Core.readS_bank he)
    have run_rcfg : exec (.rcfg d a b e) s = postRule (.rcfg d a b e) d .rcfg (readABC a b e) s := rfl
    have run_rtab : exec (.rtab d a b e) s = postRule (.rtab d a b e) d .rtab (readABC a b e) s := rfl
    exact ⟨fun legal => posts_rule run_rcfg legal took (readABC_ok ha hb he) desc hd room, fun legal => posts_rule run_rtab legal took (readABC_ok ha hb he) desc hd room⟩
  · have count : BitVec.ofNat 64 ((BitVec.ofNat 64 n.toNat).toNat % 2 ^ 32) = n.zeroExtend 64 := by
      have small := n.isLt
      rw [BitVec.toNat_ofNat, Nat.mod_eq_of_lt (by omega), Nat.mod_eq_of_lt (by omega), BitVec.ofNat_toNat]
    refine posts_rule (exec_rstep s false n d a b) legal (Core.readS_bank ha) ?_ desc hd room
    simp only [readStep, ha, bind, Except.bind, Bool.false_eq_true, reduceIte, count]
  · have room : Claims.TileRoom c2 := by simpa only [Claims.TileRoom, Core.tl_congr (Core.readS_tls hb)] using room
    refine posts_rule (exec_rstep s true n d a b) legal (bank_trans (Core.readS_bank ha) (Core.readS_bank hb)) ?_ desc hd room
    simp only [readStep, ha, hb, bind, Except.bind, reduceIte]

end Sys2Proof.Machine
end

section
namespace Sys2Proof.Machine
open Sys2Proof

/-! ### An MXRD of another cluster's engine (R12, R134, R150, R160) -/

/-- The scratchpad byte of cluster 5 that a page maps address 0 to. -/
def strayKey : Nat := cspKey 5 0

/-- An MXRD of one word of handle 0 to address 0, of core 0 in cluster 0, that names cluster 5 as its engine's. -/
def strayCmd : Cmd := { newCmd 7 0 0 0 0 0 true 0 1 (.mxrd 0 1 1 false) 0 0 0 [] with ecl := 5 }

/-- The writable page of partition 0 that maps address 0 to `strayKey`: TYPE 2, the scratchpad. -/
def strayPage : TlbEntry := { part := 0, z := 0, vpn := 0, w0 := BitVec.ofNat 64 (strayKey / 2 ^ 16 * 2 ^ 24 + 2 * 2 ^ 18 + 8), w1 := 0 }

/-- The command beside its bound handle, the page in the TLB of cluster 0. -/
def strayState : State :=
  { State.reset with
    cmds := [strayCmd], arg := { id := 7 }
    handles := [{ newHandle 0 0 0 with rows := 1, cols := 1, regs := [(0, 0)] }]
    clusters := [(0, { l2tlb := [strayPage] })] }

theorem moveWords_strayCmd : moveWords strayCmd.a strayCmd.v 1 1 = [(0, 0, 0)] := rfl

/-- The engine that carries the word out, which is of cluster 0, reaches the byte. -/
theorem engAddr_strayCmd : strayState.engAddr (strayCmd.atBlock 0) .store 0 = .ok (.here strayKey) := rfl

/-- The byte is the named cluster's own, and foreign to the one that carries the word out. -/
theorem foreign_strayCmd : strayCmd.foreign 0 strayKey = false ∧ (strayCmd.atBlock 0).foreign 0 strayKey = true := ⟨rfl, rfl⟩

/-- CODE of every command that stands after an outcome. -/
def codesAfter : Host.Outcome State Fault Refusal → List Nat
  | .next t => t.cmds.map (·.code)
  | _ => []

/-- The model ends the MXRD with status 1 (PROT). -/
theorem codesAfter_strayState : codesAfter (exec .matrixOperationStart strayState) = [1] := rfl

/-- Refutes O47: the clause of MXRD asks Cmd.foreign of the command, whose own ecl may name any cluster in a state that no posting leads to; the model asks it of
the engine that carries each word out (Cmd.atBlock, R134, R150), which is of the gang of the issuing core. Here the byte is the named cluster's, so the clause expects status 0;
the gang's engine meets another cluster's scratchpad through a page (R12) and ends the MXRD with status 1. Of a command whose ecl is its core's cluster, as posting
sets it, the two agree. -/
theorem not_matrixEvents : ¬ Obligations.MatrixEvents := by
  intro h
  obtain ⟨events, -⟩ := h
  obtain ⟨-, -, -, -, -, -, -, mxrd, -⟩ := events strayState strayCmd rfl rfl
  have reach : ∀ w ∈ moveWords strayCmd.a strayCmd.v 1 1, ∃ k, strayState.engAddr (strayCmd.atBlock (w.1 / 128)) .store w.2.2 = .ok (.here k) ∧ typeOfPa k ≠ some .ls ∧ typeOfPa k ≠ some .host ∧
      strayCmd.foreign w.2.2 k = false ∧ strayState.heldAt k = false := by
    rw [moveWords_strayCmd, List.forall_mem_singleton]
    exact ⟨strayKey, engAddr_strayCmd, by decide, by decide, foreign_strayCmd.1, rfl⟩
  have ends := mxrd 0 1 1 false strayState rfl rfl rfl rfl Nat.one_ne_zero rfl rfl (Nat.le_refl 1) (Nat.le_refl 1) reach
  have code : codesAfter (exec .matrixOperationStart strayState) = [0] := by
    rw [ends]
    rfl
  rw [codesAfter_strayState] at code
  exact absurd code (by decide)

end Sys2Proof.Machine
end

section
namespace Sys2Proof.Machine
open Sys2Proof

/-! ### What each event of the rule engine does with the command it names (R170 to R172) -/

section
variable {s t : State} {c : Cmd} (named : s.cmd s.arg.id = some c)
include named

theorem exec_ruleHalfStep_posted (kind : c.kind = .rstep) (turn : s.ruleTurn c = true) : exec .ruleHalfStep s = .next ((s.startRstep c).getD s) := by
  have posted : c.phase = .posted := by
    simp only [State.ruleTurn, Bool.and_eq_true, beq_iff_eq] at turn
    obtain ⟨⟨-, posted⟩, -⟩ := turn
    exact posted
  change execRuleHalfStep s = _
  simp [execRuleHalfStep, runEvent, named, kind, posted, turn]

theorem exec_ruleHalfStep_running (kind : c.kind = .rstep) (phase : c.phase = .running) (free : s.cmdHeld c = false) (here : s.taskAway c = false) (unit : s.arg.q = false) :
    exec .ruleHalfStep s = .next ((s.ruleUnit c).getD s) := by
  change execRuleHalfStep s = _
  simp [execRuleHalfStep, runEvent, named, kind, phase, free, here, unit]

theorem exec_ruleHalfStep_parks (kind : c.kind = .rstep) (phase : c.phase = .running) (stop : s.cmdHeld c = true ∨ s.taskAway c = true) :
    exec .ruleHalfStep s = .next (s.setCmd { c with phase := .parked, got := [] }) := by
  change execRuleHalfStep s = _
  simp [execRuleHalfStep, runEvent, named, kind, phase, stop, State.parkRule]

theorem exec_ruleResume (kind : c.kind = .rstep) (phase : c.phase = .parked) (free : s.cmdHeld c = false) (here : s.taskAway c = false)
    (idle : ∀ y ∈ s.ruleCmds c, s.ruleBusy y = false) {tab : List (Nat × List Byte)} (load : s.loadTable c c.tile = .ok tab) :
    exec .ruleResume s = .next ((s.drawOpen c c.tile).setCmd { c with phase := .running, got := tab }) := by
  have none_busy : (s.ruleCmds c).any s.ruleBusy = false := List.any_eq_false.2 fun y hy => by simp [idle y hy]
  change execRuleResume s = _
  simp [execRuleResume, runEvent, named, kind, phase, free, here, none_busy, load]

theorem exec_ruleCommandComplete_rcfg (kind : c.kind = .rcfg) (turn : s.ruleTurn c = true) (settled : s.settleCmd c = some t) :
    exec .ruleCommandComplete s = .next (t.runRcfg c) := by
  change execRuleCommandComplete s = _
  simp [execRuleCommandComplete, runEvent, named, kind, turn, settled]

theorem exec_ruleCommandComplete_rtab (kind : c.kind = .rtab) (turn : s.ruleTurn c = true) (settled : s.settleCmd c = some t) :
    exec .ruleCommandComplete s = .next ((t.runRtab c).getD s) := by
  change execRuleCommandComplete s = _
  simp [execRuleCommandComplete, runEvent, named, kind, turn, settled]

theorem exec_ruleCommandComplete_rstep (kind : c.kind = .rstep) (phase : c.phase = .finished) (code : c.code ≠ 7) (free : s.cmdHeld c = false) :
    exec .ruleCommandComplete s = .next (s.ruleDone c) := by
  change execRuleCommandComplete s = _
  simp [execRuleCommandComplete, runEvent, named, kind, phase, code, free]

theorem exec_ruleAbandon (rule : c.kind.isRule = true) (phase : c.phase = .finished) (code : c.code = 7) (free : s.cmdHeld c = false)
    (first : ∀ y ∈ s.ruleCmds c, y.phase ≠ .running ∧ (sameTask y c = true → c.id ≤ y.id)) : exec .ruleAbandon s = .next (s.ruleDone c) := by
  have none_before : (s.ruleCmds c).any (fun y => y.phase == .running || (sameTask y c && decide (y.id < c.id))) = false :=
    List.any_eq_false.2 fun y hy => by simpa using first y hy
  change execRuleAbandon s = _
  simp only [execRuleAbandon, runEvent, named, rule, phase, code, free, none_before]
  rfl
end

/-! ### One generation or half-step (R166) -/

/-- The command after a unit of work: w2 is `w`, and of the words read before only the table's stay. -/
def Cmd.holding (c : Cmd) (w : Nat) : Cmd := { c with snap := c.snap.take 16 ++ bytesOf 8 w, got := c.got.filter fun p => c.tile.inTable p.1 }

/-- w2 with one generation less owed and one more counted. -/
def Cmd.counted (c : Cmd) : Nat := setBits (setBits c.w2 19 16 (bits c.w2 19 16 - 1)) 63 32 (bits c.w2 63 32 + 1)

/-- The command after a whole generation: it ends where no generation is left. -/
def Cmd.generated (c : Cmd) (w : Nat) : Cmd :=
  if bits c.w2 19 16 - 1 = 0 then { c.holding w with phase := .finished, code := 0, faddr := 0 } else c.holding w

section
variable {s : State} {c : Cmd} {table : List Byte} {rows : List Nat} (load : s.ruleRead c (cspVa c.tile.tbl) c.tile.tableLen = .ok table)
include load

theorem State.ruleUnit_sync (sync : c.tile.cheq = false) (read : s.tileRows c c.tile (if c.w2.testBit 22 then c.tile.buf1 else c.tile.buf0) = .ok rows) :
    s.ruleUnit c = some ((((s.drawOpen c c.tile).putRows c c.tile (if c.w2.testBit 22 then c.tile.buf0 else c.tile.buf1) 0 (c.tile.advance table rows 0)).putW2 c
      (setBit c.counted 22 (!c.w2.testBit 22))).setCmd (c.generated (setBit c.counted 22 (!c.w2.testBit 22)))) := by
  have buffers : c.buffers = (if c.w2.testBit 22 then c.tile.buf1 else c.tile.buf0, if c.w2.testBit 22 then c.tile.buf0 else c.tile.buf1) := by
    simp only [Cmd.buffers, sync, bit_eq_testBit, Bool.false_eq_true, reduceIte]
    split <;> rfl
  by_cases last : bits c.w2 19 16 - 1 = 0 <;>
    simp [State.ruleUnit, load, buffers, read, Bind.bind, Except.bind, sync, b2n, bit_eq_testBit, last, Cmd.generated, Cmd.holding, Cmd.counted, w2Remain, State.ruleEnd]

section
variable (cheq : c.tile.cheq = true) (read : s.tileRows c c.tile c.tile.buf0 = .ok rows)
include cheq read

theorem State.ruleUnit_firstHalf (half : c.w2.testBit 23 = false) :
    s.ruleUnit c = some ((((s.drawOpen c c.tile).putRows c c.tile c.tile.buf0 0 (c.tile.advance table rows 0)).putW2 c (setBit c.w2 23 true)).setCmd
      (c.holding (setBit c.w2 23 true))) := by
  simp [State.ruleUnit, load, Cmd.buffers, read, Bind.bind, Except.bind, cheq, b2n, bit_eq_testBit, half, Cmd.holding]

theorem State.ruleUnit_secondHalf (half : c.w2.testBit 23 = true) :
    s.ruleUnit c = some ((((s.drawOpen c c.tile).putRows c c.tile c.tile.buf0 1 (c.tile.advance table rows 1)).putW2 c (setBit c.counted 23 false)).setCmd
      (c.generated (setBit c.counted 23 false))) := by
  by_cases last : bits c.w2 19 16 - 1 = 0 <;>
    simp [State.ruleUnit, load, Cmd.buffers, read, Bind.bind, Except.bind, cheq, b2n, bit_eq_testBit, half, last, Cmd.generated, Cmd.holding, Cmd.counted, w2Remain, State.ruleEnd]
end
end

/-! ### The begin of an RSTEP (R176) -/

/-- An RSTEP that has begun: the descriptor words it goes by from now on. -/
def Cmd.begun (c : Cmd) (w0 w1 w2 : Nat) : Cmd := { c with k := 1, snap := bytesOf 8 w0 ++ bytesOf 8 w1 ++ bytesOf 8 w2 }

section
variable {s t : State} {c : Cmd} {w0 w1 w2 : Nat} (settled : s.settleCmd c = some t) (h0 : t.descWord c 0 = .ok w0) (h1 : t.descWord c 1 = .ok w1)
  (h2 : t.descWord c 2 = .ok w2)
include settled h0 h1 h2

theorem State.startRstep_unconfigured (config : w2.testBit 20 = false) : s.startRstep c = some (t.ruleEnd c 1 0) := by
  simp [State.startRstep, settled, h0, h1, h2, Bind.bind, Except.bind, bit_eq_testBit, config]

variable (config : w2.testBit 20 = true)
include config

theorem State.startRstep_tableless (valid : w2.testBit 21 = false) : s.startRstep c = some (t.ruleEnd c 3 0) := by
  simp [State.startRstep, settled, h0, h1, h2, Bind.bind, Except.bind, bit_eq_testBit, config, valid]

variable (valid : w2.testBit 21 = true)
include valid

theorem State.startRstep_beyondHalo (far : (tileOf w0 w1).halo < c.v.toNat * (tileOf w0 w1).reach) : s.startRstep c = some (t.ruleEnd c 4 0) := by
  simp [State.startRstep, settled, h0, h1, h2, Bind.bind, Except.bind, bit_eq_testBit, config, valid, far]

theorem State.startRstep_nothing (none : c.v.toNat = 0) : s.startRstep c = some (t.ruleEnd (c.begun w0 w1 (w2Remain (w2Busy w2 true) c.v.toNat)) 0 0) := by
  simp [State.startRstep, settled, h0, h1, h2, Bind.bind, Except.bind, bit_eq_testBit, config, valid, none, Cmd.begun]

theorem State.startRstep_loads (near : c.v.toNat * (tileOf w0 w1).reach ≤ (tileOf w0 w1).halo) (owed : c.v.toNat ≠ 0) {tab : List (Nat × List Byte)}
    (load : t.loadTable c (tileOf w0 w1) = .ok tab) :
    let w := w2Remain (w2Busy w2 true) c.v.toNat
    let d := c.begun w0 w1 w
    s.startRstep c = some (((t.putW2 d w).drawOpen d (tileOf w0 w1)).setCmd { d with phase := .running, got := tab }) := by
  have load' : t.loadTable (c.begun w0 w1 (w2Remain (w2Busy w2 true) c.v.toNat)) (tileOf w0 w1) = .ok tab := load
  simp only [Cmd.begun] at load' ⊢
  simp only [State.startRstep, settled, h0, h1, h2, Bind.bind, Except.bind, bit_eq_testBit, config, valid, owed, gt_iff_lt, Nat.not_lt.2 near, load', Bool.not_true,
    Bool.false_eq_true, reduceIte]
end

/-! ### What a completion leaves in w2 (R172, R174 to R176) -/

section
variable {s : State} {c : Cmd}

theorem State.ruleDone_begun (k : c.k = 1) : s.ruleDone c = (s.putW2 c (c.lastW2 c.w2)).finishCmd c (decide (c.code ≠ 0)) (decide (c.code = 6)) := by
  simp only [State.ruleDone, State.putStatus, if_pos k]

theorem State.ruleDone_unbegun {w : Nat} (k : c.k = 0) (desc : s.descWord c 2 = .ok w) :
    s.ruleDone c = (s.putW2 c (c.lastW2 w)).finishCmd c (decide (c.code ≠ 0)) (decide (c.code = 6)) := by
  have unbegun : c.k ≠ 1 := by omega
  simp only [State.ruleDone, State.putStatus, if_neg unbegun, desc]

theorem Cmd.lastW2_begun (kind : c.kind = .rstep) (k : c.k = 1) (w : Nat) : c.lastW2 w = setBit (setBits w 31 24 c.code) 15 false := by
  simp [Cmd.lastW2, kind, k, w2Busy, w2Status]

theorem Cmd.lastW2_checked (kind : c.kind = .rstep) (k : c.k = 0) (code : c.code < 6) (w : Nat) : c.lastW2 w = setBits w 31 24 c.code := by
  simp [Cmd.lastW2, kind, k, code, w2Status]

theorem Cmd.lastW2_abandoned (kind : c.kind = .rstep) (k : c.k = 0) (code : c.code = 7) (w : Nat) :
    c.lastW2 w = setBits (setBit (setBits w 31 24 7) 15 false) 19 16 c.v.toNat := by
  simp [Cmd.lastW2, kind, k, code, w2Busy, w2Status, w2Remain]

theorem Cmd.lastW2_abandoned_config (kind : c.kind = .rcfg ∨ c.kind = .rtab) (code : c.code = 7) (w : Nat) : c.lastW2 w = setBits w 31 24 7 := by
  rcases kind with kind | kind <;> simp [Cmd.lastW2, kind, code, w2Status]

section
variable {w0 w1 w2 : Nat} {b : List Byte} (h0 : s.descWord c 0 = .ok w0) (h1 : s.descWord c 1 = .ok w1) (h2 : s.descWord c 2 = .ok w2) (config : w2.testBit 20 = true)
include h0 h1 h2 config

theorem State.runRtab_loads (len : c.c.toNat = (tileOf w0 w1).tableLen) (read : s.engRead c 8 c.v.toNat (tileOf w0 w1).tableLen = .ok b)
    (codes : ∀ y ∈ b, y.toNat < 2 ^ (tileOf w0 w1).b) :
    s.runRtab c = some ((((((s.keepEng c.ecl c.v.toNat).cspPut c (tileOf w0 w1).tbl (b.mapIdx fun j y => (j, y))).putDesc c 3 (tileOf w0 w1).tableLen).putDesc c 2
      (setBits (setBit w2 21 true) 31 24 0)).finishCmd c false false)) := by
  have all_codes : (b.any fun y => decide (y.toNat ≥ 2 ^ (tileOf w0 w1).b)) = false := List.any_eq_false.2 fun y hy => by simpa using codes y hy
  simp only [State.runRtab, h0, h1, h2, Bind.bind, Except.bind, bit_eq_testBit, config, len, read, all_codes, w2Status, ne_eq, not_true_eq_false, Bool.not_true,
    Bool.false_eq_true, reduceIte]

theorem State.runRtab_refuses
    (bad : c.c.toNat ≠ (tileOf w0 w1).tableLen ∨ (s.engRead c 8 c.v.toNat (tileOf w0 w1).tableLen = .ok b ∧ ∃ y ∈ b, 2 ^ (tileOf w0 w1).b ≤ y.toNat)) :
    s.runRtab c = some (s.ruleDone { c with code := 2 }) := by
  by_cases len : c.c.toNat = (tileOf w0 w1).tableLen
  · obtain ⟨read, y, hy, large⟩ := bad.resolve_left (not_not_intro len)
    have some_large : (b.any fun y => decide (y.toNat ≥ 2 ^ (tileOf w0 w1).b)) = true := List.any_eq_true.2 ⟨y, hy, by simpa using large⟩
    simp only [State.runRtab, h0, h1, h2, Bind.bind, Except.bind, bit_eq_testBit, config, len, read, some_large, ne_eq, not_true_eq_false, Bool.not_true,
      Bool.false_eq_true, reduceIte]
  · simp only [State.runRtab, h0, h1, h2, Bind.bind, Except.bind, bit_eq_testBit, config, len, ne_eq, not_false_eq_true, Bool.not_true, Bool.false_eq_true, reduceIte]
end

theorem State.ruleDone_badTable {w : Nat} (kind : c.kind = .rtab) (k : c.k = 0) (desc : s.descWord c 2 = .ok w) :
    s.ruleDone { c with code := 2 } = (s.putW2 c (setBit (setBits w 31 24 2) 21 false)).finishCmd { c with code := 2 } true false := by
  have desc' : s.descWord { c with code := 2 } 2 = .ok w := desc
  have last : ({ c with code := 2 } : Cmd).lastW2 w = setBit (setBits w 31 24 2) 21 false := by simp [Cmd.lastW2, kind, w2Status]
  rw [State.ruleDone_unbegun (c := { c with code := 2 }) k desc', last]
  rfl
end

/-! ### w2 and w3 are written whole (R162) -/

theorem ofBytes_lt (l : List Byte) : ofBytes l < 2 ^ (8 * l.length) := by
  induction l with
  | nil => simp [ofBytes]
  | cons b t ih =>
    have small := b.isLt
    rw [ofBytes, List.length_cons, Nat.mul_succ, pow_add]
    omega

/-- Pieces of bounded lengths, one after another. -/
theorem length_flatten_mapM {ε β : Type} {f : Nat → Except ε (List β)} {most : Nat → Nat} (each : ∀ j b, f j = .ok b → b.length ≤ most j) {l : List Nat} {r : List (List β)}
    (h : l.mapM f = .ok r) : r.flatten.length ≤ (l.map most).sum := by
  induction l generalizing r with
  | nil =>
    cases h
    simp
  | cons j t ih =>
    rw [List.mapM_cons] at h
    cases hj : f j with
    | error e => simp [hj, Bind.bind, Except.bind] at h
    | ok b =>
      cases ht : t.mapM f with
      | error e => simp [hj, ht, Bind.bind, Except.bind] at h
      | ok u =>
        obtain rfl : b :: u = r := by simpa [hj, ht, Bind.bind, Except.bind, pure, Except.pure] using h
        simpa using Nat.add_le_add (each j b hj) (ih ht)

/-- How many of the n bytes from va on lie in the j-th segment of g bytes from segment q on. -/
def segmentShare (g va n q j : Nat) : Nat := min (va + n) ((q + j) * g + g) - max va ((q + j) * g)

/-- The shares of consecutive segments make no more than the bytes up to the last one's end. -/
theorem sum_segmentShare_le (g va n q k : Nat) : ((List.range k).map (segmentShare g va n q)).sum ≤ min (va + n) ((q + k) * g) - va := by
  induction k with
  | zero => simp
  | succ k ih =>
    rw [List.range_succ, List.map_append, List.sum_append, List.map_singleton, List.sum_singleton, segmentShare, ← Nat.add_assoc q, Nat.succ_mul]
    omega

theorem State.length_engRead_le {s : State} {c : Cmd} {g va n : Nat} {b : List Byte} (h : s.engRead c g va n = .ok b) : b.length ≤ n := by
  unfold State.engRead at h
  split at h
  · cases h
    exact Nat.zero_le n
  · simp only [Bind.bind, Except.bind] at h
    split at h
    next => cases h
    next parts read =>
      cases h
      refine (length_flatten_mapM (most := segmentShare g va n (va / g)) (fun j part hj => ?_) read).trans ((sum_segmentShare_le g va n (va / g) _).trans (by omega))
      split at hj
      · cases hj
      · split at hj
        · cases hj
        · cases hj
          exact List.length_take_le _ _

theorem State.descWord_lt {s : State} {c : Cmd} {k w : Nat} (h : s.descWord c k = .ok w) : w < 2 ^ 64 := by
  unfold State.descWord at h
  cases read : s.engRead c 8 (c.a.toNat + 8 * k) 8 with
  | error e => simp [read, Except.map] at h
  | ok b =>
    rw [read] at h
    cases h
    exact (ofBytes_lt b).trans_le (Nat.pow_le_pow_right (by decide) (Nat.mul_le_mul_left 8 (State.length_engRead_le read)))

/-- Where a window address lies hangs on the cores alone. -/
theorem State.engAddr_window_congr {s t : State} (cores : t.cores = s.cores) (c : Cmd) (acc : Access) {va : Nat} (window : windowOf va ≠ none) :
    t.engAddr c acc va = s.engAddr c acc va := by
  obtain ⟨w, hw⟩ := Option.ne_none_iff_exists'.1 window
  have core : t.core c.core = s.core c.core := by simp only [State.core, cores]
  simp only [State.engAddr, hw, core]

theorem State.engPut_rule {s : State} {c : Cmd} {va k : Nat} (rule : c.kind.isRule = true) (place : s.engAddr c .store va = .ok (.here k)) (n x : Nat) :
    s.engPut c va n x = s.writeCmd c (at_ k n x) := by
  unfold State.engPut
  rw [place]
  cases kind : c.kind <;> simp [kind, CmdKind.isRule] at rule ⊢

theorem State.rd_congr {s t : State} (h : t.mem = s.mem) : t.rd = s.rd := by
  funext a n
  simp only [State.rd, State.byte_congr h]

/-- A rule command's write of w2 and w3 leaves the memory that two writes of words leave. -/
theorem State.putW2_mem {s : State} {c : Cmd} {l k : Nat} (rule : c.kind.isRule = true) (window : windowOf (c.a.toNat + 24) ≠ none) (desc : s.descWord c 3 = .ok l)
    (place2 : s.engAddr c .store (c.a.toNat + 16) = .ok (.here k)) (place3 : s.engAddr c .store (c.a.toNat + 24) = .ok (.here (k + 8))) (w : Nat) :
    (s.putW2 c w).mem = ((s.wr k 8 w).wr (k + 8) 8 l).mem := by
  have put2 : s.putDesc c 2 w = s.writeCmd c (at_ k 8 w) := State.engPut_rule rule place2 8 w
  have cores : (s.writeCmd c (at_ k 8 w)).cores = s.cores := rfl
  have place3' : (s.writeCmd c (at_ k 8 w)).engAddr c .store (c.a.toNat + 24) = .ok (.here (k + 8)) :=
    (State.engAddr_window_congr cores c .store window).trans place3
  have put3 : (s.writeCmd c (at_ k 8 w)).putDesc c 3 l = _ := State.engPut_rule rule place3' 8 l
  rw [State.putW2, desc, put2]
  dsimp only
  rw [put3]
  rfl

theorem State.putW2_whole {s : State} {c : Cmd} {l k : Nat} (rule : c.kind.isRule = true) (window : windowOf (c.a.toNat + 24) ≠ none) (desc : s.descWord c 3 = .ok l)
    (place2 : s.engAddr c .store (c.a.toNat + 16) = .ok (.here k)) (place3 : s.engAddr c .store (c.a.toNat + 24) = .ok (.here (k + 8))) (w : Nat) :
    (s.putW2 c w).rd k 8 = w % 2 ^ 64 ∧ (s.putW2 c w).rd (k + 8) 8 = l ∧ ∀ x, x < k ∨ k + 16 ≤ x → (s.putW2 c w).byte x = s.byte x := by
  have mem := State.putW2_mem rule window desc place2 place3 w
  rw [State.rd_congr mem, State.byte_congr mem]
  refine ⟨?_, ?_, fun x outside => ?_⟩
  · rw [State.rd_wr_out _ _ _ _ _ _ (by omega), State.rd_wr]
  · rw [State.rd_wr, Nat.mod_eq_of_lt (State.descWord_lt desc)]
  · rw [State.byte_wr_out _ _ _ _ _ (by omega), State.byte_wr_out _ _ _ _ _ (by omega)]

/-! ### The cells after a generation (R163, R166) -/

theorem bits_lane (n x : Nat) {w : Nat} (hw : 1 ≤ w) : bits n (x * w + w - 1) (x * w) = n / 2 ^ (w * x) % 2 ^ w := by
  rw [bits, show x * w + w - 1 + 1 - x * w = w by omega, Nat.shiftRight_eq_div_pow, Nat.mul_comm x]

theorem bits_ofLanes {w x : Nat} {l : List Nat} (hw : 1 ≤ w) (hx : x < l.length) : bits (ofLanes w l) (x * w + w - 1) (x * w) = l.getD x 0 % 2 ^ w := by
  rw [bits_lane _ _ hw]
  simpa using ofLanes_lane 0 hx

theorem cellAt_lt {t : Tile} (rows : List Nat) (x y : Nat) (hb : 1 ≤ t.b) : cellAt t rows x y < 2 ^ t.b := by
  rw [cellAt, bits_lane _ _ hb]
  exact Nat.mod_lt _ (Nat.two_pow_pos _)

/-- A cell far enough from the edge, and of the half at work, becomes what the table says of its neighbourhood; another stays. -/
theorem cellAt_advance {t : Tile} (table : List Byte) (rows : List Nat) (p : Nat) {x y : Nat} (hx : x < t.sw) (hy : y < t.sh) (hb : 1 ≤ t.b) :
    cellAt t (t.advance table rows p) x y =
      if t.radius ≤ t.dist x y ∧ (t.cheq = true → (x + y + t.par) % 2 = p) then t.update table rows x y else cellAt t rows x y := by
  have half : (!t.cheq ∨ (x + y + t.par) % 2 = p) ↔ (t.cheq = true → (x + y + t.par) % 2 = p) := by cases t.cheq <;> simp
  rw [cellAt, Tile.advance, getD_map_range, if_pos hy, bits_ofLanes hb (by simpa using hx), getD_map_range, if_pos hx]
  simp only [half, ge_iff_le]
  refine Nat.mod_eq_of_lt ?_
  split
  · exact Nat.mod_lt _ (Nat.two_pow_pos _)
  · exact cellAt_lt rows x y hb

/-! ### The obligation -/

/-- Settles O48, an event at a time: each comes to the operation of the engine that it names, and w2 and the cells are read back from what that operation writes. -/
theorem ruleEvents : Obligations.RuleEvents := by
  refine ⟨fun s c named free => ⟨fun table rows kind phase here unit => ?generation, fun tab kind phase here idle load => exec_ruleResume named kind phase free here idle load,
    fun t w0 w1 w2 kind turn settled h0 h1 h2 => ?begins, fun t kind turn settled => ?configures, fun t w0 w1 w2 b kind k turn settled h0 h1 h2 config => ?tabulates,
    fun kind phase code begun => ?reports, fun w kind phase code k desc => ?checked, fun w phase code k desc first => ?abandons⟩,
    fun s c named kind phase stop => exec_ruleHalfStep_parks named kind phase stop,
    fun s c w l k rule _ window desc place2 place3 => State.putW2_whole rule window desc place2 place3 w, fun _ table rows p _ _ hx hy hb => cellAt_advance table rows p hx hy hb⟩
  case generation =>
    rw [exec_ruleHalfStep_running named kind phase free here unit]
    refine fun load => ⟨fun sync read => ?_, fun cheq read => ⟨fun half => ?_, fun half => ?_⟩⟩
    · rw [State.ruleUnit_sync load sync read]
      rfl
    · rw [State.ruleUnit_firstHalf load cheq read half]
      rfl
    · rw [State.ruleUnit_secondHalf load cheq read half]
      rfl
  case begins =>
    rw [exec_ruleHalfStep_posted named kind turn]
    refine ⟨fun config => ?_, fun config valid => ?_, fun config valid => ⟨fun far => ?_, fun _ none => ?_, fun tab near owed load => ?_⟩⟩
    · rw [State.startRstep_unconfigured settled h0 h1 h2 config]
      rfl
    · rw [State.startRstep_tableless settled h0 h1 h2 config valid]
      rfl
    · rw [State.startRstep_beyondHalo settled h0 h1 h2 config valid far]
      rfl
    · rw [State.startRstep_nothing settled h0 h1 h2 config valid none]
      rfl
    · rw [State.startRstep_loads settled h0 h1 h2 config valid near owed load]
      rfl
  case configures =>
    rw [exec_ruleCommandComplete_rcfg named kind turn settled]
    rfl
  case tabulates =>
    rw [exec_ruleCommandComplete_rtab named kind turn settled]
    refine ⟨fun len read codes => ?_, fun bad => ?_⟩
    · rw [State.runRtab_loads h0 h1 h2 config len read codes]
      rfl
    · rw [State.runRtab_refuses h0 h1 h2 config bad, State.ruleDone_badTable kind k h2]
      rfl
  case reports =>
    rw [exec_ruleCommandComplete_rstep named kind phase code free, State.ruleDone_begun begun, Cmd.lastW2_begun kind begun]
  case checked =>
    rw [exec_ruleCommandComplete_rstep named kind phase (by omega) free, State.ruleDone_unbegun k desc, Cmd.lastW2_checked kind k code]
    simp only [show c.code ≠ 6 by omega, decide_false]
  case abandons =>
    refine ⟨fun kind => ?_, fun kind => ?_⟩
    · rw [exec_ruleAbandon named (by rw [kind]; rfl) phase code free first, State.ruleDone_unbegun k desc, Cmd.lastW2_abandoned kind k code, code]
      rfl
    · have rule : c.kind.isRule = true := by rcases kind with kind | kind <;> rw [kind] <;> rfl
      rw [exec_ruleAbandon named rule phase code free first, State.ruleDone_unbegun k desc, Cmd.lastW2_abandoned_config kind code, code]
      rfl

end Sys2Proof.Machine
end

section
namespace Sys2Proof.Machine
open Sys2Proof

/-! ### What is visible to a core, and what bounds cover (R182, R187) -/

theorem le_foldl_min_iff {l : List Nat} {x n : Nat} : n ≤ l.foldl min x ↔ n ≤ x ∧ ∀ y ∈ l, n ≤ y := by
  rw [List.le_min?_iff List.min?_cons', List.forall_mem_cons]

theorem SMap.get_absent {α : Type} {d : α} {m : SMap α} {a : Nat} (h : ∀ p ∈ m, p.1 ≠ a) : SMap.get d m a = d := by
  induction m with
  | nil => rfl
  | cons p t ih =>
    obtain ⟨head, tail⟩ := List.forall_mem_cons.1 h
    rw [SMap.get, if_neg (Ne.symm head), ih tail]

/-- A map that lists f at the keys of m, where f is 0 at every other key. -/
theorem SMap.get_listed {α : Type} {m : SMap α} {f : Nat → Nat} {a : Nat} (h : (∀ p ∈ m, p.1 ≠ a) → f a = 0) :
    SMap.get 0 ((m.map fun p => (p.1, f p.1)).filter fun p => p.2 ≠ 0) a = f a := by
  induction m with
  | nil => exact (h (by simp)).symm
  | cons p t ih =>
    rw [List.map_cons, List.filter_cons]
    by_cases here : p.1 = a
    · subst here
      by_cases zero : f p.1 = 0
      · rw [if_neg (by simpa using zero), ih fun _ => zero]
      · rw [if_pos (by simpa using zero), SMap.get, if_pos rfl]
    · have rest := ih fun tail => h (List.forall_mem_cons.2 ⟨here, tail⟩)
      split
      · rw [SMap.get, if_neg (Ne.symm here), rest]
      · exact rest

section
variable {a b : Bounds}

/-- The larger of two bounds covers both. -/
theorem Bounds.le_join_left (a b : Bounds) (la : Nat) : SMap.get 0 a la ≤ SMap.get 0 (a.join b) la := by
  induction b generalizing a with
  | nil => exact le_rfl
  | cons p t ih =>
    refine le_trans ?_ (ih (SMap.set 0 a p.1 (max (SMap.get 0 a p.1) p.2)))
    by_cases here : la = p.1
    · rw [here, SMap.get_set_same]
      exact le_max_left _ _
    · rw [SMap.get_set_other _ _ _ here]

theorem Bounds.le_join_right (a b : Bounds) (la : Nat) : SMap.get 0 b la ≤ SMap.get 0 (a.join b) la := by
  induction b generalizing a with
  | nil => exact Nat.zero_le _
  | cons p t ih =>
    by_cases here : la = p.1
    · refine le_trans ?_ (Bounds.le_join_left (SMap.set 0 a p.1 (max (SMap.get 0 a p.1) p.2)) t la)
      rw [SMap.get, if_pos here, here, SMap.get_set_same]
      exact le_max_right _ _
    · rw [SMap.get, if_neg here]
      exact ih _

theorem Bounds.meets_iff {l : L1Line} : b.meets l = true ↔ SMap.get 0 b l.la ≤ l.seen := decide_eq_true_iff

theorem Bounds.meets_of_join {l : L1Line} (h : (a.join b).meets l = true) : a.meets l = true ∧ b.meets l = true := by
  rw [Bounds.meets_iff] at h
  exact ⟨Bounds.meets_iff.2 ((Bounds.le_join_left a b l.la).trans h), Bounds.meets_iff.2 ((Bounds.le_join_right a b l.la).trans h)⟩
end

/-- A core keeps a copy or a view of a line. -/
def Core.Keeps (c : Core) (l : L1Line) : Prop := l ∈ c.l1d ∨ l ∈ c.hview

section
variable {s : State} {i la : Nat}

/-- What a core sees of a line: all that is written, but for what a copy or view that it keeps misses. -/
theorem State.le_seen_iff {n : Nat} : n ≤ s.seen i la ↔ n ≤ (s.writesOf la).length ∧ ∀ l, (s.core i).Keeps l → l.la = la → n ≤ l.seen := by
  rw [State.seen, ← List.foldl_map (f := L1Line.seen) (g := min), le_foldl_min_iff]
  simp only [List.forall_mem_map, List.mem_filter, List.mem_append, beq_iff_eq, Core.Keeps, and_imp]

theorem State.seen_le_copy {l : L1Line} (h : (s.core i).Keeps l) : s.seen i l.la ≤ l.seen := (State.le_seen_iff.1 le_rfl).2 l h rfl

theorem State.seen_uncopied (h : ∀ l, (s.core i).Keeps l → l.la ≠ la) : s.seen i la = (s.writesOf la).length :=
  le_antisymm (State.le_seen_iff.1 le_rfl).1 (State.le_seen_iff.2 ⟨le_rfl, fun l keeps here => absurd here (h l keeps)⟩)

/-- What is visible to a core are the writes that it sees, of every line. -/
theorem State.get_visible (s : State) (i la : Nat) : SMap.get 0 (s.visible i) la = s.seen i la := by
  refine SMap.get_listed fun unwritten => Nat.le_zero.1 ?_
  have none : s.writesOf la = [] := SMap.get_absent unwritten
  simpa [none] using (State.le_seen_iff.1 (le_refl (s.seen i la))).1
end

/-! ### What a release publishes (R185 to R188) -/

section
variable (s : State) (i : Nat)

theorem State.share_core_same : (s.share i).core i = { s.core i with sb := [] } := by
  rw [State.share]
  split
  · have empty : (s.core i).sb = [] := List.isEmpty_iff.1 ‹_›
    rw [← empty]
  · exact State.core_setCore_same _ _ _

theorem State.share_core_other {j : Nat} (h : j ≠ i) : (s.share i).core j = s.core j := by
  rw [State.share]
  split
  · rfl
  · exact State.core_setCore_other _ _ h

theorem State.share_cluster_same : (s.share i).cluster (clusterOf i) =
    { s.cluster (clusterOf i) with sb := (s.cluster (clusterOf i)).sb ++ (s.core i).sb.map fun e => (i, e) } := by
  rw [State.share]
  split
  · have empty : (s.core i).sb = [] := List.isEmpty_iff.1 ‹_›
    rw [empty, List.map_nil, List.append_nil]
  · exact State.cluster_setCluster_same _ _ _

theorem State.share_cluster_other {cl : Nat} (h : cl ≠ clusterOf i) : (s.share i).cluster cl = s.cluster cl := by
  rw [State.share]
  split
  · rfl
  · exact State.cluster_setCluster_other _ _ h

/-- The core's stores, which its cluster sees from now on, stay behind those that the core saw before. -/
theorem State.share_sbOf : (s.share i).sbOf i = s.sbOf i := by
  simp [State.sbOf, State.share_core_same, State.share_cluster_same, Function.comp_def]

variable {i}

theorem State.mem_share_sbOf {j : Nat} (h : clusterOf j = clusterOf i) {e : SbEntry} (he : e ∈ (s.core i).sb) : e ∈ (s.share i).sbOf j := by
  rw [State.sbOf, h, State.share_cluster_same]
  exact List.mem_append_left _ (List.mem_map.2 ⟨(i, e), List.mem_append_right _ (List.mem_map_of_mem he), rfl⟩)

/-- A release to the cluster: what is visible to the core is covered for the cluster, which then sees the core's stores. -/
theorem State.publish_cluster_eq (i : Nat) : s.publish i .cluster =
    (s.setCluster (clusterOf i) { s.cluster (clusterOf i) with pub := (s.cluster (clusterOf i)).pub.join (s.visible i) }).share i := rfl

theorem State.publish_cluster_pub : (s.publish i .cluster).pub = s.pub := by rw [State.publish_cluster_eq, State.share_pub, State.setCluster_pub]

theorem State.publish_cluster_other {cl : Nat} (h : cl ≠ clusterOf i) : (s.publish i .cluster).cluster cl = s.cluster cl := by
  rw [State.publish_cluster_eq, State.share_cluster_other _ _ h, State.cluster_setCluster_other _ _ h]

theorem State.mem_publish_cluster {j : Nat} (h : clusterOf j = clusterOf i) {e : SbEntry} (he : e ∈ (s.core i).sb) : e ∈ (s.publish i .cluster).sbOf j := by
  rw [State.publish_cluster_eq]
  exact State.mem_share_sbOf _ h he

/-- No release changes what stores its own core sees. -/
theorem State.publish_sbOf (i : Nat) (sc : Scope) : (s.publish i sc).sbOf i = s.sbOf i := by
  have covered (b : Bounds) : (s.setCluster (clusterOf i) { s.cluster (clusterOf i) with pub := b }).sbOf i = s.sbOf i := by
    rw [State.sbOf, State.cluster_setCluster_same]
    rfl
  cases sc with
  | core => rfl
  | cluster => rw [State.publish_cluster_eq, State.share_sbOf, covered]
  | device => exact covered _
  | system => exact covered _

theorem State.publish_core_other (sc : Scope) {j : Nat} (h : j ≠ i) : (s.publish i sc).core j = s.core j := by
  cases sc with
  | cluster => rw [State.publish_cluster_eq, State.share_core_other _ _ h]; rfl
  | _ => rfl

theorem State.publish_offRegs (i : Nat) (sc : Scope) : (s.core i).OffRegs ((s.publish i sc).core i) := by
  cases sc with
  | cluster => rw [State.publish_cluster_eq, State.share_core_same]; rfl
  | _ => rfl

/-- What is visible to a core that releases is covered for its cluster, but at core scope. -/
theorem State.publish_covers_cluster (i : Nat) {sc : Scope} (h : sc ≠ .core) :
    ((s.publish i sc).cluster (clusterOf i)).pub = (s.cluster (clusterOf i)).pub.join (s.visible i) := by
  cases sc with
  | core => exact absurd rfl h
  | cluster => rw [State.publish_cluster_eq, State.share_cluster_same, State.cluster_setCluster_same]
  | _ => exact congrArg Cluster.pub (State.cluster_setCluster_same _ _ _)

/-- At device scope or wider it is covered for every core. -/
theorem State.publish_covers_module (i : Nat) {sc : Scope} (h : sc = .device ∨ sc = .system) : (s.publish i sc).pub = s.pub.join (s.visible i) := by
  rcases h with rfl | rfl <;> rfl
end

/-! ### What a release waits for (R187, R208) -/

section
variable {s : State} {i : Nat} {sc : Scope} (h : s.released i sc = true)
include h

theorem State.released_loads : (s.core i).late = [] ∧ ∀ e ∈ (s.core i).sb, e.strm = none := by
  simp only [State.released, Bool.and_eq_true, List.isEmpty_iff, List.all_eq_true, Option.isNone_iff_eq_none] at h
  exact h.1

theorem State.released_stores (wide : sc ≠ .core) : s.heldStores i = false ∧ ∀ x ∈ s.conflicts, x.core = i → x.store = false := by
  have both : s.heldStores i = false ∧ (s.conflicts.any fun x => decide (x.core = i) && x.store) = false := by
    cases sc with
    | core => exact absurd rfl wide
    | cluster =>
      simp only [State.released, Bool.and_eq_true, Bool.not_eq_true'] at h
      obtain ⟨-, ⟨⟨-, held⟩, told⟩, -⟩ := h
      exact ⟨held, told⟩
    | _ =>
      simp only [State.released, Bool.and_eq_true, Bool.not_eq_true'] at h
      obtain ⟨-, ⟨⟨⟨-, held⟩, told⟩, -⟩, -⟩ := h
      exact ⟨held, told⟩
  obtain ⟨held, told⟩ := both
  refine ⟨held, fun x hx mine => ?_⟩
  simpa [mine] using List.any_eq_false.1 told x hx

theorem State.released_homes (wide : sc = .device ∨ sc = .system) : (s.core i).sb = [] ∧ (s.isSup i = false → (s.cluster (clusterOf i)).sb = []) := by
  have both : (s.core i).sb.isEmpty = true ∧ ((s.cluster (clusterOf i)).sb.all fun e => s.isSup i && e.1 != i && s.heldAt ((e.2.bytes.headD (0, 0)).1)) = true := by
    rcases wide with rfl | rfl
    all_goals
      simp only [State.released, Bool.and_eq_true] at h
      obtain ⟨-, ⟨⟨⟨stores, -⟩, -⟩, -⟩, -⟩ := h
      exact stores
  obtain ⟨own, others⟩ := both
  refine ⟨List.isEmpty_iff.1 own, fun user => List.eq_nil_iff_forall_not_mem.2 fun e he => ?_⟩
  simpa [user] using List.all_eq_true.1 others e he
end

/-! ### What an acquire drops (R187, R188, R282) -/

section
variable {s : State} {i : Nat} {sc : Scope}

theorem State.acquireAt_offRegs (s : State) (i : Nat) (sc : Scope) : (s.core i).OffRegs ((s.acquireAt i sc).core i) := by
  rcases s.acquireAt_eq i sc with e | ⟨b, e | e⟩ <;> rw [e]
  · rfl
  all_goals
    rw [State.core_modCore_same]
    rfl

theorem Core.meets_of_freshen {c : Core} {b : Bounds} {l : L1Line} (h : (c.freshen b).Keeps l) : b.meets l = true :=
  h.elim (fun copy => absurd copy List.not_mem_nil) ((c.freshen_meets b).2 l)

/-- After an acquire at cluster scope or wider nothing that the core keeps misses what is covered for its cluster. -/
theorem State.acquireAt_cluster (wide : sc ≠ .core) {l : L1Line} (h : ((s.acquireAt i sc).core i).Keeps l) : (s.cluster (clusterOf i)).pub.meets l = true := by
  cases sc with
  | core => exact absurd rfl wide
  | cluster => exact Core.learn_meets (s.core i) _ l (by rwa [State.acquireAt, State.core_modCore_same] at h)
  | device =>
    rw [State.acquireAt, State.core_modCore_same] at h
    exact (Bounds.meets_of_join (Core.meets_of_freshen h)).1
  | system =>
    rw [State.acquireAt, State.core_modCore_same] at h
    exact (Bounds.meets_of_join (Bounds.meets_of_join (Core.meets_of_freshen h)).1).1

/-- After one at device scope or wider nothing that it keeps misses what is covered for every core. -/
theorem State.acquireAt_module (wide : sc = .device ∨ sc = .system) {l : L1Line} (h : ((s.acquireAt i sc).core i).Keeps l) : s.pub.meets l = true := by
  rcases wide with rfl | rfl
  · rw [State.acquireAt, State.core_modCore_same] at h
    exact (Bounds.meets_of_join (Core.meets_of_freshen h)).2
  · rw [State.acquireAt, State.core_modCore_same] at h
    exact (Bounds.meets_of_join (Bounds.meets_of_join (Core.meets_of_freshen h)).1).2
end

/-- A release and the acquire that pairs with it (R186 to R189): nothing that core j keeps then misses a write that was visible to core i. -/
theorem State.seen_le_acquired {s : State} {i j : Nat} {sc sc' : Scope}
    (pair : ((sc = .device ∨ sc = .system) ∧ (sc' = .device ∨ sc' = .system)) ∨ (sc ≠ .core ∧ sc' ≠ .core ∧ clusterOf i = clusterOf j))
    {l : L1Line} (h : (((s.publish i sc).acquireAt j sc').core j).Keeps l) : s.seen i l.la ≤ l.seen := by
  rw [← State.get_visible, ← Bounds.meets_iff]
  rcases pair with ⟨rel, acq⟩ | ⟨rel, acq, near⟩
  · have met := State.acquireAt_module acq h
    rw [State.publish_covers_module s i rel] at met
    exact (Bounds.meets_of_join met).2
  · have met := State.acquireAt_cluster acq h
    rw [← near, State.publish_covers_cluster s i rel] at met
    exact (Bounds.meets_of_join met).2

/-! ### PHASE and FENCE (R187, R191, R208) -/

theorem State.releaseIf_ok {s : State} {i : Nat} {rel : Bool} {sc : Scope} (h : rel = true → s.released i sc = true) :
    s.releaseIf i rel sc = .ok (if rel then s.publish i sc else s) := by
  cases rel
  · rfl
  · exact State.release_ok.2 ⟨h rfl, rfl⟩

theorem State.releaseIf_stall {s : State} {i : Nat} {sc : Scope} (h : s.released i sc = false) : s.releaseIf i true sc = .error .stall := by
  rw [State.releaseIf, if_pos rfl, State.release, h]
  rfl

theorem exec_phase {s : State} {acq rel : Bool} {scope : Scope} (h : s.Legal (.phase acq rel scope)) (done : rel = true → s.start.released s.cur scope = true) :
    exec (.phase acq rel scope) s = .next (s.doneIn (((if rel then s.start.publish s.cur scope else s.start).acquireIf s.cur acq scope).modCore s.cur
      fun c => { c with phasec := (c.phasec + 1) % 2 ^ 16 }) (.phase acq rel scope)) := by
  have kept : s.me.OffRegs (((if rel then s.start.publish s.cur scope else s.start).acquireIf s.cur acq scope).core s.cur) := by
    have released : s.me.OffRegs ((if rel then s.start.publish s.cur scope else s.start).core s.cur) := by
      rw [← State.start_core]
      cases rel
      · exact .refl _
      · exact State.publish_offRegs _ _ _
    cases acq
    · exact released
    · exact released.trans (State.acquireAt_offRegs _ _ _)
  change execPhase acq rel scope s = _
  refine runSeq_ok h ?_ ?_ ?_
  · simp only [State.releaseIf_ok done, bind, Except.bind]
  · rw [State.core_modCore_same]
    exact kept.txq_eq
  · rw [State.core_modCore_same]
    exact kept.outq_eq

theorem exec_phase_waits {s : State} {acq : Bool} {scope : Scope} (h : s.Legal (.phase acq true scope)) (early : s.start.released s.cur scope = false) :
    exec (.phase acq true scope) s = .next s.waits := by
  change execPhase acq true scope s = _
  refine runSeq_stall h ?_
  simp only [State.releaseIf_stall early, bind, Except.bind]

theorem exec_fence {s : State} {acq rel : Bool} {scope : Scope} (h : s.Legal (.fence acq rel scope)) :
    exec (.fence acq rel scope) s = .next (s.done (.fence acq rel scope) (s.me.fenced acq rel s.serial)) := by
  change execFence acq rel scope s = _
  rw [← State.doneIn_setCore]
  refine runSeq_ok h ?_ ?_ ?_
  · rw [State.modCore, State.start_core, State.start_setCore]
    rfl
  all_goals
    rw [State.core_setCore_same]
    rfl

/-- Settles O28: what a release covers are the writes that its core sees (State.get_visible), and an acquire at the paired scope keeps no copy that misses them. -/
theorem phaseAndFence : Obligations.PhaseAndFence := by
  unfold Obligations.PhaseAndFence
  refine ⟨fun s acq rel scope => ⟨exec_phase, exec_phase_waits, exec_fence⟩, fun s i => ⟨rfl, rfl, s.publish_cluster_pub, fun cl => s.publish_cluster_other,
    fun j near e => s.mem_publish_cluster near, fun sc => ?_, fun sc h => ⟨?_, ?_, ?_, ?_⟩, fun la => ⟨?_, State.seen_uncopied⟩⟩,
    fun s i j sc sc' pair l => State.seen_le_acquired pair⟩
  · exact ⟨s.publish_mem i sc, s.publish_sbOf i sc, fun j => s.publish_core_other sc, (s.publish_offRegs i sc).sreg_eq, s.acquireAt_mem i sc,
      (s.acquireAt_offRegs i sc).sreg_eq⟩
  · exact (State.released_loads h).1
  · exact (State.released_loads h).2
  · exact State.released_stores h
  · exact State.released_homes h
  · rintro l keeps rfl
    exact State.seen_le_copy keeps

end Sys2Proof.Machine
end

section
namespace Sys2Proof.Machine
open Sys2Proof

/-! ### How VALUE follows completions (R198 to R200) -/

theorem eq_tlMax_iff (x : Word) : x = tlMax ↔ x.toNat = Claims.topNumber := BitVec.toNat_inj.symm

theorem Timeline.settle_value_cons {t : Timeline} {x : Nat} {r : List Nat} (h : t.out = x :: r) : t.settle.value = BitVec.ofNat 64 (r.foldl min x - 1) := by
  rw [Timeline.settle, h]

theorem Timeline.settle_value_nil {t : Timeline} (h : t.out = []) : t.settle.value = t.issued := by
  rw [Timeline.settle, h]

/-- While the top number is outstanding, VALUE is below it (R200). -/
theorem Timeline.settle_value_lt_top {t : Timeline} (h : Claims.topNumber ∈ t.out) : t.settle.value.toNat < Claims.topNumber := by
  obtain ⟨x, r, e⟩ := List.exists_cons_of_ne_nil (List.ne_nil_of_mem h)
  obtain ⟨head, tail⟩ := le_foldl_min_iff.1 (le_refl (r.foldl min x))
  have least : r.foldl min x ≤ Claims.topNumber := by
    rcases List.mem_cons.1 (e ▸ h) with top | top
    · exact head.trans_eq top.symm
    · exact tail _ top
  rw [Timeline.settle_value_cons e, BitVec.toNat_ofNat]
  rw [Claims.topNumber] at *
  omega

/-- VALUE is the largest count that is below every outstanding number (R198). -/
theorem Timeline.le_settle_value_iff {t : Timeline} (h : ∀ m ∈ t.out, 1 ≤ m ∧ m ≤ t.issued.toNat) (v : Nat) :
    v ≤ t.settle.value.toNat ↔ v ≤ t.issued.toNat ∧ ∀ m ∈ t.out, v < m := by
  cases e : t.out with
  | nil => simp [Timeline.settle_value_nil e]
  | cons x r =>
    rw [e] at h
    obtain ⟨first, bound⟩ := h x List.mem_cons_self
    obtain ⟨head, -⟩ := le_foldl_min_iff.1 (le_refl (r.foldl min x))
    have low : 1 ≤ r.foldl min x := le_foldl_min_iff.2 ⟨first, fun m hm => (h m (List.mem_cons_of_mem _ hm)).1⟩
    have below : v < r.foldl min x ↔ ∀ m ∈ x :: r, v < m := by
      rw [List.forall_mem_cons]
      exact le_foldl_min_iff
    have small := t.issued.isLt
    rw [Timeline.settle_value_cons e, BitVec.toNat_ofNat, ← below]
    omega

section
variable {t : Timeline}

theorem Timeline.issue_counts (h : t.issued.toNat < Claims.topNumber) : t.issue = (t.issued.toNat + 1,
    { t with issued := t.issued + 1, ovf := t.ovf || decide (t.issued.toNat + 1 = Claims.topNumber), out := t.out ++ [t.issued.toNat + 1] }) := by
  have next : (t.issued + 1).toNat = t.issued.toNat + 1 := by
    rw [Claims.topNumber] at h
    rw [BitVec.toNat_add]
    exact Nat.mod_eq_of_lt (show t.issued.toNat + 1 < 2 ^ 64 by omega)
  rw [Timeline.issue, if_neg (mt (eq_tlMax_iff _).1 h.ne)]
  simp only [eq_tlMax_iff, next]

theorem Timeline.issue_stays (h : t.issued.toNat = Claims.topNumber) :
    t.issue = (Claims.topNumber, ({ t with ovf := true, out := t.out ++ [Claims.topNumber] } : Timeline).settle) := by
  rw [Timeline.issue, if_pos ((eq_tlMax_iff _).2 h)]
  rfl

theorem Timeline.finish_out (t : Timeline) (n : Nat) (fail : Bool) : (t.finish n fail).out = t.out.erase n := rfl

/-- Of two operations that share a number, one is still outstanding when the other completes (R200). -/
theorem Timeline.mem_finish_of_shared {n : Nat} (fail : Bool) (h : 2 ≤ t.out.count n) : n ∈ (t.finish n fail).out := by
  rw [Timeline.finish_out, ← List.count_pos_iff, List.count_erase_self]
  omega

theorem Timeline.mem_finish_iff (one : t.out.Nodup) {n m : Nat} {fail : Bool} : m ∈ (t.finish n fail).out ↔ m ∈ t.out ∧ m ≠ n := by
  rw [Timeline.finish_out, one.mem_erase_iff, and_comm]

theorem Timeline.le_finish_value_iff (h : ∀ m ∈ t.out, 1 ≤ m ∧ m ≤ t.issued.toNat) (n : Nat) (fail : Bool) (v : Nat) :
    v ≤ (t.finish n fail).value.toNat ↔ v ≤ t.issued.toNat ∧ ∀ m ∈ (t.finish n fail).out, v < m :=
  Timeline.le_settle_value_iff (t := { t with out := t.out.erase n, err := t.err || fail }) (fun m hm => h m (List.mem_of_mem_erase hm)) v
end

/-! ### TLWAIT, TLGET, TLSET (R199, R201, R217) -/

theorem stallUnless_true {b : Bool} (h : b = true) : stallUnless b = .ok () := by rw [h]; rfl
theorem stallUnless_false {b : Bool} (h : b = false) : stallUnless b = .error .stall := by rw [h]; rfl

theorem Timeline.flags_eq (t : Timeline) : t.flags = BitVec.ofNat 64 ((if t.err then 1 else 0) + (if t.ovf then 2 else 0)) := by
  rw [Timeline.flags]
  cases t.err <;> cases t.ovf <;> rfl

/-- The core after TLWAIT has waited for n operations of a context: an acquire, unless n is 0 (R217). -/
def Core.waited (c : Core) (tl n : Nat) : Core := if n = 0 then c else c.freshen (c.tl tl).host

theorem Core.waited_offRegs (c : Core) (tl n : Nat) : c.OffRegs (c.waited tl n) := by
  rw [Core.waited]
  split <;> rfl

section
variable {s : State} {tl a : Reg} {imm : IWord}

theorem exec_tlget (h : s.Legal (.tlget tl a imm)) (ha : a.toNat < 56) : exec (.tlget tl a imm) s = .next (s.done (.tlget tl a imm) (s.me.writeS a.toNat
    (if imm = 0 then (s.me.tl tl.toNat).value else if imm = 1 then (s.me.tl tl.toNat).issued else (s.me.tl tl.toNat).flags))) :=
  runLocal_writes h rfl ha rfl s.me_ready

theorem exec_tlset_waits (h : s.Legal (.tlset tl a imm)) (busy : (s.me.tl tl.toNat).out ≠ []) : exec (.tlset tl a imm) s = .next s.waits := by
  change execTlset tl a imm s = _
  refine runLocal_stall h ?_
  simp only [stallUnless_false (List.isEmpty_eq_false_iff.2 busy), bind, Except.bind]

variable {x : Word} {c : Core} (r : s.me.readS a = .ok (x, c))
include r

theorem exec_tlset (h : s.Legal (.tlset tl a imm)) (idle : (s.me.tl tl.toNat).out = []) : exec (.tlset tl a imm) s = .next (s.done (.tlset tl a imm) (c.setTl tl.toNat
    { s.me.tl tl.toNat with value := x, issued := x, host := [], err := (s.me.tl tl.toNat).err && !imm.getLsbD 0, ovf := (s.me.tl tl.toNat).ovf && !imm.getLsbD 1 })) := by
  change execTlset tl a imm s = _
  refine runLocal_plain h ?_ rfl (Core.readS_txq r) (Core.readS_outq r)
  simp only [stallUnless_true (List.isEmpty_iff.2 idle), r, bit_eq_testBit, bind, Except.bind, BitVec.testBit_toNat]

theorem exec_tlwait_waits (h : s.Legal (.tlwait tl a imm)) (early : (s.me.tl tl.toNat).value.toNat < if a = 0 then imm.toNat else x.toNat) :
    exec (.tlwait tl a imm) s = .next s.waits := by
  change execTlwait tl a imm s = _
  refine runSeq_stall h ?_
  simp only [State.start_core, r, Core.tl_congr (Core.readS_tls r), stallUnless_false (decide_eq_false early.not_ge), bind, Except.bind]

theorem exec_tlwait (h : s.Legal (.tlwait tl a imm)) {n : Nat} (threshold : (if a = 0 then imm.toNat else x.toNat) = n) (reached : n ≤ (s.me.tl tl.toNat).value.toNat) :
    exec (.tlwait tl a imm) s = .next (s.done (.tlwait tl a imm) (c.waited tl.toNat n)) := by
  change execTlwait tl a imm s = _
  have kept := c.waited_offRegs tl.toNat n
  rw [← State.doneIn_setCore]
  refine runSeq_ok h ?_ (by simpa using kept.txq_eq.trans (Core.readS_txq r)) (by simpa using kept.outq_eq.trans (Core.readS_outq r))
  simp only [State.start_core, r, threshold, Core.tl_congr (Core.readS_tls r), stallUnless_true (decide_eq_true reached), State.start_setCore, State.modCore_setCore,
    bind, Except.bind, Core.waited]
  split <;> rfl
end

/-! ### WAITC, TIME, WAITT (R202, R216, R260) -/

/-- A count is no more than a field of WAITC asks, where 63 is any number. -/
def Within (n : Nat) (m : BitVec 6) : Prop := n ≤ m.toNat ∨ m.toNat = 63

theorem within_iff {n : Nat} {m : BitVec 6} : (decide (n ≤ m.toNat) || m == 63) = true ↔ Within n m := by
  rw [Bool.or_eq_true, decide_eq_true_iff, beq_iff_eq, ← BitVec.toNat_inj]
  rfl

/-- What is outstanding of the core is no more than WAITC asks (R216). -/
def Core.Drained (c : Core) (l st cp ti : BitVec 6) : Prop :=
  Within c.loads l ∧ Within c.stores st ∧ Within ((c.tl 0).out.length + (c.tl 3).out.length) cp ∧ Within ((c.tl 1).out.length + (c.tl 2).out.length) ti

section
variable {s : State} {l st cp ti : BitVec 6}

theorem execWaitc_eq : exec (.waitc l st cp ti) s = runSeq (.waitc l st cp ti) (fun k s => do
    stallUnless ((decide ((s.core k).loads ≤ l.toNat) || l == 63) && (decide ((s.core k).stores ≤ st.toNat) || st == 63) &&
      (decide ((s.core k).copies ≤ cp.toNat) || cp == 63) && (decide ((s.core k).tiles ≤ ti.toNat) || ti == 63))
    .ok s) s := rfl

theorem drained_iff {c : Core} : ((decide (c.loads ≤ l.toNat) || l == 63) && (decide (c.stores ≤ st.toNat) || st == 63) &&
    (decide (c.copies ≤ cp.toNat) || cp == 63) && (decide (c.tiles ≤ ti.toNat) || ti == 63)) = true ↔ c.Drained l st cp ti := by
  rw [Bool.and_eq_true, Bool.and_eq_true, Bool.and_eq_true, within_iff, within_iff, within_iff, within_iff, and_assoc, and_assoc]
  rfl

theorem exec_waitc (h : s.Legal (.waitc l st cp ti)) (drained : s.me.Drained l st cp ti) : exec (.waitc l st cp ti) s = .next (s.done (.waitc l st cp ti) s.me) := by
  rw [execWaitc_eq, ← State.doneIn_setCore]
  refine runSeq_ok h ?_ (by simp) (by simp)
  simp only [State.start_core, stallUnless_true (drained_iff.2 drained), bind, Except.bind]
  rfl

theorem exec_waitc_waits (h : s.Legal (.waitc l st cp ti)) (busy : ¬ s.me.Drained l st cp ti) : exec (.waitc l st cp ti) s = .next s.waits := by
  rw [execWaitc_eq]
  refine runSeq_stall h ?_
  simp only [State.start_core, stallUnless_false (Bool.eq_false_iff.2 (mt drained_iff.1 busy)), bind, Except.bind]
end

theorem State.start_time (s : State) : s.start.time = s.time := rfl

theorem exec_time {s : State} {d : Reg} (h : s.Legal (.time d)) (hd : d.toNat < 56) : exec (.time d) s = .next (s.done (.time d) (s.me.writeS d.toNat s.time)) := by
  change execTime d s = _
  rw [← State.doneIn_setCore]
  refine runSeq_ok h ?_ (by simp) (by simp)
  simp only [State.start_core, Core.putS_reg _ hd, State.start_setCore, State.start_time, bind, Except.bind]

section
variable {s : State} {a : Reg} {x : Word} {c : Core} (h : s.Legal (.waitt a)) (r : s.me.readS a = .ok (x, c))
include h r

theorem exec_waitt (come : x.toNat ≤ s.time.toNat) : exec (.waitt a) s = .next (s.done (.waitt a) c) := by
  change execWaitt a s = _
  rw [← State.doneIn_setCore]
  refine runSeq_ok h ?_ (by simpa using Core.readS_txq r) (by simpa using Core.readS_outq r)
  simp only [State.start_core, r, bind, Except.bind, State.start_setCore, stallUnless_true (decide_eq_true (p := x.toNat ≤ s.start.time.toNat) come)]

theorem exec_waitt_waits (early : s.time.toNat < x.toNat) : exec (.waitt a) s = .next s.waits := by
  change execWaitt a s = _
  refine runSeq_stall h ?_
  simp only [State.start_core, r, bind, Except.bind, stallUnless_false (decide_eq_false (p := x.toNat ≤ s.start.time.toNat) early.not_ge)]
end

/-- Settles O35: VALUE is the largest count below every outstanding number (Timeline.le_settle_value_iff), and each wait is a stall until its count or time has come. -/
theorem timelineAndWaits : Obligations.TimelineAndWaits := by
  unfold Obligations.TimelineAndWaits
  refine ⟨⟨fun s tl a imm x c => ⟨fun h r => ⟨exec_tlwait r h rfl, exec_tlwait_waits r h⟩, fun h ha => ?_, fun h r => ⟨exec_tlset r h, exec_tlset_waits h⟩⟩,
      fun t h => ?_, fun t h => ?_, fun t n fail => t.mem_finish_of_shared fail,
      fun t n fail one h => ⟨rfl, rfl, fun m => Timeline.mem_finish_iff one, Timeline.le_finish_value_iff h n fail⟩⟩,
    fun s l st cp ti h => ⟨exec_waitc h, exec_waitc_waits h⟩, fun s d => exec_time, fun s a x c h r => ⟨exec_waitt h r, exec_waitt_waits h r⟩⟩
  · dsimp only
    rw [exec_tlget h ha, Timeline.flags_eq]
  · rw [Timeline.issue_counts h]
    exact ⟨rfl, rfl, rfl, rfl, rfl⟩
  · rw [Timeline.issue_stays h]
    exact ⟨rfl, rfl, rfl, rfl, Timeline.settle_value_lt_top (List.mem_append_right _ List.mem_cons_self)⟩

end Sys2Proof.Machine
end

section
namespace Sys2Proof.Machine
open Sys2Proof

/-! ### Fields of numbers (R7) -/

section
variable {hi lo : Nat} (x y : Nat)

theorem testBit_bits (j : Nat) : (bits x hi lo).testBit j = (decide (j < hi + 1 - lo) && x.testBit (lo + j)) := by
  rw [bits, Nat.testBit_mod_two_pow, Nat.testBit_shiftRight]

theorem testBit_setBits (h : lo ≤ hi) (j : Nat) : (setBits x hi lo y).testBit j = if lo ≤ j ∧ j ≤ hi then y.testBit (j - lo) else x.testBit j := by
  obtain ⟨n, width⟩ : ∃ n, hi + 1 = lo + n := ⟨hi + 1 - lo, by omega⟩
  have cut : x = 2 ^ (lo + n) * (x / 2 ^ (lo + n)) + (2 ^ lo * (x / 2 ^ lo % 2 ^ n) + x % 2 ^ lo) := by
    rw [pow_add, ← Nat.div_div_eq_div_mul, mul_assoc, ← add_assoc, ← Nat.mul_add, Nat.div_add_mod, Nat.div_add_mod]
  have low : x % 2 ^ lo < 2 ^ lo := Nat.mod_lt _ (Nat.two_pow_pos lo)
  have field (z : Nat) : 2 ^ lo * (z % 2 ^ n) + x % 2 ^ lo < 2 ^ (lo + n) := by
    have below : z % 2 ^ n < 2 ^ n := Nat.mod_lt _ (Nat.two_pow_pos n)
    calc 2 ^ lo * (z % 2 ^ n) + x % 2 ^ lo < 2 ^ lo * (z % 2 ^ n + 1) := by rw [Nat.mul_succ]; omega
      _ ≤ 2 ^ lo * 2 ^ n := Nat.mul_le_mul_left _ below
      _ = 2 ^ (lo + n) := (pow_add 2 lo n).symm
  have set : setBits x hi lo y = 2 ^ (lo + n) * (x / 2 ^ (lo + n)) + (2 ^ lo * (y % 2 ^ n) + x % 2 ^ lo) := by
    rw [setBits, bits, Nat.shiftRight_eq_div_pow, width, Nat.add_sub_cancel_left, mul_comm (_ % _) (2 ^ lo), mul_comm (y % _) (2 ^ lo)]
    omega
  have here (z : Nat) : (2 ^ (lo + n) * (x / 2 ^ (lo + n)) + (2 ^ lo * (z % 2 ^ n) + x % 2 ^ lo)).testBit j =
      if j < lo + n then if j < lo then (x % 2 ^ lo).testBit j else (z % 2 ^ n).testBit (j - lo) else (x / 2 ^ (lo + n)).testBit (j - (lo + n)) := by
    rw [Nat.testBit_two_pow_mul_add _ (field z), Nat.testBit_two_pow_mul_add _ low]
  rw [set, here]
  by_cases inside : lo ≤ j ∧ j ≤ hi
  · rw [if_pos inside, if_pos (by omega), if_neg (by omega), Nat.testBit_mod_two_pow, decide_eq_true (by omega), Bool.true_and]
  · rw [if_neg inside]
    conv_rhs => rw [cut, here]
    split
    · rw [if_pos (by omega), if_pos (by omega)]
    · rfl

theorem bits_setBits_same (h : lo ≤ hi) : bits (setBits x hi lo y) hi lo = y % 2 ^ (hi + 1 - lo) := by
  refine Nat.eq_of_testBit_eq fun j => ?_
  rw [testBit_bits, testBit_setBits x y h, Nat.testBit_mod_two_pow]
  by_cases inside : j < hi + 1 - lo
  · rw [if_pos (by omega), Nat.add_sub_cancel_left]
  · rw [decide_eq_false inside, Bool.false_and, Bool.false_and]

/-- A field is not changed by a write to another. -/
theorem bits_setBits_other (h : lo ≤ hi) {hi' lo' : Nat} (apart : hi' < lo ∨ hi < lo') : bits (setBits x hi lo y) hi' lo' = bits x hi' lo' := by
  refine Nat.eq_of_testBit_eq fun j => ?_
  rw [testBit_bits, testBit_bits, testBit_setBits x y h]
  by_cases inside : j < hi' + 1 - lo'
  · rw [if_neg (by omega)]
  · rw [decide_eq_false inside, Bool.false_and, Bool.false_and]

theorem setBit_eq_setBits (i : Nat) (b : Bool) : setBit x i b = setBits x i i (b2n b) := by
  have field : bits x i i = b2n (bit x i) := by
    rw [bits, show i + 1 - i = 1 by omega, bit, b2n]
    rcases Nat.mod_two_eq_zero_or_one (x >>> i) with e | e <;> simp [e]
  have one : b2n b % 2 ^ (i + 1 - i) = b2n b := by
    rw [show i + 1 - i = 1 by omega]
    cases b <;> rfl
  rw [setBit, setBits, field, one]
  by_cases on : bit x i = true
  · have low : 2 ^ i ≤ x := Nat.ge_two_pow_of_testBit (bit_eq_testBit x i ▸ on)
    cases b <;> simp [on, b2n, Nat.sub_add_cancel low]
  · cases b <;> simp [on, b2n]

theorem testBit_setBit (i : Nat) (b : Bool) (j : Nat) : (setBit x i b).testBit j = if j = i then b else x.testBit j := by
  rw [setBit_eq_setBits, testBit_setBits _ _ le_rfl]
  by_cases here : j = i
  · rw [if_pos (by omega), if_pos here, here, Nat.sub_self]
    cases b <;> rfl
  · rw [if_neg (by omega), if_neg here]

theorem bits_setBit_other {i : Nat} (b : Bool) (apart : hi < i ∨ i < lo) : bits (setBit x i b) hi lo = bits x hi lo := by
  rw [setBit_eq_setBits, bits_setBits_other x _ le_rfl (by omega)]

theorem setBit_true (i : Nat) : setBit x i true = x ||| 2 ^ i := by
  refine Nat.eq_of_testBit_eq fun j => ?_
  rw [testBit_setBit, Nat.testBit_or, Nat.testBit_two_pow]
  by_cases here : j = i
  · simp [here]
  · simp [here, Ne.symm here]
end

end Sys2Proof.Machine
end

section
namespace Sys2Proof.Machine
open Sys2Proof

/-! ### PBIND, PEND, PPOLL (R234, R235) -/

theorem bits_low (x n : Nat) : bits x n 0 = x % 2 ^ (n + 1) := by simp [bits]

section
variable {s : State} {d a : Reg} {x : Word} {c : Core}

/-- A core of the launch that runs here may be named as x names one (R234). -/
def State.Binds (s : State) (c : Core) (x : Word) : Prop :=
  x.toNat < 2 ^ 15 ∧ s.isSup s.cur = false ∧
    ∃ k l, coreOfId (x.toNat % 2 ^ 12) = some k ∧ s.launch (s.partOf s.cur) (c.run.getD 0) = some l ∧ l.clusters.testBit (clusterOf k) = true

/-- What keeps a PBIND from naming the core. -/
theorem State.not_binds (h : 2 ^ 15 ≤ x.toNat ∨ coreOfId (x.toNat % 2 ^ 12) = none ∨ s.isSup s.cur = true ∨ s.launch (s.partOf s.cur) (c.run.getD 0) = none ∨
    ∃ k l, coreOfId (x.toNat % 2 ^ 12) = some k ∧ s.launch (s.partOf s.cur) (c.run.getD 0) = some l ∧ l.clusters.testBit (clusterOf k) = false) : ¬ s.Binds c x := by
  rintro ⟨small, user, k, l, core, launch, member⟩
  rcases h with h | h | h | h | ⟨k', l', core', launch', out⟩
  · omega
  · exact nomatch h.symm.trans core
  · exact nomatch h.symm.trans user
  · exact nomatch h.symm.trans launch
  · obtain rfl : k = k' := Option.some.inj (core.symm.trans core')
    obtain rfl : l = l' := Option.some.inj (launch.symm.trans launch')
    exact nomatch out.symm.trans member

theorem trapIf_true {b : Bool} {q : Cause} {v : Word} (h : b = true) : trapIf b q v = .error (.trap q v) := by rw [h]; rfl
theorem trapIf_false {b : Bool} {q : Cause} {v : Word} (h : b = false) : trapIf b q v = .ok () := by rw [h]; rfl

section
variable (h : s.Legal (.pbind d a)) (r : s.me.readS a = .ok (x, c))
include h r

theorem exec_pbind (b : s.Binds c x) :
    exec (.pbind d a) s = .next (s.done (.pbind d a) (c.setTxp (d.toNat - 56) { c.txp (d.toNat - 56) with bind := some x })) := by
  obtain ⟨small, user, k, l, core, launch, member⟩ := b
  change execPbind d a s = _
  rw [← State.doneIn_setCore]
  refine runSeq_ok h ?_ (by simpa using Core.readS_txq r) (by simpa using Core.readS_outq r)
  replace launch : s.start.launch (s.start.partOf s.cur) (c.run.getD 0) = some l := launch
  replace user : s.start.isSup s.cur = false := user
  simp only [State.start_core, r, bind, Except.bind, State.start_setCore, bits_low, core, launch, user, bit_eq_testBit, member, decide_eq_true small]
  rfl

theorem exec_pbind_traps (b : ¬ s.Binds c x) : exec (.pbind d a) s = .next (s.traps (.pbind d a) .prot x) := by
  change execPbind d a s = _
  refine runSeq_traps h ?_
  simp only [State.start_core, r, bind, Except.bind, bits_low, bit_eq_testBit]
  rw [trapIf_true]
  cases core : coreOfId (x.toNat % 2 ^ (11 + 1)) with
  | none => simp
  | some k =>
    cases launch : s.start.launch (s.start.partOf s.cur) (c.run.getD 0) with
    | none => simp
    | some l =>
      by_contra good
      simp only [Bool.not_eq_true', Bool.not_eq_false, Bool.and_eq_true, decide_eq_true_eq] at good
      obtain ⟨small, user, member⟩ := good
      exact b ⟨small, user, k, l, core, launch, member⟩
end

/-- The last word of a packet closes it (R234). -/
theorem Core.send_last {i p : Nat} (h : ((c.txp p).pkt.getD (0, sendWord i p (c.txp p))).1 < 16) : c.send i p x true =
    .ok { c.setTxp p { c.txp p with pkt := none } with txq := c.txq ++ [⟨p, ((c.txp p).pkt.getD (0, sendWord i p (c.txp p))).2, x, true⟩] } := if_neg h.not_ge

section
variable (h : s.Legal (.pend d a)) (r : s.me.readS a = .ok (x, c))
include h r

theorem exec_pend_full (full : 16 ≤ ((c.txp (d.toNat - 56)).pkt.getD (0, sendWord s.cur (d.toNat - 56) (c.txp (d.toNat - 56)))).1) :
    exec (.pend d a) s = .next (s.traps (.pend d a) .portlen (BitVec.ofNat 64 (d.toNat - 56))) := by
  change execPend d a s = _
  refine runLocal_traps h ?_
  simp only [r, bind, Except.bind, Core.send_full full]

theorem exec_pend {t : State} (room : ((c.txp (d.toNat - 56)).pkt.getD (0, sendWord s.cur (d.toNat - 56) (c.txp (d.toNat - 56)))).1 < 16)
    (sent : (s.setCore s.cur (c.setTxp (d.toNat - 56) { c.txp (d.toNat - 56) with pkt := none })).sendWords s.cur
      [⟨d.toNat - 56, ((c.txp (d.toNat - 56)).pkt.getD (0, sendWord s.cur (d.toNat - 56) (c.txp (d.toNat - 56)))).2, x, true⟩]
      (s.setCore s.cur (c.setTxp (d.toNat - 56) { c.txp (d.toNat - 56) with pkt := none })) = .ok t) :
    exec (.pend d a) s = .next (t.modCore s.cur fun c => c.advance (Instr.pend d a).len) := by
  change execPend d a s = _
  let q := d.toNat - 56
  let closed : Core := c.setTxp q { c.txp q with pkt := none }
  let word : TxWord := ⟨q, ((c.txp q).pkt.getD (0, sendWord s.cur q (c.txp q))).2, x, true⟩
  have tx : c.txq = [] := Core.readS_txq r
  have sends : c.send s.cur q x true = .ok { closed with txq := [word] } := by rw [Core.send_last room, tx, List.nil_append]
  have body : (do let (x, c) ← s.me.readS a; .ok (← c.send s.cur q x true, 0) : M (Core × FFlags)) = .ok ({ closed with txq := [word] }, 0) := by
    simp only [r, bind, Except.bind, sends]
  have start : s.setCore s.cur { closed with txq := [] } = s.setCore s.cur closed := by
    rw [← tx]
    rfl
  refine (runLocal_sends (c := { closed with txq := [word] }) h body rfl (Core.readS_outq r) start).trans ?_
  dsimp only
  rw [sent]
  rfl
end

theorem b2n_mul (b : Bool) (x : Nat) : b2n b * x = if b then x else 0 := by cases b <;> simp [b2n]

theorem exec_ppoll (h : s.Legal (.ppoll d a)) (hd : d.toNat < 56) :
    exec (.ppoll d a) s = .next (s.done (.ppoll d a) ((s.me.setTxp (a.toNat - 56) { s.me.txp (a.toNat - 56) with drop := false }).writeS d.toNat (s.me.portStatus (a.toNat - 56)))) :=
  runLocal_writes h rfl hd rfl s.me_ready

end

/-- Settles O34: PBIND succeeds exactly where the core word names a listed place (State.Binds), and a word sent as the last one takes the packet away. -/
theorem portInstructions : Obligations.PortInstructions := by
  unfold Obligations.PortInstructions
  refine ⟨fun s d a x c h r => ⟨fun k l small core user launch member => exec_pbind h r ⟨small, user, k, l, core, launch, member⟩,
      fun out => exec_pbind_traps h r (State.not_binds out)⟩,
    fun s d a x c h r => ⟨exec_pend_full h r, fun t => exec_pend h r⟩, fun s d a h hd => ?_⟩
  rw [exec_ppoll h hd, Core.portStatus]
  cases queue : (s.me.rxp (a.toNat - 56)).q <;> simp only [queue, b2n_mul]
end Sys2Proof.Machine
end

section
namespace Sys2Proof.Machine
open Sys2Proof

/-! ### Entry to a user completion interrupt, and UIRET (R238, R239) -/

/-- One register of the bank and its shadow change places (R238). -/
def Core.swapReg (c : Core) (r : Nat) : Core :=
  { c with s := SMap.set 0 c.s r (SMap.get 0 c.shadow r), shadow := SMap.set 0 c.shadow r (SMap.get 0 c.s r) }

/-- The first n registers of the bank have changed places with their shadows. -/
def Core.swapRegs (c : Core) (n : Nat) : Core := (List.range n).foldl (fun c j => c.swapReg (48 + j)) c

theorem Core.swapBank_eq (c : Core) : c.swapBank = ({ c with poison := { c.poison with s := c.poison.s.map swapCode } } : Core).swapRegs 6 := rfl

theorem Core.swapRegs_succ (c : Core) (n : Nat) : c.swapRegs (n + 1) = (c.swapRegs n).swapReg (48 + n) := by
  rw [Core.swapRegs, List.range_succ, List.foldl_append]
  rfl

theorem Core.swapRegs_kept (c : Core) (n : Nat) : c.swapRegs n = { c with s := (c.swapRegs n).s, shadow := (c.swapRegs n).shadow } := by
  induction n with
  | zero => rfl
  | succ n ih =>
    rw [Core.swapRegs_succ, Core.swapReg, ih]

theorem Core.swapRegs_get (c : Core) (n r : Nat) :
    SMap.get 0 (c.swapRegs n).s r = SMap.get 0 (if 48 ≤ r ∧ r < 48 + n then c.shadow else c.s) r ∧
      SMap.get 0 (c.swapRegs n).shadow r = SMap.get 0 (if 48 ≤ r ∧ r < 48 + n then c.s else c.shadow) r := by
  induction n with
  | zero =>
    have none : ¬ (48 ≤ r ∧ r < 48 + 0) := by omega
    rw [if_neg none, if_neg none]
    exact ⟨rfl, rfl⟩
  | succ n ih =>
    obtain ⟨front, back⟩ := ih
    rw [Core.swapRegs_succ, Core.swapReg]
    by_cases here : r = 48 + n
    · subst here
      simp_all
    · have range : (48 ≤ r ∧ r < 48 + (n + 1)) ↔ (48 ≤ r ∧ r < 48 + n) := by omega
      simp only [SMap.get_set_other _ _ _ here, front, back, range, and_self]

section
variable (c : Core)

/-- The bank reads as its shadow did (R238). -/
theorem Core.swapBank_sreg {r : Nat} (low : 48 ≤ r) (high : r < 54) : c.swapBank.sreg r = SMap.get 0 c.shadow r := by
  rw [Core.sreg, if_neg (by omega), Core.swapBank_eq, (Core.swapRegs_get _ 6 r).1, if_pos ⟨low, high⟩]

theorem Core.swapBank_shadow {r : Nat} (low : 48 ≤ r) (high : r < 54) : SMap.get 0 c.swapBank.shadow r = c.sreg r := by
  rw [Core.sreg, if_neg (by omega), Core.swapBank_eq, (Core.swapRegs_get _ 6 r).2, if_pos ⟨low, high⟩]

theorem Core.swapBank_other {r : Nat} (out : r < 48 ∨ r = 54 ∨ r = 55) : c.swapBank.sreg r = c.sreg r := by
  have get : SMap.get 0 c.swapBank.s r = SMap.get 0 c.s r := by
    rw [Core.swapBank_eq, (Core.swapRegs_get _ 6 r).1, if_neg (by omega)]
  rw [Core.sreg, Core.sreg, get]
end

/-- The core before it enters its interrupt: a frame is left, and EPC names its RPT (R48). -/
def Core.framed (c : Core) : Core := if c.frame.isSome then { c with frame := none, sys := { c.sys with epc := c.pc } } else c

/-- The bank changed, and the event told in its new registers (R238). -/
def Core.told (c : Core) (e : UciEvent) : Core :=
  ((c.swapBank.writeS 53 c.swapBank.unitPc).writeS 52 e.num).writeS 51 (BitVec.ofNat 64 (e.tl * 256 + e.status % 256))

/-- The core at its handler, r the events that are left (R238). -/
def Core.atHandler (c : Core) (r : List UciEvent) : Core :=
  { c with
    bank := { c.bank with uci := r }, sys := { c.sys with ucivec := BitVec.ofNat 64 (setBit c.sys.ucivec.toNat 1 true) }
    pc := BitVec.ofNat 64 (bits c.sys.ucivec.toNat 55 2 * 4), pfx := [], stalled := false, pushing := none }

/-- The core after it has taken the event. -/
def Core.interrupted (c : Core) (e : UciEvent) (r : List UciEvent) : Core := (c.framed.told e).atHandler r

theorem Core.atHandler_sreg (c : Core) (r : List UciEvent) (j : Nat) : (c.atHandler r).sreg j = c.sreg j := rfl
theorem Core.atHandler_shadow (c : Core) (r : List UciEvent) : (c.atHandler r).shadow = c.shadow := rfl
theorem Core.atHandler_frame (c : Core) (r : List UciEvent) : (c.atHandler r).frame = c.frame := rfl
theorem Core.atHandler_v (c : Core) (r : List UciEvent) : (c.atHandler r).v = c.v := rfl
theorem Core.atHandler_k (c : Core) (r : List UciEvent) : (c.atHandler r).k = c.k := rfl
theorem Core.atHandler_pc (c : Core) (r : List UciEvent) : (c.atHandler r).pc = BitVec.ofNat 64 (bits c.sys.ucivec.toNat 55 2 * 4) := rfl
theorem Core.atHandler_sys (c : Core) (r : List UciEvent) :
    (c.atHandler r).sys = { c.sys with ucivec := BitVec.ofNat 64 (setBit c.sys.ucivec.toNat 1 true) } := rfl

theorem exec_userInterruptEntry {s : State} {e : UciEvent} {r : List UciEvent} (ready : s.uciReady s.arg.core = true) (event : (s.core s.arg.core).bank.uci = e :: r) :
    exec .userInterruptEntry s = .next ({ s with tickets := s.tickets.filter fun t => t.core ≠ s.arg.core }.setCore s.arg.core ((s.core s.arg.core).interrupted e r)) := by
  change execUserInterruptEntry s = _
  simp only [execUserInterruptEntry, runEvent, ready, reduceIte, State.takeUci, event]
  rfl

section
variable (c : Core) (e : UciEvent) (r : List UciEvent)

theorem Core.framed_kept : c.framed = { c with frame := none, sys := { c.sys with epc := if c.frame = none then c.sys.epc else c.pc } } := by
  rw [Core.framed]
  cases h : c.frame with
  | none =>
    rw [if_neg (by simp), if_pos rfl, ← h]
  | some f => rfl

/-- c' is c but for its scalar registers, their shadows, and what bears on them. -/
def Core.OffScalars (c c' : Core) : Prop := c' = { c with s := c'.s, shadow := c'.shadow, poison := c'.poison, late := c'.late }

theorem Core.OffScalars.trans {c c' c'' : Core} (h : c.OffScalars c') (h' : c'.OffScalars c'') : c.OffScalars c'' := by
  unfold Core.OffScalars at *
  exact h'.trans (by rw [h])

section
variable {c' : Core} (h : c.OffScalars c')
include h
theorem Core.OffScalars.unitPc_eq : c'.unitPc = c.unitPc := (congrArg Core.unitPc h :)
theorem Core.OffScalars.sys_eq : c'.sys = c.sys := (congrArg Core.sys h :)
theorem Core.OffScalars.frame_eq : c'.frame = c.frame := (congrArg Core.frame h :)
theorem Core.OffScalars.v_eq : c'.v = c.v := (congrArg Core.v h :)
theorem Core.OffScalars.k_eq : c'.k = c.k := (congrArg Core.k h :)
end

theorem Core.swapBank_off : c.OffScalars c.swapBank := by
  unfold Core.OffScalars
  rw [Core.swapBank_eq, Core.swapRegs_kept]

theorem Core.writeS_off (n : Nat) (x : Word) : c.OffScalars (c.writeS n x) := by
  have kept := c.writeS_kept n x
  unfold Core.OffScalars
  rw [kept]

theorem Core.told_off : c.OffScalars (c.told e) := ((c.swapBank_off.trans (Core.writeS_off _ _ _)).trans (Core.writeS_off _ _ _)).trans (Core.writeS_off _ _ _)

theorem Core.writeS_shadow (n : Nat) (x : Word) : (c.writeS n x).shadow = c.shadow := (congrArg Core.shadow (c.writeS_kept n x) :)

theorem Core.told_shadow : (c.told e).shadow = c.swapBank.shadow := by rw [Core.told, Core.writeS_shadow, Core.writeS_shadow, Core.writeS_shadow]

theorem Core.told_sreg (j : Nat) : (c.told e).sreg j =
    if j = 51 then BitVec.ofNat 64 (e.tl * 256 + e.status % 256) else if j = 52 then e.num else if j = 53 then c.unitPc else c.swapBank.sreg j := by
  have unit : c.swapBank.unitPc = c.unitPc := c.swapBank_off.unitPc_eq
  rw [Core.told, unit]
  split_ifs with h51 h52 h53
  · rw [h51, Core.writeS_sreg_same _ _ _ (by decide)]
  · rw [Core.writeS_sreg_other _ _ _ h51, h52, Core.writeS_sreg_same _ _ _ (by decide)]
  · rw [Core.writeS_sreg_other _ _ _ h51, Core.writeS_sreg_other _ _ _ h52, h53, Core.writeS_sreg_same _ _ _ (by decide)]
  · rw [Core.writeS_sreg_other _ _ _ h51, Core.writeS_sreg_other _ _ _ h52, Core.writeS_sreg_other _ _ _ h53]

theorem ucivec_inh (x : Word) : BitVec.ofNat 64 (setBit x.toNat 1 true) = x ||| 2 := by
  refine BitVec.eq_of_toNat_eq ?_
  rw [setBit_true, BitVec.toNat_or, BitVec.toNat_ofNat, Nat.mod_eq_of_lt (Nat.or_lt_two_pow x.isLt (by decide))]
  rfl

theorem Core.framed_sreg (j : Nat) : c.framed.sreg j = c.sreg j := (congrArg (Core.sreg · j) c.framed_kept :)
theorem Core.framed_unitPc : c.framed.unitPc = if c.pfx = [] then c.pc else c.pfxPc := by
  rw [show c.framed.unitPc = c.unitPc from (congrArg Core.unitPc c.framed_kept :), Core.unitPc]
  cases c.pfx <;> rfl
theorem Core.framed_shadow : c.framed.shadow = c.shadow := (congrArg Core.shadow c.framed_kept :)

theorem Core.interrupted_sreg (j : Nat) : (c.interrupted e r).sreg j = (c.framed.told e).sreg j := Core.atHandler_sreg _ r j

/-- The registers of the core at its handler (R238). -/
theorem Core.interrupted_event : (c.interrupted e r).sreg 53 = (if c.pfx = [] then c.pc else c.pfxPc) ∧ (c.interrupted e r).sreg 52 = e.num ∧
    (c.interrupted e r).sreg 51 = BitVec.ofNat 64 (e.tl * 256 + e.status % 256) := by
  refine ⟨?_, ?_, ?_⟩
  · rw [Core.interrupted_sreg, Core.told_sreg, Core.framed_unitPc]
    rfl
  all_goals
    rw [Core.interrupted_sreg, Core.told_sreg]
    rfl

theorem Core.interrupted_bank {j : Nat} (low : 48 ≤ j) (high : j < 51) : (c.interrupted e r).sreg j = SMap.get 0 c.shadow j := by
  rw [Core.interrupted_sreg, Core.told_sreg, if_neg (by omega), if_neg (by omega), if_neg (by omega), Core.swapBank_sreg _ low (by omega), Core.framed_shadow]

theorem Core.interrupted_other {j : Nat} (out : j < 48 ∨ j = 54 ∨ j = 55) : (c.interrupted e r).sreg j = c.sreg j := by
  rw [Core.interrupted_sreg, Core.told_sreg, if_neg (by omega), if_neg (by omega), if_neg (by omega), Core.swapBank_other _ out, Core.framed_sreg]

theorem Core.interrupted_shadow {j : Nat} (low : 48 ≤ j) (high : j < 54) : SMap.get 0 (c.interrupted e r).shadow j = c.sreg j := by
  rw [Core.interrupted, Core.atHandler_shadow, Core.told_shadow, Core.swapBank_shadow _ low high, Core.framed_sreg]

theorem Core.framed_told_sys : (c.framed.told e).sys = { c.sys with epc := if c.frame = none then c.sys.epc else c.pc } :=
  (c.framed.told_off e).sys_eq.trans (congrArg Core.sys c.framed_kept :)

theorem Core.interrupted_sys : (c.interrupted e r).sys = { c.sys with epc := if c.frame = none then c.sys.epc else c.pc, ucivec := c.sys.ucivec ||| 2 } := by
  rw [Core.interrupted, Core.atHandler_sys, Core.framed_told_sys, ucivec_inh]

theorem Core.interrupted_pc : (c.interrupted e r).pc = BitVec.ofNat 64 (bits c.sys.ucivec.toNat 55 2 * 4) := by
  rw [Core.interrupted, Core.atHandler_pc, Core.framed_told_sys]

theorem Core.interrupted_rest : (c.interrupted e r).frame = none ∧ (c.interrupted e r).v = c.v ∧ (c.interrupted e r).k = c.k := by
  have off := c.framed.told_off e
  rw [Core.interrupted, Core.atHandler_frame, Core.atHandler_v, Core.atHandler_k, off.frame_eq, off.v_eq, off.k_eq]
  exact ⟨(congrArg Core.frame c.framed_kept :), (congrArg Core.v c.framed_kept :), (congrArg Core.k c.framed_kept :)⟩
end

/-! #### UIRET (R239) -/

/-- The core at the word that its handler returns to, INH clear (R239). -/
def Core.leaves (c : Core) (pc ucivec : Word) : Core := { c with sys := { c.sys with ucivec := ucivec }, pc := pc, slot := none, pfx := [], stalled := false }

/-- The core back from its handler (R239). -/
def Core.returned (c : Core) : Core := c.swapBank.leaves (wordPc (c.sreg 53)) (BitVec.ofNat 64 (setBit c.sys.ucivec.toNat 1 false))

theorem Core.leaves_fields (c : Core) (pc ucivec : Word) : (c.leaves pc ucivec).pc = pc ∧ (c.leaves pc ucivec).slot = none ∧ (c.leaves pc ucivec).pfx = [] ∧
    (c.leaves pc ucivec).sys.ucivec = ucivec ∧ (∀ j, (c.leaves pc ucivec).sreg j = c.sreg j) ∧ (c.leaves pc ucivec).shadow = c.shadow :=
  ⟨rfl, rfl, rfl, rfl, fun _ => rfl, rfl⟩

section
variable {s : State} (h : s.Legal .uiret)
include h

theorem exec_uiret_illop (out : s.me.sys.ucivec.getLsbD 1 = false) : exec .uiret s = .next (s.traps .uiret .illop s.me.word0) := by
  change execUiret s = _
  refine runCtl_traps h ?_
  simp only [State.start_core, bit_eq_testBit, BitVec.testBit_toNat, out, trapIf_true (b := !false) rfl, bind, Except.bind]

/-- A load is still to write a register of the bank (R130). -/
def Core.bankPending (c : Core) : Prop := ∃ l ∈ c.late, ∃ d n sg, l.dst = .s d n sg ∧ 48 ≤ d ∧ d < 54

omit h in
theorem Core.bankPending_iff {c : Core} : ((List.range 6).any fun j => c.pendingS (48 + j)) = true ↔ c.bankPending := by
  simp only [List.any_eq_true, List.mem_range, Core.pendingS_iff, Core.bankPending]
  constructor
  · rintro ⟨j, hj, -, l, hl, m, sg, e⟩
    exact ⟨l, hl, 48 + j, m, sg, e, by omega, by omega⟩
  · rintro ⟨l, hl, d, m, sg, e, low, high⟩
    exact ⟨d - 48, by omega, by omega, l, hl, m, sg, by rw [e]; congr 1; omega⟩

variable (inside : s.me.sys.ucivec.getLsbD 1 = true)
include inside

theorem exec_uiret_waits (busy : s.me.bankPending) : exec .uiret s = .next s.waits := by
  change execUiret s = _
  refine runCtl_stall h ?_
  simp only [State.start_core, bit_eq_testBit, BitVec.testBit_toNat, inside, trapIf_false (b := !true) rfl, bind, Except.bind, Core.bankPending_iff.2 busy,
    stallUnless_false (b := !true) rfl]

theorem exec_uiret (sound : 53 ∉ s.me.poison.s) (idle : ¬ s.me.bankPending) : exec .uiret s = .next (s.setCore s.cur s.me.returned) := by
  have free : ((List.range 6).any fun j => s.me.pendingS (48 + j)) = false := Bool.eq_false_iff.2 (mt Core.bankPending_iff.1 idle)
  have link : s.me.readS 53 = .ok (s.me.sreg 53, s.me) := by
    refine Core.readS_reg (by decide) (Core.pendingS_eq_false fun l hl m sg e => idle ⟨l, hl, 53, m, sg, e, by decide, by decide⟩) ?_
    simpa using sound
  change execUiret s = _
  refine runCtl_ok h ?_
  simp only [State.start_core, bit_eq_testBit, BitVec.testBit_toNat, inside, trapIf_false (b := !true) rfl, bind, Except.bind, free,
    stallUnless_true (b := !false) rfl, link, State.start_setCore]
  rfl
end

/-- Clearing INH, where it is set, takes its weight away. -/
theorem ucivec_back {x : Word} (inside : x.getLsbD 1 = true) : BitVec.ofNat 64 (setBit x.toNat 1 false) = x - 2 := by
  have on : bit x.toNat 1 = true := by rw [bit_eq_testBit, BitVec.testBit_toNat, inside]
  have low : 2 ^ 1 ≤ x.toNat := Nat.ge_two_pow_of_testBit (bit_eq_testBit x.toNat 1 ▸ on)
  have small := x.isLt
  refine BitVec.eq_of_toNat_eq ?_
  rw [setBit, on, if_neg (by decide), if_neg (by decide), BitVec.toNat_sub_of_le (by simpa [BitVec.le_def] using low), BitVec.toNat_ofNat, Nat.mod_eq_of_lt (by omega)]
  rfl

section
variable (c : Core)

theorem Core.returned_regs {j : Nat} (low : 48 ≤ j) (high : j < 54) : c.returned.sreg j = SMap.get 0 c.shadow j ∧ SMap.get 0 c.returned.shadow j = c.sreg j := by
  obtain ⟨-, -, -, -, regs, shadow⟩ := c.swapBank.leaves_fields (wordPc (c.sreg 53)) (BitVec.ofNat 64 (setBit c.sys.ucivec.toNat 1 false))
  exact ⟨(regs j).trans (c.swapBank_sreg low high), (congrArg (SMap.get 0 · j) shadow).trans (c.swapBank_shadow low high)⟩

theorem Core.returned_other {j : Nat} (out : j < 48 ∨ j = 54 ∨ j = 55) : c.returned.sreg j = c.sreg j := by
  obtain ⟨-, -, -, -, regs, -⟩ := c.swapBank.leaves_fields (wordPc (c.sreg 53)) (BitVec.ofNat 64 (setBit c.sys.ucivec.toNat 1 false))
  exact (regs j).trans (c.swapBank_other out)

theorem Core.returned_control (inside : c.sys.ucivec.getLsbD 1 = true) :
    c.returned.pc = wordPc (c.sreg 53) ∧ c.returned.slot = none ∧ c.returned.pfx = [] ∧ c.returned.sys.ucivec = c.sys.ucivec - 2 := by
  obtain ⟨pc, slot, pfx, vec, -, -⟩ := c.swapBank.leaves_fields (wordPc (c.sreg 53)) (BitVec.ofNat 64 (setBit c.sys.ucivec.toNat 1 false))
  exact ⟨pc, slot, pfx, vec.trans (ucivec_back inside)⟩
end

/-- Settles O37: the six exchanges of a bank are one function of the register (swapRegs_get), so entry and UIRET differ only in what they write on top. -/
theorem userInterrupt : Obligations.UserInterrupt := by
  unfold Obligations.UserInterrupt
  refine ⟨fun s e r ready event => ⟨_, exec_userInterruptEntry ready event, ?_⟩, fun s h => ⟨exec_uiret_illop h, exec_uiret_waits h, fun inside sound idle => ?_⟩⟩
  · rw [State.core_setCore_same]
    generalize s.core s.arg.core = c
    obtain ⟨link, num, status⟩ := c.interrupted_event e r
    obtain ⟨frame, v, k⟩ := c.interrupted_rest e r
    have sys := c.interrupted_sys e r
    refine ⟨c.interrupted_pc e r, link, rfl, ?_, fun framed => ⟨frame, ?_⟩, fun plain => ?_, num, status, fun j => c.interrupted_shadow e r,
      fun j => c.interrupted_bank e r, fun j => c.interrupted_other e r, ?_, rfl, v, k, fun j => State.core_setCore_other _ _, State.setCore_mem ..⟩
    · intro q hq
      simpa using (List.mem_filter.1 hq).2
    · rw [sys, if_neg framed]
    · rw [sys, if_pos plain]
    · rw [sys]
  · have idle : ¬ s.me.bankPending := by
      rintro ⟨l, hl, d, n, sg, e, low, high⟩
      have := idle l hl d n sg e
      omega
    obtain ⟨pc, slot, pfx, vec⟩ := s.me.returned_control inside
    refine ⟨_, exec_uiret h inside sound idle, ?_⟩
    rw [State.core_setCore_same]
    exact ⟨pc, slot, pfx, vec, fun j => s.me.returned_regs, fun j => s.me.returned_other, fun j => State.core_setCore_other _ _, State.setCore_mem ..⟩
end Sys2Proof.Machine
end

section
namespace Sys2Proof.Machine
open Sys2Proof

/-! ### SBIND and SDRAIN (R229 to R231) -/

/-- A descriptor that passes the check of SBIND keeps R229. -/
theorem strmDescOk_iff (w : List Word) : strmDescOk w = true ↔ Claims.StreamDesc w := by
  have field (d x : Nat) : bits x (32 * (d % 2) + 31) (32 * (d % 2)) = x / 2 ^ (32 * (d % 2)) % 2 ^ 32 := by
    rw [bits, Nat.shiftRight_eq_div_pow, show 32 * (d % 2) + 31 + 1 - 32 * (d % 2) = 32 by omega]
  have zero (k : Nat) : (w.getD k 0 == 0) = true ↔ (w.getD k 0).toNat = 0 := by
    rw [beq_iff_eq, ← BitVec.toNat_inj]
    rfl
  simp only [strmDescOk, Claims.StreamDesc, strmExt, strmStr, field, sext_eq_ival, Bool.and_eq_true, decide_eq_true_eq, zero, List.all_eq_true, List.mem_range, and_assoc]
  refine and_congr_right fun _ => and_congr_right fun _ => and_congr_right fun _ => and_congr_left fun _ => ?_
  refine forall_congr' fun d => imp_congr_right fun _ => ?_
  split <;> simp

/-- What SBIND does once it has read the descriptor w (R230). -/
def State.bindStream (s : State) (k : Nat) (out : Bool) (q : Nat) (base : Word) (w : List Word) : M State := do
  trapIf (!strmDescOk w) .stream (BitVec.ofNat 64 q)
  s.checkPattern k base w
  stallUnless (out || (s.core k).sb.all fun e => e.strm.isNone)
  let c ← (s.core k).drain q
  .ok (s.setCore k (c.setStrm q { bound := true, output := out, base := base, desc := w.take 5, next := 0, buf := [] }))

theorem Core.drain_ok {c : Core} {q : Nat} (h : (c.strmAt q).output = false ∨ c.pushedTo q = 0) : c.drain q = .ok (c.setStrm q {}) := by
  have free : (!(c.strmAt q).output || decide (c.pushedTo q = 0)) = true := by rcases h with h | h <;> simp [h]
  simp only [Core.drain, free, stallUnless_true rfl, bind, Except.bind]

theorem Core.drain_stall {c : Core} {q : Nat} (h : (c.strmAt q).output = true) (busy : c.pushedTo q ≠ 0) : c.drain q = .error .stall := by
  have full : (!(c.strmAt q).output || decide (c.pushedTo q = 0)) = false := by simp [h, busy]
  simp only [Core.drain, full, stallUnless_false rfl, bind, Except.bind]

section
variable {s : State} {k : Nat} {out : Bool} {q : Nat} {base : Word} {w : List Word}

theorem State.bindStream_stream (bad : ¬ Claims.StreamDesc w) : s.bindStream k out q base w = .error (.trap .stream (BitVec.ofNat 64 q)) := by
  have refused : strmDescOk w = false := Bool.eq_false_iff.2 (mt (strmDescOk_iff w).1 bad)
  rw [State.bindStream, refused]
  rfl

variable (good : Claims.StreamDesc w)
include good

theorem State.bindStream_pattern {e : Cause} {v : Word} (bad : s.checkPattern k base w = .error (.trap e v)) : s.bindStream k out q base w = .error (.trap e v) := by
  rw [State.bindStream, (strmDescOk_iff w).2 good, bad]
  rfl

variable (fits : s.checkPattern k base w = .ok ())
include fits

theorem State.bindStream_stall (busy : (out = false ∧ ∃ e ∈ (s.core k).sb, e.strm ≠ none) ∨ (((s.core k).strmAt q).output = true ∧ (s.core k).pushedTo q ≠ 0)) :
    s.bindStream k out q base w = .error .stall := by
  rw [State.bindStream, (strmDescOk_iff w).2 good, fits]
  rcases busy with ⟨rfl, e, he, pushed⟩ | ⟨output, pushed⟩
  · have waits : ((s.core k).sb.all fun e => e.strm.isNone) = false := List.all_eq_false.2 ⟨e, he, by simpa [Option.isNone_iff_eq_none] using pushed⟩
    rw [waits]
    rfl
  · rw [Core.drain_stall output pushed]
    cases out || (s.core k).sb.all fun e => e.strm.isNone <;> rfl

theorem State.bindStream_ok (written : out = true ∨ ∀ e ∈ (s.core k).sb, e.strm = none) (drained : ((s.core k).strmAt q).output = false ∨ (s.core k).pushedTo q = 0) :
    s.bindStream k out q base w =
      .ok (s.setCore k (((s.core k).setStrm q {}).setStrm q { bound := true, output := out, base := base, desc := w.take 5, next := 0, buf := [] })) := by
  have go : (out || (s.core k).sb.all fun e => e.strm.isNone) = true := by
    rcases written with rfl | clean
    · rfl
    · rw [Bool.or_eq_true]
      exact .inr (List.all_eq_true.2 fun e he => by simp [clean e he])
  rw [State.bindStream, (strmDescOk_iff w).2 good, fits, go, Core.drain_ok drained]
  rfl
end

section
variable {s : State} {out : Bool} {d a b : Reg} {base ptr : Word} {c1 c2 : Core} {ps : List (LaneAt × List (Word × Nat × Nat))} {s1 s2 : State}
  {xs : List (Nat × Nat × Nat)}

/-- The descriptor's eight words, read as plain loads (R229, R230). -/
theorem exec_sbind (ra : s.me.readS a = .ok (base, c1)) (rb : c1.readS b = .ok (ptr, c2))
    (chk : (s.setCore s.cur c2).checkLanes s.cur .load ((List.range 8).map fun j => ⟨j, ptr + BitVec.ofNat 64 (8 * j), 8, decide (ptr.toNat % 8 ≠ 0)⟩) = .ok (ps, s1))
    (load : s1.loadLanes s.cur false ps = .ok (xs, s2)) :
    ∃ body, exec (.sbind out d a b) s = runSeq (.sbind out d a b) body s ∧ body s.cur s.start =
      (s2.watch s.cur (ps.flatMap fun p => placesOf p.2)).bindStream s.cur out (d.toNat - 32) base (xs.map fun x => BitVec.ofNat 64 x.2.2) := by
  have flag : (ptr.toNat % 8 != 0) = decide (ptr.toNat % 8 ≠ 0) := by rw [bne, beq_eq_decide, decide_not]
  refine ⟨_, (rfl : execSbind out d a b s = runSeq _ _ s), ?_⟩
  simp only [State.start_core, State.start_setCore, ra, rb, bind, Except.bind, flag, chk, load]
  rfl

/-- The loads of the descriptor leave translations and copies of lines. -/
theorem sbind_aside
    (chk : (s.setCore s.cur c2).checkLanes s.cur .load ((List.range 8).map fun j => ⟨j, ptr + BitVec.ofNat 64 (8 * j), 8, decide (ptr.toNat % 8 ≠ 0)⟩) = .ok (ps, s1))
    (load : s1.loadLanes s.cur false ps = .ok (xs, s2)) (l : List (Nat × Word)) : (s.setCore s.cur c2).Aside (s2.watch s.cur l) s.cur :=
  ((State.aside_checkLanes chk).trans (State.aside_loadLanes load)).trans (State.aside_watch ..)
end

theorem Core.strmAt_setStrm_same (c : Core) (q : Nat) (x : Strm) : (c.setStrm q x).strmAt q = x := SMap.get_set_same ..
theorem Core.strmAt_setStrm_other (c : Core) {q j : Nat} (x : Strm) (h : j ≠ q) : (c.setStrm q x).strmAt j = c.strmAt j := SMap.get_set_other _ _ _ h

@[simp] theorem Core.advance_strmAt (c : Core) (n q : Nat) : (c.advance n).strmAt q = c.strmAt q := by
  rw [Core.advance_kept]
  rfl

/-- What SBIND leaves, where nothing stops it (R230). -/
theorem sbind_binds {s : State} {out : Bool} {d a b : Reg} {base ptr : Word} {c1 c2 : Core} {s3 : State} {body : Nat → State → M State} {x : Strm} {q : Nat}
    (h : s.Legal (.sbind out d a b)) (ra : s.me.readS a = .ok (base, c1)) (rb : c1.readS b = .ok (ptr, c2)) (aside : (s.setCore s.cur c2).Aside s3 s.cur)
    (run : exec (.sbind out d a b) s = runSeq (.sbind out d a b) body s)
    (tail : body s.cur s.start = .ok (s3.setCore s.cur (((s3.core s.cur).setStrm q {}).setStrm q x))) :
    ∃ t, exec (.sbind out d a b) s = .next t ∧ (t.core s.cur).strmAt q = x ∧ (∀ j, j ≠ q → (t.core s.cur).strmAt j = (s3.core s.cur).strmAt j) ∧
      Claims.RegsBut c2 (t.core s.cur) 0 ∧ (t.core s.cur).loads = c2.loads ∧ t.mem = s.mem := by
  have operands : c2 = { s.me with bank := c2.bank } := bank_trans (Core.readS_bank ra) (Core.readS_bank rb)
  have off : c2.OffRegs (s3.core s.cur) := by
    have kept := aside.offRegs
    rwa [State.core_setCore_same] at kept
  have loads : (s3.core s.cur).loads = c2.loads := by
    have kept := congrArg Core.loads aside.core
    rwa [State.core_setCore_same] at kept
  let bound : Core := ((s3.core s.cur).setStrm q {}).setStrm q x
  have tx : bound.txq = [] := off.txq_eq.trans (congrArg Core.txq operands :)
  have ox : bound.outq = [] := off.outq_eq.trans (congrArg Core.outq operands :)
  have core : (s.doneIn (s3.setCore s.cur bound) (.sbind out d a b)).core s.cur = ({ bound with txq := [] } : Core).advance (Instr.sbind out d a b).len := by
    rw [State.doneIn_core, State.core_setCore_same]
  refine ⟨_, run.trans (runSeq_ok h tail (by rwa [State.core_setCore_same]) (by rwa [State.core_setCore_same])), ?_, fun j other => ?_, ?_, ?_, aside.mem_eq⟩
  · rw [core, Core.advance_strmAt]
    exact Core.strmAt_setStrm_same _ _ _
  · rw [core, Core.advance_strmAt]
    exact (Core.strmAt_setStrm_other _ _ other).trans (Core.strmAt_setStrm_other _ _ other)
  · have regs : Claims.RegsBut c2 bound 0 := off.regsBut 0
    rw [core]
    exact regsBut_advance regs _
  · rw [core, Core.advance_loads]
    exact loads

section
variable {s : State} {d : Reg} (h : s.Legal (.sdrain d))
include h

theorem exec_sdrain (free : (s.me.strmAt (d.toNat - 32)).output = false ∨ s.me.pushedTo (d.toNat - 32) = 0) :
    exec (.sdrain d) s = .next (s.done (.sdrain d) (s.me.setStrm (d.toNat - 32) {})) := by
  change execSdrain d s = _
  refine runLocal_plain h ?_ rfl rfl rfl
  rw [Core.drain_ok free]
  rfl

theorem exec_sdrain_waits (output : (s.me.strmAt (d.toNat - 32)).output = true) (busy : s.me.pushedTo (d.toNat - 32) ≠ 0) : exec (.sdrain d) s = .next s.waits := by
  change execSdrain d s = _
  refine runLocal_stall h ?_
  rw [Core.drain_stall output busy]
  rfl
end

/-- One pushed item joins the core's stores, word by word (R231). -/
theorem State.pushOut_one {s : State} {i q k : Nat} {v : Vec} (one : (s.core i).outq = [(q, k, v)]) :
    ∃ es : List SbEntry, s.pushOut i = s.tick.setCore i { s.core i with outq := [], sb := (s.core i).sb ++ es } ∧
      es.map (·.bytes) = (s.strmKeys i ((s.core i).strmAt q) k).mapIdx (fun j a => at_ a 4 (v.toNat / 2 ^ (32 * j) % 2 ^ 32)) ∧
        ∀ e ∈ es, e.strm = some q ∧ e.grp = s.serial ∧ e.strong = false ∧ e.out = false := by
  have word (j : Nat) : bits v.toNat (32 * j + 31) (32 * j) = v.toNat / 2 ^ (32 * j) % 2 ^ 32 := by
    rw [bits, Nat.shiftRight_eq_div_pow, show 32 * j + 31 + 1 - 32 * j = 32 by omega]
  rw [State.pushOut]
  simp only [one, List.isEmpty_cons, Bool.false_eq_true, reduceIte, List.foldl_cons, List.foldl_nil, word]
  refine ⟨_, State.modCore_setCore _ _ _ _, ?_, ?_⟩
  · rw [List.map_map]
    exact List.map_id _
  · intro e he
    obtain ⟨w, -, rfl⟩ := List.mem_map.1 he
    exact ⟨rfl, rfl, rfl, rfl⟩

/-- Settles O33: SBIND comes to bindStream over the descriptor that its loads read, and the loads change no register (State.Aside). -/
theorem streamBinding : Obligations.StreamBinding := by
  unfold Obligations.StreamBinding
  refine ⟨fun s out d a b base ptr c1 c2 ps s1 s2 xs => ?_, fun s d h => ⟨exec_sdrain h, exec_sdrain_waits h⟩, fun s i q k v => State.pushOut_one⟩
  intro i q h ra rb chk load s3 w
  obtain ⟨body, run, tail⟩ := exec_sbind (out := out) (d := d) ra rb chk load
  refine ⟨fun bad => ?_, fun good e v bad => ?_, fun good fits busy => ?_, fun good fits written drained => ?_⟩
  · exact run.trans (runSeq_traps h (tail.trans (State.bindStream_stream bad)))
  · exact run.trans (runSeq_traps h (tail.trans (State.bindStream_pattern good bad)))
  · exact run.trans (runSeq_stall h (tail.trans (State.bindStream_stall good fits busy)))
  · exact sbind_binds h ra rb (sbind_aside chk load _) run (tail.trans (State.bindStream_ok good fits written drained))

end Sys2Proof.Machine
end

section
namespace Sys2Proof.Machine
open Sys2Proof

/-! ### A core that is listed once -/

section
variable {α : Type}

theorem SMap.insert_perm (m : SMap α) (a : Nat) (x : α) : (SMap.insert m a x).Perm ((a, x) :: m) := by
  induction m with
  | nil => exact .refl _
  | cons p t ih =>
    rw [SMap.insert]
    split
    · exact .refl _
    · exact (ih.cons p).trans (.swap _ _ _)

/-- Listings of key i are no more after a write: one of key i leaves one at most, another leaves them. -/
theorem SMap.count_set_le [DecidableEq α] (d : α) (m : SMap α) (a i : Nat) (x : α) :
    (SMap.set d m a x).countP (·.1 == i) ≤ if a = i then 1 else m.countP (·.1 == i) := by
  have rest : (SMap.erase m a).countP (·.1 == i) ≤ if a = i then 0 else m.countP (·.1 == i) := by
    split
    next here =>
      subst here
      exact (List.countP_eq_zero.2 fun p hp => by simpa using (SMap.mem_erase.1 hp).2).le
    · exact (SMap.erase_sublist m a).countP_le
  rw [SMap.set]
  split
  · exact rest.trans (by split <;> omega)
  · rw [(SMap.insert_perm _ a x).countP_eq, List.countP_cons]
    by_cases here : a = i <;> simp [here] at rest ⊢ <;> omega

/-- What a change of every listed value does at a key that is listed once. -/
theorem SMap.get_mapped [DecidableEq α] {d : α} {f : Nat → α → α} {i : Nat} (zero : f i d = d) {m : SMap α} (once : m.countP (·.1 == i) ≤ 1) :
    SMap.get d ((m.map fun p => (p.1, f p.1 p.2)).filter fun p => p.2 ≠ d) i = f i (SMap.get d m i) := by
  induction m with
  | nil => exact zero.symm
  | cons p t ih =>
    rw [List.countP_cons] at once
    rw [List.map_cons, List.filter_cons]
    by_cases here : p.1 = i
    · have alone : ∀ q ∈ t, q.1 ≠ i := by
        have none : t.countP (·.1 == i) = 0 := by simpa [here] using once
        simpa using List.countP_eq_zero.1 none
      rw [SMap.get, if_pos here.symm]
      split
      · rw [SMap.get, if_pos here.symm, here]
      next dropped =>
        have same : f i p.2 = d := by simpa [here] using dropped
        rw [same]
        refine SMap.get_absent fun q hq => ?_
        obtain ⟨r, hr, rfl⟩ := List.mem_map.1 (List.mem_filter.1 hq).1
        exact alone r hr
    · have rest := ih (by omega)
      rw [SMap.get, if_neg (Ne.symm here)]
      split
      · rw [SMap.get, if_neg (Ne.symm here), rest]
      · exact rest
end

section
variable {s : State} {i : Nat}

/-- Core i is listed at most once: a change of every listed core changes it as it is told to (State.mapCores drops what becomes a default). -/
def State.Once (s : State) (i : Nat) : Prop := s.cores.countP (·.1 == i) ≤ 1

theorem State.once_setCore_same (s : State) (i : Nat) (c : Core) : (s.setCore i c).Once i := by
  have h := SMap.count_set_le {} s.cores i i c
  rwa [if_pos rfl] at h

theorem State.start_once (s : State) : s.start.Once s.cur := s.once_setCore_same s.cur _

theorem State.Once.setCore (h : s.Once i) (j : Nat) (c : Core) : (s.setCore j c).Once i := by
  refine (SMap.count_set_le {} s.cores j i c).trans ?_
  split
  · exact le_rfl
  · exact h

theorem State.Once.mapCores (h : s.Once i) (f : Nat → Core → Core) : (s.mapCores f).Once i := by
  refine List.filter_sublist.countP_le.trans ?_
  rw [List.countP_map]
  exact h

theorem State.Once.core_mapCores (h : s.Once i) {f : Nat → Core → Core} (zero : f i {} = {}) : (s.mapCores f).core i = f i (s.core i) := SMap.get_mapped zero h
end

/-! ### What performing stores leaves of a core (R182, R184, R191) -/

/-- Core i, listed once, stays so, and keeps all but its outstanding accesses, its copies of lines and its translations. -/
def State.Steady (s t : State) (i : Nat) : Prop := s.Once i → t.Once i ∧ (s.core i).OffRegs (t.core i)

section
variable {s t u : State} {i : Nat}

theorem State.Steady.of_cores (h : t.cores = s.cores) : s.Steady t i := by
  intro once
  rw [State.Once, State.core, State.core, h]
  exact ⟨once, .refl _⟩

theorem State.Steady.refl (s : State) (i : Nat) : s.Steady s i := .of_cores rfl

theorem State.Steady.trans (h : s.Steady t i) (h' : t.Steady u i) : s.Steady u i := by
  intro once
  obtain ⟨once', off⟩ := h once
  obtain ⟨once'', off'⟩ := h' once'
  exact ⟨once'', off.trans off'⟩

theorem State.Steady.ite {c : Prop} [Decidable c] (h : s.Steady t i) (h' : s.Steady u i) : s.Steady (if c then t else u) i := by
  split
  · exact h
  · exact h'

theorem State.steady_modCore (s : State) (i j : Nat) {f : Core → Core} (off : ∀ c : Core, c.OffRegs (f c)) : s.Steady (s.modCore j f) i := by
  intro once
  refine ⟨once.setCore j _, ?_⟩
  by_cases here : i = j
  · rw [here, State.core_modCore_same]
    exact off _
  · rw [State.core_modCore_other _ _ here]
    exact .refl _

theorem State.steady_mapCores (s : State) (i : Nat) {f : Nat → Core → Core} (off : ∀ j (c : Core), c.OffRegs (f j c)) (zero : ∀ j, f j {} = {}) : s.Steady (s.mapCores f) i := by
  intro once
  rw [once.core_mapCores (zero i)]
  exact ⟨once.mapCores f, off _ _⟩

theorem State.track_cores (s : State) (i launch phasec : Nat) (store report : Bool) (a : Nat) (va : Word) : (s.track i launch phasec store report a va).cores = s.cores := by
  rw [State.track]
  dsimp only
  split_ifs <;> rfl

theorem Core.dropLine_offRegs (c : Core) (a : Nat) : c.OffRegs (c.dropLine a) := rfl

/-- A store of core j at its home, but for the record of its writer (R182, R203). -/
def State.storedBy (s : State) (j : Nat) (e : SbEntry) (shared : Bool) : State :=
  let others := (s.sbOf j).filter fun x => decide (x.grp = e.grp) && x != e
  let done := e.clr.filter fun u => !(others.any fun x => x.bytes.any fun b => unitOf b.1 == u)
  let a := (e.bytes.head?.map (·.1)).getD 0
  let s := s.writeBy j e.grp e.bytes
  let s := { s with mpoison := s.mpoison.filter fun u => !done.contains u }
  let s := if shared then s.mapCores fun k c => if clusterOf k = clusterOf j then c.dropLine a else c else s.modCore j fun c => c.dropLine a
  if s.isSup j && e.bytes.any (fun b => b.1 / 8 * 8 = lsKey j 0x1C000) then s.modPart (s.partOf j) fun p => { p with asked := true } else s

/-- That record, and the report that one store makes once. -/
def State.tracked (s : State) (j : Nat) (e : SbEntry) : State :=
  let a := (e.bytes.head?.map (·.1)).getD 0
  let t := s.track j e.launch e.phasec true (!e.quiet) a e.va
  if !e.quiet && s.conflictAt j e.launch e.phasec a then t.modCore j fun c =>
    { c with sb := mapIf (fun x => decide (x.grp = e.grp) && (x.bytes.any fun b => b.1 / 64 == a / 64)) (fun x => { x with quiet := true }) c.sb } else t

/-- A store is performed at its home, or joins the queue of its page under migration. -/
theorem State.performEntry_cases {j : Nat} {e : SbEntry} {shared : Bool} (h : s.performEntry j e shared = some t) :
    t.cores = s.cores ∨ t = s.storedBy j e shared ∨ t = (s.storedBy j e shared).tracked j e := by
  rw [State.performEntry] at h
  dsimp only at h
  split at h
  · split at h
    · cases h
    · cases h
      exact .inl rfl
  · split at h
    · exact .inr (.inl (Option.some.inj h).symm)
    · exact .inr (.inr (Option.some.inj h).symm)

theorem State.steady_storedBy (s : State) (i j : Nat) (e : SbEntry) (shared : Bool) : s.Steady (s.storedBy j e shared) i := by
  have every (r : State) (a : Nat) : r.Steady (r.mapCores fun k c => if clusterOf k = clusterOf j then c.dropLine a else c) i :=
    r.steady_mapCores i (fun k c => by split <;> rfl) fun k => by split <;> rfl
  have own (r : State) (a : Nat) : r.Steady (r.modCore j fun c => c.dropLine a) i := r.steady_modCore i j fun _ => rfl
  refine State.Steady.trans ?_ (State.Steady.ite (.of_cores rfl) (.refl _ i))
  exact State.Steady.ite (State.Steady.trans (.of_cores rfl) (every _ _)) (State.Steady.trans (.of_cores rfl) (own _ _))

theorem State.steady_tracked (s : State) (i j : Nat) (e : SbEntry) : s.Steady (s.tracked j e) i := by
  have track : s.Steady (s.track j e.launch e.phasec true (!e.quiet) ((e.bytes.head?.map (·.1)).getD 0) e.va) i := .of_cores (s.track_cores ..)
  refine State.Steady.ite (track.trans ?_) track
  exact State.steady_modCore _ i j fun _ => rfl

theorem State.steady_performEntry {j : Nat} {e : SbEntry} {shared : Bool} (h : s.performEntry j e shared = some t) : s.Steady t i := by
  rcases State.performEntry_cases h with same | rfl | rfl
  · exact .of_cores same
  · exact s.steady_storedBy i j e shared
  · exact (s.steady_storedBy i j e shared).trans (State.steady_tracked _ i j e)

theorem State.steady_performAll {j : Nat} {p : SbEntry → Bool} {n k : Nat} (h : s.performAll j p n k = some t) : s.Steady t i := by
  induction n generalizing s k with
  | zero =>
    cases h
    exact .refl _ i
  | succ n ih =>
    rw [State.performAll] at h
    split at h
    · cases h
      exact .refl _ i
    · split at h
      · split at h
        next _ e =>
          refine (State.steady_performEntry e).trans (State.Steady.trans ?_ (ih h))
          exact State.steady_modCore _ i j fun _ => rfl
        · cases h
      · exact ih h

theorem State.steady_performShared {cl n : Nat} (h : s.performShared cl n = some t) : s.Steady t i := by
  induction n generalizing s with
  | zero =>
    cases h
    exact .refl _ i
  | succ n ih =>
    rw [State.performShared] at h
    split at h
    · cases h
      exact .refl _ i
    · split at h
      next _ e =>
        refine (State.steady_performEntry e).trans (State.Steady.trans ?_ (ih h))
        exact .of_cores rfl
      · cases h

theorem State.steady_performSeen {j : Nat} {p : SbEntry → Bool} (h : s.performSeen j p = some t) : s.Steady t i := by
  rw [State.performSeen, Option.bind_eq_some_iff] at h
  obtain ⟨u, shared, own⟩ := h
  exact (State.steady_performShared shared).trans (State.steady_performAll own)

theorem State.steady_settleIf {j : Nat} {p : SbEntry → Bool} (h : s.settleIf j p = .ok t) : s.Steady t i := by
  rw [State.settleIf] at h
  split at h
  · split at h
    next _ e =>
      obtain rfl := Except.ok.inj h
      exact State.steady_performSeen e
    · cases h
  · obtain rfl := Except.ok.inj h
    exact .refl s i

theorem State.steady_settle {j k n : Nat} (h : s.settle j k n = .ok t) : s.Steady t i := by
  obtain ⟨-, -, h⟩ := bind_eq_ok.1 h
  exact State.steady_settleIf h

theorem State.steady_settleStrong {j k n : Nat} {loads stores : Bool} (h : s.settleStrong j loads stores k n = .ok t) : s.Steady t i := by
  obtain ⟨-, -, h⟩ := bind_eq_ok.1 h
  obtain ⟨u, performed, h⟩ := bind_eq_ok.1 h
  obtain ⟨-, -, h⟩ := bind_eq_ok.1 h
  obtain rfl := Except.ok.inj h
  exact State.steady_settleIf performed

/-- A core that may go on at a home gives up its ticket there (R215). -/
theorem State.enterHome_ok {j a : Nat} (h : s.enterHome j a = .ok t) : t = { s with tickets := s.tickets.filter fun t => ¬(t.home = s.homeOf j a ∧ t.core = j) } := by
  rw [State.enterHome] at h
  split_ifs at h
  · split at h <;> cases h
  · exact (Except.ok.inj h).symm

theorem State.steady_enterHome {j a : Nat} (h : s.enterHome j a = .ok t) : s.Steady t i := by
  rw [State.enterHome_ok h]
  exact .of_cores rfl

theorem State.steady_publish (s : State) (i : Nat) (sc : Scope) : s.Steady (s.publish i sc) i := by
  intro once
  refine ⟨?_, s.publish_offRegs i sc⟩
  cases sc with
  | cluster =>
    rw [State.publish_cluster_eq, State.share]
    split
    · exact once
    · exact State.Once.setCore once i _
  | _ => exact once

theorem State.steady_acquireAt (s : State) (i : Nat) (sc : Scope) : s.Steady (s.acquireAt i sc) i := by
  rcases s.acquireAt_eq i sc with e | ⟨b, e | e⟩ <;> rw [e]
  · exact .refl s i
  all_goals exact s.steady_modCore i i fun _ => rfl

theorem State.steady_keep (s : State) (i : Nat) (e : Option TlbEntry) : s.Steady (s.keep i false e) i := by
  intro once
  refine ⟨?_, (s.aside_keep i e).offRegs⟩
  cases e with
  | none => exact once
  | some e => exact once.setCore i _
end
end Sys2Proof.Machine
end

section
namespace Sys2Proof.Machine
open Sys2Proof

/-! ### A core that sends nothing -/

/-- Core i is listed once at most, and no word waits to leave it for a port or an output stream. -/
def State.Silent (t : State) (i : Nat) : Prop := t.Once i ∧ (t.core i).txq = [] ∧ (t.core i).outq = []

section
variable {s t : State} {i : Nat}

theorem State.start_silent (s : State) : s.start.Silent s.cur := by
  refine ⟨s.start_once, ?_, ?_⟩ <;> rw [State.start_core]
  · exact s.me_txq
  · exact s.me_outq

theorem State.Silent.steady (h : s.Silent i) (kept : s.Steady t i) : t.Silent i := by
  obtain ⟨once, tx, ox⟩ := h
  obtain ⟨once', off⟩ := kept once
  exact ⟨once', off.txq_eq.trans tx, off.outq_eq.trans ox⟩

theorem State.Silent.of_cores (h : s.Silent i) (same : t.cores = s.cores) : t.Silent i := h.steady (.of_cores same)

theorem State.Silent.wakeCluster (h : s.Silent i) (cl : Nat) : (s.wakeCluster cl).Silent i := by
  obtain ⟨once, tx, ox⟩ := h
  have core : (s.wakeCluster cl).core i = if clusterOf i = cl then { s.core i with stalled := false } else s.core i := once.core_mapCores (by split <;> rfl)
  refine ⟨once.mapCores _, ?_, ?_⟩ <;> rw [core] <;> split <;> assumption

theorem State.Silent.acquire (h : s.Silent i) : (s.acquire i).Silent i := h.steady (s.steady_modCore i i fun _ => rfl)

/-- It still sends nothing when it has read its operands again. -/
theorem reread_quiet {c c' : Core} {m : MemOp} {d : Reg} (h : Claims.Reread c m d c') : c'.txq = c.txq ∧ c'.outq = c.outq := by
  obtain ⟨_, _, _, re, rd⟩ := h
  rw [Core.ea_eq] at re
  have bank := bank_trans (eaLong_bank re) (Core.readS_bank rd)
  exact ⟨(congrArg Core.txq bank :), (congrArg Core.outq bank :)⟩
end

/-! ### Rings (R226, R227) -/

/-- The side word of a ring slot has been written, its waiters tried again, and the slot acquired where acq is set. -/
def State.slotWritten (s t : State) (side y : Nat) (acq : Bool) : State :=
  let r := (t.wr side 4 y).wakeCluster (clusterOf s.cur)
  if acq then r.acquire s.cur else r

section
variable {s : State}

theorem atBank_steady {ea : Word} {rel : Bool} {k : Nat} {t : State} (h : Claims.AtBank s ea rel k t) : s.start.Steady t s.cur := by
  obtain ⟨-, -, s1, enter, settled⟩ := h
  refine State.Steady.trans ?_ ((State.steady_enterHome enter).trans (State.steady_settle settled))
  exact .ite (s.start.steady_publish s.cur .cluster) (.refl _ _)

theorem State.slotWritten_silent {t : State} (h : t.Silent s.cur) (side y : Nat) (acq : Bool) : (s.slotWritten t side y acq).Silent s.cur := by
  have woken := (h.of_cores (rfl : (t.wr side 4 y).cores = t.cores)).wakeCluster (clusterOf s.cur)
  cases acq
  · exact woken
  · exact woken.acquire

variable {i : Instr} {d : Reg} {m : MemOp} {rel acq : Bool} {f : Nat → Option Nat} {ea v : Word} {c c1 : Core} {k side : Nat} {t t2 : State}
  (re : Claims.eaLong s.me m = .ok (ea, c)) (rd : c.readS d = .ok (v, c1))
  (check : t.checkBar s.cur (BitVec.ofNat 64 (cspWin + bits (t.rd (t.place (t.isSup s.cur) k 8) 8) 63 32 + 4 * (v.toNat % (bits (t.rd k 8) 43 32 + 1)))) 4 4 = .ok side)
  (settled : t.settle s.cur side 4 = .ok t2) (h : s.Legal i) (bank : Claims.AtBank s ea rel k t)
include re rd check settled h bank

/-- A ring instruction that its slot's tag stops waits (R227). -/
theorem ring_waits (stops : f (t2.rd side 4) = none) : ring i d m rel acq f s = .next s.waits := by
  obtain ⟨object, done, s1, enter, header⟩ := bank
  refine runSeq_stall h ?_
  rw [Nat.add_assoc] at check
  simp only [State.start_core, Core.ea_eq, re, rd, object, State.releaseIf_ok done, enter, header, ringSide, check, settled, stops, Bind.bind, Except.bind]

/-- One that it lets pass writes the tag, and reads its operands again as it ends. -/
theorem ring_writes {y : Nat} {c2 : Core} (passes : f (t2.rd side 4) = some y) (again : Claims.Reread ((s.slotWritten t2 side y acq).core s.cur) m d c2) :
    ring i d m rel acq f s = .next (s.doneIn ((s.slotWritten t2 side y acq).setCore s.cur c2) i) := by
  have silent : (s.slotWritten t2 side y acq).Silent s.cur := State.slotWritten_silent ((s.start_silent.steady (atBank_steady bank)).steady (State.steady_settle settled)) ..
  obtain ⟨-, tx, ox⟩ := silent
  obtain ⟨object, done, s1, enter, header⟩ := bank
  obtain ⟨tx', ox'⟩ := reread_quiet again
  obtain ⟨_, _, c3, re2, rd2⟩ := again
  rw [Nat.add_assoc] at check
  refine runSeq_ok h ?_ ?_ ?_
  · simp only [State.start_core, Core.ea_eq, re, rd, object, State.releaseIf_ok done, enter, header, ringSide, check, settled, passes, Bind.bind, Except.bind]
    rw [Core.ea_eq, State.slotWritten] at re2
    simp only [State.slotWritten, re2, rd2]
  · rw [State.core_setCore_same]
    exact tx'.trans tx
  · rw [State.core_setCore_same]
    exact ox'.trans ox
end

/-- Settles O32: the tag's low two bits stand below COUNT in the side word, so the four instructions write 1, COUNT * 4 + 3, COUNT * 4 and COUNT * 4 + 2. -/
theorem ringResult : Obligations.RingResult := by
  intro s d m ea v c c1 c2 k side t t2 _ x _ re rd check settled
  have empty : x / 4 * 4 = x - x % 4 := by omega
  refine ⟨fun h bank => ⟨fun tag => ?_, fun tag again => ?_⟩, fun h bank => ⟨fun tag => ?_, fun tag again => ?_⟩, fun h bank again => ?_, fun h bank again => ?_⟩
  · change execSlotacq d m s = _
    exact ring_waits re rd check settled h bank (if_neg tag)
  · change execSlotacq d m s = _
    exact ring_writes re rd check settled h bank (if_pos tag) again
  · change execSlotwait d m s = _
    exact ring_waits re rd check settled h bank (if_neg tag)
  · change execSlotwait d m s = _
    refine ring_writes re rd check settled h bank ((if_pos tag).trans ?_) again
    rw [show x / 4 * 4 + 3 = x + 1 by omega]
  · change execSlotrel d m s = _
    refine ring_writes re rd check settled h bank ?_ again
    rw [empty]
  · change execSlotrelFull d m s = _
    refine ring_writes re rd check settled h bank ?_ again
    rw [empty]
end Sys2Proof.Machine
end

section
namespace Sys2Proof.Machine
open Sys2Proof

/-! ### Strong accesses: their checks, releases and acquires (R187, R190, R207) -/

section
variable {s t : State} {i : Nat}

theorem State.steady_checkBytes {acc : Access} {va : Word} {n : Nat} {mis : Bool} {ps : List (Word × Nat × Nat)} (h : s.checkBytes i acc va n mis = .ok (ps, t)) :
    s.Steady t i := by
  rw [State.checkBytes] at h
  split at h
  · cases h
  · obtain ⟨-, -, h⟩ := bind_eq_ok.1 h
    dsimp only at h
    split at h
    · cases h
    · split at h
      · cases h
      · obtain ⟨-, rfl⟩ := Prod.mk.inj (Except.ok.inj h)
        exact List.foldlRecOn (motive := fun t => s.Steady t i) _ _ (.refl s i) fun t ht q _ => ht.trans (t.steady_keep i _)

theorem State.steady_issueLoad (h : s.issueLoad i = .ok t) : s.Steady t i := by
  obtain ⟨-, -, h⟩ := bind_eq_ok.1 h
  obtain rfl := Except.ok.inj h
  exact s.steady_modCore i i fun _ => rfl

theorem State.releaseTo_ok {rel : Bool} {sc : Scope} (k : Nat) (h : rel = true → s.released i sc = true) :
    s.releaseTo i rel sc k = .ok (if rel = true ∧ typeOfPa k ≠ some .ls then s.publish i sc else s) := by
  rw [State.releaseTo]
  by_cases ls : typeOfPa k = some .ls
  · have go : (!rel || s.released i sc) = true := by
      cases rel
      · rfl
      · exact h rfl
    rw [if_pos (beq_iff_eq.2 ls), if_neg (fun both => both.2 ls), go]
    rfl
  · rw [if_neg (mt beq_iff_eq.1 ls), State.releaseIf_ok h]
    simp [ls]

theorem State.releaseTo_stall {sc : Scope} (k : Nat) (h : s.released i sc = false) : s.releaseTo i true sc k = .error .stall := by
  rw [State.releaseTo]
  split
  · rw [h]
    rfl
  · exact State.releaseIf_stall h

theorem State.acquireFrom_eq (s : State) (i : Nat) (acq : Bool) (sc : Scope) (k : Nat) :
    s.acquireFrom i acq sc k = if acq = true ∧ typeOfPa k ≠ some .ls then s.acquireAt i sc else s := by
  simp [State.acquireFrom, State.acquireIf]

theorem State.steady_acquireFrom (s : State) (i : Nat) (acq : Bool) (sc : Scope) (k : Nat) : s.Steady (s.acquireFrom i acq sc k) i := by
  rw [State.acquireFrom_eq]
  exact .ite (s.steady_acquireAt i sc) (.refl s i)

/-- A release leaves of its own core all but the stores, which it may share with the cluster. -/
theorem State.publish_own (s : State) (i : Nat) (sc : Scope) : (s.publish i sc).core i = { s.core i with sb := ((s.publish i sc).core i).sb } := by
  cases sc with
  | cluster => rw [State.publish_cluster_eq, State.share_core_same]; rfl
  | _ => rfl

theorem Elsewhere.publish {u : State} (h : Claims.Elsewhere u s i) (sc : Scope) : Claims.Elsewhere u (s.publish i sc) i := by
  obtain ⟨cores, mem, mpoison, launches, cmds, parts⟩ := h
  refine ⟨fun j other => (State.publish_core_other _ sc other).trans (cores j other), ?_, ?_, ?_, ?_, ?_⟩
  · rwa [State.publish_mem]
  · rwa [State.publish_mpoison]
  · rwa [State.publish_launches]
  · rwa [State.publish_cmds]
  · rwa [State.publish_parts]
end

/-! ### LDS (R206) -/

section
variable {s : State} {z : LdSize} {acq : Bool} {scope : Scope} {d : Reg} {m : MemOp} {ea va : Word} {c : Core} {k : Nat} {s1 s2 s3 : State}
  (h : s.Legal (.lds z acq scope d m)) (re : Claims.eaLong s.me m = .ok (ea, c)) (aligned : ea.toNat % Claims.sizeOf z = 0)
  (chk : (s.setCore s.cur c).checkBytes s.cur .strongLoad ea (Claims.sizeOf z) false = .ok ([(va, k, Claims.sizeOf z)], s1))
  (settled : s1.settleStrong s.cur true false k (Claims.sizeOf z) = .ok s2) (free : s2.granuleBusy k = false) (issue : s2.issueLoad s.cur = .ok s3) (hd : d.toNat < 56)
include re chk settled issue

/-- Up to its issue it sends nothing. -/
theorem lds_silent : s3.Silent s.cur := by
  have operands := eaLong_bank re
  have start : (s.setCore s.cur c).Silent s.cur := by
    refine ⟨s.once_setCore_same s.cur c, ?_, ?_⟩ <;> rw [State.core_setCore_same]
    · exact (congrArg Core.txq operands :)
    · exact (congrArg Core.outq operands :)
  exact ((start.steady (State.steady_checkBytes chk)).steady (State.steady_settleStrong settled)).steady (State.steady_issueLoad issue)

include h aligned free hd

/-- One that takes its value now reads the home, drops its copy of the line and acquires. -/
theorem exec_lds_now (now : (s3.core s.cur).defer = false ∨ acq = true ∨ s3.mayLeave s.cur [⟨va, k, Claims.sizeOf z, 0⟩] = false) {u : State}
    (hu : u = (s3.modCore s.cur fun q => { q with l1d := q.l1d.filter fun l => l.la != k / 64 * 64 }).acquireFrom s.cur acq scope k) :
    exec (.lds z acq scope d m) s = .next (s.doneIn (u.setCore s.cur ((u.core s.cur).writeS d.toNat
      (Claims.extended z (Claims.little (fun j => s3.strongByte s.cur (k + j)) (Claims.sizeOf z))))) (.lds z acq scope d m)) := by
  obtain ⟨-, tx, ox⟩ : u.Silent s.cur := by
    rw [hu]
    have dropped := s3.steady_modCore s.cur s.cur (f := fun q => { q with l1d := q.l1d.filter fun l => l.la != k / 64 * 64 }) fun _ => rfl
    exact ((lds_silent re chk settled issue).steady dropped).steady (State.steady_acquireFrom _ s.cur acq scope k)
  have late : ((s3.core s.cur).defer && !acq && decide (d.toNat < 56) && s3.mayLeave s.cur (latePartsOf 0 [(va, k, Claims.sizeOf z)])) = false := by
    rcases now with q | q | q <;> simp [latePartsOf, q]
  have even : (ea.toNat % Claims.sizeOf z != 0) = false := by simpa using aligned
  change execLds z acq scope d m s = _
  refine runSeq_ok h ?_ ?_ ?_
  · simp only [State.start_core, State.start_setCore, Core.ea_eq, re, ldBytes_eq, even, chk, List.headD_cons, settled, free, Bool.not_false, stallUnless_true, issue, late,
      Bool.false_eq_true, if_false, Core.putS_reg _ hd, ofBytes_range, ldValue_eq, hu, Bind.bind, Except.bind]
  · rw [State.core_setCore_same, Core.writeS_txq, tx]
  · rw [State.core_setCore_same, Core.writeS_outq, ox]

/-- One that may be left outstanding is (R191). -/
theorem exec_lds_left (defer : (s3.core s.cur).defer = true) (relaxed : acq = false) (may : s3.mayLeave s.cur [⟨va, k, Claims.sizeOf z, 0⟩] = true) :
    exec (.lds z acq scope d m) s =
      .next (s.doneIn (s3.leave s.cur (.s d.toNat (Claims.sizeOf z) (Claims.signedOf z)) true [⟨va, k, Claims.sizeOf z, 0⟩]) (.lds z acq scope d m)) := by
  obtain ⟨-, tx, ox⟩ := lds_silent re chk settled issue
  have even : (ea.toNat % Claims.sizeOf z != 0) = false := by simpa using aligned
  have late : ((s3.core s.cur).defer && !acq && decide (d.toNat < 56) && s3.mayLeave s.cur [⟨va, k, Claims.sizeOf z, 0⟩]) = true := by
    simp [defer, relaxed, may, hd]
  have signed : ldSigned z = Claims.signedOf z := by cases z <;> rfl
  have parts : latePartsOf 0 [(va, k, Claims.sizeOf z)] = [⟨va, k, Claims.sizeOf z, 0⟩] := rfl
  change execLds z acq scope d m s = _
  refine runSeq_ok h ?_ ?_ ?_
  · simp only [State.start_core, State.start_setCore, Core.ea_eq, re, ldBytes_eq, even, chk, List.headD_cons, settled, free, Bool.not_false, stallUnless_true, issue, late,
      if_true, signed, parts, Bind.bind, Except.bind]
  · rw [State.leave, State.core_modCore_same]
    exact tx
  · rw [State.leave, State.core_modCore_same]
    exact ox
end

/-! ### STS (R206) -/

section
variable {s : State} {z : StSize} {rel : Bool} {scope : Scope} {d : Reg} {m : MemOp} {ea x va : Word} {c c2 : Core} {k : Nat} {s1 : State}
  (h : s.Legal (.sts z rel scope d m)) (re : Claims.eaLong s.me m = .ok (ea, c)) (rd : c.readS d = .ok (x, c2)) (aligned : ea.toNat % stBytes z = 0)
  (chk : (s.setCore s.cur c2).checkBytes s.cur .store ea (stBytes z) false = .ok ([(va, k, stBytes z)], s1))
include h re rd aligned chk

/-- A release that is not complete waits (R187). -/
theorem exec_sts_waits (early : s1.released s.cur scope = false) (releases : rel = true) : exec (.sts z rel scope d m) s = .next s.waits := by
  have even : (ea.toNat % stBytes z != 0) = false := by simpa using aligned
  subst releases
  change execSts z true scope d m s = _
  refine runSeq_stall h ?_
  simp only [State.start_core, State.start_setCore, Core.ea_eq, re, rd, even, chk, List.headD_cons, State.releaseTo_stall _ early, Bind.bind, Except.bind]

/-- Once no load comes first it goes where `issueStore` lets it. -/
theorem exec_sts_issues (done : rel = true → s1.released s.cur scope = true) {s2 t : State}
    (released : s2 = if rel = true ∧ typeOfPa k ≠ some .ls then s1.publish s.cur scope else s1)
    (first : (s2.core s.cur).loadFirst (max (s2.core s.cur).acqEp (s2.core s.cur).relEp) = false) (issue : s2.issueStore s.cur true [(at_ k (stBytes z) x.toNat, va)] = .ok t)
    (tx : (t.core s.cur).txq = []) (ox : (t.core s.cur).outq = []) : exec (.sts z rel scope d m) s = .next (s.doneIn t (.sts z rel scope d m)) := by
  have even : (ea.toNat % stBytes z != 0) = false := by simpa using aligned
  have parts : storeParts [(va, k, stBytes z)] x.toNat = [(at_ k (stBytes z) x.toNat, va)] := rfl
  change execSts z rel scope d m s = _
  refine runSeq_ok h ?_ tx ox
  simp only [State.start_core, State.start_setCore, Core.ea_eq, re, rd, even, chk, List.headD_cons, State.releaseTo_ok k done, ← released, first, Bool.not_false,
    stallUnless_true, parts, issue, Bind.bind, Except.bind]
end

/-- No load that R191 puts before a strong access is outstanding. -/
theorem Core.loadFirst_eq_false {c : Core} {n : Nat}
    (h : ∀ l ∈ c.late, l.strong = true → (∃ p ∈ l.parts, typeOfPa p.key = some .host) ∧ n ≤ l.id) : c.loadFirst n = false := by
  refine List.any_eq_false.2 fun l hl => ?_
  cases strong : l.strong with
  | false => simp [LateLoad.kept, strong]
  | true =>
    obtain ⟨⟨p, hp, host⟩, id⟩ := h l hl strong
    have far : (l.parts.any fun p => typeOfPa p.key == some .host) = true := List.any_eq_true.2 ⟨p, hp, beq_iff_eq.2 host⟩
    simp [LateLoad.kept, far, id]

/-! ### What a strong access finds at the home (R190 to R192) -/

theorem State.strongByte_home {s : State} {i a : Nat} (unseen : ∀ l ∈ (s.core i).hview, l.la ≠ a / 64 * 64) : s.strongByte i a = s.byte a := by
  have none : ((s.core i).hview.find? fun l => l.la = a / 64 * 64) = none := List.find?_eq_none.2 fun l hl => by simpa using unseen l hl
  rw [State.strongByte, none]

theorem State.settleIf_empty {s : State} {i : Nat} (own : s.sbOf i = []) (p : SbEntry → Bool) : s.settleIf i p = .ok s := by
  rw [State.settleIf, own]
  rfl

/-- Where the core has nothing outstanding, R184 and R191 put nothing before its strong access. -/
theorem State.settleStrong_empty {s : State} {i : Nat} (loads stores : Bool) (k n : Nat) (own : s.sbOf i = []) (late : (s.core i).late = []) (holds : s.holds = [])
    (full : s.hostMissed i (s.core i).fullEp = false) (rel : s.hostMissed i (s.core i).relEp = false) : s.settleStrong i loads stores k n = .ok s := by
  have first : s.awaits i k n = false := by rw [State.awaits, late, List.any_nil]
  have older (e : Nat) : (s.core i).loadFirst e = false := by rw [Core.loadFirst, late, List.any_nil]
  have held (e : Nat) : s.heldStrong i e = false := by rw [State.heldStrong, holds, List.any_nil]
  simp only [State.settleStrong, first, older, State.settleIf_empty own, held, full, rel, Bool.or_false, Bool.and_false, Bool.not_false, Bool.and_true, stallUnless_true,
    Bind.bind, Except.bind]

/-- A strong store that issues: its bytes wait in the store buffer behind what a FENCE.rel put before them, nothing else changes. -/
theorem sts_stores {s : State} {z : StSize} {rel : Bool} {scope : Scope} {d : Reg} {m : MemOp} {ea x va : Word} {c c2 : Core} {k : Nat} {s1 s2 : State}
    (h : s.Legal (.sts z rel scope d m)) (re : Claims.eaLong s.me m = .ok (ea, c)) (rd : c.readS d = .ok (x, c2)) (aligned : ea.toNat % stBytes z = 0)
    (chk : (s.setCore s.cur c2).checkBytes s.cur .store ea (stBytes z) false = .ok ([(va, k, stBytes z)], s1)) (done : rel = true → s1.released s.cur scope = true)
    (released : s2 = if rel = true ∧ typeOfPa k ≠ some .ls then s1.publish s.cur scope else s1)
    (late : ∀ l ∈ (s1.core s.cur).late, l.strong = true → (∃ p ∈ l.parts, typeOfPa p.key = some .host) ∧ max c2.acqEp c2.relEp ≤ l.id)
    (room : (s2.core s.cur).stores < 64) (first : ∀ j, j < stBytes z → s2.awaits s.cur (k + j) 1 = false) :
    ∃ t q, exec (.sts z rel scope d m) s = .next t ∧ (t.core s.cur).sb = (s2.core s.cur).sb ++ [q] ∧ q.bytes = at_ k (stBytes z) x.toNat ∧ q.strong = true ∧
      q.after = c2.relEp ∧ (∀ a, t.byte a = s.byte a) ∧ t.pub = s2.pub ∧ t.clusters = s2.clusters ∧ Claims.RegsBut c2 (t.core s.cur) 0 ∧
      Claims.Passed (s.core s.cur) (t.core s.cur) (Instr.sts z rel scope d m).len ∧ Claims.Elsewhere s t s.cur := by
  have operands : c2 = { s.me with bank := c2.bank } := bank_trans (eaLong_bank re) (Core.readS_bank rd)
  obtain ⟨aside, -⟩ := State.checkBytes_passed chk
  have checked := aside.core
  rw [State.core_setCore_same] at checked
  have shared : s2.core s.cur = { s1.core s.cur with sb := (s2.core s.cur).sb } := by
    rw [released]
    split
    · exact State.publish_own ..
    · rfl
  have off : c2.OffRegs (s2.core s.cur) := Core.OffRegs.trans (c' := s1.core s.cur) (by rw [Core.OffRegs, checked]) (by rw [Core.OffRegs, shared])
  have elsewhere : Claims.Elsewhere s s2 s.cur := by
    have before := Elsewhere.aside (Elsewhere.setCore (Elsewhere.refl s s.cur) c2) aside
    rw [released]
    split
    · exact Elsewhere.publish before scope
    · exact before
  have acqEp : (s2.core s.cur).acqEp = c2.acqEp := (congrArg Core.acqEp shared :).trans (congrArg Core.acqEp checked :)
  have relEp : (s2.core s.cur).relEp = c2.relEp := (congrArg Core.relEp shared :).trans (congrArg Core.relEp checked :)
  have loads : (s2.core s.cur).loadFirst (max (s2.core s.cur).acqEp (s2.core s.cur).relEp) = false := by
    refine Core.loadFirst_eq_false ?_
    have same : (s2.core s.cur).late = (s1.core s.cur).late := (congrArg Core.late shared :)
    rw [acqEp, relEp, same]
    exact late
  have waits : ∀ p ∈ [(at_ k (stBytes z) x.toNat, va)].flatMap (·.1), s2.awaits s.cur p.1 1 = false := by
    intro p hp
    obtain ⟨j, hj, place, -⟩ := mem_at.1 (by simpa using hp)
    rw [place]
    exact first j hj
  obtain ⟨es, issue, bytes, -⟩ := State.issueStore_eq (strong := true) room waits
  obtain ⟨q, rfl⟩ : ∃ q, es = [q] := List.length_eq_one_iff.1 (by simpa using congrArg List.length bytes)
  let cu : Core := { s2.core s.cur with sb := (s2.core s.cur).sb ++ [q] }
  let u := s2.tick.setCore s.cur cu
  obtain ⟨strong, after⟩ : q.strong = true ∧ q.after = (s2.core s.cur).relEp := by
    obtain ⟨-, -, es', same, -, every⟩ := State.issueStore_ok issue
    have own : (s2.core s.cur).sb ++ [q] = (s2.core s.cur).sb ++ es' := by
      have cores := congrArg (fun t => (t.core s.cur).sb) same
      simpa using cores
    obtain ⟨-, strong, after⟩ := every q (List.append_cancel_left own ▸ List.mem_singleton_self q)
    exact ⟨strong, after⟩
  have coreu : u.core s.cur = cu := State.core_setCore_same _ _ _
  have offu : c2.OffRegs cu := off.trans (Core.offRegs_sb ..)
  have tx : (u.core s.cur).txq = [] := coreu ▸ offu.txq_eq.trans (congrArg Core.txq operands :)
  have ox : (u.core s.cur).outq = [] := coreu ▸ offu.outq_eq.trans (congrArg Core.outq operands :)
  have core : (s.doneIn u (.sts z rel scope d m)).core s.cur = ({ cu with txq := [] } : Core).advance (Instr.sts z rel scope d m).len := (State.doneIn_core ..).trans (by rw [coreu])
  have all : Claims.Elsewhere s (s.doneIn u (.sts z rel scope d m)) s.cur := Elsewhere.doneIn (Elsewhere.setCore (Elsewhere.tick elsewhere) _) _
  refine ⟨_, q, exec_sts_issues h re rd aligned chk done released loads issue tx ox, ?_, ?_, strong, after.trans relEp, fun a => ?_, rfl, rfl, ?_, ?_, all⟩
  · rw [core, Core.advance_sb]
  · simpa using congrArg (List.map Prod.fst) bytes
  · obtain ⟨-, mem, -⟩ := all
    exact congrFun (State.byte_congr mem) a
  · rw [core]
    exact regsBut_advance (offu.regsBut 0) _
  · rw [core]
    refine Core.passed_advance ?_ ?_ _
    · exact offu.pc_eq.trans (congrArg Core.pc operands :)
    · exact offu.slot_eq.trans (congrArg Core.slot operands :)

/-- Settles O27: a strong load sends nothing whatever it settles, and a strong store changes no more than its own core's buffer beside what its release publishes. -/
theorem strongAccessResult : Obligations.StrongAccessResult := by
  refine ⟨?_, ?_, fun s i a unseen => State.strongByte_home unseen, fun s i k n loads stores own late holds full rel =>
    State.settleStrong_empty loads stores k n own late holds full rel⟩
  · intro s z acq scope d m ea c ps k va s1 s2 s3 i n h re aligned chk one settled free issue hd
    subst one
    exact ⟨fun now => exec_lds_now h re aligned chk settled free issue hd now (State.acquireFrom_eq ..).symm,
      fun defer relaxed may => exec_lds_left h re aligned chk settled free issue hd defer relaxed may⟩
  · intro s z rel scope d m ea x c c2 ps k va s1 i n h re rd aligned chk one s2
    subst one
    have size : n = stBytes z := by cases z <;> rfl
    clear_value n
    subst size
    exact ⟨fun releases early => exec_sts_waits h re rd aligned chk early releases, fun done late room first => sts_stores h re rd aligned chk done rfl late room first⟩
end Sys2Proof.Machine
end

section
namespace Sys2Proof.Machine
open Sys2Proof

/-! ### What an atomic leaves in memory (R210) -/

/-- The bytes of a number are those of it modulo their count. -/
theorem bytesOf_congr {n x y : Nat} (h : x % 2 ^ (8 * n) = y % 2 ^ (8 * n)) : bytesOf n x = bytesOf n y := by
  induction n generalizing x y with
  | zero => rfl
  | succ n ih =>
    have width : 2 ^ (8 * (n + 1)) = 256 * 2 ^ (8 * n) := by rw [Nat.mul_succ, pow_add, mul_comm]; rfl
    rw [width] at h
    have low : x % 256 = y % 256 := by
      have both := congrArg (· % 256) h
      simpa only [Nat.mod_mul_right_mod] using both
    have rest : x / 256 % 2 ^ (8 * n) = y / 256 % 2 ^ (8 * n) := by
      have both := congrArg (· / 256) h
      simpa only [Nat.mod_mul_right_div_self] using both
    rw [bytesOf, bytesOf, ih rest]
    exact congrArg (· :: _) (BitVec.eq_of_toNat_eq (by simpa using low))

theorem replaced_congr (t : State) (i k : Nat) {n x y : Nat} (ord : Order) (scope : Scope) (h : bytesOf n x = bytesOf n y) :
    Claims.replaced t i k n x ord scope = Claims.replaced t i k n y ord scope := by
  rw [Claims.replaced, Claims.replaced, State.objBytes, State.objBytes, h]

theorem obj_lt (t : State) (i k n : Nat) : Claims.obj t i k n < 2 ^ (8 * n) := by
  have h := ofBytes_lt ((List.range n).map fun j => t.byte (t.place (t.isSup i) k j))
  rwa [List.length_map, List.length_range] at h

/-- Numbers of w bits that stand for one integer are the same. -/
theorem eq_of_ival_eq {w x y : Nat} (hx : x < 2 ^ w) (hy : y < 2 ^ w) (h : Claims.ival w x = Claims.ival w y) : x = y := by
  have same := congrArg BitVec.toNat (BitVec.toInt_inj.1 h)
  rwa [BitVec.toNat_ofNat, BitVec.toNat_ofNat, Nat.mod_eq_of_lt hx, Nat.mod_eq_of_lt hy] at same

/-- An integer atomic of the table runs atomScalar with an operation that leaves what the table says (R210). -/
theorem exec_atomTable {p : (StSize → Order → Scope → Reg → MemOp → Instr) × (Nat → Nat → Nat → Nat) × Bool} (hp : p ∈ Claims.atomTable) :
    ∃ op : AtomOp, op ≠ .cas ∧ (∀ z ord scope d m s, exec (p.1 z ord scope d m) s = atomScalar (p.1 z ord scope d m) (stBytes z) op ord scope d m s) ∧
      (∀ n, op.hostOk n = (p.2.2 && (n == 4 || n == 8))) ∧
      ∀ n x v, x < 2 ^ (8 * n) → v < 2 ^ (8 * n) → bytesOf n (op.eval n x v 0) = bytesOf n (p.2.1 n x v) := by
  simp only [Claims.atomTable, List.mem_cons, List.not_mem_nil, or_false] at hp
  rcases hp with rfl | rfl | rfl | rfl | rfl | rfl | rfl | rfl | rfl
  · exact ⟨.swap, nofun, fun _ _ _ _ _ _ => rfl, fun _ => rfl, fun _ _ _ _ _ => rfl⟩
  · exact ⟨.add, nofun, fun _ _ _ _ _ _ => rfl, fun _ => rfl, fun n x v _ _ => bytesOf_congr (Nat.mod_mod _ _).symm⟩
  · exact ⟨.and, nofun, fun _ _ _ _ _ _ => rfl, fun _ => rfl, fun _ _ _ _ _ => rfl⟩
  · exact ⟨.or, nofun, fun _ _ _ _ _ _ => rfl, fun _ => rfl, fun _ _ _ _ _ => rfl⟩
  · exact ⟨.xor, nofun, fun _ _ _ _ _ _ => rfl, fun _ => rfl, fun _ _ _ _ _ => rfl⟩
  · refine ⟨.min, nofun, fun _ _ _ _ _ _ => rfl, fun _ => rfl, fun n x v _ _ => ?_⟩
    simp only [AtomOp.eval, sext_eq_ival, ← not_lt, ite_not]
  · refine ⟨.max, nofun, fun _ _ _ _ _ _ => rfl, fun _ => rfl, fun n x v hx hv => congrArg (bytesOf n) ?_⟩
    simp only [AtomOp.eval, sext_eq_ival]
    split
    next le =>
      split
      · rfl
      next ge => exact (eq_of_ival_eq hx hv (le_antisymm le (not_lt.1 ge))).symm
    next gt => rw [if_neg (mt le_of_lt gt)]
  · exact ⟨.minu, nofun, fun _ _ _ _ _ _ => rfl, fun _ => rfl, fun _ _ _ _ _ => rfl⟩
  · exact ⟨.maxu, nofun, fun _ _ _ _ _ _ => rfl, fun _ => rfl, fun _ _ _ _ _ => rfl⟩

theorem envRne_g_zero : envRne.g 0 = 0 := by decide

/-- So does a floating-point atomic, which rounds to nearest even without a draw (R210, R211). -/
theorem exec_atomFpTable {p : (Bool → Order → Scope → Reg → MemOp → Instr) × (FInfo → Nat → Nat → Nat)} (hp : p ∈ Claims.atomFpTable) :
    ∃ op : AtomOp, op ≠ .cas ∧ (∀ n, op.hostOk n = false) ∧
      ∀ dbl, (∀ ord scope d m s, exec (p.1 dbl ord scope d m) s = atomScalar (p.1 dbl ord scope d m) (if dbl then 8 else 4) op ord scope d m s) ∧
        ∀ x v, op.eval (if dbl then 8 else 4) x v 0 = p.2 (Claims.fps dbl) x v := by
  have shape (dbl : Bool) : fpsInfo ((if dbl then 8 else 4) == 8) = Claims.fps dbl := by cases dbl <;> rfl
  simp only [Claims.atomFpTable, List.mem_cons, List.not_mem_nil, or_false] at hp
  rcases hp with rfl | rfl | rfl
  · refine ⟨.fadd, nofun, fun _ => rfl, fun dbl => ⟨fun _ _ _ _ _ => rfl, fun x v => ?_⟩⟩
    rw [AtomOp.eval, shape, fpAdd, envRne_g_zero]
    rfl
  · exact ⟨.fmin, nofun, fun _ => rfl, fun dbl => ⟨fun _ _ _ _ _ => rfl, fun x v => by rw [AtomOp.eval, shape]⟩⟩
  · exact ⟨.fmax, nofun, fun _ => rfl, fun dbl => ⟨fun _ _ _ _ _ => rfl, fun x v => by rw [AtomOp.eval, shape]⟩⟩

/-- Every scalar atomic runs atomScalar (R210). -/
theorem exec_atomOf {i : Instr} {n : Nat} {host : Bool} {ord : Order} {scope : Scope} {d : Reg} {m : MemOp} (h : Claims.atomOf i = some (n, host, ord, scope, d, m)) :
    ∃ op : AtomOp, (∀ s, exec i s = atomScalar i n op ord scope d m s) ∧ op.hostOk n = host ∧ (op = .cas → ∃ z, i = .atomCas z ord scope d m) := by
  have size (z : StSize) : Claims.bytesOfSize z = stBytes z := by cases z <;> rfl
  cases i <;> cases h
  case atomCas.refl z => exact ⟨.cas, fun _ => by rw [size]; rfl, rfl, fun _ => ⟨z, rfl⟩⟩
  case atomSwap.refl => exact ⟨.swap, fun _ => by rw [size]; rfl, rfl, nofun⟩
  case atomAdd.refl => exact ⟨.add, fun _ => by rw [size]; rfl, rfl, nofun⟩
  case atomAnd.refl => exact ⟨.and, fun _ => by rw [size]; rfl, rfl, nofun⟩
  case atomOr.refl => exact ⟨.or, fun _ => by rw [size]; rfl, rfl, nofun⟩
  case atomXor.refl => exact ⟨.xor, fun _ => by rw [size]; rfl, rfl, nofun⟩
  case atomMin.refl => exact ⟨.min, fun _ => by rw [size]; rfl, rfl, nofun⟩
  case atomMax.refl => exact ⟨.max, fun _ => by rw [size]; rfl, rfl, nofun⟩
  case atomMinu.refl => exact ⟨.minu, fun _ => by rw [size]; rfl, rfl, nofun⟩
  case atomMaxu.refl => exact ⟨.maxu, fun _ => by rw [size]; rfl, rfl, nofun⟩
  case atomFadd.refl => exact ⟨.fadd, fun _ => rfl, rfl, nofun⟩
  case atomFmin.refl => exact ⟨.fmin, fun _ => rfl, rfl, nofun⟩
  case atomFmax.refl => exact ⟨.fmax, fun _ => rfl, rfl, nofun⟩

/-! ### An atomic at its home (R211, R187, R350) -/

section
variable {s : State}

theorem State.steady_checkAtom {i n al k : Nat} {ea : Word} {host : Bool} {t : State} (h : s.checkAtom i ea n al host = .ok (k, t)) : s.Steady t i := by
  rw [State.checkAtom] at h
  split at h
  · cases h
  · split at h
    · cases h
    · split at h
      · cases h
      · split at h
        · cases h
        · split at h
          · cases h
          · obtain ⟨-, rfl⟩ := Prod.mk.inj (Except.ok.inj h)
            exact s.steady_keep i _

theorem order_acquires (ord : Order) : Order.acquires ord = Claims.acquires ord := by cases ord <;> rfl
theorem order_releases (ord : Order) : Order.releases ord = Claims.releases ord := by cases ord <;> rfl

variable {ea : Word} {n al : Nat} {host held : Bool} {ord : Order} {scope : Scope} {k : Nat} {t : State}

theorem atHome_steady (h : Claims.AtHome s ea n al host ord scope held k t) : s.start.Steady t s.cur := by
  obtain ⟨-, -, s1, s2, chk, -, enter, settled⟩ := h
  refine (State.steady_checkAtom chk).trans (State.Steady.trans ?_ ((State.steady_enterHome enter).trans (State.steady_settleStrong settled)))
  exact .ite (s1.steady_publish s.cur scope) (.refl _ _)

theorem replaced_silent (h : t.Silent s.cur) (x : Nat) : (Claims.replaced t s.cur k n x ord scope).Silent s.cur := by
  have written := (h.of_cores (rfl : ((t.writeBy s.cur t.serial (t.objBytes (t.isSup s.cur) k n x)).tick).cores = t.cores)).steady
    (State.steady_modCore _ s.cur s.cur (f := fun c => c.dropLine k) fun _ => rfl)
  exact written.steady (.ite (State.steady_acquireAt _ s.cur scope) (.refl _ _))

/-- A home that is in no page under migration performs the atomic: the old value, and the state after the acquire. -/
theorem atomic_performs {r : Rmw} (h : Claims.AtHome s ea r.n al (r.op.hostOk r.n) ord scope false k t) :
    s.start.atomic s.cur ea al ord scope r = .ok (Claims.obj t s.cur k r.n, Claims.replaced t s.cur k r.n (r.op.eval r.n (Claims.obj t s.cur k r.n) r.v r.v2) ord scope) := by
  obtain ⟨fresh, held, s1, s2, chk, done, enter, settled⟩ := h
  have none : t.holdAt (t.isSup s.cur) k = none := by simpa using held
  simp only [State.atomic, State.start_core, fresh, chk, order_releases, State.releaseTo_ok k done, enter, settled, none, State.acquireFrom_eq,
    order_acquires, Bind.bind, Except.bind]
  rfl

/-- In one the atomic is queued, and the core waits (R350). -/
theorem atomic_waits {r : Rmw} (h : Claims.AtHome s ea r.n al (r.op.hostOk r.n) ord scope true k t) :
    ∃ hold q, s.start.atomic s.cur ea al ord scope r = .error (.wait ((t.queueAt hold q).tick.modCore s.cur fun c => { c with rmw := some (t.serial, none) })) := by
  obtain ⟨fresh, held, s1, s2, chk, done, enter, settled⟩ := h
  obtain ⟨hold, there⟩ := Option.isSome_iff_exists.1 held
  refine ⟨hold, ?_⟩
  simp only [State.atomic, State.start_core, fresh, chk, order_releases, State.releaseTo_ok k done, enter, settled, there, Bind.bind, Except.bind]
  exact ⟨_, rfl⟩
end

/-! ### The scalar atomics (R210) -/

/-- An instruction whose body waits leaves what the body did (R215, R350). -/
theorem runSeq_wait {i : Instr} {body : Nat → State → M State} {s t : State} (h : s.Legal i) (b : body s.cur s.start = .error (.wait t)) :
    runSeq i body s = .next (t.modCore s.cur fun c => { c with stalled := true }) := by
  rw [runSeq, runCtl_legal h]
  simp only [b, Bind.bind, Except.bind, settleOutcome]

section
variable {s : State} {i : Instr} {n : Nat} {op : AtomOp} {ord : Order} {scope : Scope} {d : Reg} {m : MemOp} {ea v v2 : Word} {c c1 : Core}
  (h : s.Legal i) (re : Claims.eaLong s.me m = .ok (ea, c)) (rd : c.readS d = .ok (v, c1))
  (second : (op = .cas ∧ ∃ c3, c1.readS (d + 1) = .ok (v2, c3)) ∨ (op ≠ .cas ∧ v2 = 0))
include h re rd second

omit h in
/-- The body of an atomic up to its home: the operands, the second one of .cas among them. -/
theorem atomScalar_body : ∃ body, atomScalar i n op ord scope d m s = runSeq i body s ∧
    body s.cur s.start = (do
      let (old, u) ← s.start.atomic s.cur ea n ord scope ⟨op, n, v.toNat % 2 ^ (8 * n), v2.toNat % 2 ^ (8 * n)⟩
      let (_, c) ← Claims.eaLong (u.core s.cur) m
      let (_, c) ← c.readS d
      let c ← c.putS s.cur d (BitVec.ofNat 64 old)
      .ok (u.setCore s.cur c)) := by
  refine ⟨_, rfl, ?_⟩
  rcases second with ⟨rfl, c3, rd2⟩ | ⟨other, rfl⟩
  · simp only [State.start_core, Core.ea_eq, re, rd, if_true, rd2, Bind.bind, Except.bind]
  · simp only [State.start_core, Core.ea_eq, re, rd, if_neg other, Bind.bind, Except.bind]

theorem atomScalar_done {old : Nat} {u : State} {c2 : Core} (hd : d.toNat < 56)
    (done : s.start.atomic s.cur ea n ord scope ⟨op, n, v.toNat % 2 ^ (8 * n), v2.toNat % 2 ^ (8 * n)⟩ = .ok (old, u)) (silent : u.Silent s.cur)
    (again : Claims.Reread (u.core s.cur) m d c2) : atomScalar i n op ord scope d m s = .next (s.doneIn (u.setCore s.cur (c2.writeS d.toNat (BitVec.ofNat 64 old))) i) := by
  obtain ⟨body, run, steps⟩ := atomScalar_body (i := i) (n := n) (ord := ord) (scope := scope) re rd second
  obtain ⟨-, tx, ox⟩ := silent
  obtain ⟨tx', ox'⟩ := reread_quiet again
  obtain ⟨_, _, c3, re2, rd2⟩ := again
  rw [Core.ea_eq] at re2
  refine run.trans (runSeq_ok h (steps.trans ?_) ?_ ?_)
  · simp only [done, re2, rd2, Core.putS_reg _ hd, Bind.bind, Except.bind]
  · rw [State.core_setCore_same, Core.writeS_txq, tx', tx]
  · rw [State.core_setCore_same, Core.writeS_outq, ox', ox]

/-- One that its home performs. -/
theorem atomScalar_performs {k : Nat} {t : State} {x : Nat} {c2 : Core} (hd : d.toNat < 56) (home : Claims.AtHome s ea n n (op.hostOk n) ord scope false k t)
    (result : bytesOf n (op.eval n (Claims.obj t s.cur k n) (v.toNat % 2 ^ (8 * n)) (v2.toNat % 2 ^ (8 * n))) = bytesOf n x)
    (again : Claims.Reread ((Claims.replaced t s.cur k n x ord scope).core s.cur) m d c2) :
    atomScalar i n op ord scope d m s =
      .next (s.doneIn ((Claims.replaced t s.cur k n x ord scope).setCore s.cur (c2.writeS d.toNat (BitVec.ofNat 64 (Claims.obj t s.cur k n)))) i) := by
  refine atomScalar_done h re rd second hd ?_ (replaced_silent (s.start_silent.steady (atHome_steady home)) x) again
  rw [← replaced_congr t s.cur k ord scope result]
  exact atomic_performs (r := ⟨op, n, v.toNat % 2 ^ (8 * n), v2.toNat % 2 ^ (8 * n)⟩) home

/-- One at a page under migration is queued: the core waits, its registers and the memory as they were (R350). -/
theorem atomScalar_queued {k : Nat} {t : State} (home : Claims.AtHome s ea n n (op.hostOk n) ord scope true k t) :
    ∃ u, atomScalar i n op ord scope d m s = .next u ∧ u.mem = t.mem ∧ (u.core s.cur).rmw = some (t.serial, none) ∧ (u.core s.cur).stalled = true ∧
      (u.core s.cur).pc = (s.core s.cur).pc ∧ ∀ r, (u.core s.cur).sreg r = (s.core s.cur).sreg r := by
  obtain ⟨-, off⟩ := atHome_steady home s.start_once
  rw [State.start_core] at off
  obtain ⟨body, run, steps⟩ := atomScalar_body (i := i) (n := n) (ord := ord) (scope := scope) re rd second
  obtain ⟨hold, q, waits⟩ := atomic_waits (r := ⟨op, n, v.toNat % 2 ^ (8 * n), v2.toNat % 2 ^ (8 * n)⟩) home
  rw [waits] at steps
  change body s.cur s.start = .error (.wait _) at steps
  refine ⟨_, run.trans (runSeq_wait h steps), rfl, ?_, ?_, ?_, fun r => ?_⟩ <;> rw [State.core_modCore_same, State.core_modCore_same]
  · exact off.pc_eq
  · exact off.sreg_eq r

/-- While it is queued its core waits. -/
theorem atomScalar_outstanding {g : Nat} (queued : s.me.rmw = some (g, none)) : atomScalar i n op ord scope d m s = .next s.waits := by
  obtain ⟨body, run, steps⟩ := atomScalar_body (i := i) (n := n) (ord := ord) (scope := scope) re rd second
  refine run.trans (runSeq_stall h (steps.trans ?_))
  simp only [State.atomic, State.start_core, queued, Bind.bind, Except.bind]

/-- Once it is performed the core takes the old value, and the acquire. -/
theorem atomScalar_taken {g old : Nat} {u : State} {c2 : Core} (hd : d.toNat < 56) (performed : s.me.rmw = some (g, some old))
    (hu : u = (s.start.modCore s.cur fun c => { c with rmw := none }).acquireIf s.cur (Order.acquires ord) scope) (again : Claims.Reread (u.core s.cur) m d c2) :
    atomScalar i n op ord scope d m s = .next (s.doneIn (u.setCore s.cur (c2.writeS d.toNat (BitVec.ofNat 64 old))) i) := by
  refine atomScalar_done h re rd second hd ?_ ?_ again
  · simp only [State.atomic, State.start_core, performed, hu]
  · obtain ⟨once, tx, ox⟩ := s.start_silent
    have taken : (s.start.modCore s.cur fun c => { c with rmw := none }).Silent s.cur := by
      refine ⟨once.setCore s.cur _, ?_, ?_⟩ <;> rw [State.core_modCore_same]
      · exact tx
      · exact ox
    rw [hu, State.acquireIf]
    exact taken.steady (.ite (State.steady_acquireAt _ s.cur scope) (.refl _ _))
end

/-- ATOM.ws at a home that performs it: the cell in v[D] is added, the old cell comes back (R210). -/
theorem exec_atomWs {s : State} {ord : Order} {scope : Scope} {d : Reg} {m : MemOp} {ea y : Word} {v : Vec} {c c1 c2 c3 : Core} {k : Nat} {t u : State}
    (h : s.Legal (.atomWs ord scope d m)) (re : Claims.eaLong s.me m = .ok (ea, c)) (rd : c.readV d = .ok (v, c1)) (hd : d.toNat < 32)
    (home : Claims.AtHome s ea 48 64 false ord scope false k t)
    (hu : u = Claims.replaced t s.cur k 48 ((WCell.ofNat (Claims.obj t s.cur k 48)).add (WCell.ofNat (v.toNat % 2 ^ 384))).toNat ord scope)
    (re2 : (u.core s.cur).ea m = .ok (y, c2)) (put : c2.putV d (BitVec.ofNat 512 (Claims.obj t s.cur k 48)) (2 ^ 64 - 1) false = .ok c3) :
    exec (.atomWs ord scope d m) s = .next (s.doneIn (u.setCore s.cur c3) (.atomWs ord scope d m)) := by
  have done : s.start.atomic s.cur ea 64 ord scope ⟨.ws, 48, v.toNat % 2 ^ 384, 0⟩ = .ok (Claims.obj t s.cur k 48, u) := by
    rw [hu]
    exact atomic_performs (r := ⟨.ws, 48, v.toNat % 2 ^ 384, 0⟩) home
  obtain ⟨-, tx, ox⟩ : u.Silent s.cur := hu ▸ replaced_silent (s.start_silent.steady (atHome_steady home)) _
  have operands := eaLong_bank (Core.ea_eq .. ▸ re2)
  change execAtomWs ord scope d m s = _
  refine runSeq_ok h ?_ ?_ ?_
  · rw [Core.ea_eq] at re2
    simp only [State.start_core, Core.ea_eq, re, ge_iff_le, decide_eq_false (not_le.2 hd), trapIf_false, rd, done, re2, allBytes, put, Bind.bind, Except.bind]
  · rw [State.core_setCore_same, Core.putV_txq put]
    exact (congrArg Core.txq operands :).trans tx
  · rw [State.core_setCore_same, Core.putV_outq hd put]
    exact (congrArg Core.outq operands :).trans ox

/-- Settles O29: each operation's result agrees with its table modulo the object's width, and the home's step is the state's one function for all of them. -/
theorem atomicResult : Obligations.AtomicResult := by
  have size (z : StSize) : stBytes z = Claims.bytesOfSize z := by cases z <;> rfl
  have low (v : Word) (n : Nat) : v.toNat % 2 ^ (8 * n) < 2 ^ (8 * n) := Nat.mod_lt _ (Nat.two_pow_pos _)
  have zero (n : Nat) : (0 : Word).toNat % 2 ^ (8 * n) = 0 := Nat.zero_mod _
  refine ⟨?_, ?_, ?_, ?_, ?_⟩
  · intro p hp s z ord scope d m ea v c c1 c2 k t i n h re rd hd home t' again
    obtain ⟨op, other, run, host, result⟩ := exec_atomTable hp
    refine (run z ord scope d m s).trans ?_
    rw [size]
    refine atomScalar_performs h re rd (.inr ⟨other, rfl⟩) hd (host n ▸ home) ?_ again
    rw [zero]
    exact result n _ _ (obj_lt t s.cur k n) (low v n)
  · intro s z ord scope d m ea v v2 c c1 c2 c3 k t i n h re rd rd2 hd home t' again
    change atomScalar i (stBytes z) .cas ord scope d m s = _
    rw [size]
    exact atomScalar_performs h re rd (.inl ⟨rfl, c3, rd2⟩) hd home rfl again
  · intro p hp s dbl ord scope d m ea v c c1 c2 k t i n h re rd hd home t' again
    obtain ⟨op, other, host, both⟩ := exec_atomFpTable hp
    obtain ⟨run, result⟩ := both dbl
    refine (run ord scope d m s).trans ?_
    refine atomScalar_performs h re rd (.inr ⟨other, rfl⟩) hd (host n ▸ home) ?_ again
    rw [zero, result]
  · intro s ord scope d m ea y v c c1 c2 c3 k t i h re rd hd home t' re2 put
    exact exec_atomWs h re rd hd home rfl re2 put
  · intro s i n host ord scope d m ea v c c1 form h re rd hd second
    obtain ⟨op, run, rfl, cas⟩ := exec_atomOf form
    rw [run s]
    obtain ⟨v2, second⟩ : ∃ v2, (op = .cas ∧ ∃ c3, c1.readS (d + 1) = .ok (v2, c3)) ∨ (op ≠ .cas ∧ v2 = 0) := by
      by_cases is : op = .cas
      · obtain ⟨y, c3, rd2⟩ := second (cas is)
        exact ⟨y, .inl ⟨is, c3, rd2⟩⟩
      · exact ⟨0, .inr ⟨is, rfl⟩⟩
    refine ⟨fun k t home => atomScalar_queued h re rd second home, fun g queued => atomScalar_outstanding h re rd second queued, ?_⟩
    intro g old c2 performed u u' again
    refine atomScalar_taken h re rd second hd performed ?_ again
    rw [State.acquireIf, order_acquires]

end Sys2Proof.Machine
end

section
namespace Sys2Proof.Machine
open Sys2Proof

/-! ### Parts of an object (R213, R296) -/

theorem bits_mod_two_pow (x : Nat) {hi lo n : Nat} (h : hi < n) : bits (x % 2 ^ n) hi lo = bits x hi lo := by
  refine Nat.eq_of_testBit_eq fun j => ?_
  rw [testBit_bits, testBit_bits, Nat.testBit_mod_two_pow]
  by_cases inside : j < hi + 1 - lo
  · rw [decide_eq_true (show lo + j < n by omega), Bool.true_and]
  · rw [decide_eq_false inside, Bool.false_and, Bool.false_and]

theorem mem_objBytes {s : State} {sup : Bool} {k n x : Nat} {p : Nat × Byte} :
    p ∈ s.objBytes sup k n x ↔ ∃ j, j < n ∧ p.1 = s.place sup k j ∧ (bytesOf n x)[j]? = some p.2 := by
  simp only [State.objBytes, List.mem_mapIdx]
  constructor
  · rintro ⟨j, hj, rfl⟩
    exact ⟨j, by simpa using hj, rfl, List.getElem?_eq_getElem hj⟩
  · rintro ⟨j, hj, place, byte⟩
    have inside : j < (bytesOf n x).length := by simpa using hj
    rw [List.getElem?_eq_getElem inside] at byte
    exact ⟨j, inside, Prod.ext place.symm (Option.some.inj byte)⟩

section
variable {s : State} {sup : Bool} {k n : Nat}

/-- An object whose bytes lie apart reads what was written to it. -/
theorem State.rdObj_write_same (x : Nat) (apart : ∀ a b, a < n → b < n → s.place sup k a = s.place sup k b → a = b) :
    (s.write (s.objBytes sup k n x)).rdObj sup k n = x % 2 ^ (8 * n) := by
  have once : (s.objBytes sup k n x).Pairwise fun p q => p.1 ≠ q.1 := by
    rw [List.pairwise_iff_getElem]
    intro a b ha hb less same
    simp only [State.objBytes, List.getElem_mapIdx] at same
    have equal := apart a b (by simpa [State.objBytes] using ha) (by simpa [State.objBytes] using hb) same
    omega
  rw [← ofBytes_bytesOf, State.rdObj]
  congr 1
  refine List.ext_getElem (by simp) fun j hj hj' => ?_
  rw [List.getElem_map, List.getElem_range]
  exact s.byte_write_in _ (s.place sup k j, (bytesOf n x)[j]) (mem_objBytes.2 ⟨j, by simpa using hj, rfl, List.getElem?_eq_getElem hj'⟩) once

/-- A write elsewhere leaves it. -/
theorem State.rdObj_write_other {l : List (Nat × Byte)} (away : ∀ j, j < n → ∀ p ∈ l, p.1 ≠ s.place sup k j) : (s.write l).rdObj sup k n = s.rdObj sup k n := by
  rw [State.rdObj, State.rdObj]
  congr 1
  exact List.map_congr_left fun j hj => s.byte_write_out l _ (away j (List.mem_range.1 hj))

variable {obj len off : Nat} (lays : Claims.Lays s sup obj len) (fits : off + n ≤ len)
include lays fits

/-- No two bytes of a part of an object share a place. -/
theorem lays_apart (a b : Nat) (ha : a < n) (hb : b < n) (same : s.place sup (s.place sup obj off) a = s.place sup (s.place sup obj off) b) : a = b := by
  obtain ⟨-, nested, distinct⟩ := lays
  rw [nested off a (by omega), nested off b (by omega)] at same
  have equal := distinct _ _ (by omega) (by omega) same
  omega

/-- A part after the first word does not meet it. -/
theorem lays_after (later : 8 ≤ off) {j b : Nat} (hj : j < n) (hb : b < 8) : obj + b ≠ s.place sup (s.place sup obj off) j := by
  obtain ⟨first, nested, distinct⟩ := lays
  rw [nested off j (by omega), ← first b hb]
  intro same
  have equal := distinct _ _ (by omega) (by omega) same
  omega

/-- A part that was written reads so after a write of the first word. -/
theorem lays_read (later : 8 ≤ off) (x y : Nat) :
    ((s.write (s.objBytes sup (s.place sup obj off) n x)).wr obj 8 y).rdObj sup (s.place sup obj off) n = x % 2 ^ (8 * n) := by
  rw [← State.rdObj_write_same x (lays_apart lays fits)]
  refine State.rdObj_write_other fun j hj p hp => ?_
  obtain ⟨b, hb, place, -⟩ := mem_at.1 hp
  rw [place]
  exact lays_after lays fits later hj hb
end

/-! ### The contributions to a BANKOP object (R213, R214) -/

section
variable (s : State) (obj m : Nat)

/-- The number of ranks of a BANKOP object. -/
def State.bankMembers : Nat := bits (s.rd obj 8) 43 32 + 1
/-- How many have contributed in this generation, and which. -/
def State.bankArr : Nat := bits (s.rd obj 8) 31 16
def State.bankRanks : List Nat := if s.bankArr obj = 0 then [] else ((s.reds.find? fun q => q.1 = obj).map (·.2)).getD []
/-- The operation of this generation once one of operation m has contributed. -/
def State.bankOp : Nat := if s.bankArr obj = 0 then m else bits (s.rd obj 8) 11 8
/-- The header's first word with that operation, OPMIX set where it is not m. -/
def State.bankHead : Nat := setBits (if s.bankOp obj m = m then s.rd obj 8 else setBit (s.rd obj 8) 2 true) 11 8 (s.bankOp obj m)
/-- The contribution of rank r in its slot. -/
def State.bankPut (sup : Bool) (r v : Nat) : State := s.write (s.objBytes sup (s.place sup obj (bankSlot (s.bankOp obj m) r)) (bankBytes (s.bankOp obj m)) v)
/-- The offsets of the words that all ranks contribute. -/
def State.bankWords : List Nat := (List.range (s.bankMembers obj)).flatMap fun j => (List.range (bankBytes (s.bankOp obj m) / 8)).map fun b => bankSlot (s.bankOp obj m) j + 8 * b
/-- What they come to. -/
def State.bankTotal (sup : Bool) (r v : Nat) : Nat := bankCombine (s.bankOp obj m) ((List.range (s.bankMembers obj)).map fun j =>
  (s.bankPut obj m sup r v).rdObj sup (s.place sup obj (bankSlot (s.bankOp obj m) j)) (bankBytes (s.bankOp obj m)))
/-- RESULT written. -/
def State.bankResult (sup : Bool) (r v : Nat) : State :=
  (s.bankPut obj m sup r v).write ((s.bankPut obj m sup r v).objBytes sup (s.place sup obj 8) (bankBytes (s.bankOp obj m)) (s.bankTotal obj m sup r v))
/-- Who has contributed to the other objects. -/
def State.otherReds : List (Nat × List Nat) := s.reds.filter fun q => q.1 ≠ obj
end

section
variable {s : State} {sup : Bool} {obj m r v : Nat}

theorem contribute_badRank (h : s.bankMembers obj ≤ r) : s.contribute sup obj m r v = .badRank (s.wr obj 8 (s.rd obj 8 ||| 2)) := by
  rw [show s.rd obj 8 ||| 2 = setBit (s.rd obj 8) 1 true from (setBit_true _ 1).symm]
  exact if_pos h

variable (h : r < s.bankMembers obj)
include h

theorem contribute_again (twice : r ∈ s.bankRanks obj) : s.contribute sup obj m r v = .again :=
  (if_neg (not_le.2 h)).trans (if_pos (List.contains_iff_mem.2 twice))

variable (new : r ∉ s.bankRanks obj)
include new

/-- One that is not the last leaves the generation open. -/
theorem contribute_wait (more : s.bankArr obj + 1 ≠ s.bankMembers obj) : s.contribute sup obj m r v =
    .wait { (s.bankPut obj m sup r v).wr obj 8 (setBits (s.bankHead obj m) 31 16 (s.bankArr obj + 1)) with reds := (obj, r :: s.bankRanks obj) :: s.otherReds obj }
      (bits (s.rd obj 8) 15 12) :=
  ((if_neg (not_le.2 h)).trans (if_neg (mt List.contains_iff_mem.1 new))).trans (if_neg more)

variable (last : s.bankArr obj + 1 = s.bankMembers obj)
include last

theorem contribute_poison {o : Nat} (bad : ((s.bankWords obj m).find? fun o => (s.bankPut obj m sup r v).poisoned (s.place sup obj o)) = some o) :
    s.contribute sup obj m r v = .poison o := by
  refine (((if_neg (not_le.2 h)).trans (if_neg (mt List.contains_iff_mem.1 new))).trans (if_pos last)).trans ?_
  change (match (s.bankWords obj m).find? fun o => (s.bankPut obj m sup r v).poisoned (s.place sup obj o) with | some o => BankStep.poison o | none => _) = _
  rw [bad]

/-- The last one, with all sound, combines them and closes the generation. -/
theorem contribute_done (sound : ((s.bankWords obj m).find? fun o => (s.bankPut obj m sup r v).poisoned (s.place sup obj o)) = none) :
    s.contribute sup obj m r v = .done { (s.bankResult obj m sup r v).wr obj 8
      (setBits (setBits (s.bankHead obj m) 31 16 0) 15 12 (bits (s.rd obj 8) 15 12 + 1)) with reds := s.otherReds obj } := by
  refine (((if_neg (not_le.2 h)).trans (if_neg (mt List.contains_iff_mem.1 new))).trans (if_pos last)).trans ?_
  change (match (s.bankWords obj m).find? fun o => (s.bankPut obj m sup r v).poisoned (s.place sup obj o) with | some o => BankStep.poison o | none => _) = _
  rw [sound]
  rfl
end

/-! #### The header's first word -/

section
variable (s : State) (obj : Nat) {m : Nat}

theorem State.bankArr_lt : s.bankArr obj < 2 ^ 16 := Nat.mod_lt _ (by decide)

theorem State.bankMembers_le : s.bankMembers obj ≤ 2 ^ 12 := Nat.mod_lt _ (by decide)

theorem State.bankOp_lt (h : m < 8) : s.bankOp obj m < 2 ^ 4 := by
  rw [State.bankOp]
  split
  · omega
  · exact Nat.mod_lt _ (by decide)

theorem State.bankHead_op (h : m < 8) : bits (s.bankHead obj m) 11 8 = s.bankOp obj m := by
  rw [State.bankHead, bits_setBits_same _ _ (by decide)]
  exact Nat.mod_eq_of_lt (s.bankOp_lt obj h)

theorem State.bankHead_gen : bits (s.bankHead obj m) 15 12 = bits (s.rd obj 8) 15 12 := by
  rw [State.bankHead, bits_setBits_other _ _ (by decide) (.inr (by decide))]
  split
  · rfl
  · rw [bits_setBit_other _ _ (.inr (by decide))]

/-- OPMIX (R214). -/
theorem State.bankHead_mix : (s.bankHead obj m).testBit 2 = ((s.rd obj 8).testBit 2 || s.bankOp obj m != m) := by
  rw [State.bankHead, testBit_setBits _ _ (by decide), if_neg (by decide)]
  split
  next same => simp [same]
  next other => simp [testBit_setBit, other]
end

/-! #### What a contribution leaves of its object -/

theorem bankSlot_fits {op r p : Nat} (h : r < p) : bankSlot op r + bankBytes op ≤ 64 + 64 * p := by
  rw [bankSlot, bankBytes]
  split <;> omega

theorem bankSlot_later (op r : Nat) : 8 ≤ bankSlot op r := by
  rw [bankSlot]
  omega

theorem bankBytes_le (op : Nat) : bankBytes op ≤ 48 := by
  rw [bankBytes]
  split <;> omega

theorem mem_bankWords {s : State} {obj m o : Nat} :
    o ∈ s.bankWords obj m ↔ ∃ j b, j < s.bankMembers obj ∧ b < bankBytes (s.bankOp obj m) / 8 ∧ o = bankSlot (s.bankOp obj m) j + 8 * b := by
  simp only [State.bankWords, List.mem_flatMap, List.mem_map, List.mem_range]
  constructor
  · rintro ⟨j, hj, b, hb, rfl⟩
    exact ⟨j, b, hj, hb, rfl⟩
  · rintro ⟨j, b, hj, hb, rfl⟩
    exact ⟨j, hj, b, hb, rfl⟩

section
variable {s : State} {sup : Bool} {obj m r v : Nat}

/-- A generation that stays open: one more has contributed, its operation stands in OP, its value in the rank's slot (R214). -/
theorem contribute_open (hm : m < 8) (lays : Claims.Lays s sup obj (64 + 64 * s.bankMembers obj)) (h : r < s.bankMembers obj) (new : r ∉ s.bankRanks obj)
    (more : s.bankArr obj + 1 < s.bankMembers obj) :
    ∃ t, s.contribute sup obj m r v = .wait t (bits (s.rd obj 8) 15 12) ∧ bits (t.rd obj 8) 31 16 = s.bankArr obj + 1 ∧ bits (t.rd obj 8) 11 8 = s.bankOp obj m ∧
      bits (t.rd obj 8) 15 12 = bits (s.rd obj 8) 15 12 ∧ (t.rd obj 8).testBit 2 = ((s.rd obj 8).testBit 2 || s.bankOp obj m != m) ∧
      t.rdObj sup (s.place sup obj (bankSlot (s.bankOp obj m) r)) (bankBytes (s.bankOp obj m)) = v % 2 ^ (8 * bankBytes (s.bankOp obj m)) ∧
      ∃ q, (obj, q) ∈ t.reds ∧ r ∈ q := by
  let head := setBits (s.bankHead obj m) 31 16 (s.bankArr obj + 1)
  let put := (s.bankPut obj m sup r v).wr obj 8 head
  have word : put.rd obj 8 = head % 2 ^ (8 * 8) := State.rd_wr ..
  have members := s.bankMembers_le obj
  refine ⟨_, contribute_wait h new more.ne, ?_, ?_, ?_, ?_, ?_, r :: s.bankRanks obj, List.mem_cons_self, List.mem_cons_self⟩
  · change bits (put.rd obj 8) 31 16 = _
    rw [word, bits_mod_two_pow _ (by decide), bits_setBits_same _ _ (by decide)]
    exact Nat.mod_eq_of_lt (by omega)
  · change bits (put.rd obj 8) 11 8 = _
    rw [word, bits_mod_two_pow _ (by decide), bits_setBits_other _ _ (by decide) (.inl (by decide)), s.bankHead_op obj hm]
  · change bits (put.rd obj 8) 15 12 = _
    rw [word, bits_mod_two_pow _ (by decide), bits_setBits_other _ _ (by decide) (.inl (by decide)), s.bankHead_gen]
  · change (put.rd obj 8).testBit 2 = _
    rw [word, Nat.testBit_mod_two_pow, testBit_setBits _ _ (by decide), if_neg (by decide), s.bankHead_mix]
    rfl
  · exact lays_read lays (bankSlot_fits h) (bankSlot_later _ r) v head

/-- The last contribution closes the generation: ARR is clear, GEN advances, RESULT holds what all come to (R214). -/
theorem contribute_closed (lays : Claims.Lays s sup obj (64 + 64 * s.bankMembers obj)) (h : r < s.bankMembers obj) (new : r ∉ s.bankRanks obj)
    (last : s.bankArr obj + 1 = s.bankMembers obj)
    (sound : ∀ j b, j < s.bankMembers obj → b < bankBytes (s.bankOp obj m) / 8 →
      (s.bankPut obj m sup r v).poisoned (s.place sup obj (bankSlot (s.bankOp obj m) j + 8 * b)) = false) :
    ∃ t, s.contribute sup obj m r v = .done t ∧ bits (t.rd obj 8) 31 16 = 0 ∧ bits (t.rd obj 8) 15 12 = (bits (s.rd obj 8) 15 12 + 1) % 16 ∧
      t.rdObj sup (s.place sup obj 8) (bankBytes (s.bankOp obj m)) = s.bankTotal obj m sup r v % 2 ^ (8 * bankBytes (s.bankOp obj m)) := by
  let head := setBits (setBits (s.bankHead obj m) 31 16 0) 15 12 (bits (s.rd obj 8) 15 12 + 1)
  let put := (s.bankResult obj m sup r v).wr obj 8 head
  have word : put.rd obj 8 = head % 2 ^ (8 * 8) := State.rd_wr ..
  have small := bankBytes_le (s.bankOp obj m)
  have clean : ((s.bankWords obj m).find? fun o => (s.bankPut obj m sup r v).poisoned (s.place sup obj o)) = none := by
    refine List.find?_eq_none.2 fun o ho => ?_
    obtain ⟨j, b, hj, hb, rfl⟩ := mem_bankWords.1 ho
    simpa using sound j b hj hb
  refine ⟨_, contribute_done h new last clean, ?_, ?_, ?_⟩
  · change bits (put.rd obj 8) 31 16 = _
    rw [word, bits_mod_two_pow _ (by decide), bits_setBits_other _ _ (by decide) (.inr (by decide)), bits_setBits_same _ _ (by decide), Nat.zero_mod]
  · change bits (put.rd obj 8) 15 12 = _
    rw [word, bits_mod_two_pow _ (by decide), bits_setBits_same _ _ (by decide)]
    rfl
  · have same : Claims.Lays (s.bankPut obj m sup r v) sup obj (64 + 64 * s.bankMembers obj) := lays
    exact lays_read same (off := 8) (by omega) le_rfl _ head

theorem contribute_poisoned (h : r < s.bankMembers obj) (new : r ∉ s.bankRanks obj) (last : s.bankArr obj + 1 = s.bankMembers obj) {j b : Nat} (hj : j < s.bankMembers obj)
    (hb : b < bankBytes (s.bankOp obj m) / 8) (bad : (s.bankPut obj m sup r v).poisoned (s.place sup obj (bankSlot (s.bankOp obj m) j + 8 * b)) = true) :
    ∃ o, s.contribute sup obj m r v = .poison o := by
  have found : ((s.bankWords obj m).find? fun o => (s.bankPut obj m sup r v).poisoned (s.place sup obj o)).isSome :=
    List.find?_isSome.2 ⟨_, mem_bankWords.2 ⟨j, b, hj, hb, rfl⟩, bad⟩
  obtain ⟨o, first⟩ := Option.isSome_iff_exists.1 found
  exact ⟨o, contribute_poison h new last first⟩
end

/-! #### A contribution changes no core -/

/-- The state that a contribution comes to, where it comes to one. -/
def BankStep.after (s : State) : BankStep → State
  | .badRank t | .wait t _ | .done t => t
  | .again | .poison _ => s

theorem contribute_cores (s : State) (sup : Bool) (obj m r v : Nat) : ((s.contribute sup obj m r v).after s).cores = s.cores := by
  rcases Nat.lt_or_ge r (s.bankMembers obj) with h | h
  · by_cases new : r ∈ s.bankRanks obj
    · rw [contribute_again h new]
      rfl
    · by_cases last : s.bankArr obj + 1 = s.bankMembers obj
      · cases bad : (s.bankWords obj m).find? fun o => (s.bankPut obj m sup r v).poisoned (s.place sup obj o) with
        | some o =>
          rw [contribute_poison h new last bad]
          rfl
        | none =>
          rw [contribute_done h new last bad]
          rfl
      · rw [contribute_wait h new last]
        rfl
  · rw [contribute_badRank h]
    rfl
end Sys2Proof.Machine
end

section
namespace Sys2Proof.Machine
open Sys2Proof

/-! ### How a BANKOP goes (R214) -/

section
variable {s t : State} {i : Nat}

theorem State.steady_checkBank {ea : Word} {obj : Nat} (h : s.checkBank i ea = .ok (obj, t)) : s.Steady t i := by
  rw [State.checkBank] at h
  split at h
  · cases h
  · split at h
    · cases h
    · split at h
      · cases h
      · cases h
      · split at h
        · cases h
        · cases h
        · split at h
          · cases h
          · obtain ⟨-, rfl⟩ := Prod.mk.inj (Except.ok.inj h)
            exact s.steady_keep i _

theorem State.Silent.wakeBanks (h : s.Silent i) : s.wakeBanks.Silent i := by
  obtain ⟨once, tx, ox⟩ := h
  have core : s.wakeBanks.core i = if (s.core i).bwait then { s.core i with stalled := false } else s.core i := once.core_mapCores rfl
  refine ⟨once.mapCores _, ?_, ?_⟩ <;> rw [core] <;> split <;> assumption

/-- The core has collected what it waited for. -/
def State.collected (s : State) (i obj : Nat) : State := (s.acquireAt i (bankScope obj)).modCore i fun c => { c with bwait := false, bgen := 0 }

theorem State.Silent.collected (h : s.Silent i) (obj : Nat) : (s.collected i obj).Silent i := by
  obtain ⟨once, tx, ox⟩ := h.steady (s.steady_acquireAt i (bankScope obj))
  refine ⟨once.setCore i _, ?_, ?_⟩ <;> rw [State.collected, State.core_modCore_same]
  · exact tx
  · exact ox

/-- RESULT in the form of its operation. -/
def bankForm (m x : Nat) : Nat := if m = 0 ∨ m = 3 ∨ m = 4 then x % 2 ^ 32 else x

theorem State.collect_ok {obj m : Nat} (ea : Word) (clean : ∀ j, j < bankBytes m / 8 → s.poisonSeen i (s.place (s.isSup i) obj (8 + 8 * j)) = false) :
    s.collect i obj m ea = .ok (bankForm m (Claims.obj s i (s.place (s.isSup i) obj 8) (bankBytes m)), s.collected i obj) := by
  have none : ((List.range (bankBytes m / 8)).find? fun j => s.poisonSeen i (s.place (s.isSup i) obj (8 + 8 * j))) = none :=
    List.find?_eq_none.2 fun j hj => by simpa using clean j (List.mem_range.1 hj)
  rw [State.collect, none]
  rfl

/-- A poisoned word of RESULT, the first of them, traps (R370). -/
theorem State.collect_poison {obj m n : Nat} (ea : Word) (hn : n < bankBytes m / 8) (clean : ∀ j, j < n → s.poisonSeen i (s.place (s.isSup i) obj (8 + 8 * j)) = false)
    (bad : s.poisonSeen i (s.place (s.isSup i) obj (8 + 8 * n)) = true) : s.collect i obj m ea = .error (.trap .memue (ea + BitVec.ofNat 64 (8 + 8 * n))) := by
  have first : ((List.range (bankBytes m / 8)).find? fun j => s.poisonSeen i (s.place (s.isSup i) obj (8 + 8 * j))) = some n := by
    rw [List.find?_range_eq_some]
    exact ⟨bad, List.mem_range.2 hn, fun j hj => by simpa using clean j hj⟩
  rw [State.collect, first]
end

/-- The end of a BANKOP with x: the operands are read again, and x is written. -/
def State.bankEnd (s : State) (k : Nat) (a b : Reg) (value : Core → M (Nat × Core)) (put : Nat → Core → Nat → M Core) (x : Nat) : M State := do
  let (_, c) ← (s.core k).readS a
  let (_, c) ← c.readS b
  let (_, c) ← value c
  let c ← put k c x
  .ok (s.setCore k c)

/-- What a BANKOP makes of its contribution. -/
def BankStep.answer (k obj m : Nat) (ea : Word) (a b : Reg) (value : Core → M (Nat × Core)) (put : Nat → Core → Nat → M Core) : BankStep → M State
  | .again => .error .stall
  | .poison o => .error (.trap .memue (ea + BitVec.ofNat 64 o))
  | .badRank s => s.bankEnd k a b value put (if m = 7 then 2 ^ 352 else 2 ^ 64 - 1)
  | .wait s g => .error (.wait (s.modCore k fun c => { c with bwait := true, bgen := g }))
  | .done s => do
    let (x, s) ← s.wakeBanks.collect k obj m ea
    s.bankEnd k a b value put x

section
variable {s : State} {i : Instr} {m : Nat} {a b : Reg} {value : Core → M (Nat × Core)} {put : Nat → Core → Nat → M Core} {ea r : Word} {v obj : Nat} {c1 c2 c3 : Core}
  (ra : s.me.readS a = .ok (ea, c1)) (rb : c1.readS b = .ok (r, c2)) (rv : value c2 = .ok (v, c3))
include ra rb rv

/-- A resumed BANKOP collects, once the generation it waits for is over. -/
theorem bankop_resumes (waits : s.me.bwait = true) (reach : s.start.reach s.cur ea.toNat = some obj) :
    ∃ body, bankop i m a b value put s = runSeq i body s ∧ body s.cur s.start = (do
      stallUnless (bits (s.rd obj 8) 15 12 != s.me.bgen)
      let (x, t) ← s.start.collect s.cur obj m ea
      t.bankEnd s.cur a b value put x) := by
  have operands : c2 = { s.me with bank := c2.bank } := bank_trans (Core.readS_bank ra) (Core.readS_bank rb)
  have bwait : c2.bwait = true := (congrArg Core.bwait operands :).trans waits
  have bgen : c2.bgen = s.me.bgen := (congrArg Core.bgen operands :)
  refine ⟨_, rfl, ?_⟩
  simp only [State.start_core, ra, rb, rv, bwait, if_true, reach, bgen, Bind.bind, Except.bind]
  rfl

variable {s1 : State} (fresh : s.me.bwait = false) (chk : s.start.checkBank s.cur ea = .ok (obj, s1))
include fresh chk

/-- A first one enters its home after its checks and its release, and contributes. -/
theorem bankop_contributes : ∃ body, bankop i m a b value put s = runSeq i body s ∧ body s.cur s.start = (do
      let t ← s1.release s.cur (bankScope obj)
      stallUnless (!t.heldAt obj)
      let t ← t.enterHome s.cur obj
      let t ← t.settle s.cur obj 64
      (t.contribute (t.isSup s.cur) obj m r.toNat v).answer s.cur obj m ea a b value put) := by
  have operands : c2 = { s.me with bank := c2.bank } := bank_trans (Core.readS_bank ra) (Core.readS_bank rb)
  have bwait : c2.bwait = false := (congrArg Core.bwait operands :).trans fresh
  refine ⟨_, rfl, ?_⟩
  simp only [State.start_core, ra, rb, rv, bwait, Bool.false_eq_true, if_false, chk, Bind.bind, Except.bind]
  rfl

/-- Without its release, or at a page under migration, it waits (R187, R350). -/
theorem bankop_held (blocked : s1.released s.cur (bankScope obj) = false ∨ s1.heldAt obj = true) (h : s.Legal i) : bankop i m a b value put s = .next s.waits := by
  obtain ⟨body, run, steps⟩ := bankop_contributes (i := i) (m := m) (put := put) ra rb rv fresh chk
  refine run.trans (runSeq_stall h (steps.trans ?_))
  cases early : s1.released s.cur (bankScope obj) with
  | false =>
    have stalls : s1.release s.cur (bankScope obj) = .error .stall := State.releaseIf_stall early
    rw [stalls]
    rfl
  | true =>
    have held : (s1.publish s.cur (bankScope obj)).heldAt obj = true := by
      rw [State.heldAt, State.publish_holds]
      exact blocked.resolve_left (by simp [early])
    rw [State.release_ok.2 ⟨early, rfl⟩]
    simp only [held, Bool.not_true, stallUnless_false, Bind.bind, Except.bind]

variable {s2 s3 : State} (done : s1.released s.cur (bankScope obj) = true) (free : s1.heldAt obj = false)
  (enter : (s1.publish s.cur (bankScope obj)).enterHome s.cur obj = .ok s2) (settled : s2.settle s.cur obj 64 = .ok s3)
include done free enter settled

/-- At its home it contributes. -/
theorem bankop_answers : ∃ body, bankop i m a b value put s = runSeq i body s ∧
    body s.cur s.start = (s3.contribute (s3.isSup s.cur) obj m r.toNat v).answer s.cur obj m ea a b value put := by
  obtain ⟨body, run, steps⟩ := bankop_contributes (i := i) (m := m) (put := put) ra rb rv fresh chk
  refine ⟨body, run, steps.trans ?_⟩
  have held : (s1.publish s.cur (bankScope obj)).heldAt obj = false := by rwa [State.heldAt, State.publish_holds]
  rw [State.release_ok.2 ⟨done, rfl⟩]
  simp only [held, Bool.not_false, stallUnless_true, enter, settled, Bind.bind, Except.bind]

omit ra rb rv fresh done free in
theorem bank_silent : s3.Silent s.cur :=
  (((s.start_silent.steady (State.steady_checkBank chk)).steady (s1.steady_publish s.cur _)).steady (State.steady_enterHome enter)).steady (State.steady_settle settled)

/-- A rank that has contributed waits. -/
theorem bankop_again (h : s.Legal i) (step : s3.contribute (s3.isSup s.cur) obj m r.toNat v = .again) : bankop i m a b value put s = .next s.waits := by
  obtain ⟨body, run, steps⟩ := bankop_answers (i := i) (m := m) (put := put) ra rb rv fresh chk done free enter settled
  rw [step] at steps
  exact run.trans (runSeq_stall h steps)

/-- A poisoned contribution traps (R370). -/
theorem bankop_poisoned {o : Nat} (h : s.Legal i) (step : s3.contribute (s3.isSup s.cur) obj m r.toNat v = .poison o) :
    bankop i m a b value put s = .next (s.traps i .memue (ea + BitVec.ofNat 64 o)) := by
  obtain ⟨body, run, steps⟩ := bankop_answers (i := i) (m := m) (put := put) ra rb rv fresh chk done free enter settled
  rw [step] at steps
  exact run.trans (runSeq_traps h steps)

/-- In an open generation its contribution stands, and the core waits. -/
theorem bankop_open {t : State} {g : Nat} (h : s.Legal i) (step : s3.contribute (s3.isSup s.cur) obj m r.toNat v = .wait t g) :
    bankop i m a b value put s = .next (t.modCore s.cur fun c => { c with bwait := true, bgen := g, stalled := true }) := by
  obtain ⟨body, run, steps⟩ := bankop_answers (i := i) (m := m) (put := put) ra rb rv fresh chk done free enter settled
  rw [step] at steps
  refine run.trans ((runSeq_wait h steps).trans ?_)
  rw [State.modCore, State.core_modCore_same, State.modCore, State.setCore_setCore]
  rfl

/-- A rank beyond the last is answered at once. -/
theorem bankop_badRank {t : State} (step : s3.contribute (s3.isSup s.cur) obj m r.toNat v = .badRank t) : t.Silent s.cur ∧
    ∃ body, bankop i m a b value put s = runSeq i body s ∧ body s.cur s.start = t.bankEnd s.cur a b value put (if m = 7 then 2 ^ 352 else 2 ^ 64 - 1) := by
  obtain ⟨body, run, steps⟩ := bankop_answers (i := i) (m := m) (put := put) ra rb rv fresh chk done free enter settled
  have cores := contribute_cores s3 (s3.isSup s.cur) obj m r.toNat v
  rw [step] at steps cores
  exact ⟨(bank_silent chk enter settled).of_cores cores, body, run, steps⟩

/-- The last one wakes those that wait, and collects. -/
theorem bankop_last {t : State} (step : s3.contribute (s3.isSup s.cur) obj m r.toNat v = .done t) : t.wakeBanks.Silent s.cur ∧
    ∃ body, bankop i m a b value put s = runSeq i body s ∧ body s.cur s.start = (do
      let (x, u) ← t.wakeBanks.collect s.cur obj m ea
      u.bankEnd s.cur a b value put x) := by
  obtain ⟨body, run, steps⟩ := bankop_answers (i := i) (m := m) (put := put) ra rb rv fresh chk done free enter settled
  have cores := contribute_cores s3 (s3.isSup s.cur) obj m r.toNat v
  rw [step] at steps cores
  exact ⟨((bank_silent chk enter settled).of_cores cores).wakeBanks, body, run, steps⟩
end

/-! #### The forms of BANKOP -/

/-- The core c after it has read the operands of a BANKOP again. -/
def Core.BankReread (c : Core) (a b : Reg) (value : Core → M (Nat × Core)) (c' : Core) : Prop :=
  ∃ y1 y2 e1 e2 x, c.readS a = .ok (y1, e1) ∧ e1.readS b = .ok (y2, e2) ∧ value e2 = .ok (x, c')

theorem State.bankEnd_ok {u : State} {k : Nat} {a b : Reg} {value : Core → M (Nat × Core)} {put : Nat → Core → Nat → M Core} {x : Nat} {c c' : Core}
    (again : (u.core k).BankReread a b value c) (h : put k c x = .ok c') : u.bankEnd k a b value put x = .ok (u.setCore k c') := by
  obtain ⟨y1, y2, e1, e2, x', ra, rb, rv⟩ := again
  simp only [State.bankEnd, ra, rb, rv, h, Bind.bind, Except.bind]

/-- A scalar form of the table reads its contribution in the form's width, and gives its result in that of its operation. -/
theorem exec_bankTable {p : (Reg → Reg → Reg → Reg → Instr) × Nat × Nat} (hp : p ∈ Claims.bankTable) :
    ∃ value : Reg → Core → M (Nat × Core), (∀ d a b e s, exec (p.1 d a b e) s = bankop (p.1 d a b e) p.2.1 a b (value e) (bankPutS d) s) ∧
      (∀ e c x c', c.readS e = .ok (x, c') → value e c = .ok (x.toNat % 2 ^ p.2.2, c')) ∧ p.2.1 ≠ 7 ∧ ∀ x, bankForm p.2.1 x = if p.2.2 = 32 then x % 2 ^ 32 else x := by
  have whole (e : Reg) (c : Core) (x : Word) (c' : Core) (h : c.readS e = .ok (x, c')) : bankS e c = .ok (x.toNat % 2 ^ 64, c') := by
    rw [Nat.mod_eq_of_lt x.isLt]
    simp only [bankS, h, Bind.bind, Except.bind]
  have low (e : Reg) (c : Core) (x : Word) (c' : Core) (h : c.readS e = .ok (x, c')) : bankS32 e c = .ok (x.toNat % 2 ^ 32, c') := by
    simp only [bankS32, h, Bind.bind, Except.bind]
  simp only [Claims.bankTable, List.mem_cons, List.not_mem_nil, or_false] at hp
  rcases hp with rfl | rfl | rfl | rfl | rfl | rfl | rfl
  · exact ⟨bankS32, fun _ _ _ _ _ => rfl, low, by decide, fun _ => rfl⟩
  · exact ⟨bankS, fun _ _ _ _ _ => rfl, whole, by decide, fun _ => rfl⟩
  · exact ⟨bankS, fun _ _ _ _ _ => rfl, whole, by decide, fun _ => rfl⟩
  · exact ⟨bankS32, fun _ _ _ _ _ => rfl, low, by decide, fun _ => rfl⟩
  · exact ⟨bankS32, fun _ _ _ _ _ => rfl, low, by decide, fun _ => rfl⟩
  · exact ⟨bankS, fun _ _ _ _ _ => rfl, whole, by decide, fun _ => rfl⟩
  · exact ⟨bankS, fun _ _ _ _ _ => rfl, whole, by decide, fun _ => rfl⟩

section
variable {s u : State} {i : Instr} {a b d e : Reg} {value : Core → M (Nat × Core)} {body : Nat → State → M State} {x : Nat} {y1 y2 y3 : Word} {e1 e2 c4 c5 : Core}
  (h : s.Legal i) (silent : u.Silent s.cur) (ra : (u.core s.cur).readS a = .ok (y1, e1)) (rb : e1.readS b = .ok (y2, e2))
include h silent ra rb

/-- A scalar form ends as it writes s[D]. -/
theorem bank_ends_scalar (re : e2.readS e = .ok (y3, c4)) (reads : ∀ c x c', c.readS e = .ok (x, c') → ∃ v, value c = .ok (v, c')) (hd : d.toNat < 56)
    (steps : body s.cur s.start = u.bankEnd s.cur a b value (bankPutS d) x) :
    runSeq i body s = .next (s.doneIn (u.setCore s.cur (c4.writeS d.toNat (BitVec.ofNat 64 x))) i) := by
  obtain ⟨-, tx, ox⟩ := silent
  obtain ⟨v, rv⟩ := reads _ _ _ re
  have operands := bank_trans (bank_trans (Core.readS_bank ra) (Core.readS_bank rb)) (Core.readS_bank re)
  refine runSeq_ok h (steps.trans (State.bankEnd_ok ⟨y1, y2, e1, e2, v, ra, rb, rv⟩ (Core.putS_reg _ hd))) ?_ ?_
  · rw [State.core_setCore_same, Core.writeS_txq]
    exact (congrArg Core.txq operands :).trans tx
  · rw [State.core_setCore_same, Core.writeS_outq]
    exact (congrArg Core.outq operands :).trans ox

/-- BANKOP.ws ends as it writes v[D], or pushes it. -/
theorem bank_ends_vector {y : Vec} (re : e2.readV e = .ok (y, c4)) (reads : ∀ c x c', c.readV e = .ok (x, c') → ∃ v, value c = .ok (v, c'))
    (put : c4.putV d (BitVec.ofNat 512 x) allBytes false = .ok c5)
    (steps : body s.cur s.start = u.bankEnd s.cur a b value (fun _ c x => c.putV d (BitVec.ofNat 512 x) allBytes false) x) :
    runSeq i body s = .next (s.doneIn ((u.setCore s.cur c5).pushOut s.cur) i) := by
  obtain ⟨-, tx, -⟩ := silent
  obtain ⟨v, rv⟩ := reads _ _ _ re
  have operands := bank_trans (Core.readS_bank ra) (Core.readS_bank rb)
  refine runSeq_out h (steps.trans (State.bankEnd_ok ⟨y1, y2, e1, e2, v, ra, rb, rv⟩ put)) ?_
  rw [State.core_setCore_same, Core.putV_txq put, Core.readV_txq re]
  exact (congrArg Core.txq operands :).trans tx
end
end Sys2Proof.Machine
end

section
namespace Sys2Proof.Machine
open Sys2Proof

/-! ### Every form of BANKOP (R214, R370) -/

/-- BANKOP.ws reads a cell. -/
def bankCell (e : Reg) (c : Core) : M (Nat × Core) := do
  let (x, c) ← c.readV e
  .ok (x.toNat % 2 ^ 384, c)

theorem bankCell_ok {e : Reg} {c c' : Core} {x : Vec} (h : c.readV e = .ok (x, c')) : bankCell e c = .ok (x.toNat % 2 ^ 384, c') := by
  simp only [bankCell, h, Bind.bind, Except.bind]

theorem exec_bankopWs (d a b e : Reg) (s : State) :
    exec (.bankopWs d a b e) s = bankop (.bankopWs d a b e) 7 a b (bankCell e) (fun _ c x => c.putV d (BitVec.ofNat 512 x) allBytes false) s := rfl

section
variable {t : State} {k obj m : Nat} {ea : Word} {a b : Reg} {value : Core → M (Nat × Core)} {put : Nat → Core → Nat → M Core}

/-- A sound result is collected, and the instruction ends with it. -/
theorem collect_ends (clean : ∀ j, j < bankBytes m / 8 → t.poisonSeen k (t.place (t.isSup k) obj (8 + 8 * j)) = false) :
    (do let (x, u) ← t.collect k obj m ea; u.bankEnd k a b value put x) =
      (t.collected k obj).bankEnd k a b value put (bankForm m (Claims.obj t k (t.place (t.isSup k) obj 8) (bankBytes m))) := by
  simp only [State.collect_ok ea clean, Bind.bind, Except.bind]

theorem collect_traps {n : Nat} (hn : n < bankBytes m / 8) (clean : ∀ j, j < n → t.poisonSeen k (t.place (t.isSup k) obj (8 + 8 * j)) = false)
    (bad : t.poisonSeen k (t.place (t.isSup k) obj (8 + 8 * n)) = true) :
    (do let (x, u) ← t.collect k obj m ea; u.bankEnd k a b value put x) = .error (.trap .memue (ea + BitVec.ofNat 64 (8 + 8 * n))) := by
  simp only [State.collect_poison ea hn clean bad, Bind.bind, Except.bind]
end

section
variable {s : State} {i : Instr} {m : Nat} {a b : Reg} {value : Core → M (Nat × Core)} {put : Nat → Core → Nat → M Core} {ea r : Word} {v obj : Nat} {c1 c2 c3 : Core}
  (ra : s.me.readS a = .ok (ea, c1)) (rb : c1.readS b = .ok (r, c2)) (rv : value c2 = .ok (v, c3)) (waits : s.me.bwait = true)
  (reach : s.start.reach s.cur ea.toNat = some obj)
include ra rb rv waits reach

/-- A resumed BANKOP whose generation is not over waits on. -/
theorem bankop_early (h : s.Legal i) (early : bits (s.rd obj 8) 15 12 = s.me.bgen) : bankop i m a b value put s = .next s.waits := by
  obtain ⟨body, run, steps⟩ := bankop_resumes (i := i) (m := m) (put := put) ra rb rv waits reach
  refine run.trans (runSeq_stall h (steps.trans ?_))
  simp only [early, bne_self_eq_false, stallUnless_false, Bind.bind, Except.bind]

theorem bankop_past (past : bits (s.rd obj 8) 15 12 ≠ s.me.bgen) : ∃ body, bankop i m a b value put s = runSeq i body s ∧
    body s.cur s.start = (do
      let (x, t) ← s.start.collect s.cur obj m ea
      t.bankEnd s.cur a b value put x) := by
  obtain ⟨body, run, steps⟩ := bankop_resumes (i := i) (m := m) (put := put) ra rb rv waits reach
  refine ⟨body, run, steps.trans ?_⟩
  simp only [bne_iff_ne.2 past, stallUnless_true, Bind.bind, Except.bind]
end

/-- Settles O30: the header's fields by the rules for fields of numbers, and each form of BANKOP through one body that answers what the contribution came to. -/
theorem bankopResult : Obligations.BankopResult := by
  refine ⟨?_, ?_, ?_⟩
  · intro s sup obj m r v hm w p arr ranks op at_ s'
    refine ⟨contribute_badRank, fun h twice => contribute_again h twice, fun lays h new more => contribute_open hm lays h new more, fun lays h new last sound => ?_, ?_⟩
    · exact contribute_closed lays h new last sound
    · exact fun j b h new last hj hb bad => contribute_poisoned h new last hj hb bad
  · intro p hp s d a b e ea r v c1 c2 c3 c4 i h ra rb rv hd result
    obtain ⟨value, run, reads, scalar, form⟩ := exec_bankTable hp
    have rv' := reads e _ _ _ rv
    have bytes : bankBytes p.2.1 = 8 := if_neg scalar
    have again : ∀ c x c', c.readS e = .ok (x, c') → ∃ v, value e c = .ok (v, c') := fun c x c' h => ⟨_, reads e c x c' h⟩
    have exec_eq : exec i s = bankop i p.2.1 a b (value e) (bankPutS d) s := run d a b e s
    have one {t : State} {obj : Nat} {q : Bool} (sound : t.poisonSeen s.cur (t.place (t.isSup s.cur) obj 8) = q) : ∀ j, j < bankBytes p.2.1 / 8 →
        t.poisonSeen s.cur (t.place (t.isSup s.cur) obj (8 + 8 * j)) = q := by
      intro j hj
      rw [bytes] at hj
      obtain rfl : j = 0 := by omega
      exact sound
    rw [exec_eq]
    refine ⟨fun obj s1 s2 s3 fresh chk => ⟨fun blocked => bankop_held ra rb rv' fresh chk blocked h, fun done free enter settled => ?_⟩,
      fun obj y1 y2 y3 e1 e2 waits reach => ?_⟩
    · intro step out
      refine ⟨fun t y1 y2 y3 e1 e2 bad ra2 rb2 re2 => ?_, fun t y1 y2 y3 e1 e2 last sound => ?_, fun o bad => bankop_poisoned ra rb rv' fresh chk done free enter settled h bad,
        fun twice => bankop_again ra rb rv' fresh chk done free enter settled h twice, fun t g more => bankop_open ra rb rv' fresh chk done free enter settled h more⟩
      · obtain ⟨silent, body, run, steps⟩ := bankop_badRank (i := i) (put := bankPutS d) ra rb rv' fresh chk done free enter settled bad
        rw [if_neg scalar] at steps
        exact run.trans (bank_ends_scalar h silent ra2 rb2 re2 again hd steps)
      · intro u ra2 rb2 re2
        obtain ⟨silent, body, run, steps⟩ := bankop_last (i := i) (put := bankPutS d) ra rb rv' fresh chk done free enter settled last
        have ends := bank_ends_scalar h (silent.collected obj) ra2 rb2 re2 again hd (steps.trans (collect_ends (one sound)))
        rw [form, bytes] at ends
        exact run.trans ends
    · intro out
      refine ⟨fun early => bankop_early ra rb rv' waits reach h early, fun past bad => ?_, fun past sound => ?_⟩
      · obtain ⟨body, run, steps⟩ := bankop_past (i := i) (m := p.2.1) (put := bankPutS d) ra rb rv' waits reach past
        exact run.trans (runSeq_traps h (steps.trans (collect_traps (n := 0) (by rw [bytes]; decide) nofun bad)))
      · intro u ra2 rb2 re2
        obtain ⟨body, run, steps⟩ := bankop_past (i := i) (m := p.2.1) (put := bankPutS d) ra rb rv' waits reach past
        have ends := bank_ends_scalar h (s.start_silent.collected obj) ra2 rb2 re2 again hd (steps.trans (collect_ends (one sound)))
        rw [form, bytes] at ends
        exact run.trans ends
  · intro s d a b e ea r v c1 c2 c3 c4 c5 i h ra rb rv out clean ends collects
    have rv' := bankCell_ok rv
    have again : ∀ c x c', c.readV e = .ok (x, c') → ∃ v, bankCell e c = .ok (v, c') := fun c x c' h => ⟨_, bankCell_ok h⟩
    have exec_eq : exec i s = bankop i 7 a b (bankCell e) (fun _ c x => c.putV d (BitVec.ofNat 512 x) allBytes false) s := exec_bankopWs d a b e s
    have gathers {obj : Nat} {t : State} {body : Nat → State → M State} (silent : t.Silent s.cur) (run : exec i s = runSeq i body s)
        (steps : body s.cur s.start = (do
          let (x, u) ← t.collect s.cur obj 7 ea
          u.bankEnd s.cur a b (bankCell e) (fun _ c x => c.putV d (BitVec.ofNat 512 x) allBytes false) x)) : collects obj t := by
      refine ⟨fun sound y1 y2 y3 e1 e2 ra2 rb2 re2 put => ?_, fun n hn before bad => ?_⟩
      · exact run.trans (bank_ends_vector h (silent.collected obj) ra2 rb2 re2 again put (steps.trans (collect_ends sound)))
      · exact run.trans (runSeq_traps h (steps.trans (collect_traps hn before bad)))
    refine ⟨fun obj s1 s2 s3 fresh chk => ⟨fun blocked => exec_eq.trans (bankop_held ra rb rv' fresh chk blocked h), fun done free enter settled => ?_⟩,
      fun obj waits reach => ⟨fun early => ?_, fun past => ?_⟩⟩
    · intro step
      refine ⟨fun t bad y1 y2 y3 e1 e2 ra2 rb2 re2 put => ?_, fun t last => ?_, fun o bad => exec_eq.trans (bankop_poisoned ra rb rv' fresh chk done free enter settled h bad),
        fun twice => exec_eq.trans (bankop_again ra rb rv' fresh chk done free enter settled h twice),
        fun t g more => exec_eq.trans (bankop_open ra rb rv' fresh chk done free enter settled h more)⟩
      · obtain ⟨silent, body, run, steps⟩ := bankop_badRank (i := i) ra rb rv' fresh chk done free enter settled bad
        exact (exec_eq.trans run).trans (bank_ends_vector h silent ra2 rb2 re2 again put steps)
      · obtain ⟨silent, body, run, steps⟩ := bankop_last (i := i) ra rb rv' fresh chk done free enter settled last
        exact gathers silent (exec_eq.trans run) steps
    · exact exec_eq.trans (bankop_early ra rb rv' waits reach h early)
    · obtain ⟨body, run, steps⟩ := bankop_past (i := i) (m := 7) ra rb rv' waits reach past
      exact gathers s.start_silent (exec_eq.trans run) steps
end Sys2Proof.Machine
end

section
namespace Sys2Proof.Machine
open Sys2Proof

/-! ### Posting a command of the copy class (R199, R202, R237, R240) -/

/-- The plain loads of a snapshot leave translations and copies of lines (R240). -/
theorem State.aside_snapshot {s t : State} {i n al : Nat} {va : Word} {b : List Byte} (h : s.snapshot i va n al = .ok (b, t)) : s.Aside t i := by
  obtain ⟨⟨ps, s1⟩, checked, h⟩ := bind_eq_ok.1 h
  obtain ⟨⟨xs, s2⟩, loaded, h⟩ := bind_eq_ok.1 h
  obtain ⟨-, rfl⟩ := Prod.mk.inj (Except.ok.inj h)
  exact ((State.aside_checkLanes checked).trans (State.aside_loadLanes loaded)).trans (State.aside_watch ..)

/-- So do those of a repartition's block and member table (R266). -/
theorem State.aside_readBlock {s t : State} {k : Nat} {a : Word} {b : List Byte} (h : readBlock k s a = .ok (b, t)) : s.Aside t k := by
  obtain ⟨⟨b, s0⟩, block, h⟩ := bind_eq_ok.1 h
  obtain ⟨⟨ps, s1⟩, checked, h⟩ := bind_eq_ok.1 h
  obtain ⟨⟨xs, s2⟩, loaded, h⟩ := bind_eq_ok.1 h
  obtain ⟨-, rfl⟩ := Prod.mk.inj (Except.ok.inj h)
  exact (((State.aside_snapshot block).trans (State.aside_checkLanes checked)).trans (State.aside_loadLanes loaded)).trans (State.aside_watch ..)

/-- A packet in the local store window is its head and, behind it, its steps (R261). -/
theorem readPacket_ok {s t u : State} {k o : Nat} {a : Word} {h b : List Byte} (window : windowOf a.toNat = some (true, o)) (head : s.snapshot k a 32 16 = .ok (h, t))
    (steps : t.snapshot k (a + 32) (16 * (bits (ofBytes (h.take 8)) 34 32 + 1)) 16 = .ok (b, u)) : readPacket k s a = .ok (h ++ b, u) := by
  have count : snapWord h 0 = ofBytes (h.take 8) := rfl
  simp only [readPacket, window, Bool.not_true, trapIf, Bool.false_eq_true, reduceIte, head, count, steps, bind, Except.bind]

theorem readPacket_prot {s : State} {k : Nat} {a : Word} (window : ∀ o, windowOf a.toNat ≠ some (true, o)) : readPacket k s a = .error (.trap .prot a) := by
  simp only [readPacket, Bool.not_false, trapIf, reduceIte, bind, Except.bind]
  trace_state

/-- What a posting instruction reads beside its address: the value of a CFLAG (R253). -/
def readValue (val : Option Reg) (c : Core) : M (Word × Core) :=
  match val with
  | some b => c.readS b
  | none => .ok (0, c)

theorem readValue_bank {val : Option Reg} {c c' : Core} {y : Word} (h : readValue val c = .ok (y, c')) : c' = { c with bank := c'.bank } := by
  cases val with
  | some b => exact Core.readS_bank h
  | none =>
    obtain ⟨-, rfl⟩ := Prod.mk.inj (Except.ok.inj h)
    rfl

/-- The core counts one completion interrupt more, where the command asks for one (R237). -/
def Core.asksUci (c : Core) (uci : Bool) : Core := if uci then { c with bank := { c.bank with uciOut := c.bank.uciOut + 1 } } else c

theorem Core.asksUci_tl (c : Core) (uci : Bool) : (c.asksUci uci).tl = c.tl := by cases uci <;> rfl

/-- The core as a command is posted: its timeline has issued a number. -/
theorem State.core_post (u : State) (k tl : Nat) (kind : CmdKind) (a v z : Word) (snap : List Byte) (rel uci : Bool) :
    (u.post k tl kind a v z snap rel uci).2.core k = ((u.core k).setTl tl ((u.core k).tl tl).issue.2).asksUci uci := State.core_setCore_same ..

/-- The core q that has posted, its number x in s[d]: its timeline tl now q'. -/
def Core.posted (q : Core) (tl : Nat) (q' : Timeline) (uci : Bool) (d : Nat) (x : Word) : Core := ((q.setTl tl q').asksUci uci).writeS d x

section
variable (q : Core) (tl : Nat) (q' : Timeline) (uci : Bool) (d : Nat) (x : Word)

theorem Core.posted_bank : (q.posted tl q' uci d x).bank = ((q.setTl tl q').asksUci uci).bank := (congrArg Core.bank (Core.writeS_kept ..) :)

theorem Core.posted_kept : q.posted tl q' uci d x = { q with s := (q.posted tl q' uci d x).s, poison := (q.posted tl q' uci d x).poison
                                                             late := (q.posted tl q' uci d x).late, bank := (q.posted tl q' uci d x).bank } := by
  rw [Core.posted_bank]
  cases uci <;> exact Core.writeS_kept ..

theorem Core.posted_tl : (q.posted tl q' uci d x).tl tl = q' := by
  rw [Core.tl_congr (congrArg Bank.tls (Core.posted_bank ..)), Core.asksUci_tl]
  exact SMap.get_set_same ..
end

section
variable {s u : State} {c : Core} (o : s.Issuing c u) {i : Instr} {body : Nat → State → M State} {d : Reg} {tl : Nat} {kind : CmdKind} {a v z : Word} {snap : List Byte}
  {rel uci : Bool} (run : exec i s = runSeq i body s) (h : s.Legal i)
include o

theorem State.Issuing.posted_regs (q' : Timeline) (x : Word) : Claims.RegsBut c ((u.core s.cur).posted tl q' uci d.toNat x) d.toNat := by
  refine regsBut_writeS ?_ _
  cases uci <;> exact o.offRegs.regsBut _

include run h

/-- An instruction whose body posts a command and writes its number into s[d] posts. -/
theorem posts_command
    (b : body s.cur s.start = .ok ((u.post s.cur tl kind a v z snap rel uci).2.setCore s.cur
      (((u.post s.cur tl kind a v z snap rel uci).2.core s.cur).writeS d.toNat (BitVec.ofNat 64 (u.post s.cur tl kind a v z snap rel uci).1)))) :
    Claims.Posts s i c d tl kind a v z snap rel uci fun _ => True := by
  let p := u.post s.cur tl kind a v z snap rel uci
  let t : State := p.2.setCore s.cur ((p.2.core s.cur).writeS d.toNat (BitVec.ofNat 64 p.1))
  let w : Core := (u.core s.cur).posted tl (c.tl tl).issue.2 uci d.toNat (BitVec.ofNat 64 (c.tl tl).issue.1)
  have number : p.1 = (c.tl tl).issue.1 := congrArg (·.issue.1) (o.tl_eq tl)
  have core : t.core s.cur = w := by
    rw [State.core_setCore_same, number, State.core_post, o.tl_eq]
    rfl
  have kept := Core.posted_kept (u.core s.cur) tl (c.tl tl).issue.2 uci d.toNat (BitVec.ofNat 64 (c.tl tl).issue.1)
  have off := o.offRegs
  have me := o.operands
  have txq : w.txq = [] := (congrArg Core.txq kept :).trans (off.txq_eq.trans (congrArg Core.txq me :))
  have outq : w.outq = [] := (congrArg Core.outq kept :).trans (off.outq_eq.trans (congrArg Core.outq me :))
  have pc : w.pc = (s.core s.cur).pc := (congrArg Core.pc kept :).trans (off.pc_eq.trans (congrArg Core.pc me :))
  have slot : w.slot = (s.core s.cur).slot := (congrArg Core.slot kept :).trans (off.slot_eq.trans (congrArg Core.slot me :))
  have done : (s.doneIn t i).core s.cur = ({ w with txq := [] } : Core).advance i.len := by rw [State.doneIn_core, core]
  refine ⟨s.doneIn t i, _, run.trans (runSeq_ok h b (by rw [core, txq]) (by rw [core, outq])), congrArg (· ++ [_]) o.kept.cmds_eq, rfl, rfl, rfl, number, rfl, o.coord_eq,
    rfl, rfl, rfl, rfl, rfl, rfl, rfl, ?_, fun hd => ?_, ?_, ?_, o.kept.mem_eq, trivial⟩
  · rw [done, Core.advance_kept]
    exact Core.posted_tl ..
  · rw [done, Core.advance_sreg]
    exact (Core.writeS_sreg_same _ _ _ (by simpa [← BitVec.toNat_inj] using hd)).trans (congrArg (BitVec.ofNat 64) number.symm)
  · rw [done]
    exact regsBut_advance (o.posted_regs _ _) _
  · rw [done]
    exact Core.passed_advance (c := { w with txq := [] }) pc slot _
end

/-- Room for one more command of the copy class, as the instruction asks for it (R202, R237). -/
theorem copyRoom_iff (c : Core) (op : PostOp) : (decide (c.copies < 32) && (!op.uci || c.uciRoom)) = true ↔ Claims.CopyRoom c op := by
  rw [Bool.and_eq_true, decide_eq_true_iff]
  refine and_congr Iff.rfl ?_
  cases op.uci <;> simp [Core.uciRoom]

section
variable {s : State} {i : Instr} {op : PostOp} {kind : CmdKind} {tl : Nat} {val : Option Reg} {read : Nat → State → Word → M (List Byte × State)} {x y : Word} {c1 c : Core}
  (run : exec i s = postCopy i op kind tl val read s) (ra : s.me.readS op.a = .ok (x, c1)) (rv : readValue val c1 = .ok (y, c))
include run ra rv

/-- A posting instruction that has read its operands asks for room, reads its snapshot, and posts. -/
theorem exec_postCopy : ∃ body, exec i s = runSeq i body s ∧ body s.cur s.start = (do
    stallUnless (decide (c.copies < 32) && (!op.uci || c.uciRoom))
    let (snap, u) ← read s.cur (s.setCore s.cur c) x
    let (n, u) := u.post s.cur tl kind x y 0 snap op.release op.uci
    let w ← (u.core s.cur).putS s.cur op.d (BitVec.ofNat 64 n)
    .ok (u.setCore s.cur w)) := by
  refine ⟨_, run, ?_⟩
  cases val with
  | some b =>
    have rv : c1.readS b = .ok (y, c) := rv
    simp only [State.start_core, State.start_setCore, ra, rv, bind, Except.bind]
  | none =>
    obtain ⟨rfl, rfl⟩ := Prod.mk.inj (Except.ok.inj rv)
    simp only [State.start_core, State.start_setCore, ra, bind, Except.bind]

variable (legal : s.Legal i)
include legal

theorem postCopy_waits (full : ¬ Claims.CopyRoom c op) : exec i s = .next s.waits := by
  obtain ⟨body, run, steps⟩ := exec_postCopy run ra rv
  refine run.trans (runSeq_stall legal (steps.trans ?_))
  rw [stallUnless_false (Bool.eq_false_iff.2 (mt (copyRoom_iff c op).1 full))]
  rfl

variable (room : Claims.CopyRoom c op)
include room

theorem postCopy_traps {q : Cause} {v : Word} (stop : read s.cur (s.setCore s.cur c) x = .error (.trap q v)) : exec i s = .next (s.traps i q v) := by
  obtain ⟨body, run, steps⟩ := exec_postCopy run ra rv
  refine run.trans (runSeq_traps legal (steps.trans ?_))
  rw [stallUnless_true ((copyRoom_iff c op).2 room), stop]
  rfl

theorem postCopy_posts (hd : op.d.toNat < 56) {b : List Byte} {u : State} (got : read s.cur (s.setCore s.cur c) x = .ok (b, u)) (aside : (s.setCore s.cur c).Aside u s.cur) :
    Claims.Posts s i c op.d tl kind x y 0 b op.release op.uci fun _ => True := by
  obtain ⟨body, run, steps⟩ := exec_postCopy run ra rv
  refine posts_command ⟨bank_trans (Core.readS_bank ra) (readValue_bank rv), aside⟩ run legal (steps.trans ?_)
  simp only [stallUnless_true ((copyRoom_iff c op).2 room), got, bind, Except.bind, Core.putS_reg _ hd]
end

/-- CPY and the forms of CRED read a descriptor and post on tl0 (R240, R251). -/
theorem exec_copyTable (op : PostOp) (s : State) : ∀ p ∈ Claims.copyTable, exec (p.1 op) s = postCopy (p.1 op) op p.2 0 none readDesc s := by
  simp only [Claims.copyTable, List.forall_mem_cons, List.not_mem_nil, false_imp_iff, implies_true, and_true]
  exact ⟨rfl, rfl, rfl, rfl, rfl, rfl, rfl, rfl, rfl⟩

/-- Settles O39: each instruction is postCopy of what it reads at issue, and the loads of a snapshot change no register (State.Aside). -/
theorem copyPosting : Obligations.CopyPosting := by
  intro s op x c ra hd
  have nothing : readValue none c = .ok (0, c) := rfl
  have chase : exec (.chase op) s = postCopy (.chase op) op .chase 3 none readPacket s := rfl
  have repart : exec (.repart op) s = postCopy (.repart op) op .repart 3 none readBlock s := rfl
  refine ⟨fun p hp legal => ?_, fun add b y c2 rb => ?_, fun full => ⟨fun legal => postCopy_waits chase ra nothing legal full, fun legal => postCopy_waits repart ra nothing legal full⟩,
    fun legal room => ⟨fun o h t b u window head steps => ?_, fun window => ?_⟩, fun legal room b t got => ?_⟩
  · have run := exec_copyTable op s p hp
    exact ⟨fun room b t got => postCopy_posts run ra nothing legal room hd got (State.aside_snapshot got), fun room q v stop => postCopy_traps run ra nothing legal room stop,
      postCopy_waits run ra nothing legal⟩
  · intro i legal
    have run : exec i s = postCopy i op (.cflag add) 0 (some b) (fun _ s _ => .ok ([], s)) s := by
      cases add <;> rfl
    exact ⟨fun room => postCopy_posts run ra rb legal room hd rfl (.refl _ _), postCopy_waits run ra rb legal⟩
  · exact postCopy_posts chase ra nothing legal room hd (readPacket_ok window head steps) ((State.aside_snapshot head).trans (State.aside_snapshot steps))
  · exact postCopy_traps chase ra nothing legal room (readPacket_prot window)
  · exact postCopy_posts repart ra nothing legal room hd got (State.aside_readBlock got)

end Sys2Proof.Machine
end

section
namespace Sys2Proof.Machine
open Sys2Proof

/-! ### A copy one unit of which moves ahead (R244, R247) -/

/-- The descriptor of a copy of one element of 8 bytes from place 0 of the local store window to place 8 (R246). -/
def aheadDesc : List Byte :=
  bytesOf 8 lsWin ++ bytesOf 8 (lsWin + 8) ++ bytesOf 8 (8 * 2 ^ 32 + 1) ++ bytesOf 4 1 ++ List.replicate 164 0

/-- A supervisor's CPY of that descriptor, on core 0, that nothing holds. -/
def aheadCmd : Cmd := newCmd 7 0 0 0 0 0 true 0 1 .cpy 0 0 0 aheadDesc

/-- The command stands alone, and the event asks that its unit 0 moves ahead of the others. -/
def aheadState : State := { State.reset with cmds := [aheadCmd], arg := { id := 7, q := true } }

theorem aheadCmd_free : Claims.Free aheadState aheadCmd := ⟨rfl, .inr ⟨rfl, rfl⟩⟩
theorem aheadDesc_one : Claims.OneElement .cpy aheadDesc 8 lsWin (lsWin + 8) := ⟨rfl, rfl, rfl, rfl, rfl, rfl, rfl, rfl, rfl, rfl⟩

/-- No store precedes the command. -/
theorem settleCmd_ahead : aheadState.settleCmd aheadCmd = some aheadState := rfl

/-- Source and destination are places 0 and 8 of core 0's local store. -/
theorem engAddr_ahead : aheadState.engAddr aheadCmd .load lsWin = .ok (.here (lsKey 0 0)) ∧ aheadState.engAddr aheadCmd .store (lsWin + 8) = .ok (.here (lsKey 0 8)) :=
  ⟨rfl, rfl⟩

theorem quiet_ahead : Claims.Quiet aheadState (lsKey 0 0) := ⟨rfl, rfl, rfl⟩

/-- The model moves the unit and leaves the command started. -/
theorem codesAfter_aheadState : codesAfter (exec .copyCommandComplete aheadState) = [0] := rfl

/-- Refutes O45: its clause of a copy of one element does not say that the event asks for the rest of the command (`arg.q` is false). Where it asks that one unit moves
ahead of the others (R244), the model moves that unit and leaves the command started, with the unit noted; the clause has the command complete. The clause of a
combination has the same gap. -/
theorem not_copyEvents : ¬ Obligations.CopyEvents := by
  intro h
  obtain ⟨events, -⟩ := h
  obtain ⟨-, -, -, copies, -⟩ := events aheadState aheadState aheadCmd rfl settleCmd_ahead
  have completes := copies 8 lsWin (lsWin + 8) (lsKey 0 0) (lsKey 0 8) aheadCmd_free rfl rfl rfl (by decide) aheadDesc_one rfl rfl engAddr_ahead.1 engAddr_ahead.2
    quiet_ahead rfl
  have gone : codesAfter (exec .copyCommandComplete aheadState) = [] := by
    rw [completes]
    rfl
  rw [codesAfter_aheadState] at gone
  exact absurd gone (by decide)

end Sys2Proof.Machine
end

section
namespace Sys2Proof.Machine
open Sys2Proof

/-! ### Steps of a chain (R262, R264, R371) -/

/-- Where no page under migration covers a byte, none queues a write to it (R350). -/
theorem State.holdAt_none {s : State} {k : Nat} (h : s.heldAt k = false) (fw : Bool) : s.holdAt fw k = none := by
  simp only [State.heldAt, List.any_eq_false, Bool.not_eq_true] at h
  exact List.find?_eq_none.2 fun x hx => by simp [h x hx]

/-- A chain that runs does its next step. -/
theorem exec_chaseStep_running {s u : State} {c : Cmd} (own : s.arg.q = false) (named : s.cmd s.arg.id = some c) (kind : c.kind = .chase) (phase : c.phase = .running)
    (free : s.cmdHeld c = false) (steps : s.originStep c = some u) : exec .chaseStep s = .next u := by
  change execChaseStep s = _
  simp [execChaseStep, runEvent, own, named, kind, phase, free, steps]

/-- A step at a place of this module that no migration holds gives its value, with which the chain goes on or ends (R262). -/
theorem State.originStep_val {s u : State} {c : Cmd} {pa : Nat} {y : Word} (place : s.engAddr c .load c.addr.toNat = .ok (.here pa)) (idle : s.chainBusy ((packetSteps c.snap).getD c.k 0) pa = false)
    (step : s.chainStep ((packetSteps c.snap).getD c.k 0) (BitVec.ofNat 64 (ofBytes ((c.snap.drop 16).take 8))) c.addr pa = .val y u) :
    s.originStep c = some (if c.k + 1 = (packetSteps c.snap).length then u.endChain c 0 0 y else u.setCmd { c with phase := .running, k := c.k + 1, addr := y }) := by
  have unqueued : (if stepLoads ((packetSteps c.snap).getD c.k 0) || decide (c.addr.toNat % 8 ≠ 0) then none else s.holdAt c.sup pa) = none := by
    unfold State.chainBusy at idle
    by_cases loads : stepLoads ((packetSteps c.snap).getD c.k 0) = true
    · rw [loads, Bool.true_or, if_pos rfl]
    · rw [if_neg loads] at idle
      rw [State.holdAt_none idle, ite_self]
  have quiet : (stepLoads ((packetSteps c.snap).getD c.k 0) && s.granuleBusy pa) = false := by
    unfold State.chainBusy at idle
    by_cases loads : stepLoads ((packetSteps c.snap).getD c.k 0) = true
    · rw [if_pos loads] at idle
      rw [idle, Bool.and_false]
    · rw [Bool.eq_false_iff.2 loads, Bool.false_and]
  have operand : snapWord c.snap 2 = ofBytes ((c.snap.drop 16).take 8) := rfl
  simp only [State.originStep, place, unqueued, quiet, operand, step, Bool.false_eq_true, reduceIte]
  split <;> rfl

section
variable {s : State} {x : BitVec 128} {v a : Word} {pa : Nat}

theorem stepOp_eq (x : BitVec 128) : stepOp x = (x.extractLsb' 96 8).toNat := by simp [stepOp, bits]
theorem stepMask_eq (x : BitVec 128) : BitVec.ofNat 64 (stepMask x) = x.extractLsb' 0 64 := by
  apply BitVec.eq_of_toNat_eq
  simp [stepMask]
theorem stepOff_eq (x : BitVec 128) : stepOff x = (x.extractLsb' 64 32).toInt := by
  rw [stepOff, ← sext_toNat]
  simp [bits]

variable (home : typeOfPa pa = some .cms ∨ typeOfPa pa = some .dev) (sound : s.poisoned pa = false)
include home sound

/-- A load step masks the value and adds its offset (R262). -/
theorem State.chainStep_load {n : Nat} (op : stepOp x = 1 ∧ n = 8 ∨ stepOp x = 2 ∧ n = 4) (aligned : a.toNat % n = 0) :
    s.chainStep x v a pa = .val (BitVec.ofInt 64 ((BitVec.ofNat 64 (s.rd pa n) &&& x.extractLsb' 0 64).toNat + (x.extractLsb' 64 32).toInt)) s := by
  have size : (if stepOp x = 2 then 4 else 8) = n := by rcases op with ⟨op, rfl⟩ | ⟨op, rfl⟩ <;> simp [op]
  have loads : stepLoads x = true := by rcases op with ⟨op, -⟩ | ⟨op, -⟩ <;> simp [stepLoads, op]
  rcases home with home | home <;>
    simp only [State.chainStep, home, size, aligned, sound, loads, stepMask_eq, stepOff_eq, wordOfInt, ne_eq, not_true_eq_false, Bool.false_eq_true, reduceIte]

/-- An addition leaves the sum and gives what stood there (R262). -/
theorem State.chainStep_add (op : stepOp x = 4) (aligned : a.toNat % 8 = 0) :
    s.chainStep x v a pa = .val (BitVec.ofNat 64 (s.rd pa 8)) (s.wr pa 8 (s.rd pa 8 + v.toNat)) := by
  have loads : stepLoads x = false := by simp [stepLoads, op]
  rcases home with home | home <;> simp [State.chainStep, home, op, aligned, sound, loads]
end

section
variable {s : State} {c : Cmd} {b : Bank} (named : s.cmd s.arg.id = some c) (kind : c.kind = .chase) (phase : c.phase = .finished) (free : s.cmdHeld c = false)
  (bank : (s.core c.core).bankOf c.launch = some b) (task : b.serial = c.serial) (inLocal : (ofBytes (c.snap.take 8)).testBit 31 = false)
include named kind phase free bank task inLocal

/-- Where a chain's result goes in the local store window (R264). -/
theorem exec_chaseResult {j k : Nat} (value : s.engAddr c .store (0x00FFFF0000000000 + ofBytes (c.snap.take 8) % 2 ^ 17) = .ok (.here j))
    (status : s.engAddr c .store (0x00FFFF0000000000 + ofBytes (c.snap.take 8) % 2 ^ 17 + 8) = .ok (.here k)) :
    exec .chaseResult s = .next (((s.writeCmd c (at_ j 8 c.v.toNat)).writeCmd c (at_ k 8 (chainStatus c.code c.cause c.hops c.k).toNat)).finishCmd c (decide (c.code ≠ 0))
      (decide (c.code = 4))) := by
  have w0 : snapWord c.snap 0 = ofBytes (c.snap.take 8) := rfl
  have port : bit (ofBytes (c.snap.take 8)) 31 = false := (bit_eq_testBit _ _).trans inLocal
  change execChaseResult s = _
  simp only [execChaseResult, runEvent, named, kind, phase, free, bank, task, w0, port, lsWin, value, status, BEq.rfl, Bool.not_true, Bool.or_self, Bool.false_eq_true, reduceIte, decide_true, Option.getD_some]

/-- A result that lies outside the allocation is LEASE, and nothing is written (R371). -/
theorem exec_chaseResult_lease (fine : c.code = 0) {q : Cause} (outside : s.engAddr c .store (0x00FFFF0000000000 + ofBytes (c.snap.take 8) % 2 ^ 17) = .error q) :
    exec .chaseResult s = .next (s.finishCmd { c with code := 2, cause := Cause.lease.code } true false) := by
  have w0 : snapWord c.snap 0 = ofBytes (c.snap.take 8) := rfl
  have port : bit (ofBytes (c.snap.take 8)) 31 = false := (bit_eq_testBit _ _).trans inLocal
  change execChaseResult s = _
  simp only [execChaseResult, runEvent, named, kind, phase, free, bank, task, w0, port, lsWin, outside, fine, BEq.rfl, Bool.not_true, Bool.or_self, Bool.false_eq_true, reduceIte, decide_true, Option.getD_some]
  rfl
end

end Sys2Proof.Machine
end

section
namespace Sys2Proof.Machine
open Sys2Proof

/-! ### A repartition runs (R258, R266, R268) -/

theorem Cmd.mayRun_iff (c : Cmd) : c.mayRun = true ↔ c.phase = .started ∨ (c.phase = .posted ∧ c.release = false) := by
  simp [Cmd.mayRun, or_comm]

section
variable {s t : State} {c : Cmd} (named : s.cmd s.arg.id = some c) (kind : c.kind = .repart) (begins : Claims.Free s c) (settled : s.settleCmd c = some t)
  (block : blockOk t.cfg.chip.toNat c.snap = true) (table : t.tableOk c = true)
include named kind begins settled block table

theorem exec_repartCollective_stale (stale : t.staleMember c = true) : exec .repartCollective s = .next (t.setCmd { c with phase := .finished, code := 6, got := [] }) := by
  obtain ⟨free, may⟩ := begins
  have collects : c.mayCollect = true := by rw [Cmd.mayCollect, c.mayRun_iff.2 may, Bool.true_or]
  change execRepartCollective s = _
  simp [execRepartCollective, runEvent, named, kind, free, collects, settled, block, table, stale]

/-- With every member there, no page held and no word of ITEMS on a peer, the collective is done (R268). -/
theorem exec_repartCollective_runs (known : t.staleMember c = false) (idle : t.repartBusy c = false) (here : t.repAsk c = [])
    (once : ∀ p, p < bits (ofBytes (c.snap.take 8)) 25 16 + 1 → p ≠ ofBytes (c.snap.take 8) % 2 ^ 10 → ∃ m, s.arg.members.filter (fun m => m.rank = p) = [m])
    (all : s.arg.members.length = bits (ofBytes (c.snap.take 8)) 25 16) :
    exec .repartCollective s = .next ((t.collective c s.arg.members).2.setCmd (t.collective c s.arg.members).1) := by
  obtain ⟨free, may⟩ := begins
  have collects : c.mayCollect = true := by rw [Cmd.mayCollect, c.mayRun_iff.2 may, Bool.true_or]
  have w0 : snapWord c.snap 0 = ofBytes (c.snap.take 8) := rfl
  have complete : ((List.range (bits (ofBytes (c.snap.take 8)) 25 16 + 1)).all fun p =>
      decide (p = ofBytes (c.snap.take 8) % 2 ^ 10) || decide ((s.arg.members.filter fun m => m.rank = p).length = 1)) = true := by
    simp only [List.all_eq_true, List.mem_range, Bool.or_eq_true, decide_eq_true_eq]
    intro p hp
    refine (em (p = _)).imp_right fun other => ?_
    obtain ⟨m, one⟩ := once p hp other
    rw [one]
    rfl
  change execRepartCollective s = _
  simp only [execRepartCollective, runEvent, named, kind, free, collects, settled, block, table, known, idle, here, w0, complete, all, List.isEmpty_nil, BEq.rfl, Bool.not_true,
    Bool.or_self, Bool.false_and, Bool.false_eq_true, reduceIte, Nat.add_sub_cancel, ne_eq, not_true_eq_false, decide_false, Option.getD_some]
end

/-- A member with another TAG ends the collective with MISMATCH, and nothing is written (R268). -/
theorem State.collective_mismatch {s : State} {c : Cmd} {ms : List RepMember} (differs : ∃ m ∈ ms, m.tag ≠ ofBytes (c.snap.take 8) / 2 ^ 32) :
    s.collective c ms = ({ c with phase := .finished, code := 3, cause := 0, faddr := 0, got := [] }, s) := by
  obtain ⟨m, hm, tag⟩ := differs
  have wrong : (m.tag != snapWord c.snap 0 / 2 ^ 32) = true := bne_iff_ne.2 tag
  unfold State.collective
  dsimp only
  rw [if_pos (List.any_eq_true.2 ⟨m, hm, by simp only [wrong, Bool.true_or]⟩)]
  rfl

/-! ### The order of items (R268) -/

/-- The order of items: key, rank, index. -/
def RepItem.Le (a b : RepItem) : Prop := a.key < b.key ∨ (a.key = b.key ∧ (a.rank < b.rank ∨ (a.rank = b.rank ∧ a.idx ≤ b.idx)))

theorem RepItem.before_iff (a b : RepItem) : a.before b = true ↔ a.Le b := by simp [RepItem.before, RepItem.Le]

theorem RepItem.Le.total {a b : RepItem} (h : ¬ a.Le b) : b.Le a := by
  unfold RepItem.Le at *
  omega

theorem RepItem.Le.trans {a b c : RepItem} (h : a.Le b) (h' : b.Le c) : a.Le c := by
  unfold RepItem.Le at *
  omega

theorem insertItem_perm (x : RepItem) (l : List RepItem) : (insertItem x l).Perm (x :: l) := by
  induction l with
  | nil => exact .refl _
  | cons y t ih =>
    rw [insertItem]
    split
    · exact .refl _
    · exact (ih.cons y).trans (.swap x y t)

theorem insertItem_sorted (x : RepItem) {l : List RepItem} (h : l.Pairwise RepItem.Le) : (insertItem x l).Pairwise RepItem.Le := by
  induction l with
  | nil => exact List.pairwise_singleton _ _
  | cons y t ih =>
    obtain ⟨first, rest⟩ := List.pairwise_cons.1 h
    rw [insertItem]
    split
    next before =>
      have le := (x.before_iff y).1 before
      refine List.pairwise_cons.2 ⟨fun z hz => ?_, h⟩
      rcases List.mem_cons.1 hz with rfl | hz
      · exact le
      · exact le.trans (first z hz)
    next behind =>
      refine List.pairwise_cons.2 ⟨fun z hz => ?_, ih rest⟩
      rcases List.mem_cons.1 ((insertItem_perm x t).subset hz) with rfl | hz
      · exact RepItem.Le.total (mt (z.before_iff y).2 behind)
      · exact first z hz

theorem sortItems_perm (l : List RepItem) : (sortItems l).Perm l := by
  induction l with
  | nil => exact .refl _
  | cons x t ih => exact (insertItem_perm x _).trans (ih.cons x)

theorem sortItems_sorted (l : List RepItem) : (sortItems l).Pairwise RepItem.Le := by
  induction l with
  | nil => exact .nil
  | cons x t ih => exact insertItem_sorted x ih

/-! ### What a member delivers (R269, R270) -/

/-- One write of an engine leaves what an answer is made of: the peers the module knows, and its own identity. -/
theorem State.ackTo_congr {s t : State} (peers : t.peers = s.peers) (cfg : t.cfg = s.cfg) (incarn : t.incarn = s.incarn) : t.ackTo = s.ackTo := by
  funext x ok poisoned data
  simp only [State.ackTo, State.cellTo, peers, cfg, incarn]

theorem State.engWrite_rest (s : State) (c : Cmd) (l : List (Nat × Byte)) (k va : Nat) :
    (s.engWrite c l k va).peers = s.peers ∧ (s.engWrite c l k va).cfg = s.cfg ∧ (s.engWrite c l k va).incarn = s.incarn := by
  have rest := ((s.writeCmd c l).aside_track c.core c.launch c.phasec true true k (BitVec.ofNat 64 va)).rest
  exact ⟨(congrArg State.peers rest :), (congrArg State.cfg rest :), (congrArg State.incarn rest :)⟩

/-- Eight bytes at an address that is a multiple of 8 are one word. -/
theorem repPieces_word {va : Nat} (aligned : va % 8 = 0) : repPieces va 8 = [(0, 8)] := by
  simp only [repPieces, aligned, reduceIte]
  rfl

/-- Where nothing migrates, no write to a place of this module waits (R350). -/
theorem State.vaBusy_here {s : State} {c : Cmd} {va k : Nat} (place : s.engAddr c .store va = .ok (.here k)) (idle : s.holds = []) : s.vaBusy c true va = false := by
  simp only [State.vaBusy, reduceIte, place, State.locBusy, State.holdAt, idle, List.find?_nil, Option.isSome_none]

section
variable {s : State} {c : Cmd} {va k : Nat} {data : List Byte} (aligned : va % 8 = 0) (word : data.length = 8) (place : s.engAddr c .store va = .ok (.here k))
include aligned place

theorem State.repFault_here : s.repFault c va 8 = none := by
  simp only [State.repFault, repPieces_word aligned, firstSome, Nat.add_zero, place]

include word

/-- A word that lies here is written by one write. -/
theorem State.repStore_here (idx : Nat) : s.repStore c va idx data = ([], s.engWrite c (data.mapIdx fun i b => (k + i, b)) k va) := by
  have whole : data.take 8 = data := List.take_of_length_le word.le
  simp only [State.repStore, word, repPieces_word aligned, List.foldl_cons, List.foldl_nil, Nat.add_zero, place, List.drop_zero, whole]
end

/-- An item of one word that is due goes to its place, and is acknowledged. -/
theorem State.takeItem_word {s : State} {c : Cmd} {x : Sys2Proof.Cell} {d : RepDue} {tag k va : Nat} {data : List Byte}
    (member_of : (s.cmds.find? fun c => c.kind == .repart && decide (ofBytes (c.snap.take 8) / 2 ^ 32 = tag) &&
      decide (ofBytes ((c.snap.drop (128 + 2 * d.rank)).take 2) = x.srcId.toNat)) = some c)
    (runs : c.code < 2) (hops : c.hops = 3) (free : s.cmdHeld c = false) (idle : s.holds = []) (due : d ∈ c.due) (off : d.off = 0)
    (only : ∀ e ∈ c.due, e.rank = d.rank → e.idx = d.idx → e.off = d.off → e = d) (size : ofBytes ((c.snap.drop 24).take 8) % 2 ^ 9 = 8) (word : data.length = 8)
    (at_va : ofBytes ((c.snap.drop 40).take 8) + d.pos * (ofBytes ((c.snap.drop 24).take 8) % 2 ^ 9) = va) (aligned : va % 8 = 0)
    (place : s.engAddr c .store va = .ok (.here k)) :
    s.takeItem x tag d.rank d.idx 0 data =
      some (((s.engWrite c (data.mapIdx fun i b => (k + i, b)) k va).setCmd { c with due := c.due.filter fun e => e ≠ d }).emit (s.ackTo x true false [])) := by
  have found : (c.due.find? fun e => e.rank = d.rank && e.idx = d.idx && e.off = 0) = some d := by
    obtain ⟨e, he⟩ : ∃ e, (c.due.find? fun e => e.rank = d.rank && e.idx = d.idx && e.off = 0) = some e :=
      Option.isSome_iff_exists.1 (List.find?_isSome.2 ⟨d, due, by simp [off]⟩)
    have same := List.find?_some he
    simp only [Bool.and_eq_true, decide_eq_true_eq] at same
    obtain ⟨⟨rank, idx⟩, zero⟩ := same
    rw [he, only e (List.mem_of_find?_eq_some he) rank idx (zero.trans off.symm)]
  have width : bits (snapWord c.snap 3) 8 0 = 8 := (bits_low _ 8).trans size
  have recv : snapWord c.snap 5 + d.pos * 8 = va := by
    rw [size] at at_va
    exact at_va
  have w0 (c : Cmd) : snapWord c.snap 0 = ofBytes (c.snap.take 8) := rfl
  have from_rank (c : Cmd) : snapAt c.snap (128 + 2 * d.rank) 2 = ofBytes ((c.snap.drop (128 + 2 * d.rank)).take 2) := rfl
  have pieces_free : ((repPieces va 8).any fun p => s.vaBusy c true (va + p.1)) = false := by
    rw [repPieces_word aligned]
    simp [State.vaBusy_here place idle]
  have acks : (s.engWrite c (data.mapIdx fun i b => (k + i, b)) k va).ackTo x true false [] = s.ackTo x true false [] := by
    obtain ⟨peers, cfg, incarn⟩ := s.engWrite_rest c (data.mapIdx fun i b => (k + i, b)) k va
    rw [State.ackTo_congr peers cfg incarn]
  have whole : ¬ 8 ≠ min 112 (8 - 0) := by decide
  have going : ¬ c.code ≥ 2 := Nat.not_le.2 runs
  simp only [State.takeItem, w0, from_rank, member_of, going, hops, free, found, width, recv, Nat.add_zero, word, whole, pieces_free, State.repFault_here aligned place,
    State.repStore_here aligned word place, List.map_nil, List.isEmpty_nil, List.reverse_nil, List.append_nil, ne_eq, not_true_eq_false, decide_false, Bool.or_self, Bool.false_eq_true, reduceIte]
  exact congrArg (fun a => some (State.emit _ a)) acks

/-! ### A repartition reports (R269, R270) -/

section
variable {s : State} {c : Cmd} (named : s.cmd s.arg.id = some c) (kind : c.kind = .repart)
  (ends : c.phase = .finished ∨ (c.phase = .waiting ∧ c.pend = [] ∧ c.hops = 3 ∧ c.due = [])) (answered : c.acks = []) (free : s.cmdHeld c = false)
  (idle : ∀ j, j < 4 → s.vaBusy c true (c.a.toNat + 64 + 8 * j) = false)
include named kind ends answered free idle

/-- The three counts and the code are written to the block (R269). -/
theorem exec_repartComplete {g : List Byte} (counts : (if c.code ≥ 2 then [] else (c.got.find? fun p => p.1 = 8).map (·.2) |>.getD []) = g) :
    exec .repartComplete s = .next (((((s.engPut c (c.a.toNat + 64) 8 (ofBytes (g.take 8))).engPut c (c.a.toNat + 72) 8 (ofBytes ((g.drop 8).take 8))).engPut c (c.a.toNat + 80) 8
      (ofBytes ((g.drop 16).take 8))).engPut c (c.a.toNat + 88) 8 c.code).finishCmd c (decide (c.code ≥ 2)) (decide (c.code = 5))) := by
  have closes : (c.phase == .finished || (c.phase == .waiting && c.pend.isEmpty && (decide (c.code ≥ 2) || (decide (c.hops = 3) && c.due.isEmpty)))) = true := by
    rcases ends with phase | ⟨phase, pend, hops, due⟩
    · simp [phase]
    · simp [phase, pend, hops, due]
  have unheld : ((List.range 4).any fun j => s.vaBusy c true (c.a.toNat + 64 + 8 * j)) = false :=
    List.any_eq_false.2 fun j hj => by simp [idle j (List.mem_range.1 hj)]
  subst counts
  change execRepartComplete s = _
  simp only [execRepartComplete, runEvent, named, kind, closes, free, unheld, answered, BEq.rfl, Bool.not_true, Bool.or_self, Bool.false_eq_true, reduceIte, List.foldl_nil, Option.getD_some]
  rfl
end

/-- The three counts of a report stand in it one behind the other. -/
theorem ofBytes_report {r e b : Nat} (hr : r < 2 ^ 64) (he : e < 2 ^ 64) (hb : b < 2 ^ 64) :
    let g := bytesOf 8 r ++ bytesOf 8 e ++ bytesOf 8 b
    ofBytes (g.take 8) = r ∧ ofBytes ((g.drop 8).take 8) = e ∧ ofBytes ((g.drop 16).take 8) = b := by
  have word (x : Nat) (hx : x < 2 ^ 64) : ofBytes (bytesOf 8 x) = x := (ofBytes_bytesOf 8 x).trans (Nat.mod_eq_of_lt hx)
  have len (x : Nat) : (bytesOf 8 x).length = 8 := length_bytesOf 8 x
  have two : (bytesOf 8 r ++ bytesOf 8 e).length = 16 := by rw [List.length_append, len, len]
  refine ⟨?_, ?_, ?_⟩
  · rw [List.append_assoc, List.take_left' (len r), word r hr]
  · rw [List.append_assoc, List.drop_left' (len r), List.take_left' (len e), word e he]
  · rw [List.drop_left' two, List.take_of_length_le (len b).le, word b hb]

/-- Settles O46: a step of a chain is State.originStep, a repartition State.collective, an item State.takeItem, and the order of items is that of an insertion sort. -/
theorem chainAndRepartEvents : Obligations.ChainAndRepartEvents := by
  refine ⟨fun s c pa y u own named kind phase free => ?_, fun s x v a pa home sound => ?_, fun s c b j k named kind phase free bank task => ?_,
    fun s c b named kind phase free bank task => ?_, fun s t c named kind begins settled block table => ?_, fun s c x d tag k data => ?_,
    fun l => ⟨sortItems_perm l, sortItems_sorted l⟩, fun s t c d ms run differs => ?_, fun s c r e b named kind ends answered free idle runs got hr he hb => ?_,
    fun s c named kind phase answered free idle failed => ?_⟩
  · intro x place idle step
    have steps := State.originStep_val place idle step
    refine ⟨fun more => ?_, fun last => ?_⟩
    · rw [if_neg more.ne] at steps
      exact exec_chaseStep_running own named kind phase free steps
    · rw [if_pos last] at steps
      exact exec_chaseStep_running own named kind phase free steps
  · intro mask off
    refine ⟨fun op aligned => ?_, fun op aligned => ?_, fun op aligned => ?_⟩
    · exact State.chainStep_load home sound (.inl ⟨by rw [stepOp_eq, op]; rfl, rfl⟩) aligned
    · exact State.chainStep_load home sound (.inr ⟨by rw [stepOp_eq, op]; rfl, rfl⟩) aligned
    · exact State.chainStep_add home sound (by rw [stepOp_eq, op]; rfl) aligned
  · intro w st inLocal value status
    exact exec_chaseResult named kind phase free bank task inLocal value status
  · rintro w inLocal fine ⟨q, outside⟩
    exact exec_chaseResult_lease named kind phase free bank task inLocal fine outside
  · exact ⟨exec_repartCollective_stale named kind begins settled block table, fun known idle here once all =>
      exec_repartCollective_runs named kind begins settled block table known idle here once all⟩
  · intro member_of runs hops free idle due off only isz va size word aligned place
    exact State.takeItem_word member_of runs hops free idle due off only size word rfl aligned place
  · rw [State.collective_mismatch differs, Prod.mk.injEq] at run
    exact ⟨run.1.symm, run.2.symm⟩
  · have counts : (if c.code ≥ 2 then [] else (c.got.find? fun p => p.1 = 8).map (·.2) |>.getD []) = bytesOf 8 r ++ bytesOf 8 e ++ bytesOf 8 b := by
      rw [if_neg (Nat.not_le.2 runs), got]
      rfl
    obtain ⟨first, second, third⟩ := ofBytes_report hr he hb
    rw [exec_repartComplete named kind ends answered free idle counts, first, second, third, decide_eq_false (Nat.not_le.2 runs), decide_eq_false (by omega)]
  · rw [exec_repartComplete named kind (.inl phase) answered free idle (if_pos failed), decide_eq_true failed]
    rfl

end Sys2Proof.Machine
end

section
namespace Sys2Proof.Machine
open Sys2Proof

/-! ### Cells that are served (R254, R258, R352) -/

@[simp] theorem State.wakeAll_cells (s : State) : s.wakeAll.cells = s.cells := rfl
@[simp] theorem State.emit_cells (s : State) (x : Sys2Proof.Cell) : (s.emit x).cells = s.cells ++ [x] := rfl

/-- A cell that passes the incarnation check does its work, and wakes the cores (R258). -/
theorem exec_fabricCellArrival_valid {s t : State} {x : Sys2Proof.Cell} (arrives : s.arg.cell = some x) (request : x.kind ≠ .announce) (valid : s.cellValid x = true)
    (served : s.serve x = some t) : exec .fabricCellArrival s = .next t.wakeAll := by
  change execFabricCellArrival s = _
  simp only [execFabricCellArrival, runEvent, arrives, request, valid, served, reduceIte, Option.map_some, Option.getD_some]

theorem exec_fabricCellArrival_announce {s t : State} {x : Sys2Proof.Cell} (arrives : s.arg.cell = some x) (news : x.kind = .announce)
    (learns : s.learnPeer x.srcId.toNat x.srcInc = some t) : exec .fabricCellArrival s = .next t := by
  change execFabricCellArrival s = _
  simp only [execFabricCellArrival, runEvent, arrives, news, learns, reduceIte, Option.getD_some]

section
variable {s : State} {x : Sys2Proof.Cell} {pa n : Nat} {data : List Byte}

theorem State.serve_write (kind : x.kind = .write pa data) (admitted : s.admitsAll x.srcId.toNat true pa data.length = true) (free : s.heldIn pa data.length = false) :
    s.serve x = some ((s.write (data.mapIdx fun j b => (pa + j, b))).emit (s.ackTo x true false [])) := by
  simp only [State.serve, kind, admitted, free, Bool.not_true, Bool.false_eq_true, reduceIte]

theorem State.serve_write_refused (kind : x.kind = .write pa data) (refused : s.admitsAll x.srcId.toNat true pa data.length = false) :
    s.serve x = some (s.emit (s.ackTo x false false [])) := by
  simp only [State.serve, kind, refused, Bool.not_false, reduceIte]

theorem State.serve_read (kind : x.kind = .read pa n) (admitted : s.admitsAll x.srcId.toNat false pa n = true) (idle : s.holds = []) (sound : s.poisonIn pa n = false) :
    s.serve x = some (s.emit (s.ackTo x true false ((List.range n).map fun j => s.byte (pa + j)))) := by
  have free : ((List.range n).any fun j => s.granuleBusy (pa + j)) = false := by simp [State.granuleBusy, idle]
  simp only [State.serve, kind, admitted, free, sound, Bool.not_true, Bool.false_eq_true, reduceIte]

/-- Bytes written side by side are read where they were written, and no other byte changes. -/
theorem State.byte_write_run (s : State) (pa : Nat) (data : List Byte) :
    (∀ j, j < data.length → (s.write (data.mapIdx fun j b => (pa + j, b))).byte (pa + j) = data.getD j 0) ∧
    ∀ a, a < pa ∨ pa + data.length ≤ a → (s.write (data.mapIdx fun j b => (pa + j, b))).byte a = s.byte a := by
  refine ⟨fun j hj => ?_, fun a out => s.byte_write_out _ _ fun p hp => ?_⟩
  · have apart : (data.mapIdx fun j b => (pa + j, b)).Pairwise fun p q => p.1 ≠ q.1 := by
      rw [List.pairwise_iff_getElem]
      intro i j hi hj h
      simp only [List.getElem_mapIdx]
      omega
    have listed : (pa + j, data.getD j 0) ∈ data.mapIdx fun j b => (pa + j, b) :=
      List.mem_mapIdx.2 ⟨j, hj, by rw [List.getD_eq_getElem _ _ hj]⟩
    exact s.byte_write_in _ _ listed apart
  · obtain ⟨j, hj, rfl⟩ := List.mem_mapIdx.1 hp
    change pa + j ≠ a
    omega
end

/-! ### Slots (R255 to R257) -/

theorem exec_fabricSlot_used {s : State} (used : s.time.toNat / 347 < SMap.get 0 s.slots s.arg.n) : exec .fabricSlot s = .next s := by
  change execFabricSlot s = _
  have used : s.slotNow < SMap.get 0 s.slots s.arg.n := used
  simp [execFabricSlot, runEvent, used]

section
variable {s : State} {c : Sys2Proof.Cell} {k : Nat} (port : s.arg.n < 18) (on : SMap.get 0 s.slots s.arg.n ≤ s.time.toNat / 347)
include port on

/-- The slot that is on carries the cell that may leave in it, once (R255). -/
theorem exec_fabricSlot_carries (leaves : s.slotCell (SMap.get 0 s.resv (s.arg.n * 64 + s.time.toNat / 347 % 64)).toNat s.arg.id = some k) (waits : s.cells[k]? = some c) :
    exec .fabricSlot s = .next { s with slots := SMap.set 0 s.slots s.arg.n (s.time.toNat / 347 + 1), cells := s.cells.eraseIdx k, sent := s.sent ++ [(s.arg.n, c)] } := by
  have unused : (decide (s.arg.n ≥ 18) || decide (s.slotNow < SMap.get 0 s.slots s.arg.n)) = false := by
    rw [Bool.or_eq_false_iff, decide_eq_false_iff_not, decide_eq_false_iff_not]
    exact ⟨Nat.not_le.2 port, Nat.not_lt.2 on⟩
  have leaves : s.slotCell (SMap.get 0 s.resv (s.arg.n * 64 + s.slotNow % 64)).toNat s.arg.id = some k := leaves
  change execFabricSlot s = _
  simp only [execFabricSlot, runEvent, unused, leaves, waits, Bool.false_eq_true, reduceIte, Option.getD_some]
  rfl
end

section
variable {s : State} {c : Sys2Proof.Cell} {k : Nat} {e : BitVec 16} (waits : s.cells[k]? = some c) (free : s.cellHeld c = false) (part : c.part = bits e.toNat 14 12)
include waits free part

/-- A reserved slot is for the oldest cell of its flow (R256). -/
theorem State.slotCell_reserved (reserved : e.getLsbD 15 = true) (flowing : c.flow ≠ 0) (flow : c.flow = e.extractLsb' 0 8)
    (oldest : ∀ j y, j < k → s.cells[j]? = some y → ¬ (y.part = c.part ∧ y.flow = c.flow ∧ s.cellHeld y = false)) (x : Nat) : s.slotCell e.toNat x = some k := by
  have flow_iff (y : Sys2Proof.Cell) : y.flow.toNat = e.toNat % 256 ↔ y.flow = c.flow := by
    rw [flow, ← BitVec.toNat_inj, BitVec.extractLsb'_toNat, Nat.shiftRight_zero]
  have here : k < s.cells.length := (List.getElem?_eq_some_iff.1 waits).1
  have set : bit e.toNat 15 = true := (bit_eq_testBit _ _).trans reserved
  simp only [State.slotCell, set, reduceIte]
  rw [List.find?_range_eq_some]
  refine ⟨?_, List.mem_range.2 here, fun j hj => ?_⟩
  · simpa [waits, part, (flow_iff c).2 rfl, free] using flowing
  · obtain ⟨y, hy⟩ : ∃ y, s.cells[j]? = some y := ⟨_, List.getElem?_eq_getElem (hj.trans here)⟩
    have other := oldest j y hj hy
    simp only [hy, flow_iff, ← part]
    grind

/-- Another slot is for the best-effort cell of its partition that the event names (R257). -/
theorem State.slotCell_bestEffort (unreserved : e.getLsbD 15 = false) (flow : c.flow = 0) : s.slotCell e.toNat k = some k := by
  have clear : bit e.toNat 15 = false := (bit_eq_testBit _ _).trans unreserved
  simp only [State.slotCell, clear, waits, part, flow, free, Bool.false_eq_true, reduceIte, Bool.not_false, and_self]
end

/-! ### A new incarnation of a peer (R258) -/

/-- What the news makes of one command is nothing, or its requests are withdrawn and the command is set. -/
theorem State.peerReset_cases (s : State) (chip : Nat) (o : Word) (c : Cmd) :
    s.peerReset chip o c = s ∨ ∃ asks stopped : Cmd, asks.id = c.id ∧ stopped.id = c.id ∧ s.peerReset chip o c = (s.withdraw asks).2.setCmd stopped := by
  unfold State.peerReset
  dsimp only
  split
  · split
    · refine .inr ⟨_, _, rfl, ?_, rfl⟩
      split <;> rfl
    · exact .inl rfl
  · split
    · refine .inr ⟨_, _, ?_, ?_, rfl⟩
      · split <;> rfl
      · exact (apply_ite Cmd.id _ _ _).trans (ite_self _)
    · exact .inl rfl
  · split
    · refine .inr ⟨_, _, ?_, ?_, rfl⟩
      · split <;> rfl
      · exact (apply_ite Cmd.id _ _ _).trans (ite_self _)
    · exact .inl rfl

/-- The news leaves what the module knows of its peers, and its own identity. -/
theorem State.peerReset_peers (s : State) (chip : Nat) (o : Word) (c : Cmd) : (s.peerReset chip o c).peers = s.peers ∧ (s.peerReset chip o c).cfg = s.cfg := by
  obtain same | ⟨asks, stopped, -, -, same⟩ := s.peerReset_cases chip o c <;> rw [same] <;> exact ⟨rfl, rfl⟩

/-- A state in which the module has heard of the new incarnation, before its commands have (R258). -/
def State.hears (s : State) (chip : Nat) (inc : BitVec 16) : State :=
  ({ s with peers := SMap.set {} s.peers chip { inc := inc, active := false }, parcels := s.parcels.filter fun y => y.srcId.toNat ≠ chip } : State).draw

/-- The state with every command told in its turn. -/
def State.tells (s : State) (chip : Nat) (o : Word) (l : List Cmd) : State := l.foldl (fun t c => t.peerReset chip o c) s

theorem State.tells_peers (s : State) (chip : Nat) (o : Word) (l : List Cmd) : (s.tells chip o l).peers = s.peers ∧ (s.tells chip o l).cfg = s.cfg :=
  List.foldlRecOn (motive := fun t : State => t.peers = s.peers ∧ t.cfg = s.cfg) l _ ⟨rfl, rfl⟩ fun t ⟨hp, hc⟩ c _ =>
    ⟨(t.peerReset_peers chip o c).1.trans hp, (t.peerReset_peers chip o c).2.trans hc⟩

theorem State.tells_mem (s : State) (chip : Nat) (o : Word) (l : List Cmd) : (s.tells chip o l).mem = s.mem := mem_foldl _ (fun _ _ => State.peerReset_mem ..) l s

theorem State.learnPeer_new {s : State} {chip : Nat} {inc : BitVec 16} (low : chip < 2 ^ 10) (other : chip ≠ s.cfg.chip.toNat)
    (new : (SMap.get {} s.peers chip).inc ≠ inc) : s.learnPeer chip inc = some ((s.hears chip inc).tells chip (Config.openWord s.fresh) s.cmds) := by
  simp only [State.learnPeer, ge_iff_le, Nat.not_le.2 low, other, new, decide_false, Bool.or_self, Bool.false_eq_true, reduceIte]
  rfl

theorem State.hears_peer (s : State) (chip : Nat) (inc : BitVec 16) : SMap.get {} (s.hears chip inc).peers chip = { inc := inc, active := false } := SMap.get_set_same ..
theorem State.hears_otherPeer (s : State) {chip j : Nat} (inc : BitVec 16) (h : j ≠ chip) : SMap.get {} (s.hears chip inc).peers j = SMap.get {} s.peers j :=
  SMap.get_set_other _ _ _ h

/-! ### A copy that waits for the peer (R242, R258) -/

/-- A command of this identity stands. -/
def State.Posted (s : State) (id : Nat) : Prop := ∃ e ∈ s.cmds, e.id = id

/-- The copy c has ended with PEERRESET: it awaits no answer of the peer, and no request of its is still to leave. -/
def State.Ended (s : State) (chip : Nat) (c : Cmd) : Prop :=
  (∃ d ∈ s.cmds, d.id = c.id ∧ d.code = 4 ∧ (∀ p ∈ d.pend, p ∈ c.pend ∧ p.2.1 ≠ chip) ∧ d.phase = if d.pend = [] then .finished else .waiting) ∧
    ∀ x ∈ s.cells, x.cmd = c.id → x.srcId = s.cfg.chip → cellAnswers x = true

theorem State.mem_setCmd {s : State} {d e : Cmd} : e ∈ (s.setCmd d).cmds ↔ (e = d ∧ s.Posted d.id) ∨ (e ∈ s.cmds ∧ e.id ≠ d.id) := by
  simp only [State.setCmd, mapIf, List.mem_map, State.Posted, decide_eq_true_eq]
  constructor
  · rintro ⟨x, hx, rfl⟩
    split
    · exact .inl ⟨rfl, x, hx, ‹_›⟩
    · exact .inr ⟨hx, ‹_›⟩
  · rintro (⟨rfl, x, hx, same⟩ | ⟨he, other⟩)
    · exact ⟨x, hx, if_pos same⟩
    · exact ⟨e, he, if_neg other⟩

/-- No request of the command that has withdrawn is still to leave. -/
theorem State.mem_withdraw {s : State} {c : Cmd} {x : Sys2Proof.Cell} :
    x ∈ (s.withdraw c).2.cells ↔ x ∈ s.cells ∧ (x.cmd = c.id → x.srcId = s.cfg.chip → cellAnswers x = true) := by
  simp only [State.withdraw, List.mem_filter, Bool.not_eq_true', Bool.and_eq_false_iff, Bool.not_eq_false', decide_eq_false_iff_not]
  tauto

section
variable {s : State} {chip : Nat} {o : Word} {c e : Cmd}

theorem State.Posted.peerReset {id : Nat} (h : s.Posted id) : (s.peerReset chip o e).Posted id := by
  obtain same | ⟨asks, stopped, -, named, same⟩ := s.peerReset_cases chip o e
  · rwa [same]
  · obtain ⟨x, hx, rfl⟩ := h
    rw [same]
    by_cases this : x.id = stopped.id
    · exact ⟨stopped, State.mem_setCmd.2 (.inl ⟨rfl, x, hx, this⟩), this.symm⟩
    · exact ⟨x, State.mem_setCmd.2 (.inr ⟨hx, this⟩), rfl⟩

/-- The news to another command leaves it ended. -/
theorem State.Ended.peerReset (h : s.Ended chip c) (other : e.id ≠ c.id) : (s.peerReset chip o e).Ended chip c := by
  obtain same | ⟨asks, stopped, asked, named, same⟩ := s.peerReset_cases chip o e
  · rwa [same]
  · obtain ⟨⟨d, hd, id, ends⟩, silent⟩ := h
    rw [same]
    exact ⟨⟨d, State.mem_setCmd.2 (.inr ⟨hd, fun this => other (named.symm.trans (this.symm.trans id))⟩), id, ends⟩, fun x hx => silent x (State.mem_withdraw.1 hx).1⟩

/-- The news ends a copy that waits for the peer. -/
theorem State.peerReset_ends (posted : s.Posted c.id) (copy : c.kind = .cpy) (waits : ∃ p ∈ c.pend, p.2.1 = chip) (kept : c.code ≠ 5) : (s.peerReset chip o c).Ended chip c := by
  have asks : (c.pend.any fun p => decide (p.2.1 = chip)) = true := by simpa using waits
  let quits : Cmd := { c with code := 4, cause := 0, faddr := 0 }
  let pend := (s.withdraw quits).1.pend.filter fun p => p.2.1 ≠ chip
  let d : Cmd := { (s.withdraw quits).1 with pend := pend, due := [], phase := if pend.isEmpty then .finished else .waiting }
  have told : s.peerReset chip o c = (s.withdraw quits).2.setCmd d := by
    have unabandoned : c.code ≠ c.kind.abandonCode := by rwa [copy]
    unfold State.peerReset
    dsimp only
    split
    next chase => exact nomatch copy.symm.trans chase
    next repart => exact nomatch copy.symm.trans repart
    next => rw [if_pos asks, if_neg unabandoned]
  rw [told]
  refine ⟨⟨d, State.mem_setCmd.2 (.inl ⟨rfl, posted⟩), rfl, rfl, fun p hp => ?_, ?_⟩, fun x hx => (State.mem_withdraw.1 hx).2⟩
  · obtain ⟨unsent, far⟩ := List.mem_filter.1 hp
    exact ⟨(List.mem_filter.1 unsent).1, by simpa using far⟩
  · change (if pend.isEmpty then _ else _) = if pend = [] then _ else _
    simp only [List.isEmpty_iff]

/-- The news to all of a list of commands, in which the copy is the only one of its identity, ends it. -/
theorem State.tells_ends {l : List Cmd} (copy : c.kind = .cpy) (waits : ∃ p ∈ c.pend, p.2.1 = chip) (kept : c.code ≠ 5) (only : ∀ e ∈ l, e.id = c.id → e = c)
    (posted : s.Posted c.id) (turn : c ∈ l ∨ s.Ended chip c) : (s.tells chip o l).Ended chip c := by
  induction l generalizing s with
  | nil => exact turn.resolve_left List.not_mem_nil
  | cons e l ih =>
    have only_l : ∀ x ∈ l, x.id = c.id → x = c := fun x hx => only x (List.mem_cons_of_mem _ hx)
    refine ih only_l posted.peerReset ?_
    by_cases this : e.id = c.id
    · obtain rfl := only e List.mem_cons_self this
      exact .inr (State.peerReset_ends posted copy waits kept)
    · rcases turn with listed | ended
      · rcases List.mem_cons.1 listed with rfl | listed
        · exact absurd rfl this
        · exact .inl listed
      · exact .inr (ended.peerReset this)
end

/-! ### Links (R374) -/

theorem State.bump_counted (s : State) (idx field top : Nat) : Claims.Counted s (s.bump idx field top) idx field top :=
  ⟨SMap.get_set_same .., fun _ _ apart => SMap.get_set_other _ _ _ apart, rfl⟩

theorem exec_linkRetrain {s : State} (link : s.arg.n < 20) : exec .linkRetrain s = .next (s.bump (0x4200 + s.arg.n) 0 (2 ^ 64 - 1)) := by
  change execLinkRetrain s = _
  simp only [execLinkRetrain, runEvent, ge_iff_le, Nat.not_le.2 link, reduceIte, Option.getD_some]

/-- Settles O52, an event at a time: a cell by State.serve, a slot by State.slotCell, and a new incarnation by the turn of each command in State.tells. -/
theorem fabricEvents : Obligations.FabricEvents := by
  refine ⟨fun s x arrives valid => ?_, fun s c k port => ?_, fun s x arrives news other new => ?_, fun s low other new => ?_, fun s => rfl,
    fun s link => ⟨_, exec_linkRetrain link, s.bump_counted _ _ _⟩⟩
  · refine ⟨fun pa data kind => ⟨fun admitted free => ?_, fun refused => ?_⟩, fun pa n kind admitted idle sound => ?_⟩
    · obtain ⟨inside, outside⟩ := s.byte_write_run pa data
      exact ⟨_, exec_fabricCellArrival_valid arrives (by simp [kind]) valid (State.serve_write kind admitted free), rfl, inside, outside⟩
    · exact ⟨_, exec_fabricCellArrival_valid arrives (by simp [kind]) valid (State.serve_write_refused kind refused), rfl, rfl⟩
    · exact ⟨_, exec_fabricCellArrival_valid arrives (by simp [kind]) valid (State.serve_read kind admitted idle sound), rfl, rfl⟩
  · intro now e
    refine ⟨exec_fabricSlot_used, fun on waits free part turn => ?_⟩
    have leaves : s.slotCell e.toNat s.arg.id = some k := by
      rcases turn with ⟨reserved, flowing, flow, oldest⟩ | ⟨unreserved, flow, rfl⟩
      · exact State.slotCell_reserved waits free part reserved flowing flow oldest _
      · exact State.slotCell_bestEffort waits free part unreserved flow
    have passed : SMap.get 0 (SMap.set 0 s.slots s.arg.n (now + 1)) s.arg.n = now + 1 := SMap.get_set_same ..
    exact ⟨_, exec_fabricSlot_carries port on leaves waits, rfl, rfl, passed, rfl⟩
  · have foreign : x.srcId.toNat ≠ s.cfg.chip.toNat := mt BitVec.eq_of_toNat_eq other
    refine ⟨_, exec_fabricCellArrival_announce arrives news (State.learnPeer_new x.srcId.isLt foreign new), ?_, State.tells_mem ..⟩
    rw [(State.tells_peers ..).1, State.hears_peer]
  · have learns : exec .incarnAnnouncement s = .next ((s.hears s.arg.id (BitVec.ofNat 16 s.arg.n)).tells s.arg.id (Config.openWord s.fresh) s.cmds) :=
      congrArg (fun r : Option State => Host.Outcome.next (r.getD s)) (State.learnPeer_new low other new)
    refine ⟨_, learns, ?_, fun j hj => ?_, fun c hc copy waits kept only => ?_⟩
    · rw [(State.tells_peers ..).1, State.hears_peer]
    · rw [(State.tells_peers ..).1, State.hears_otherPeer s _ hj]
    · have ended := State.tells_ends (s := s.hears s.arg.id (BitVec.ofNat 16 s.arg.n)) (o := Config.openWord s.fresh) copy waits kept only ⟨c, hc, rfl⟩ (.inl hc)
      rwa [State.Ended, (State.tells_peers ..).2] at ended

end Sys2Proof.Machine
end
